-- ==== Sys2Proof/Word.lean ====
section
/-!
DEFINITION. The word and byte types and the plain container types of the model.
-/

namespace Sys2Proof

/-- A 32-bit register word: every register of the spec is 32 bits wide (00_scope.md R12, 02_host_interface.md R52). -/
abbrev Word := BitVec 32

/-- A byte of a memory or of a request's payload (00_scope.md R9: little-endian in every multi-byte value). -/
abbrev Byte := BitVec 8

/-- A sparse table: keys strictly rising, no entry equal to what an absent key reads as.
Registers, memories and the instances of a block are such tables. -/
abbrev Tab (α : Type) := List (Nat × α)

end Sys2Proof
end

