-- ==== Sys2Proof/Syntax.lean ====
section
/-!
DEFINITION. The commands of the block: one constructor per row of spec/opcode_table.json, with the row's operands.
An operand is what its sender decides or what the outside world supplies (data read from the host, a measured
temperature, the touch amplitudes of a window); the block computes everything else.
-/

namespace Sys2Proof

/-- Who makes a register access: the host, with the PASID of its request if it carries one
(02_host_interface.md R66), or a control core in its present world (11_control_cores_and_the_protected_world.md R321, R337). -/
inductive Req where
  | host (pasid : Option (BitVec 20))
  | core (n : Fin 4)
deriving DecidableEq, Repr

/-- The configuration-space fields: the identity, the BARs, and the capabilities with their fields (02_host_interface.md R46,
R47, R49, R50, R90, R369; 16_power_resets_and_start_up.md R454, R459). `capability ext id` reads whether the capability of
that number is present, in the extended space where `ext` is set. Where each field lies PCI Express says (log 16). -/
inductive CfgField where
  | memorySpace | busMaster | msixEnable | functionMask | relaxedOrdering
  | timeoutValue | timeoutDisable | powerState | pmeEnable
  | vendorId | deviceId | revisionId | classCode | subsystemVendorId | subsystemId | interruptPin
  | bar (n : Fin 6)
  | maxPayloadSupported | maxPayload | maxReadRequest | tenBitTagSupported | tenBitTagEnable
  | maxLinkSpeed | maxLinkWidth | linkSpeed | linkWidth | aspmSupport | aspmControl | l1Substates | l1SubstatesEnable
  | timeoutRanges | flrCapable | initiateFlr | ltrEnable
  | pasidWidth | pasidExecute | pasidPrivileged | pasidEnable
  | msixTableSize | msixTable | msixPba
  | pmeSupport | pmeStatus | aerUnsupported | aerAdvisory
  | capability (ext : Bool) (id : Nat)
deriving DecidableEq, Repr

/-- What a register access addresses: a BAR0 offset (for a core, core address 0x2000_0000 + offset), a BAR4 offset
(the MSI-X table and pending-bit array, 02_host_interface.md R50), or a configuration-space field. -/
inductive Target where
  | bar0 (off : Nat)
  | bar4 (off : Nat)
  | config (f : CfgField)
  /-- a control and status register of the core that asks (11_control_cores_and_the_protected_world.md R324, R325) -/
  | csr (n : BitVec 12)
deriving DecidableEq, Repr

/-- A host access through BAR2 (02_host_interface.md R53, R54): a read of a length or a write of bytes, whose payload may be
poisoned. -/
inductive Bar2Op where
  | read (len : Nat)
  | write (data : List Byte) (poisoned : Bool)
deriving DecidableEq, Repr

/-- The completion of a module read (02_host_interface.md R48). -/
inductive DmaRes where
  | ok (data : List Byte)
  | ur | ca
  | poisoned
deriving DecidableEq, Repr

/-- The eight arguments and the two flags of a command (02_host_interface.md R70, SLC_CMD_OP). -/
structure CmdArgs where
  words : List Word
  fence : Bool
  noInt : Bool
deriving DecidableEq, Repr

/-- What comes of one sending of an AUX transaction (07_scanout_and_display_links.md R231, OUT_AUX_CMD.result): a reply, with
DEFER, which is retried, or none. `deferLimit` stands for a DEFER after the last retry. -/
inductive AuxResult where
  | ack | nack | defer | deferLimit | timeout | hpdLow | i2cNack
deriving DecidableEq, Repr

/-- What the display answers to the capability reads of R227: its largest rate code, its largest lane count,
and in eDP mode its link-rate table, highest first (07_scanout_and_display_links.md R227). -/
structure SinkCaps where
  maxRate : Nat
  maxLanes : Nat
  rates : List Nat
deriving DecidableEq, Repr

/-- The window of one panel that ends at a scan tick, as its receive front end sampled it: row r holds the samples x[j] of
receive index r (09_capacitive_touch.md R263). They come from the glass; a sample that is not listed is 0 (log 20). -/
structure TouchFrame where
  panel : Fin 8
  samples : List (List (BitVec 16))
deriving DecidableEq, Repr

/-- The data bytes that an accelerometer port clocks in at a loop tick, in order; a one-byte poll uses the first
(10_haptic_and_acoustic_feedback.md R299). -/
structure AccPoll where
  ch : Fin 8
  b0 : BitVec 8
  b1 : BitVec 8
deriving DecidableEq, Repr

/-- What a read finds in a block besides its stored mark (13_memory_controller.md R379, R380, R382, R384). -/
inductive EccRes where
  | clean | corrected | uncorrectable
deriving DecidableEq, Repr

/-- The DRAM blocks in which the reads of a command find an uncorrectable or a correctable error that no stored mark holds
(13_memory_controller.md R379). -/
structure Ecc where
  ue : List Nat := []
  ce : List Nat := []
deriving DecidableEq, Repr

/-- What a refresh command does (13_memory_controller.md R388). -/
inductive RefreshAct where
  | due        -- an interval ends and the refresh is issued
  | postpone   -- an interval ends and the refresh is postponed
  | pullIn     -- a postponed refresh is issued early
deriving DecidableEq, Repr

/-- A requester of DRAM that can be struck and throttled (13_memory_controller.md R391, R392), or the real-time port. -/
inductive DramReq where
  | core (n : Fin 4)
  | slice (e : Fin 4) (s : Fin 256)
  | bar2
  | realTime
  | mirror
  | touchRing
  | scrub (demand : Bool)
deriving DecidableEq, Repr

/-- The kinds of a core's memory access (11_control_cores_and_the_protected_world.md R321). -/
inductive AccessKind where
  | fetch (len : Nat)
  | load (len : Nat)
  | store (data : List Byte)
deriving DecidableEq, Repr

/-- An event of a control core: a memory access, cached or not, that acts or takes an access fault; another RISC-V exception with
its cause and mtval; an external interrupt; MRET, WFI or FENCE.I (11_control_cores_and_the_protected_world.md R321, R332, R339,
R343; 12_interrupt_delivery.md R360, R365; 13_memory_controller.md R371, R382). -/
inductive CoreExc where
  | access (a : Word) (k : AccessKind) (cached : Bool) (ecc : Ecc)
  | other (cause : Nat) (tval : Word)
  /-- an external interrupt, if one is due and not masked (12_interrupt_delivery.md R360) -/
  | interrupt
  | mret
  | wfi
  | fenceI
deriving DecidableEq, Repr

/-- What a WRITE_REG does (15_pairs_and_live_insertion.md R428, R430, R451): the write of a register, the read that clears its
read-clear fields, or the copy of its state in a catch-up. -/
inductive RegMsg where
  | write | readClear | copy
deriving DecidableEq, Repr

/-- The header of a received haul-link frame (15_pairs_and_live_insertion.md R425). -/
structure FrameHdr where
  seq : BitVec 24
  nak : Bool
  ackT : BitVec 24
  ackB : BitVec 24
deriving DecidableEq, Repr

/-- A touch contact or candidate (09_capacitive_touch.md R280 to R290). -/
structure Contact where
  confirmed : Bool
  node : Nat
  pos : Int × Int
  count : Nat
  miss : Nat
  /-- 0 to 255 a slice, 256 the protected world, 257 nobody -/
  owner : Nat
  layer : Nat
  seq : Nat
  anchor : Int × Int
  rest : Nat
  /-- x16, y16, peak d and node count of the last record written -/
  last : Option (Int × Int × Nat × Nat)
  downDropped : Bool
  /-- output position of the latest scan, in 1/16 pixel -/
  out : Int × Int
  d : Int
  nodes : Nat
deriving DecidableEq, Repr

/-- What a TOUCH_STATE carries of a panel (15_pairs_and_live_insertion.md R428). -/
structure TouchMirror where
  base : List Int
  delta : List Int
  contacts : List (Nat × Contact)
deriving DecidableEq, Repr

/-- What a HAPTIC_STATE carries of one channel (15_pairs_and_live_insertion.md R428). -/
structure HapMirror where
  ch : Fin 8
  st : Nat
  out : Nat
  a : Int
  integ : Int
  play : Nat
deriving DecidableEq, Repr

/-- A completion or event record (02_host_interface.md R81) before it has a ring position. -/
structure Rec where
  handle : Nat
  status : Nat
  opcode : Nat
  event : Bool
  time : Nat
  result : List Byte
  noInt : Bool
deriving DecidableEq, Repr

/-- One decision of the primary (15_pairs_and_live_insertion.md R430). The payload beyond the table's words is
internal to the module (log 40). -/
inductive PairDecision where
  | commandIssued (sp : Fin 257) (handle op : Nat) (words : List Word) (fence noInt : Bool)
  | commandRefused (sp : Fin 257) (status : Nat)
  | entryTaken (sp : Fin 257) (head : Word)
  | identifierIssued (s : Fin 256) (ident : Nat) (w h fmt colour : Nat)
  | versionAllocated (s : Fin 256) (ident vid unit0 units : Nat)
  | versionCurrent (s : Fin 256) (ident vid : Nat)
  | verdict (o : Fin 8) (accepted : Bool) (reason : Nat)
  | superseded (o : Fin 8) (handle : Nat)
  | shedSet (o : Fin 8) (slots : List Nat)
  | causes (bits : BitVec 5)
  | recordWritten (sp : Fin 257) (n : Word) (r : Rec)
  | touchReport (s : Fin 256) (tail : BitVec 16)
  | dirtyLog (s : Fin 256) (tail : Word)
  | flr
deriving DecidableEq, Repr

/-- What starts a planned handover (15_pairs_and_live_insertion.md R449). -/
inductive HandoverCause where
  | request (r : Req)   -- a write of PAIR_CTRL.handover
  | yieldFault          -- the primary yields for a module fault (R445, 0x3)
  | modEnFall
deriving DecidableEq, Repr

/-- The commands: one constructor per row of spec/opcode_table.json, in the table's order. -/
inductive Instr where
  /-- REGISTER_WRITE (R12). A write to a register field that has no row of its own takes effect according to its access code, lock and reserved-value rules. -/
  | registerWrite (r : Req) (t : Target) (data : List Byte) (poisoned : Bool)
  /-- BAR2_ACCESS (R54). A host access through the surface aperture reaches module DRAM, or is refused, denied or poisoned. -/
  | bar2Access (r : Req) (off : Nat) (acc : Bar2Op) (ecc : Ecc)
  /-- STATION_TIME_READ (R29). A read of the low word of station time returns bits 31:0 and latches bits 63:32 for the same requester. -/
  | stationTimeRead (r : Req)
  /-- SOFT_RESET (R62). A write of PAGE_CTRL.soft_reset starts a block soft reset, during which block registers read 0 and ignore writes. -/
  | softReset (r : Req) (page : Fin 8192)
  /-- SOFT_RESET_DONE (R505). A block soft reset completes within 100 us and returns the page's block registers to their reset values except those kept. -/
  | softResetDone (page : Fin 8192)
  /-- PAGE_EVENT_FORCE (R64). A write of PAGE_EVENT_FORCE sets the PAGE_EVENT bits written as 1 as if the events had occurred. -/
  | pageEventForce (r : Req) (page : Fin 8192) (v : Word)
  /-- PAGE_EVENT_CLEAR (R368). A W1C write to PAGE_EVENT clears bits and sends a new message if set bits were cleared and the output stays 1. -/
  | pageEventClear (r : Req) (page : Fin 8192) (v : Word)
  /-- MSIX_PENDING_SEND (R369). When a vector can send again after its mask or Bus Master Enable clears, its pending message is sent and the pending bit clears. -/
  | msixPendingSend (vec : Fin 2048)
  /-- MODERATION_INTERVAL_END (R370). At the end of a vector's moderation interval, the merged message that fell due is sent. -/
  | moderationIntervalEnd (vec : Fin 2048)
  /-- PAGE_OWNER_WRITE (R103). A host write to PAGE_OWNER grants, takes, withdraws or gives back an owned block when its locks allow. -/
  | pageOwnerWrite (r : Req) (page : Fin 4096) (v : Word)
  /-- DMA_READ_COMPLETION (R48). A completion for a module read arrives from the host with data, Unsupported Request, Completer Abort or poisoned data. -/
  | dmaReadCompletion (tag : Nat) (res : DmaRes)
  /-- COMPLETION_TIMEOUT (R49). The completion timer of a module read expires and the issuing operation ends with DMA_TIMEOUT. -/
  | completionTimeout (tag : Nat)
  /-- SURF_IMPORT (R135). A SURF_IMPORT command creates or fills a surface version from host memory through the haul engines. -/
  | surfImport (r : Req) (s : Fin 256) (a : CmdArgs)
  /-- SURF_EXPORT (R139). A SURF_EXPORT command writes a surface's current version to host memory through the haul engines. -/
  | surfExport (r : Req) (s : Fin 256) (a : CmdArgs)
  /-- SURF_RELEASE (R143). A SURF_RELEASE command makes an identifier stale at once and completes when its last version is freed. -/
  | surfRelease (r : Req) (s : Fin 256) (a : CmdArgs)
  /-- COMMIT (R155). A COMMIT command snapshots the slice's shadow configuration for an output and queues it for the fit check. -/
  | commit (r : Req) (s : Fin 256) (a : CmdArgs)
  /-- CV_SEED (R239). A CV_SEED command feeds a host buffer through a check-value unit and returns its running and final values. -/
  | cvSeed (r : Req) (sp : Fin 257) (a : CmdArgs)
  /-- NOP (R71). A NOP command completes with OK once issued, or once every earlier command has completed if fence is set. -/
  | nop (r : Req) (sp : Fin 257) (a : CmdArgs)
  /-- SLICE_CAPTURE (R117). A SLICE_CAPTURE station command writes a capture blob of a slice's state into a host buffer. -/
  | sliceCapture (r : Req) (a : CmdArgs)
  /-- SLICE_RESTORE (R121). A SLICE_RESTORE station command checks a capture blob and applies it to a frozen slice. -/
  | sliceRestore (r : Req) (a : CmdArgs)
  /-- FLOOR_LOAD (R254). A FLOOR_LOAD station command loads a floor-image blob from host memory into an output's floor slot. -/
  | floorLoad (r : Req) (a : CmdArgs)
  /-- RESERVED_OPCODE (R71). A command with a reserved or unavailable opcode is refused at issue with BAD_OPCODE. -/
  | reservedOpcode (r : Req) (sp : Fin 257) (op : Fin 256) (a : CmdArgs)
  /-- SQ_DOORBELL (R72). A write of SLC_SQ_TAIL makes new submission entries available, or sets the ring error if too far ahead. -/
  | sqDoorbell (r : Req) (sp : Fin 257) (v : Word)
  /-- SUBMISSION_ENTRY (R75). A fetched submission entry is taken, its status and handle written back, and SLC_SQ_HEAD advanced. -/
  | submissionEntry (sp : Fin 257)
  /-- HANDLE_QUERY (R78). A write of SLC_HANDLE_QUERY selects a handle whose outstanding state is then returned. -/
  | handleQuery (r : Req) (sp : Fin 257) (v : Word)
  /-- CQ_ENABLE (R80). Setting SLC_CQ_CTRL.enable starts the completion ring and sets its head and tail to 0. -/
  | cqEnable (r : Req) (sp : Fin 257) (v : Word)
  /-- CQ_DISABLE (R85). Clearing SLC_CQ_CTRL.enable takes effect only with nothing outstanding, held or unconsumed, otherwise sets disable_refused. -/
  | cqDisable (r : Req) (sp : Fin 257) (v : Word)
  /-- CQ_HEAD_WRITE (R85). A write of SLC_CQ_HEAD consumes records if within range, otherwise sets head_error. -/
  | cqHeadWrite (r : Req) (sp : Fin 257) (v : Word)
  /-- DATA_LINK_DOWN (R90). The PCI Express data link goes down: slices become detached, transfers end with LINK_LOST and records are held. -/
  | dataLinkDown
  /-- DATA_LINK_UP (R90). The data link comes back up and the host re-enumerates while slices stay detached. The link has
  trained at 2.5, 5, 8, 16 or 32 GT/s and on 2^width lanes (R46). -/
  | dataLinkUp
  /-- REATTACH (R91). A write of HIF_LINK_CTRL.reattach writes held records and returns every detached slice to its former state. -/
  | reattach (r : Req) (v : Word)
  /-- BIND (R99). The BIND slice command binds an unbound slice to a unique nonzero PASID. -/
  | bind (r : Req) (s : Fin 256)
  /-- RESET (R106). The RESET slice command starts a slice reset that ends the slice's activities as the reset table gives. -/
  | reset (r : Req) (s : Fin 256) (discard : Bool)
  /-- UNBIND (R100). The UNBIND slice command resets the slice, withdraws its grants and returns it to UNBOUND. -/
  | unbind (r : Req) (s : Fin 256) (discard : Bool)
  /-- FREEZE (R111). The FREEZE slice command stops taking commands and lets those issued drain. -/
  | freeze (r : Req) (s : Fin 256)
  /-- THAW (R112). The THAW slice command returns a frozen slice to BOUND, writing held records, or completes a restore. -/
  | thaw (r : Req) (s : Fin 256)
  /-- RESERVED_SLICE_COMMAND (R97). A write of a reserved slice command, or one not allowed in the state, has no effect or sets last_error. -/
  | reservedSliceCommand (r : Req) (s : Fin 256) (v : Word)
  /-- RESET_END (R109). A slice reset ends once no request is outstanding, records are written or dropped and the removal tick has passed. -/
  | resetEnd (s : Fin 256)
  /-- FREEZE_COMPLETE (R111). A freezing slice becomes FROZEN once no command is in progress and its records and log entries are written. -/
  | freezeComplete (s : Fin 256)
  /-- SLC_ADM_PERM_WRITE (R105). A write of SLC_ADM_PERM makes one grant or withdrawal per changed bit, in ascending order. -/
  | slcAdmPermWrite (r : Req) (s : Fin 256) (v : Word)
  /-- SLC_ADM_MIG_WRITE (R110). A write of the migration method takes effect only while BOUND and uncaptured, otherwise sets last_error 0x4. -/
  | slcAdmMigWrite (r : Req) (s : Fin 256) (v : Word)
  /-- GRANT_QUERY (R102). A write of SLC_GRANT_QUERY selects a kind and ordinal whose granted block is then described. -/
  | grantQuery (r : Req) (s : Fin 256) (v : Word)
  /-- SLC_ADM_MAP (R102). A write of SLC_ADM_MAP selects a kind and ordinal whose global instance is then returned. -/
  | slcAdmMap (r : Req) (s : Fin 256) (v : Word)
  /-- DLOG_ENABLE (R113). Setting the dirty-log enable under LOGGED starts the log and sets its head and tail to 0. -/
  | dlogEnable (r : Req) (s : Fin 256) (v : Word)
  /-- DLOG_HEAD_WRITE (R116). A write of the dirty-log head frees space and lets stalled writes proceed. -/
  | dlogHeadWrite (r : Req) (s : Fin 256) (v : Word)
  /-- HAUL_SEGMENT_DONE (R145). A haul engine finishes a segment and takes the next one the arbiter picks. -/
  | haulSegmentDone (e : Fin 4) (ecc : Ecc)
  /-- SRF_QUERY (R128). A write of SRF_QUERY_ID runs a query returning a surface's descriptor, lease state and DRAM offset. -/
  | srfQuery (r : Req) (v : Word)
  /-- FIT_CHECK_TAKE_UP (R157). An idle fit checker takes up the entry at the head of its output's queue and binds named surfaces. -/
  | fitCheckTakeUp (o : Fin 8)
  /-- FIT_CHECK_VERDICT (R172). The fit checker reaches a verdict within 250 us, accepting or refusing the commit or share write. -/
  | fitCheckVerdict (o : Fin 8)
  /-- BPL_SHARE_WRITE (R164). A write of BPL_SHARE enters the output's checker queue and is tested when taken up. -/
  | bplShareWrite (r : Req) (o : Fin 8) (v : Word)
  /-- CAPACITY_REDUCTION_APPLY (R176). Once plans for reduced capacity are in use on every running output, the reduction is applied at its source. -/
  | capacityReductionApply
  /-- BPL_RB_SNAP (R178). A write of BPL_RB_CTRL.snap takes a complete snapshot of the plan in use or the next plan. -/
  | bplRbSnap (r : Req) (o : Fin 8) (v : Word)
  /-- LYR_ASSIGN_WRITE (R179). A write of LYR_ASSIGN assigns an unowned slot to an output and position, or is refused. -/
  | lyrAssignWrite (r : Req) (n : Fin 64) (v : Word)
  /-- SLC_LYR_SEL_WRITE (R184). A write of the layer selection register selects a word and, for the latched bank, takes a snapshot. -/
  | slcLyrSelWrite (r : Req) (s : Fin 256) (v : Word)
  /-- SLC_LYR_DATA_WRITE (R184). A write of the layer data register writes the selected shadow word and advances the word index. -/
  | slcLyrDataWrite (r : Req) (s : Fin 256) (v : Word)
  /-- LAYER_CLEAR (R185). The clear operation of SLC_LYR_CTRL sets the selected shadow image to its reset values. -/
  | layerClear (r : Req) (s : Fin 256)
  /-- LAYER_COPY (R185). The copy operation of SLC_LYR_CTRL copies the latched image into the shadow image. -/
  | layerCopy (r : Req) (s : Fin 256)
  /-- CAPSTONE_COMMIT (R203). A write of LYR_CAP_CTRL.commit snapshots a capstone image, checks its source and queues it for the fit check. -/
  | capstoneCommit (r : Req) (n : Fin 64)
  /-- FRAME_TICK (R32). At an output's latch line the frame counter increments, commits latch, the next plan comes into use and verdicts take effect. -/
  | frameTick (o : Fin 8)
  /-- LINE_START (R206). The timing generator starts a line, composing and sending its pixels and feeding taps and regions. -/
  | lineStart (o : Fin 8) (late : Option Nat) (ecc : Ecc)
  /-- OUTPUT_RUN (R208). A write of OUT_CTRL.run = 1 validates the timing and starts the display PLL, or is refused with bad_timing. -/
  | outputRun (r : Req) (o : Fin 8) (v : Word)
  /-- OUTPUT_START (R210). Once the display PLL locks, the timing generator starts at the latch line with the output's first frame tick. -/
  | outputStart (o : Fin 8)
  /-- OUTPUT_STOP (R211). A write of OUT_CTRL.run = 0 stops the output at its next tick, refusing queued commits, or is refused. -/
  | outputStop (r : Req) (o : Fin 8) (v : Word)
  /-- TX_ENABLE (R227). Setting tx lets the transmitter bring up the link by training or by the fixed sequence. -/
  | txEnable (r : Req) (o : Fin 8) (v : Word)
  /-- TX_DISABLE (R233). Clearing tx ends the link at once and puts the main link lanes in electrical idle. -/
  | txDisable (r : Req) (o : Fin 8) (v : Word)
  /-- HPD_PLUG (R230). A debounced high HPD level is a plug and starts capability reads and training. -/
  | hpdPlug (o : Fin 8)
  /-- HPD_UNPLUG (R230). A long low HPD level is an unplug that stops video and sets WAIT_HPD. -/
  | hpdUnplug (o : Fin 8)
  /-- IRQ_HPD (R230). A short low HPD pulse reads the link status and retrains if the link has been lost. -/
  | irqHpd (o : Fin 8) (lost : Bool)
  /-- TRAINING_ATTEMPT_DONE (R227). A link training attempt ends, leading to video, a lower rate or width, or FAILED. -/
  | trainingAttemptDone (o : Fin 8) (ok : Bool) (drive : BitVec 16) (sink : SinkCaps)
  /-- FIXED_SEQUENCE_DONE (R232). After the fixed-mode training patterns, eDP fixed mode sends video from the next frame. -/
  | fixedSequenceDone (o : Fin 8)
  /-- AUX_TRANSACTION (R231). A write of OUT_AUX_CMD.start runs one software AUX transaction once the module's own AUX work is idle. -/
  | auxTransaction (r : Req) (o : Fin 8) (v : Word)
  /-- AUX_TRANSACTION_DONE (R231). An AUX transaction ends with a reply, a DEFER limit or a timeout and reports its result. -/
  | auxTransactionDone (o : Fin 8) (result : AuxResult) (data : List Byte)
  /-- PIXEL_CLOCK_RETUNE_DONE (R411). The timing generator restarts after its display PLL has retuned for a new pixel clock. -/
  | pixelClockRetuneDone (o : Fin 8)
  /-- CVU_CONFIG_WRITE (R238). A write to a unit's configuration or running value takes effect only while the unit is idle, otherwise sets write_refused. -/
  | cvuConfigWrite (r : Req) (n : Fin 32) (reg : Fin 5) (v : Word)
  /-- SLC_CV_SEL_WRITE (R241). A write of SLC_CV_SEL selects a region or unit word and snapshots latched images or results. -/
  | slcCvSelWrite (r : Req) (s : Fin 256) (v : Word)
  /-- FLOOR_SRC_LOAD (R255). A write of OUT_FLOOR_SRC.start loads a floor-image blob from protected DRAM. -/
  | floorSrcLoad (r : Req) (o : Fin 8) (v : Word)
  /-- FLOOR_COPY_DONE (R255). A floor load finishes copying and checking its blob, failing at once if invalid. -/
  | floorCopyDone (o : Fin 8) (ecc : Ecc)
  /-- TCP_PIN_CFG_WRITE (R258). A write of TCP_PIN_CFG allots a pin while the panels involved are disabled, otherwise is refused. -/
  | tcpPinCfgWrite (r : Req) (v : Word)
  /-- PANEL_ENABLE (R259). Setting a panel's enable checks its allotment and hop set and compiles its first scan plan, or sets bad_config. -/
  | panelEnable (r : Req) (n : Fin 8)
  /-- PANEL_DISABLE (R266). Clearing a panel's enable stops it at the next scan tick, ending its contacts. -/
  | panelDisable (r : Req) (n : Fin 8)
  /-- STATION_TICK (R27). A station tick drives touch scans, scan-plan changes, hit-testing and reflex evaluation. -/
  | stationTick (frames : List TouchFrame)
  /-- STATION_TICK_RATE_CHANGE (R33). A pending station tick rate takes effect at the next multiple of 4,000,000 ns. -/
  | stationTickRateChange
  /-- CAPTURE_REF (R273). A write of TCH_CTRL.capture_ref requests a reference capture at the next suitable scan. -/
  | captureRef (r : Req) (n : Fin 8)
  /-- REBASE (R276). A write of TCH_CTRL.rebase requests a whole-panel rebase at the next scan. -/
  | rebase (r : Req) (n : Fin 8)
  /-- TCH_RB_SNAP (R267). A write of TCH_RB_CTRL.snap takes a snapshot of a scan plan. -/
  | tchRbSnap (r : Req) (n : Fin 8) (v : Word)
  /-- TCH_DIAG_SEL_WRITE (R184). A write of TCH_DIAG_SEL takes a snapshot of the last completed scan for read-back. -/
  | tchDiagSelWrite (r : Req) (n : Fin 8) (v : Word)
  /-- LOOP_TICK (R302). At a loop tick each haptic channel polls, computes its output and applies stops, starts and budgets. -/
  | loopTick (polls : List AccPoll) (rail : BitVec 12)
  /-- HAPTIC_ENABLE (R296). Setting a haptic channel's enable starts its ramp to the bias voltage. -/
  | hapticEnable (r : Req) (n : Fin 8)
  /-- HAPTIC_DISABLE (R296). Clearing a haptic channel's enable ends its play without braking and slews it to 0 V. -/
  | hapticDisable (r : Req) (n : Fin 8)
  /-- SLICE_TRIGGER_START (R305). A write of SLC_HAP_TRIG requests a stored effect start on a slice's channel at the next loop tick. -/
  | sliceTriggerStart (r : Req) (s : Fin 256) (v : Word)
  /-- SLICE_TRIGGER_STOP (R305). A write of SLC_HAP_TRIG with stop brakes the slice's own play or clears its pending start. -/
  | sliceTriggerStop (r : Req) (s : Fin 256) (v : Word)
  /-- HAP_CMD_START (R305). A write of HAP_CMD by the station or protected world requests an effect start. -/
  | hapCmdStart (r : Req) (n : Fin 8) (v : Word)
  /-- HAP_CMD_STOP (R305). A write of HAP_CMD with stop brakes the station's or the protected world's play. -/
  | hapCmdStop (r : Req) (n : Fin 8) (v : Word)
  /-- EFFECT_END (R305). A stored effect reaches its end tick and the channel enters BRAKING. -/
  | effectEnd (n : Fin 8)
  /-- BRAKING_END (R308). Braking ends after 16 quiet polls or its limit, and the channel goes IDLE or starts its pending play. -/
  | brakingEnd (n : Fin 8)
  /-- PENDING_START_EXPIRY (R307). A pending start is dropped when braking has not ended 64 loop ticks after it became pending. -/
  | pendingStartExpiry (n : Fin 8)
  /-- SENSOR_FAULT (R301). A stuck or absent accelerometer reading for the set count puts the channel in FAULT. -/
  | sensorFault (n : Fin 8)
  /-- RAIL_FAULT (R311). The HV rail below 180 V for 16 loop ticks puts every enabled channel in FAULT. -/
  | railFault
  /-- RAIL_RECOVERY (R311). The rail at 185 V for 160 loop ticks sets rail_ok and returns rail-faulted channels to RAMP. -/
  | railRecovery
  /-- ACC_RAW_TRANSACTION (R299). A write of HAP_ACC_RAW.start runs one set-up SPI transaction while the channel is OFF, otherwise is refused. -/
  | accRawTransaction (r : Req) (n : Fin 8) (v : Word) (reply : BitVec 24)
  /-- STORE_PUBLISH (R304). A write of HAP_STORE_CTRL.publish makes the shadow effect directory active at the next loop tick. -/
  | storePublish (r : Req)
  /-- STORE_DATA_ACCESS (R304). An access to HAP_STORE_DATA reads or writes the store and advances the address, discarding data writes while old_busy. -/
  | storeDataAccess (r : Req) (w : Option Word)
  /-- HAP_BUDGET_WRITE (R310). A write of a channel's power floor takes effect at the next loop tick if the floors sum to at most 12 W. -/
  | hapBudgetWrite (r : Req) (n : Fin 8) (v : Word)
  /-- HAP_RB_SNAP (R312). A write of HAP_RB_CTRL.snap takes a snapshot of the channel's effect programme. -/
  | hapRbSnap (r : Req) (n : Fin 8) (v : Word)
  /-- STREAM_SAMPLE_TICK (R306). At a stream-sample tick each haptic stream consumes a sample or underruns. -/
  | streamSampleTick
  /-- STREAM_ENABLE (R314). Setting a stream's enable sets its read position to its write position and starts fetching. -/
  | streamEnable (r : Req) (s : Fin 256) (ch : Option (Fin 8)) (v : Word)
  /-- STREAM_WRITE_POSITION (R314). A write of a stream's write position makes samples available or has no effect if out of range. -/
  | streamWritePosition (r : Req) (s : Fin 256) (ch : Option (Fin 8)) (v : Word)
  /-- SAMPLE_TICK (R318). At a sample tick every begun audio stream consumes a frame and the mixer sums routes into TDM slots. -/
  | sampleTick
  /-- TDM_FRAME_SYNC (R319). A slave TDM port's received frame sync starts a frame, repeating or dropping one on a slip. -/
  | tdmFrameSync (p : Fin 4)
  /-- TDM_CLOCK_LOST (R319). A slave port without bit clock or frame sync for 2 frame periods sets clock_lost and floats its data pin. -/
  | tdmClockLost (p : Fin 4)
  /-- GATE_CALL (R327). A csrrw on WLD_WGATE from GENERAL machine mode enters a protected service or returns a refusal status. -/
  | gateCall (c : Fin 4) (rd : Fin 32) (rs1 : Word)
  /-- WORLD_EXIT (R330). A write of WLD_WEXIT leaves PROTECTED or MONITOR, restoring the saved general state and returning the token. -/
  | worldExit (c : Fin 4) (v : Word)
  /-- FORCED_ENTRY (R328). A world-1 source delivered to a core in GENERAL forces it into PROTECTED once the token is free. -/
  | forcedEntry (c : Fin 4)
  /-- RESTART_ENTRY (R355). After a protected-world reset, a core enters PROTECTED at the restart vector to reload the firmware. -/
  | restartEntry
  /-- QUERY (R333). The monitor call QUERY returns WLD_WSTAT and WLD_FW_VERSION. -/
  | query (c : Fin 4)
  /-- POST (R334). The monitor call POST places a request in the lowest free mailbox slot and returns a ticket. -/
  | post (c : Fin 4)
  /-- POLL (R334). The monitor call POLL returns the state and result of a ticket, freeing the slot when done or aborted. -/
  | poll (c : Fin 4)
  /-- MONITOR_RESERVED_FUNCTION (R333). A monitor call with a reserved function returns 0xFF. -/
  | monitorReservedFunction (c : Fin 4)
  /-- CORE_EXCEPTION (R332). An exception traps through the current world's bank, or ends a monitor call with 0xFF. -/
  | coreException (c : Fin 4) (e : CoreExc)
  /-- MAILBOX_DONE_WRITE (R335). The protected world writes a mailbox slot from PENDING to DONE, signalling the mailbox-done source. -/
  | mailboxDoneWrite (r : Req) (v : Word)
  /-- WLD_ASSIGN_WRITE (R344). A write of WLD_ASSIGN from PROTECTED assigns a block to the protected world, or sets refused. -/
  | wldAssignWrite (r : Req) (v : Word)
  /-- CACHE_WAYS_WRITE (R342). A write of WLD_CACHE_WAYS moves L1 ways between worlds after cleaning and invalidating them. -/
  | cacheWaysWrite (r : Req) (v : Word)
  /-- CLEAN_L1D (R343). The clean_l1d operation of WLD_WCACHE writes back dirty lines of the selected L1 data ways. -/
  | cleanL1d (c : Fin 4) (pw : Bool)
  /-- INV_L1D (R343). The inv_l1d operation of WLD_WCACHE invalidates the selected L1 data ways. -/
  | invL1d (c : Fin 4) (pw : Bool)
  /-- INV_L1I (R343). The inv_l1i operation of WLD_WCACHE invalidates the selected L1 instruction ways. -/
  | invL1i (c : Fin 4) (pw : Bool)
  /-- CLEAN_L2 (R343). The clean_l2 operation of WLD_WCACHE writes back dirty lines of the selected L2 ways. -/
  | cleanL2 (c : Fin 4) (pw : Bool)
  /-- INV_L2 (R343). The inv_l2 operation of WLD_WCACHE invalidates the selected L2 ways. -/
  | invL2 (c : Fin 4) (pw : Bool)
  /-- WDOG_KICK (R351). A write of the key to WLD_WDOG_KICK restarts the protected-world watchdog count. -/
  | wdogKick (r : Req) (v : Word)
  /-- PW_WATCHDOG_EXPIRY (R351). The protected-world watchdog reaches 0 and starts a protected-world reset with cause watchdog. -/
  | pwWatchdogExpiry
  /-- SELF_RESET (R351). A write of WLD_PW_CTRL.self_reset starts a protected-world reset with cause self reset. -/
  | selfReset (r : Req)
  /-- PW_RESET_COMPLETE (R352). A protected-world reset completes and a restart entry follows unless the world parks. -/
  | pwResetComplete
  /-- POWER_NOTICE_READY (R349). The protected world writes ready and the pending general-world power request proceeds. -/
  | powerNoticeReady (r : Req)
  /-- POWER_NOTICE_TIMEOUT (R349). 5 ms after a general-world power request the notice ends and the transition proceeds. -/
  | powerNoticeTimeout
  /-- CIC_CLAIM (R361). A read of CIC_CLAIM claims the highest-priority delivered source of the core's world, or returns 0. -/
  | cicClaim (r : Req)
  /-- CIC_COMPLETE (R362). A write of CIC_CLAIM completes a source claimed by the writer and resamples a level source. -/
  | cicComplete (r : Req) (v : Word)
  /-- CIC_SRC_CFG_WRITE (R363). A write of a source's target, priority or enable changes its delivery at once. -/
  | cicSrcCfgWrite (r : Req) (v : Word)
  /-- CIC_SWI (R359). A write of CIC_SWI gives an edge on a core's software-interrupt source. -/
  | cicSwi (r : Req) (v : Word)
  /-- TIMER_COMPARE_WRITE (R357). A write of CIC_TCMP_HI makes a core's 64-bit timer compare value take effect with the held low word. -/
  | timerCompareWrite (r : Req) (n : Fin 4) (v : Word)
  /-- CORE_TIMER_ASSERT (R357). A core's timer source asserts when station time reaches its compare value. -/
  | coreTimerAssert (n : Fin 4)
  /-- SET_POINT_REQUEST (R378). A write of DMC_CTRL.sp_target starts a set-point change, after new plans for a reduction. -/
  | setPointRequest (r : Req) (v : Word)
  /-- SET_POINT_CHANGE_DONE (R378). The last channel switches set point, R_eff is raised where it rises, and the change completes. -/
  | setPointChangeDone
  /-- PATROL_SCRUB_READ (R384). The patrol scrub reads the next block at its paced rate, correcting or logging errors. -/
  | patrolScrubRead (res : EccRes)
  /-- TEMPERATURE_MEASUREMENT (R389). Every 16 ms the DRAM package temperatures are measured and extended refresh is requested or ended. -/
  | temperatureMeasurement (temps : List Int)
  /-- TRACKING_STEP (R377). Every 32 ms a channel tracks its write-clock-to-data delay, stalling at most 200 ns. -/
  | trackingStep (ch : Fin 8)
  /-- REFRESH (R388). A per-bank refresh falls due, is postponed or pulled in, or is forced at 8 postponed intervals. -/
  | refresh (ch : Fin 8) (act : RefreshAct)
  /-- WRITE_QUEUE_DRAIN (R387). A channel drains its write queue in a batch when a drain condition holds, ending at wq_low or its limit. -/
  | writeQueueDrain (ch : Fin 8) (readPending : Bool)
  /-- ROW_HAMMER_THRESHOLD (R391). A row reaching the activation threshold in a window gets a targeted refresh and a strike against its requester. -/
  | rowHammerThreshold (ch : Fin 8) (bank : Fin 16) (row : Fin 32768) (req : DramReq)
  /-- THROTTLE_END (R392). A throttled requester's 64 ms throttle ends. -/
  | throttleEnd (req : DramReq)
  /-- ECC_INJECT (R383). A write of DMC_ECC_INJECT.arm corrupts the next write of the named block. -/
  | eccInject (r : Req) (v : Word)
  /-- GATE_OPEN (R403). A write to CLK_GATE_OPEN opens a block's clock gate, completing once its clocks run. -/
  | gateOpen (r : Req) (i : Fin 10) (v : Word)
  /-- GATE_CLOSE (R404). A write to CLK_GATE_CLOSE starts closing a gate, or is refused for a busy block. -/
  | gateClose (r : Req) (i : Fin 10) (v : Word)
  /-- GATE_CLOSE_DONE (R406). A closing gate closes once earlier accesses and any soft reset have completed. -/
  | gateCloseDone (g : Fin 320)
  /-- RATIO_WRITE (R398). A write of a domain's ratio by a permitted writer starts a ramp, otherwise sets refused. -/
  | ratioWrite (r : Req) (v : Word)
  /-- RATIO_RAMP_STEP (R398). After 32 cycles at an intermediate ratio, the domain moves its ratio by 1 toward the target. -/
  | ratioRampStep (d : Fin 19)
  /-- CLOCK_ESCAPE (R399). An old clock giving no falling edge within 64 new-clock cycles is dropped and escaped is set. -/
  | clockEscape (d : Fin 19)
  /-- REFERENCE_FAILURE (R408). A missing REF edge or an out-of-range XO32 window declares a reference failure and enters hold-over. -/
  | referenceFailure
  /-- XO32_WINDOW (R408). A window of 1,024 XO32 cycles ends and its REF edge count is checked. -/
  | xo32Window (edges : BitVec 20)
  /-- XO32_LOST (R408). XO32 gives no edge for 1 ms, clearing xo_ok and suspending the frequency check. -/
  | xo32Lost
  /-- PLL_LOSS_OF_LOCK (R409). A PLL losing lock moves its domains to FRO or stops them and restarts, or fails on the third loss. -/
  | pllLossOfLock (i : Fin 14)
  /-- PLL_LOCKED (R409). A PLL locks, and after 100 us its domains return to it. -/
  | pllLocked (i : Fin 14)
  /-- PLL_RESTART (R409). A write of 1 to a failed bit restarts the failed PLL. -/
  | pllRestart (r : Req) (v : Word)
  /-- HOLDOVER_EXPIRY (R413). 250 ms of hold-over without recovery starts coasting. -/
  | holdoverExpiry
  /-- REFERENCE_RECOVERED (R415). REF is valid again; PLLs close their loops from hold-over or restart from coasting. -/
  | referenceRecovered
  /-- CLK_OUT_CTRL_WRITE (R407). A write of CLK_OUT_CTRL changes the CLKOUT source or divider without a glitch. -/
  | clkOutCtrlWrite (r : Req) (v : Word)
  /-- ELECTION (R421). After PAIR_ROLE has been released for 100 us, modules start an election with a start bit. -/
  | election
  /-- ELECTION_DONE (R421). After the 64 key bits the winner holds PAIR_ROLE low as primary and the others become candidates. -/
  | electionDone (partner : BitVec 64)
  /-- HAUL_LINK_TRAINED (R424). The haul link trains at x8 and 32 GT/s and frames start flowing. -/
  | haulLinkTrained
  /-- HAUL_LINK_DOWN (R429). The haul link goes down on lost alignment, silence or repeated replay, and both ends retrain. -/
  | haulLinkDown
  /-- HAUL_LINK_RETRY (R424). A haul link that failed to train retries every 100 ms. -/
  | haulLinkRetry
  /-- BAD_FRAME (R426). A frame with a bad CRC, an unexpected sequence number or a reserved type is discarded and a NAK is owed. -/
  | badFrame
  /-- FRAME_REPLAY (R426). On a NAK or a 2 us acknowledgement timeout the sender replays a channel from its oldest unacknowledged frame. -/
  | frameReplay (bulk : Bool) (nak : Bool)
  /-- IDLE (R427). An IDLE frame is sent when there is nothing to send, at least every 500 ns. -/
  | idle (rx : Option FrameHdr)
  /-- HELLO (R451). A HELLO carries key, digest and capabilities; the primary accepts a matching newcomer into CATCH_UP. -/
  | hello (h : FrameHdr) (key : BitVec 64) (digest : Word) (family : Word) (capsMem : Word) (st : Fin 8)
  /-- TIME (R436). A TIME message aligns the secondary's station time and timing generators to the primary's. -/
  | time (h : FrameHdr) (t : BitVec 64) (starts : List (Nat×Nat))
  /-- LINE_CV (R440). A LINE_CV carries a line's check value and fault flags, which are compared with the module's own. -/
  | lineCv (h : FrameHdr) (o : Fin 8) (flags : BitVec 8) (line : BitVec 16) (frame : Word) (cv : Word)
  /-- LATCH (R434). A LATCH tells the secondary the tick at which accepted commits latch, with a plan CRC and bulk fence. -/
  | latch (h : FrameHdr) (o : Fin 8) (frame : Word) (fence : BitVec 24) (crc : Word)
  /-- LATCH_ACK (R434). A LATCH_ACK lets the primary latch the commits at that tick, or with late set defers them a tick. -/
  | latchAck (h : FrameHdr) (o : Fin 8) (frame : Word) (late : Bool)
  /-- WRITE_REG (R430). A WRITE_REG applies a forwarded register write or read-clear on the secondary. -/
  | writeReg (h : FrameHdr) (addr : Nat) (v : Word) (how : RegMsg)
  /-- WRITE_DRAM (R432). A WRITE_DRAM applies a forwarded DRAM write on the secondary under its guard and poison marks. -/
  | writeDram (h : FrameHdr) (off : Nat) (data : List Byte) (world1 : Bool) (poisoned : Bool)
  /-- DECISION (R430). A DECISION applies one decision of the primary on the secondary. -/
  | decision (h : FrameHdr) (d : PairDecision)
  /-- TOUCH_STATE (R430). A TOUCH_STATE carries a panel's baselines, deltas and contacts at the end of a scan. -/
  | touchState (h : FrameHdr) (n : Fin 8) (scan : BitVec 16) (st : TouchMirror)
  /-- HAPTIC_STATE (R430). A HAPTIC_STATE carries each channel's loop state at a loop tick. -/
  | hapticState (h : FrameHdr) (chs : List HapMirror)
  /-- STREAM_DATA (R430). A STREAM_DATA carries stream samples fetched from host memory to the secondary. -/
  | streamData (h : FrameHdr) (s : Fin 256) (ch : Option (Fin 8)) (pos : Word) (samples : List Int)
  /-- FEED (R428). A FEED message announces the station time and new feeder of an output's feed move. -/
  | feed (h : FrameHdr) (o : Fin 8) (t : BitVec 64) (toPrimary : Bool)
  /-- HANDOVER (R449). A HANDOVER message names t_h, at which the feeds move to the secondary. -/
  | handover (h : FrameHdr) (t : BitVec 64)
  /-- YIELD (R445). A YIELD message reports a module's yield cause to its partner. -/
  | yield (h : FrameHdr) (cause : Fin 16)
  /-- CATCHUP_DONE (R451). CATCHUP_DONE ends the copy, and the newcomer aligns and enters VERIFY. -/
  | catchupDone (h : FrameHdr) (last : BitVec 24)
  /-- HELLO_RETRY (R451). A newcomer whose HELLO was refused retries after 10 s. -/
  | helloRetry
  /-- CATCHUP_RETRY (R451). A newcomer whose catch-up failed restarts at step 1 after 1 s. -/
  | catchupRetry
  /-- PAIR_SYNC_EDGE (R419). The primary drives a PAIR_SYNC pulse at every multiple of 1,000,000 ns of station time. -/
  | pairSyncEdge
  /-- PAIR_GUARD_TRIP (R420). A stalled PER, PAIR or haul transmitter trips the pair guard, releasing role, heartbeat and feeds. -/
  | pairGuardTrip
  /-- PARTNER_LOSS (R444). Link, heartbeat and PAIR_ROLE all failing declares partner loss and the survivor takes over. -/
  | partnerLoss
  /-- PLANNED_HANDOVER (R449). A write of PAIR_CTRL.handover, a yield or a MOD_EN fall starts a planned handover in PAIRED. -/
  | plannedHandover (cause : HandoverCause)
  /-- HANDOVER_ROLE_RELEASE (R449). At t_h + 100 us the primary releases PAIR_ROLE and the secondary takes it. -/
  | handoverRoleRelease
  /-- PAIR_TAKEOVER_RESET (R450). A module that must give up the primary role discards its station state and enters JOINING. -/
  | pairTakeoverReset
  /-- FEED_HOME (R441). A write of PAIR_CTRL.feed_home returns every moved output to the primary at its next blanking. -/
  | feedHome (r : Req)
  /-- REQUEST_RUN (R454). A PWR_STATE request for RUN leaves Dim, restoring saved settings and the rail. -/
  | requestRun (r : Req)
  /-- REQUEST_DIM (R457). A PWR_STATE request for DIM turns off the rail and reduces haul, tick rate and set point. -/
  | requestDim (r : Req)
  /-- REQUEST_RETAIN (R458). A PWR_STATE request for RETAIN saves state and puts DRAM in self-refresh, or is refused. -/
  | requestRetain (r : Req)
  /-- REQUEST_STANDBY (R460). A PWR_STATE request for STANDBY saves time and powers down all but the always-on domain. -/
  | requestStandby (r : Req)
  /-- REQUEST_OFF (R460). A PWR_STATE request for OFF stops the always-on domain as well. -/
  | requestOff (r : Req)
  /-- RETAIN_EXIT (R459). A host D0 write or the wake time restores power, DRAM and cores and leaves Retain. -/
  | retainExit (edges : Nat)
  /-- WAKE_TIME (R455). The wake time is reached in Retain or Standby and starts the exit. -/
  | wakeTime (edges : Nat)
  /-- MOD_EN_RISE (R454). MOD_EN rising leaves Off or Standby through the boot sequence. -/
  | modEnRise
  /-- MOD_EN_FALL (R490). MOD_EN falling starts a handover on a primary and, after 1 ms low, entry to Standby. -/
  | modEnFall
  /-- MOD_EN_LOW_TIMEOUT (R454). MOD_EN low for 1 ms moves the module to Standby. -/
  | modEnLowTimeout
  /-- VSTBY_RISE (R454). VSTBY rising above its power-on level starts a POWER_ON reset or Standby. -/
  | vstbyRise
  /-- VSTBY_FALL (R454). VSTBY below its power-on level takes the module to Off. -/
  | vstbyFall
  /-- PERST_ASSERT (R463). PERST# assertion starts a PERST reset within 1 us. -/
  | perstAssert
  /-- PERST_DEASSERT (R463). PERST# deassertion starts the boot; the link is ready to train within 20 ms. -/
  | perstDeassert
  /-- HOST_READY_LATE (R463). 900 ms after PERST# deasserts, host_ready and late are set if firmware has not set host_ready. -/
  | hostReadyLate
  /-- STATION (R461). A write of PWR_RESET with the key starts a STATION reset keeping the link. -/
  | station (r : Req) (v : Word)
  /-- STATION_WATCHDOG_EXPIRY (R461). The station watchdog expires and starts a WATCHDOG reset. -/
  | stationWatchdogExpiry
  /-- STATION_WATCHDOG_KICK (R462). A write of the key to PWR_WDOG_KICK restarts the station watchdog count. -/
  | stationWatchdogKick (r : Req) (v : Word)
  /-- FLR (R465). A function-level reset unbinds every slice, resets HIF and ends station commands within 100 ms. -/
  | flr
  /-- BROWN_OUT_WARNING (R480). A low 12 V or PWR_WARN# asserts the warning, turning off the HV rail and refusing flash and power requests. -/
  | brownOutWarning (mv : BitVec 16) (pinLow : Bool)
  /-- WARNING_CLEAR (R480). The warning clears, resuming a suspended erase and restarting the rail. -/
  | warningClear (mv : BitVec 16)
  /-- BROWN_OUT (R479). 12 V below 9.50 V starts a BROWN_OUT reset of all but the always-on domain. -/
  | brownOut (mv : BitVec 16)
  /-- BROWN_OUT_RECOVERY (R479). 12 V at least 10.80 V for 10 ms after a brown-out starts the boot or Standby. -/
  | brownOutRecovery (mv : BitVec 16)
  /-- BANK_FAULT (R479). A VIO bank below 1.55 V puts its outputs at high impedance; recovery at 1.65 V restores them. -/
  | bankFault (bankB : Bool) (recovered : Bool)
  /-- BOOT_CONFIRM (R469). A write of BOOT_CTRL.confirm clears the boot-attempt count. -/
  | bootConfirm (r : Req)
  /-- BOOT_RELEASE (R470). A write of BOOT_CTRL.release starts a held core in GENERAL at WLD_BOOT_G_ENTRY. -/
  | bootRelease (r : Req) (v : Word)
  /-- HOST_READY (R463). A write of BOOT_CTRL.host_ready lets the function answer configuration requests. -/
  | hostReady (r : Req)
  /-- CORE_HALT (R478). The halt operation of BOOT_CORE_CTRL halts a core at its next instruction boundary. -/
  | coreHalt (r : Req) (v : Word)
  /-- CORE_RESUME (R478). The resume operation of BOOT_CORE_CTRL returns a halted core to execution. -/
  | coreResume (r : Req) (v : Word)
  /-- CORE_RESET (R478). The reset operation of BOOT_CORE_CTRL resets a core's general bank and holds the core. -/
  | coreReset (r : Req) (v : Word)
  /-- FLASH_READ (R341). The read operation of BOOT_FLASH_CMD reads 256 bytes of flash into the buffer. -/
  | flashRead (r : Req)
  /-- FLASH_PROGRAM (R341). The program operation of BOOT_FLASH_CMD programs and verifies 256 bytes, or is denied or refused. -/
  | flashProgram (r : Req)
  /-- FLASH_ERASE (R341). The erase operation of BOOT_FLASH_CMD erases a 64 KiB sector, or is denied or refused. -/
  | flashErase (r : Req)
  /-- FLASH_OPERATION_DONE (R341). A flash program or erase completes and reports its result. -/
  | flashOperationDone (verified : Bool)
  /-- JUNCTION_MEASUREMENT (R501). Every 1 ms the junction temperature is measured, setting or clearing warning and tripping at 125 C. -/
  | junctionMeasurement (t : Int)
  /-- HV_INTERLOCK_OPEN (R491). The HV interlock opening opens the rail switch within 10 us and discharges the outputs. -/
  | hvInterlockOpen
  /-- HV_INTERLOCK_CLOSED (R491). The HV interlock connected for 100 ms lets the rail switch close. -/
  | hvInterlockClosed
  /-- REGISTER_READ (R12). A register read with behaviour of its own clears an RC field, advances an auto-incrementing index or latches a high word, and is refused under the PASID and size checks. -/
  | registerRead (r : Req) (t : Target) (len : Nat)
  /-- XO32_PRESENT (R408). XO32 gives edges again after a loss, setting xo_ok and resuming the REF frequency check. -/
  | xo32Present
  /-- ROLE_HELD_BY_PRIMARY (R421). A module in ELECTING that sees PAIR_ROLE low for more than 80 us without an alignable start bit treats the line as held by a primary and enters JOINING. -/
  | roleHeldByPrimary
  /-- RETAIN_WFI_TIMEOUT (R456). An accepted Retain request whose released cores have not all executed WFI within 10 ms is refused with reason 0b101. -/
  | retainWfiTimeout
  /-- RETAIN_ENTRY_COMPLETE (R458). Once outputs have stopped and the save-area copy is finished, every DRAM channel enters self-refresh and the die powers down into Retain. -/
  | retainEntryComplete
  /-- ROW_ACTIVATION_WINDOW (R391). An 8 ms row-activation window ends and every channel's per-bank activation counts return to 0. -/
  | rowActivationWindow
deriving DecidableEq, Repr

end Sys2Proof
end

