-- ==== Sys2Proof/Decode.lean ====
section
/-!
DEFINITION. The decoder of the table's words. The block is commanded by register accesses, requests and events of its
interfaces; spec/opcode_table.json gives no row any bits, so no word spells a command (log 17).
-/

namespace Sys2Proof

/-- The command that a word spells by the table's bits: the table gives bits to no row (log 17). -/
def decodeTableWord (_nbits _w : Nat) : Option Instr := none

end Sys2Proof
end

