-- ==== Sys2Proof/Config.lean ====
section
/-!
DEFINITION. What an implementation fixes and the spec does not state, and the free values.
Every constant here is opaque: no proof can see a value of it (logs 1 and 5).
-/

namespace Sys2Proof.Config

/-- A free value: the n-th value the spec leaves open in a run (log 1). -/
opaque free : Nat → Nat

/-- The ordering code of the module: false W880-8G-C, true W880-8G-I (00_scope.md R1, R4). DESIGN CHOICE: free constant, log 5. -/
opaque gradeI : Bool

/-- The 56-bit serial number fused on the die (15_pairs_and_live_insertion.md R422). Free constant, log 5. -/
opaque serial : BitVec 56

/-- Which block of an aligned 512-byte group sits on which channel: one on each, fixed by the die and readable nowhere
(13_memory_controller.md R372); log 13. -/
opaque channelPerm : Nat → Equiv.Perm (Fin 8)

/-- The channel of block `i` of group `g` (13_memory_controller.md R372). -/
def channelOf (g : Nat) (i : Fin 8) : Fin 8 := channelPerm g i

/-- mvendorid, marchid and mimpid of the control cores, in that order: RISC-V has them and the spec gives no values
(11_control_cores_and_the_protected_world.md R320). Free constants, log 5. -/
opaque coreIdent : Nat → BitVec 32

/-- Which 4 KiB of retention memory is the standby retention area, in 4 KiB units from its start: the spec gives the size alone
(16_power_resets_and_start_up.md R453, R466); log 82. -/
opaque standbyPage : Fin 64

/-- SHA-384 as FIPS 180-4 defines it (16_power_resets_and_start_up.md R472 names the standard and does not restate it); log 14. -/
opaque sha384 : List Byte → List Byte

/-- ECDSA verification over P-384 with SHA-384, as FIPS 186-4 defines it: public key, signature, message (R472); log 14. -/
opaque ecdsaVerify : List Byte → List Byte → List Byte → Bool

/-- The fused hash of the public key of each key slot (16_power_resets_and_start_up.md R474); log 14. -/
opaque keyHash : Fin 4 → List Byte

/-- Whether a key slot is revoked (16_power_resets_and_start_up.md R474); log 14. -/
opaque keyRevoked : Fin 4 → Bool

/-- The fused minimum security version (16_power_resets_and_start_up.md R474); log 14. -/
opaque minVersion : Nat

/-- Whether DRAM training succeeds at a boot (16_power_resets_and_start_up.md R470, stage 0xE); log 66. -/
opaque dramTrains : Bool

end Sys2Proof.Config
end

