-- ==== Sys2Proof/Machine/Tab.lean ====
section
/-!
DEFINITION. Sparse tables and the memories made of them: reading an absent key gives the table's default,
and a write keeps the canonical form (keys strictly rising, no entry equal to the default).
-/

namespace Sys2Proof

variable {α : Type}

/-- The value at a key; an absent key reads as `d`. -/
def Tab.get (d : α) : Tab α → Nat → α
  | [], _ => d
  | (k, v) :: t, i => if i = k then v else Tab.get d t i

/-- Put a value at a key, in key order. -/
def Tab.put (i : Nat) (v : α) : Tab α → Tab α
  | [] => [(i, v)]
  | (k, w) :: t =>
    if i < k then (i, v) :: (k, w) :: t
    else if i = k then (i, v) :: t
    else (k, w) :: Tab.put i v t

/-- Remove a key. -/
def Tab.del (i : Nat) (t : Tab α) : Tab α :=
  t.filter fun e => e.1 ≠ i

/-- Write a value: the default removes the entry, so that equal tables are equal lists. -/
def Tab.set [DecidableEq α] (d : α) (t : Tab α) (i : Nat) (v : α) : Tab α :=
  if v = d then Tab.del i t else Tab.put i v t

/-- Rewrite the value at a key by a function. -/
def Tab.upd [DecidableEq α] (d : α) (t : Tab α) (i : Nat) (f : α → α) : Tab α :=
  Tab.set d t i (f (Tab.get d t i))

/-- The keys rise strictly from above `lo`, and no entry equals its key's default. -/
def Tab.wfFrom [DecidableEq α] (d : Nat → α) : Option Nat → Tab α → Bool
  | _, [] => true
  | lo, (k, v) :: t => (lo.all (· < k)) && decide (v ≠ d k) && Tab.wfFrom d (some k) t

/-- The canonical form of a table whose absent key `k` reads as `d k`. -/
def Tab.wf [DecidableEq α] (d : Nat → α) (t : Tab α) : Bool :=
  Tab.wfFrom d none t

/-- `n` bytes of a memory from address `a` on. -/
def Mem.read (d : Byte) (m : Tab Byte) (a n : Nat) : List Byte :=
  (List.range n).map fun i => Tab.get d m (a + i)

/-- Write bytes to a memory from address `a` on. -/
def Mem.write (d : Byte) (m : Tab Byte) (a : Nat) : List Byte → Tab Byte
  | [] => m
  | b :: bs => Mem.write d (Tab.set d m a b) (a + 1) bs

/-- A little-endian number from bytes (00_scope.md R9). -/
def leNat : List Byte → Nat
  | [] => 0
  | b :: bs => b.toNat + 256 * leNat bs

/-- `n` little-endian bytes of a number (00_scope.md R9). -/
def leBytes : Nat → Nat → List Byte
  | 0, _ => []
  | n + 1, v => BitVec.ofNat 8 v :: leBytes n (v / 256)

/-- The little-endian number in `n` bytes at an address. -/
def Mem.le (d : Byte) (m : Tab Byte) (a n : Nat) : Nat :=
  leNat (Mem.read d m a n)

end Sys2Proof
end

