-- ==== Sys2Proof/Machine/Bits.lean ====
section
/-!
DEFINITION. Bit fields of register words, and the arithmetic the spec's tables share: rounding up, saturating
counts, serial comparison (02_host_interface.md R93), signed reading and clamping.
-/

namespace Sys2Proof

/-- A field of a register word, bits `hi` to `lo` (00_scope.md R9). -/
structure Fld where
  hi : Nat
  lo : Nat
deriving DecidableEq, Repr

/-- Bits `hi` to `lo` of a number. -/
def bitsOf (n hi lo : Nat) : Nat := n / 2 ^ lo % 2 ^ (hi + 1 - lo)

/-- One bit of a number. -/
def bitAt (n i : Nat) : Bool := n / 2 ^ i % 2 == 1

/-- The value of a field in a word. -/
def Fld.get (f : Fld) (w : Word) : Nat := bitsOf w.toNat f.hi f.lo

/-- The bit mask of a field. -/
def Fld.mask (f : Fld) : Nat := (2 ^ (f.hi + 1 - f.lo) - 1) * 2 ^ f.lo

/-- The word with a field replaced. -/
def Fld.put (f : Fld) (w : Word) (v : Nat) : Word :=
  BitVec.ofNat 32 (w.toNat - bitsOf w.toNat f.hi f.lo * 2 ^ f.lo + v % 2 ^ (f.hi + 1 - f.lo) * 2 ^ f.lo)

/-- 1 for true, 0 for false. -/
def b2n (b : Bool) : Nat := if b then 1 else 0

/-- `a / b` rounded up. -/
def ceilDiv (a b : Nat) : Nat := (a + b - 1) / b

/-- `a` rounded up to a multiple of `b`. -/
def roundUp (a b : Nat) : Nat := ceilDiv a b * b

/-- A count that saturates at all ones of `w` bits (02_host_interface.md R92). -/
def satAdd (w a n : Nat) : Nat := min (2 ^ w - 1) (a + n)

/-- Where `b` stands from `a` in the serial order of width `n` (02_host_interface.md R93): the distance forward. -/
def serialDist (n a b : Nat) : Nat := (b + 2 ^ n - a % 2 ^ n) % 2 ^ n

/-- `a` precedes or equals `b` in the serial order of width `n` (02_host_interface.md R93). -/
def serialLe (n a b : Nat) : Bool := serialDist n a b < 2 ^ (n - 1)

/-- A two's complement number of `w` bits. -/
def signed (w n : Nat) : Int :=
  if n % 2 ^ w < 2 ^ (w - 1) then ((n % 2 ^ w : Nat) : Int) else ((n % 2 ^ w : Nat) : Int) - ((2 ^ w : Nat) : Int)

/-- The `w`-bit two's complement code of an integer. -/
def unsigned (w : Nat) (x : Int) : Nat := (x % ((2 ^ w : Nat) : Int)).toNat

/-- An integer held between two bounds. -/
def clampI (lo hi x : Int) : Int := max lo (min hi x)

/-- The arithmetic right shift of an integer: division rounding toward minus infinity. -/
def sar (x : Int) (n : Nat) : Int := x / ((2 ^ n : Nat) : Int)

/-- The words of a byte list, little-endian, the last one padded with zeros. -/
def wordsOf : List Byte → List Word
  | a :: b :: c :: d :: t => BitVec.ofNat 32 (leNat [a, b, c, d]) :: wordsOf t
  | [] => []
  | l => [BitVec.ofNat 32 (leNat l)]

/-- Bytes padded with zeros to a length. -/
def padTo (n : Nat) (l : List Byte) : List Byte := l ++ List.replicate (n - l.length) 0

/-- The numbers below `n` that pass a test, in ascending order. -/
def below (n : Nat) (p : Nat → Bool) : List Nat := (List.range n).filter p

/-- A list cut into pieces of `k` elements; `fuel` bounds the number of pieces. -/
def chunks {α : Type} (k : Nat) : Nat → List α → List (List α)
  | 0, _ => []
  | _ + 1, [] => []
  | fuel + 1, l => l.take k :: chunks k fuel (l.drop k)

end Sys2Proof
end

