-- ==== Sys2Proof/Machine/Regs.lean ====
section
/-!
DEFINITION. The register map: the page map of the station (02_host_interface.md R55), the address of every register
(`R.<register>`), the place of every field (`F.<register>_<field>`), and for every page type the access code, legal
values and reset value of every field, as the register tables of the chapters give them (00_scope.md R12).
-/

namespace Sys2Proof

/-- The access codes of 00_scope.md R12. A field of no code is reserved. -/
inductive Acc where
  | rw | ro | wo | w1c | w1s | rwl | rc
deriving DecidableEq, Repr

/-- One field of a register: its place, its access code, and the values it may take when some are reserved (R16). -/
structure FldDesc where
  fld : Fld
  acc : Acc
  legal : List (Nat × Nat)
deriving DecidableEq, Repr

/-- One register, or `n` of them `stride` bytes apart: page offset, reset word, fields. -/
structure RegDesc where
  off : Nat
  n : Nat
  stride : Nat
  reset : Nat
  flds : List FldDesc
deriving DecidableEq, Repr

/-- A field all of whose values are legal. -/
def fd (hi lo : Nat) (acc : Acc) : FldDesc := ⟨⟨hi, lo⟩, acc, []⟩

/-- A field with reserved values: the legal ranges. -/
def fdl (hi lo : Nat) (acc : Acc) (legal : List (Nat × Nat)) : FldDesc := ⟨⟨hi, lo⟩, acc, legal⟩

/-- The station page map (02_host_interface.md R55): base, number of pages, type code. -/
def stationPages : List (Nat × Nat × Nat) := [
  (0x0, 1, 0x01),
  (0x1000, 1, 0x02),
  (0x2000, 1, 0x03),
  (0x10000, 4, 0x10),
  (0x20000, 2, 0xA0),
  (0x22000, 2, 0xA1),
  (0x24000, 1, 0xC0),
  (0x40000, 256, 0x20),
  (0x140000, 4, 0x30),
  (0x150000, 4, 0x31),
  (0x160000, 8, 0x40),
  (0x170000, 8, 0x41),
  (0x178000, 8, 0x43),
  (0x180000, 64, 0x42),
  (0x1C0000, 32, 0x50),
  (0x1E0000, 128, 0x51),
  (0x260000, 1, 0x60),
  (0x261000, 8, 0x61),
  (0x270000, 8, 0x70),
  (0x278000, 1, 0x71),
  (0x279000, 4, 0x72),
  (0x280000, 4, 0x80),
  (0x288000, 2, 0x81),
  (0x290000, 1, 0x90),
  (0x291000, 8, 0x91),
  (0x2A0000, 4, 0xB0)]

/-- The type code and number of the station page at a BAR0 offset, none where the page is absent (00_scope.md R7). -/
def stationPageAt (off : Nat) : Option (Nat × Nat) :=
  (stationPages.find? fun (b, n, _) => b ≤ off && off < b + n * 0x1000).map
    fun (b, _, ty) => (ty, (off - b) / 0x1000)

/-- The type code and number of any page: a station page, or page p of the window of slice s (R51, R56). -/
def pageAt (off : Nat) : Option (Nat × Nat) :=
  if off < 0x1000000 then stationPageAt off
  else if off < 0x2000000 then some (0x100 + off / 0x1000 % 16, (off - 0x1000000) / 0x10000)
  else none

/-- BAR0 offset of page p of the window of slice s (02_host_interface.md R51). -/
def winPage (s p : Nat) : Nat := 0x1000000 + s * 0x10000 + p * 0x1000

/-- BAR0 offset of the command page of a command space: space 0 to 255 is a slice, 256 the station's HIF_1 (R70). -/
def cmdPage (sp : Nat) : Nat := if sp < 256 then winPage sp 0 else 0x11000

/-- STN_FAMILY (00_scope.md R3). -/
def R.stnFamily : Nat := 0x0 + 0x040
def F.stnFamily_family_code : Fld := ⟨31, 16⟩
def F.stnFamily_member_code : Fld := ⟨15, 8⟩
def F.stnFamily_die_stepping : Fld := ⟨7, 0⟩

/-- STN_CAPS_DISPLAY (00_scope.md R3). -/
def R.stnCapsDisplay : Nat := 0x0 + 0x044
def F.stnCapsDisplay_layer_slots : Fld := ⟨31, 24⟩
def F.stnCapsDisplay_slices_m1 : Fld := ⟨23, 16⟩
def F.stnCapsDisplay_outputs : Fld := ⟨15, 12⟩
def F.stnCapsDisplay_layers_per_output : Fld := ⟨11, 8⟩
def F.stnCapsDisplay_cvus : Fld := ⟨5, 0⟩

/-- STN_CAPS_IO (00_scope.md R3). -/
def R.stnCapsIo : Nat := 0x0 + 0x048
def F.stnCapsIo_touch_pins : Fld := ⟨31, 22⟩
def F.stnCapsIo_touch_panels : Fld := ⟨21, 18⟩
def F.stnCapsIo_haptic_channels : Fld := ⟨17, 14⟩
def F.stnCapsIo_tdm_ports : Fld := ⟨13, 11⟩
def F.stnCapsIo_haul_engines : Fld := ⟨10, 8⟩
def F.stnCapsIo_pair_capable : Fld := ⟨0, 0⟩

/-- STN_CAPS_MEM (00_scope.md R3). -/
def R.stnCapsMem : Nat := 0x0 + 0x04C
def F.stnCapsMem_dram_gib : Fld := ⟨31, 24⟩
def F.stnCapsMem_dram_channels : Fld := ⟨23, 20⟩
def F.stnCapsMem_ondie_mib : Fld := ⟨19, 12⟩
def F.stnCapsMem_temp_grade : Fld := ⟨1, 0⟩

/-- STN_PW_STATUS (11_control_cores_and_the_protected_world.md R354). -/
def R.stnPwStatus : Nat := 0x1000 + 0x080
def F.stnPwStatus_changed : Fld := ⟨31, 31⟩
def F.stnPwStatus_running : Fld := ⟨30, 30⟩
def F.stnPwStatus_parked : Fld := ⟨29, 29⟩
def F.stnPwStatus_armed : Fld := ⟨28, 28⟩
def F.stnPwStatus_restarts : Fld := ⟨23, 16⟩
def F.stnPwStatus_last_cause : Fld := ⟨7, 0⟩

/-- STN_MODULE (17_connectors_and_electrical_characteristics.md R501). -/
def R.stnModule : Nat := 0x1000 + 0x090
def F.stnModule_tripped : Fld := ⟨31, 31⟩
def F.stnModule_warning : Fld := ⟨30, 30⟩
def F.stnModule_hv_interlock : Fld := ⟨29, 29⟩
def F.stnModule_warn_c : Fld := ⟨23, 16⟩
def F.stnModule_temp_c : Fld := ⟨7, 0⟩

/-- STN_TIME_LO (01_the_w880_at_a_glance.md R29). -/
def R.stnTimeLo : Nat := 0x2000 + 0x040
def F.stnTimeLo_lo : Fld := ⟨31, 0⟩

/-- STN_TIME_HI (01_the_w880_at_a_glance.md R29). -/
def R.stnTimeHi : Nat := 0x2000 + 0x044
def F.stnTimeHi_hi : Fld := ⟨31, 0⟩

/-- STN_TICK_CTRL (09_capacitive_touch.md R260). -/
def R.stnTickCtrl : Nat := 0x2000 + 0x060
def F.stnTickCtrl_pending : Fld := ⟨31, 31⟩
def F.stnTickCtrl_rate : Fld := ⟨1, 0⟩

/-- HIF_PASID_ERR_INFO (02_host_interface.md R67). -/
def R.hifPasidErrInfo : Nat := 0x10000 + 0x050
def F.hifPasidErrInfo_valid : Fld := ⟨31, 31⟩
def F.hifPasidErrInfo_is_write : Fld := ⟨30, 30⟩
def F.hifPasidErrInfo_had_pasid : Fld := ⟨29, 29⟩
def F.hifPasidErrInfo_slice : Fld := ⟨27, 20⟩
def F.hifPasidErrInfo_pasid : Fld := ⟨19, 0⟩

/-- HIF_PASID_ERR_ADDR (02_host_interface.md R67). -/
def R.hifPasidErrAddr : Nat := 0x10000 + 0x054
def F.hifPasidErrAddr_addr : Fld := ⟨31, 0⟩

/-- HIF_PASID_ERR_COUNT (02_host_interface.md R67). -/
def R.hifPasidErrCount : Nat := 0x10000 + 0x058
def F.hifPasidErrCount_count : Fld := ⟨31, 0⟩

/-- HIF_ACCESS_ERR_COUNT (02_host_interface.md R68). -/
def R.hifAccessErrCount : Nat := 0x10000 + 0x060
def F.hifAccessErrCount_count : Fld := ⟨31, 0⟩

/-- HIF_ACCESS_ERR_INFO (02_host_interface.md R68). -/
def R.hifAccessErrInfo : Nat := 0x10000 + 0x064
def F.hifAccessErrInfo_valid : Fld := ⟨31, 31⟩
def F.hifAccessErrInfo_is_write : Fld := ⟨30, 30⟩
def F.hifAccessErrInfo_kind : Fld := ⟨29, 27⟩
def F.hifAccessErrInfo_slice : Fld := ⟨15, 8⟩
def F.hifAccessErrInfo_length : Fld := ⟨3, 0⟩

/-- HIF_ACCESS_ERR_ADDR (02_host_interface.md R68). -/
def R.hifAccessErrAddr : Nat := 0x10000 + 0x068
def F.hifAccessErrAddr_addr : Fld := ⟨25, 0⟩

/-- HIF_LINK_STATUS (02_host_interface.md R90). -/
def R.hifLinkStatus : Nat := 0x10000 + 0x070
def F.hifLinkStatus_link_up : Fld := ⟨31, 31⟩
def F.hifLinkStatus_detached : Fld := ⟨30, 30⟩
def F.hifLinkStatus_reattaching : Fld := ⟨29, 29⟩
def F.hifLinkStatus_loss_count : Fld := ⟨15, 0⟩

/-- HIF_LINK_CTRL (02_host_interface.md R90). -/
def R.hifLinkCtrl : Nat := 0x10000 + 0x074
def F.hifLinkCtrl_reattach : Fld := ⟨0, 0⟩

/-- HIF_VEC_CAUSE (02_host_interface.md R88). -/
def R.hifVecCause : Nat := 0x12000 + 0x040
def F.hifVecCause_slice255_lines : Fld := ⟨15, 8⟩
def F.hifVecCause_station_lines : Fld := ⟨7, 0⟩

/-- HIF_MOD_SEL (12_interrupt_delivery.md R370). -/
def R.hifModSel : Nat := 0x12000 + 0x044
def F.hifModSel_vector : Fld := ⟨10, 0⟩

/-- HIF_MOD_DATA (12_interrupt_delivery.md R370). -/
def R.hifModData : Nat := 0x12000 + 0x048
def F.hifModData_interval : Fld := ⟨9, 0⟩

/-- HIF_APER_CTRL (02_host_interface.md R54). -/
def R.hifAperCtrl : Nat := 0x13000 + 0x040
def F.hifAperCtrl_enable : Fld := ⟨31, 31⟩
def F.hifAperCtrl_denied : Fld := ⟨30, 30⟩
def F.hifAperCtrl_base_mib : Fld := ⟨12, 0⟩

/-- CLK_GATE (14_clock_generation.md R406). -/
def R.clkGate (i : Nat) : Nat := 0x20000 + 0x040 + i * 4
def F.clkGate_open : Fld := ⟨31, 0⟩

/-- CLK_GATE_OPEN (14_clock_generation.md R403). -/
def R.clkGateOpen (i : Nat) : Nat := 0x20000 + 0x080 + i * 4
def F.clkGateOpen_gates : Fld := ⟨31, 0⟩

/-- CLK_GATE_CLOSE (14_clock_generation.md R404). -/
def R.clkGateClose (i : Nat) : Nat := 0x20000 + 0x0C0 + i * 4
def F.clkGateClose_gates : Fld := ⟨31, 0⟩

/-- CLK_GATE_REFUSED (14_clock_generation.md R406). -/
def R.clkGateRefused : Nat := 0x20000 + 0x100
def F.clkGateRefused_valid : Fld := ⟨31, 31⟩
def F.clkGateRefused_gate : Fld := ⟨8, 0⟩

/-- CLK_REF_STATUS (14_clock_generation.md R416). -/
def R.clkRefStatus : Nat := 0x21000 + 0x040
def F.clkRefStatus_ref_ok : Fld := ⟨31, 31⟩
def F.clkRefStatus_xo_ok : Fld := ⟨30, 30⟩
def F.clkRefStatus_holdover : Fld := ⟨29, 29⟩
def F.clkRefStatus_coast : Fld := ⟨28, 28⟩
def F.clkRefStatus_time_uncertain : Fld := ⟨27, 27⟩
def F.clkRefStatus_failures : Fld := ⟨15, 0⟩

/-- CLK_REF_COUNT (14_clock_generation.md R408). -/
def R.clkRefCount : Nat := 0x21000 + 0x044
def F.clkRefCount_count : Fld := ⟨19, 0⟩

/-- CLK_PLL_STATUS (14_clock_generation.md R416). -/
def R.clkPllStatus : Nat := 0x21000 + 0x048
def F.clkPllStatus_lost : Fld := ⟨29, 16⟩
def F.clkPllStatus_locked : Fld := ⟨13, 0⟩

/-- CLK_PLL_FAILED (14_clock_generation.md R409). -/
def R.clkPllFailed : Nat := 0x21000 + 0x04C
def F.clkPllFailed_failed : Fld := ⟨13, 0⟩

/-- CLK_DOM_SEL (14_clock_generation.md R398). -/
def R.clkDomSel : Nat := 0x21000 + 0x050
def F.clkDomSel_domain : Fld := ⟨4, 0⟩

/-- CLK_DOM_CFG (14_clock_generation.md R398). -/
def R.clkDomCfg : Nat := 0x21000 + 0x054
def F.clkDomCfg_switching : Fld := ⟨31, 31⟩
def F.clkDomCfg_coasting : Fld := ⟨30, 30⟩
def F.clkDomCfg_escaped : Fld := ⟨29, 29⟩
def F.clkDomCfg_refused : Fld := ⟨28, 28⟩
def F.clkDomCfg_ratio_now : Fld := ⟨20, 16⟩
def F.clkDomCfg_source : Fld := ⟨9, 8⟩
def F.clkDomCfg_ratio : Fld := ⟨4, 0⟩

/-- CLK_OUT_CTRL (14_clock_generation.md R407). -/
def R.clkOutCtrl : Nat := 0x21000 + 0x060
def F.clkOutCtrl_enable : Fld := ⟨31, 31⟩
def F.clkOutCtrl_source : Fld := ⟨27, 24⟩
def F.clkOutCtrl_pix : Fld := ⟨22, 20⟩
def F.clkOutCtrl_div_m1 : Fld := ⟨9, 0⟩

/-- PWR_STATE (16_power_resets_and_start_up.md R455). -/
def R.pwrState : Nat := 0x22000 + 0x040
def F.pwrState_busy : Fld := ⟨31, 31⟩
def F.pwrState_refused : Fld := ⟨30, 30⟩
def F.pwrState_reason : Fld := ⟨26, 24⟩
def F.pwrState_previous : Fld := ⟨15, 12⟩
def F.pwrState_current : Fld := ⟨11, 8⟩
def F.pwrState_target : Fld := ⟨3, 0⟩

/-- PWR_WAKE_LO (16_power_resets_and_start_up.md R455). -/
def R.pwrWakeLo : Nat := 0x22000 + 0x044
def F.pwrWakeLo_wake : Fld := ⟨31, 0⟩

/-- PWR_WAKE_HI (16_power_resets_and_start_up.md R455). -/
def R.pwrWakeHi : Nat := 0x22000 + 0x048
def F.pwrWakeHi_wake : Fld := ⟨31, 0⟩

/-- PWR_WAKE_CAUSE (16_power_resets_and_start_up.md R455). -/
def R.pwrWakeCause : Nat := 0x22000 + 0x04C
def F.pwrWakeCause_cause : Fld := ⟨3, 0⟩

/-- PWR_SAVE (16_power_resets_and_start_up.md R458). -/
def R.pwrSave : Nat := 0x22000 + 0x050
def F.pwrSave_base : Fld := ⟨12, 0⟩

/-- PWR_RESET (16_power_resets_and_start_up.md R462). -/
def R.pwrReset : Nat := 0x23000 + 0x040
def F.pwrReset_key : Fld := ⟨31, 16⟩
def F.pwrReset_station : Fld := ⟨0, 0⟩

/-- PWR_RESET_CAUSE (16_power_resets_and_start_up.md R462). -/
def R.pwrResetCause : Nat := 0x23000 + 0x044
def F.pwrResetCause_count : Fld := ⟨23, 16⟩
def F.pwrResetCause_previous : Fld := ⟨15, 8⟩
def F.pwrResetCause_cause : Fld := ⟨7, 0⟩

/-- PWR_WDOG_CTRL (16_power_resets_and_start_up.md R462). -/
def R.pwrWdogCtrl : Nat := 0x23000 + 0x048
def F.pwrWdogCtrl_enabled : Fld := ⟨31, 31⟩
def F.pwrWdogCtrl_timeout_ms : Fld := ⟨15, 0⟩

/-- PWR_WDOG_KICK (16_power_resets_and_start_up.md R462). -/
def R.pwrWdogKick : Nat := 0x23000 + 0x04C
def F.pwrWdogKick_key : Fld := ⟨31, 0⟩

/-- PWR_BO_STATUS (16_power_resets_and_start_up.md R480). -/
def R.pwrBoStatus : Nat := 0x23000 + 0x050
def F.pwrBoStatus_warning : Fld := ⟨31, 31⟩
def F.pwrBoStatus_warn_pin : Fld := ⟨30, 30⟩
def F.pwrBoStatus_vio_a_fault : Fld := ⟨29, 29⟩
def F.pwrBoStatus_vio_b_fault : Fld := ⟨28, 28⟩
def F.pwrBoStatus_warnings : Fld := ⟨15, 0⟩

/-- PWR_MAIN_MV (16_power_resets_and_start_up.md R480). -/
def R.pwrMainMv : Nat := 0x23000 + 0x054
def F.pwrMainMv_mv : Fld := ⟨15, 0⟩

/-- BOOT_STATUS (16_power_resets_and_start_up.md R477). -/
def R.bootStatus : Nat := 0x24000 + 0x040
def F.bootStatus_host_ready : Fld := ⟨31, 31⟩
def F.bootStatus_late : Fld := ⟨30, 30⟩
def F.bootStatus_station_ok : Fld := ⟨29, 29⟩
def F.bootStatus_fallback : Fld := ⟨28, 28⟩
def F.bootStatus_copy : Fld := ⟨27, 27⟩
def F.bootStatus_fw_error : Fld := ⟨23, 20⟩
def F.bootStatus_station_error : Fld := ⟨19, 16⟩
def F.bootStatus_attempts : Fld := ⟨15, 12⟩
def F.bootStatus_stage : Fld := ⟨3, 0⟩

/-- BOOT_CTRL (16_power_resets_and_start_up.md R470). -/
def R.bootCtrl : Nat := 0x24000 + 0x044
def F.bootCtrl_host_ready : Fld := ⟨31, 31⟩
def F.bootCtrl_confirm : Fld := ⟨30, 30⟩
def F.bootCtrl_release : Fld := ⟨3, 1⟩

/-- BOOT_FLASH_ADDR (16_power_resets_and_start_up.md R477). -/
def R.bootFlashAddr : Nat := 0x24000 + 0x048
def F.bootFlashAddr_addr : Fld := ⟨25, 0⟩

/-- BOOT_FLASH_CMD (16_power_resets_and_start_up.md R478). -/
def R.bootFlashCmd : Nat := 0x24000 + 0x04C
def F.bootFlashCmd_start : Fld := ⟨31, 31⟩
def F.bootFlashCmd_result : Fld := ⟨30, 28⟩
def F.bootFlashCmd_op : Fld := ⟨1, 0⟩

/-- BOOT_BUF_SEL (16_power_resets_and_start_up.md R477). -/
def R.bootBufSel : Nat := 0x24000 + 0x050
def F.bootBufSel_word : Fld := ⟨5, 0⟩

/-- BOOT_BUF_DATA (16_power_resets_and_start_up.md R477). -/
def R.bootBufData : Nat := 0x24000 + 0x054
def F.bootBufData_data : Fld := ⟨31, 0⟩

/-- BOOT_CORE_CTRL (16_power_resets_and_start_up.md R477). -/
def R.bootCoreCtrl : Nat := 0x24000 + 0x058
def F.bootCoreCtrl_resume : Fld := ⟨11, 8⟩
def F.bootCoreCtrl_halt : Fld := ⟨7, 4⟩
def F.bootCoreCtrl_reset : Fld := ⟨3, 0⟩

/-- BOOT_CORE_STATUS (16_power_resets_and_start_up.md R477). -/
def R.bootCoreStatus : Nat := 0x24000 + 0x05C
def F.bootCoreStatus_held : Fld := ⟨7, 4⟩
def F.bootCoreStatus_halted : Fld := ⟨3, 0⟩

/-- SLC_ADM_PASID (03_slices.md R96). -/
def R.slcAdmPasid (n : Nat) : Nat := 0x40000 + n * 0x1000 + 0x040
def F.slcAdmPasid_pasid : Fld := ⟨19, 0⟩

/-- SLC_ADM_CTRL (03_slices.md R96). -/
def R.slcAdmCtrl (n : Nat) : Nat := 0x40000 + n * 0x1000 + 0x044
def F.slcAdmCtrl_discard : Fld := ⟨8, 8⟩
def F.slcAdmCtrl_cmd : Fld := ⟨3, 0⟩

/-- SLC_ADM_STATUS (03_slices.md R96). -/
def R.slcAdmStatus (n : Nat) : Nat := 0x40000 + n * 0x1000 + 0x048
def F.slcAdmStatus_held_records : Fld := ⟨23, 16⟩
def F.slcAdmStatus_last_error : Fld := ⟨11, 8⟩
def F.slcAdmStatus_state : Fld := ⟨2, 0⟩

/-- SLC_ADM_PERM (03_slices.md R96). -/
def R.slcAdmPerm (n : Nat) : Nat := 0x40000 + n * 0x1000 + 0x04C
def F.slcAdmPerm_audio : Fld := ⟨24, 24⟩
def F.slcAdmPerm_haptic : Fld := ⟨23, 16⟩
def F.slcAdmPerm_touch : Fld := ⟨15, 8⟩
def F.slcAdmPerm_outputs : Fld := ⟨7, 0⟩

/-- SLC_ADM_RES (03_slices.md R101). -/
def R.slcAdmRes (n : Nat) : Nat := 0x40000 + n * 0x1000 + 0x050
def F.slcAdmRes_mem_quota_mib : Fld := ⟨31, 16⟩
def F.slcAdmRes_haul_weight : Fld := ⟨7, 0⟩

/-- SLC_ADM_MIG (03_slices.md R110). -/
def R.slcAdmMig (n : Nat) : Nat := 0x40000 + n * 0x1000 + 0x054
def F.slcAdmMig_method : Fld := ⟨1, 0⟩

/-- SLC_ADM_MAP (03_slices.md R96). -/
def R.slcAdmMap (n : Nat) : Nat := 0x40000 + n * 0x1000 + 0x058
def F.slcAdmMap_kind : Fld := ⟨31, 28⟩
def F.slcAdmMap_global : Fld := ⟨23, 16⟩
def F.slcAdmMap_valid : Fld := ⟨15, 15⟩
def F.slcAdmMap_ordinal : Fld := ⟨7, 0⟩

/-- SLC_ADM_DLOG_BASE_LO (03_slices.md R113). -/
def R.slcAdmDlogBaseLo (n : Nat) : Nat := 0x40000 + n * 0x1000 + 0x060
def F.slcAdmDlogBaseLo_base : Fld := ⟨31, 12⟩

/-- SLC_ADM_DLOG_BASE_HI (03_slices.md R113). -/
def R.slcAdmDlogBaseHi (n : Nat) : Nat := 0x40000 + n * 0x1000 + 0x064
def F.slcAdmDlogBaseHi_base : Fld := ⟨31, 0⟩

/-- SLC_ADM_DLOG_CTRL (03_slices.md R112). -/
def R.slcAdmDlogCtrl (n : Nat) : Nat := 0x40000 + n * 0x1000 + 0x068
def F.slcAdmDlogCtrl_stalled : Fld := ⟨31, 31⟩
def F.slcAdmDlogCtrl_log2_entries : Fld := ⟨4, 1⟩
def F.slcAdmDlogCtrl_enable : Fld := ⟨0, 0⟩

/-- SLC_ADM_DLOG_TAIL (03_slices.md R113). -/
def R.slcAdmDlogTail (n : Nat) : Nat := 0x40000 + n * 0x1000 + 0x06C
def F.slcAdmDlogTail_tail : Fld := ⟨31, 0⟩

/-- SLC_ADM_DLOG_HEAD (03_slices.md R116). -/
def R.slcAdmDlogHead (n : Nat) : Nat := 0x40000 + n * 0x1000 + 0x070
def F.slcAdmDlogHead_head : Fld := ⟨31, 0⟩

/-- SLC_ADM_DLOG_STALLS (03_slices.md R116). -/
def R.slcAdmDlogStalls (n : Nat) : Nat := 0x40000 + n * 0x1000 + 0x074
def F.slcAdmDlogStalls_stalls : Fld := ⟨31, 0⟩

/-- SRF_POOL (04_surfaces_and_haul.md R125). -/
def R.srfPool : Nat := 0x140000 + 0x040
def F.srfPool_size_mib : Fld := ⟨31, 16⟩
def F.srfPool_base_mib : Fld := ⟨12, 0⟩

/-- SRF_POOL_USED (04_surfaces_and_haul.md R125). -/
def R.srfPoolUsed : Nat := 0x140000 + 0x044
def F.srfPoolUsed_used : Fld := ⟨19, 0⟩

/-- SRF_DECODE_ERR (04_surfaces_and_haul.md R134). -/
def R.srfDecodeErr : Nat := 0x140000 + 0x048
def F.srfDecodeErr_count : Fld := ⟨31, 0⟩

/-- SRF_VERSIONS (04_surfaces_and_haul.md R125). -/
def R.srfVersions : Nat := 0x140000 + 0x04C
def F.srfVersions_live : Fld := ⟨16, 0⟩

/-- SRF_QUERY_SLICE (04_surfaces_and_haul.md R125). -/
def R.srfQuerySlice : Nat := 0x141000 + 0x040
def F.srfQuerySlice_slice : Fld := ⟨7, 0⟩

/-- SRF_QUERY_ID (04_surfaces_and_haul.md R125). -/
def R.srfQueryId : Nat := 0x141000 + 0x044
def F.srfQueryId_id : Fld := ⟨31, 0⟩

/-- SRF_QUERY_DESC (04_surfaces_and_haul.md R128). -/
def R.srfQueryDesc (i : Nat) : Nat := 0x141000 + 0x048 + i * 4
def F.srfQueryDesc_word : Fld := ⟨31, 0⟩

/-- SRF_QUERY_STATE (04_surfaces_and_haul.md R125). -/
def R.srfQueryState : Nat := 0x141000 + 0x068
def F.srfQueryState_versions : Fld := ⟨23, 16⟩
def F.srfQueryState_holders : Fld := ⟨15, 8⟩
def F.srfQueryState_state : Fld := ⟨2, 0⟩

/-- SRF_QUERY_DRAM (04_surfaces_and_haul.md R125). -/
def R.srfQueryDram : Nat := 0x141000 + 0x06C
def F.srfQueryDram_unit : Fld := ⟨19, 0⟩

/-- SRF_TILES_RAW (04_surfaces_and_haul.md R132). -/
def R.srfTilesRaw : Nat := 0x142000 + 0x040
def F.srfTilesRaw_count : Fld := ⟨31, 0⟩

/-- SRF_TILES_SOLID (04_surfaces_and_haul.md R132). -/
def R.srfTilesSolid : Nat := 0x142000 + 0x044
def F.srfTilesSolid_count : Fld := ⟨31, 0⟩

/-- SRF_TILES_DELTA (04_surfaces_and_haul.md R132). -/
def R.srfTilesDelta : Nat := 0x142000 + 0x048
def F.srfTilesDelta_count : Fld := ⟨31, 0⟩

/-- HAUL_STATUS (04_surfaces_and_haul.md R149). -/
def R.haulStatus (n : Nat) : Nat := 0x150000 + n * 0x1000 + 0x040
def F.haulStatus_busy : Fld := ⟨31, 31⟩
def F.haulStatus_station : Fld := ⟨30, 30⟩
def F.haulStatus_slice : Fld := ⟨15, 8⟩
def F.haulStatus_opcode : Fld := ⟨7, 0⟩

/-- HAUL_HANDLE (04_surfaces_and_haul.md R149). -/
def R.haulHandle (n : Nat) : Nat := 0x150000 + n * 0x1000 + 0x044
def F.haulHandle_handle : Fld := ⟨31, 0⟩

/-- HAUL_PROGRESS (04_surfaces_and_haul.md R149). -/
def R.haulProgress (n : Nat) : Nat := 0x150000 + n * 0x1000 + 0x048
def F.haulProgress_bytes : Fld := ⟨31, 0⟩

/-- HAUL_BYTES_LO (04_surfaces_and_haul.md R149). -/
def R.haulBytesLo (n : Nat) : Nat := 0x150000 + n * 0x1000 + 0x04C
def F.haulBytesLo_lo : Fld := ⟨31, 0⟩

/-- HAUL_BYTES_HI (04_surfaces_and_haul.md R149). -/
def R.haulBytesHi (n : Nat) : Nat := 0x150000 + n * 0x1000 + 0x050
def F.haulBytesHi_hi : Fld := ⟨31, 0⟩

/-- HAUL_DESC (04_surfaces_and_haul.md R150). -/
def R.haulDesc (n i : Nat) : Nat := 0x150000 + n * 0x1000 + 0x060 + i * 4
def F.haulDesc_word : Fld := ⟨31, 0⟩

/-- BPL_SHARE (05_bench_plan_and_fit_check.md R162). -/
def R.bplShare (n : Nat) : Nat := 0x160000 + n * 0x1000 + 0x040
def F.bplShare_lb_share : Fld := ⟨31, 24⟩
def F.bplShare_cmp_share : Fld := ⟨23, 16⟩
def F.bplShare_bw_share : Fld := ⟨15, 8⟩

/-- BPL_CHECK (05_bench_plan_and_fit_check.md R164). -/
def R.bplCheck (n : Nat) : Nat := 0x160000 + n * 0x1000 + 0x044
def F.bplCheck_busy : Fld := ⟨31, 31⟩
def F.bplCheck_share_refused : Fld := ⟨30, 30⟩
def F.bplCheck_queued : Fld := ⟨29, 24⟩
def F.bplCheck_last_reason : Fld := ⟨23, 16⟩
def F.bplCheck_shed_mask : Fld := ⟨7, 0⟩

/-- BPL_PEAK_BYTES (05_bench_plan_and_fit_check.md R164). -/
def R.bplPeakBytes (n : Nat) : Nat := 0x160000 + n * 0x1000 + 0x048
def F.bplPeakBytes_v : Fld := ⟨31, 0⟩

/-- BPL_PEAK_STEPS (05_bench_plan_and_fit_check.md R164). -/
def R.bplPeakSteps (n : Nat) : Nat := 0x160000 + n * 0x1000 + 0x04C
def F.bplPeakSteps_v : Fld := ⟨31, 0⟩

/-- BPL_LB_BYTES (05_bench_plan_and_fit_check.md R164). -/
def R.bplLbBytes (n : Nat) : Nat := 0x160000 + n * 0x1000 + 0x050
def F.bplLbBytes_v : Fld := ⟨31, 0⟩

/-- BPL_ACCEPTED (05_bench_plan_and_fit_check.md R164). -/
def R.bplAccepted (n : Nat) : Nat := 0x160000 + n * 0x1000 + 0x054
def F.bplAccepted_v : Fld := ⟨31, 0⟩

/-- BPL_REFUSED (05_bench_plan_and_fit_check.md R164). -/
def R.bplRefused (n : Nat) : Nat := 0x160000 + n * 0x1000 + 0x058
def F.bplRefused_v : Fld := ⟨31, 0⟩

/-- BPL_RB_CTRL (05_bench_plan_and_fit_check.md R177). -/
def R.bplRbCtrl (n : Nat) : Nat := 0x160000 + n * 0x1000 + 0x060
def F.bplRbCtrl_valid : Fld := ⟨31, 31⟩
def F.bplRbCtrl_which : Fld := ⟨1, 1⟩
def F.bplRbCtrl_snap : Fld := ⟨0, 0⟩

/-- BPL_RB_INDEX (05_bench_plan_and_fit_check.md R178). -/
def R.bplRbIndex (n : Nat) : Nat := 0x160000 + n * 0x1000 + 0x064
def F.bplRbIndex_index : Fld := ⟨7, 0⟩

/-- BPL_RB_DATA (05_bench_plan_and_fit_check.md R178). -/
def R.bplRbData (n : Nat) : Nat := 0x160000 + n * 0x1000 + 0x068
def F.bplRbData_word : Fld := ⟨31, 0⟩

/-- BPL_RB_FRAME (05_bench_plan_and_fit_check.md R178). -/
def R.bplRbFrame (n : Nat) : Nat := 0x160000 + n * 0x1000 + 0x06C
def F.bplRbFrame_frame : Fld := ⟨31, 0⟩

/-- BPL_CAPACITY (05_bench_plan_and_fit_check.md R171). -/
def R.bplCapacity (n : Nat) : Nat := 0x160000 + n * 0x1000 + 0x080
def F.bplCapacity_causes : Fld := ⟨28, 24⟩
def F.bplCapacity_r_eff : Fld := ⟨23, 16⟩
def F.bplCapacity_r_min : Fld := ⟨15, 8⟩
def F.bplCapacity_fallback_outputs : Fld := ⟨7, 0⟩

/-- OUT_CTRL (07_scanout_and_display_links.md R206). -/
def R.outCtrl (n : Nat) : Nat := 0x170000 + n * 0x1000 + 0x040
def F.outCtrl_bad_timing : Fld := ⟨31, 31⟩
def F.outCtrl_stop_refused : Fld := ⟨30, 30⟩
def F.outCtrl_depth30 : Fld := ⟨7, 7⟩
def F.outCtrl_hsync_pos : Fld := ⟨6, 6⟩
def F.outCtrl_vsync_pos : Fld := ⟨5, 5⟩
def F.outCtrl_tx : Fld := ⟨1, 1⟩
def F.outCtrl_run : Fld := ⟨0, 0⟩

/-- OUT_HTIME (07_scanout_and_display_links.md R207). -/
def R.outHtime (n : Nat) : Nat := 0x170000 + n * 0x1000 + 0x044
def F.outHtime_h_total : Fld := ⟨31, 16⟩
def F.outHtime_h_active : Fld := ⟨15, 0⟩

/-- OUT_HSYNC (07_scanout_and_display_links.md R207). -/
def R.outHsync (n : Nat) : Nat := 0x170000 + n * 0x1000 + 0x048
def F.outHsync_h_sync : Fld := ⟨31, 16⟩
def F.outHsync_h_front : Fld := ⟨15, 0⟩

/-- OUT_VTIME (07_scanout_and_display_links.md R207). -/
def R.outVtime (n : Nat) : Nat := 0x170000 + n * 0x1000 + 0x04C
def F.outVtime_v_total : Fld := ⟨31, 16⟩
def F.outVtime_v_active : Fld := ⟨15, 0⟩

/-- OUT_VSYNC (07_scanout_and_display_links.md R207). -/
def R.outVsync (n : Nat) : Nat := 0x170000 + n * 0x1000 + 0x050
def F.outVsync_v_sync : Fld := ⟨31, 16⟩
def F.outVsync_v_front : Fld := ⟨15, 0⟩

/-- OUT_PCLK (07_scanout_and_display_links.md R207). -/
def R.outPclk (n : Nat) : Nat := 0x170000 + n * 0x1000 + 0x054
def F.outPclk_pclk_khz : Fld := ⟨19, 0⟩

/-- OUT_LATCH (07_scanout_and_display_links.md R206). -/
def R.outLatch (n : Nat) : Nat := 0x170000 + n * 0x1000 + 0x058
def F.outLatch_guard_lines : Fld := ⟨21, 16⟩
def F.outLatch_latch_line : Fld := ⟨15, 0⟩

/-- OUT_FB_HTIME (07_scanout_and_display_links.md R207). -/
def R.outFbHtime (n : Nat) : Nat := 0x170000 + n * 0x1000 + 0x060
def F.outFbHtime_h_total : Fld := ⟨31, 16⟩

/-- OUT_FB_HSYNC (07_scanout_and_display_links.md R207). -/
def R.outFbHsync (n : Nat) : Nat := 0x170000 + n * 0x1000 + 0x064
def F.outFbHsync_h_sync : Fld := ⟨31, 16⟩
def F.outFbHsync_h_front : Fld := ⟨15, 0⟩

/-- OUT_FB_VTIME (07_scanout_and_display_links.md R207). -/
def R.outFbVtime (n : Nat) : Nat := 0x170000 + n * 0x1000 + 0x068
def F.outFbVtime_v_total : Fld := ⟨31, 16⟩

/-- OUT_FB_VSYNC (07_scanout_and_display_links.md R207). -/
def R.outFbVsync (n : Nat) : Nat := 0x170000 + n * 0x1000 + 0x06C
def F.outFbVsync_v_sync : Fld := ⟨31, 16⟩
def F.outFbVsync_v_front : Fld := ⟨15, 0⟩

/-- OUT_FB_PCLK (07_scanout_and_display_links.md R207). -/
def R.outFbPclk (n : Nat) : Nat := 0x170000 + n * 0x1000 + 0x070
def F.outFbPclk_valid : Fld := ⟨31, 31⟩
def F.outFbPclk_depth30 : Fld := ⟨30, 30⟩
def F.outFbPclk_pclk_khz : Fld := ⟨19, 0⟩

/-- OUT_FRAME (07_scanout_and_display_links.md R212). -/
def R.outFrame (n : Nat) : Nat := 0x170000 + n * 0x1000 + 0x080
def F.outFrame_frame : Fld := ⟨31, 0⟩

/-- OUT_TICK_LO (07_scanout_and_display_links.md R209). -/
def R.outTickLo (n : Nat) : Nat := 0x170000 + n * 0x1000 + 0x084
def F.outTickLo_lo : Fld := ⟨31, 0⟩

/-- OUT_TICK_HI (07_scanout_and_display_links.md R209). -/
def R.outTickHi (n : Nat) : Nat := 0x170000 + n * 0x1000 + 0x088
def F.outTickHi_hi : Fld := ⟨31, 0⟩

/-- OUT_POS (07_scanout_and_display_links.md R209). -/
def R.outPos (n : Nat) : Nat := 0x170000 + n * 0x1000 + 0x08C
def F.outPos_line : Fld := ⟨31, 16⟩
def F.outPos_pixel : Fld := ⟨15, 0⟩

/-- OUT_RATE (07_scanout_and_display_links.md R209). -/
def R.outRate (n : Nat) : Nat := 0x170000 + n * 0x1000 + 0x090
def F.outRate_mhz : Fld := ⟨31, 0⟩

/-- OUT_UR_LINES (07_scanout_and_display_links.md R221). -/
def R.outUrLines (n : Nat) : Nat := 0x170000 + n * 0x1000 + 0x0A0
def F.outUrLines_n : Fld := ⟨31, 0⟩

/-- OUT_UR_FRAMES (07_scanout_and_display_links.md R221). -/
def R.outUrFrames (n : Nat) : Nat := 0x170000 + n * 0x1000 + 0x0A4
def F.outUrFrames_n : Fld := ⟨31, 0⟩

/-- OUT_UR_INFO (07_scanout_and_display_links.md R221). -/
def R.outUrInfo (n : Nat) : Nat := 0x170000 + n * 0x1000 + 0x0A8
def F.outUrInfo_valid : Fld := ⟨31, 31⟩
def F.outUrInfo_line : Fld := ⟨15, 0⟩

/-- OUT_UR_FRAME (07_scanout_and_display_links.md R221). -/
def R.outUrFrame (n : Nat) : Nat := 0x170000 + n * 0x1000 + 0x0AC
def F.outUrFrame_frame : Fld := ⟨31, 0⟩

/-- OUT_ECC_BLOCKS (07_scanout_and_display_links.md R224). -/
def R.outEccBlocks (n : Nat) : Nat := 0x170000 + n * 0x1000 + 0x0B0
def F.outEccBlocks_n : Fld := ⟨31, 0⟩

/-- OUT_LINK_CTRL (07_scanout_and_display_links.md R225). -/
def R.outLinkCtrl (n : Nat) : Nat := 0x170000 + n * 0x1000 + 0x0C0
def F.outLinkCtrl_rate : Fld := ⟨23, 16⟩
def F.outLinkCtrl_lanes : Fld := ⟨11, 8⟩
def F.outLinkCtrl_ssc : Fld := ⟨7, 7⟩
def F.outLinkCtrl_mode : Fld := ⟨1, 0⟩

/-- OUT_LINK_STATUS (07_scanout_and_display_links.md R226). -/
def R.outLinkStatus (n : Nat) : Nat := 0x170000 + n * 0x1000 + 0x0C4
def F.outLinkStatus_rate : Fld := ⟨31, 24⟩
def F.outLinkStatus_lanes : Fld := ⟨23, 20⟩
def F.outLinkStatus_state : Fld := ⟨19, 16⟩
def F.outLinkStatus_tries : Fld := ⟨15, 8⟩

/-- OUT_LINK_DRIVE (07_scanout_and_display_links.md R226). -/
def R.outLinkDrive (n : Nat) : Nat := 0x170000 + n * 0x1000 + 0x0C8
def F.outLinkDrive_levels : Fld := ⟨31, 16⟩
def F.outLinkDrive_fixed : Fld := ⟨15, 0⟩

/-- OUT_LINK_RETRAINS (07_scanout_and_display_links.md R226). -/
def R.outLinkRetrains (n : Nat) : Nat := 0x170000 + n * 0x1000 + 0x0CC
def F.outLinkRetrains_n : Fld := ⟨31, 0⟩

/-- OUT_AUX_CMD (07_scanout_and_display_links.md R230). -/
def R.outAuxCmd (n : Nat) : Nat := 0x170000 + n * 0x1000 + 0x0E0
def F.outAuxCmd_start : Fld := ⟨31, 31⟩
def F.outAuxCmd_result : Fld := ⟨30, 28⟩
def F.outAuxCmd_request : Fld := ⟨27, 24⟩
def F.outAuxCmd_done : Fld := ⟨20, 16⟩
def F.outAuxCmd_len_m1 : Fld := ⟨3, 0⟩

/-- OUT_AUX_ADDR (07_scanout_and_display_links.md R231). -/
def R.outAuxAddr (n : Nat) : Nat := 0x170000 + n * 0x1000 + 0x0E4
def F.outAuxAddr_addr : Fld := ⟨19, 0⟩

/-- OUT_AUX_DATA (07_scanout_and_display_links.md R231). -/
def R.outAuxData (n i : Nat) : Nat := 0x170000 + n * 0x1000 + 0x0E8 + i * 4
def F.outAuxData_data : Fld := ⟨31, 0⟩

/-- OUT_FLOOR_STATUS (08_check_values_core_samples_and_floor_images.md R253). -/
def R.outFloorStatus (n : Nat) : Nat := 0x178000 + n * 0x1000 + 0x040
def F.outFloorStatus_valid : Fld := ⟨31, 31⟩
def F.outFloorStatus_loading : Fld := ⟨30, 30⟩
def F.outFloorStatus_length : Fld := ⟨20, 0⟩

/-- OUT_FLOOR_CRC (08_check_values_core_samples_and_floor_images.md R253). -/
def R.outFloorCrc (n : Nat) : Nat := 0x178000 + n * 0x1000 + 0x044
def F.outFloorCrc_crc : Fld := ⟨31, 0⟩

/-- OUT_FLOOR_COLOUR (08_check_values_core_samples_and_floor_images.md R253). -/
def R.outFloorColour (n : Nat) : Nat := 0x178000 + n * 0x1000 + 0x048
def F.outFloorColour_r : Fld := ⟨23, 16⟩
def F.outFloorColour_g : Fld := ⟨15, 8⟩
def F.outFloorColour_b : Fld := ⟨7, 0⟩

/-- OUT_FLOOR_SUBST (08_check_values_core_samples_and_floor_images.md R253). -/
def R.outFloorSubst (n : Nat) : Nat := 0x178000 + n * 0x1000 + 0x04C
def F.outFloorSubst_mask : Fld := ⟨15, 0⟩

/-- OUT_FLOOR_FRAME (08_check_values_core_samples_and_floor_images.md R253). -/
def R.outFloorFrame (n : Nat) : Nat := 0x178000 + n * 0x1000 + 0x050
def F.outFloorFrame_frame : Fld := ⟨31, 0⟩

/-- OUT_FLOOR_SRC (08_check_values_core_samples_and_floor_images.md R253). -/
def R.outFloorSrc (n : Nat) : Nat := 0x178000 + n * 0x1000 + 0x054
def F.outFloorSrc_start : Fld := ⟨31, 31⟩
def F.outFloorSrc_failed : Fld := ⟨30, 30⟩
def F.outFloorSrc_base : Fld := ⟨19, 0⟩

/-- LYR_ASSIGN (06_layer_composition.md ). -/
def R.lyrAssign (n : Nat) : Nat := 0x180000 + n * 0x1000 + 0x040
def F.lyrAssign_refused : Fld := ⟨31, 31⟩
def F.lyrAssign_capstone : Fld := ⟨15, 15⟩
def F.lyrAssign_position : Fld := ⟨10, 8⟩
def F.lyrAssign_output : Fld := ⟨3, 0⟩

/-- LYR_IMG_SEL (06_layer_composition.md R184). -/
def R.lyrImgSel (n : Nat) : Nat := 0x180000 + n * 0x1000 + 0x044
def F.lyrImgSel_bank : Fld := ⟨31, 31⟩
def F.lyrImgSel_word : Fld := ⟨16, 8⟩

/-- LYR_IMG_DATA (06_layer_composition.md R184). -/
def R.lyrImgData (n : Nat) : Nat := 0x180000 + n * 0x1000 + 0x048
def F.lyrImgData_data : Fld := ⟨31, 0⟩

/-- LYR_LATCH_FRAME (06_layer_composition.md R184). -/
def R.lyrLatchFrame (n : Nat) : Nat := 0x180000 + n * 0x1000 + 0x04C
def F.lyrLatchFrame_frame : Fld := ⟨31, 0⟩

/-- LYR_CAP_CTRL (06_layer_composition.md R202). -/
def R.lyrCapCtrl (n : Nat) : Nat := 0x180000 + n * 0x1000 + 0x050
def F.lyrCapCtrl_pending : Fld := ⟨31, 31⟩
def F.lyrCapCtrl_refused : Fld := ⟨30, 30⟩
def F.lyrCapCtrl_bad_source : Fld := ⟨29, 29⟩
def F.lyrCapCtrl_last_reason : Fld := ⟨23, 16⟩
def F.lyrCapCtrl_commit : Fld := ⟨0, 0⟩

/-- CVU_CFG (08_check_values_core_samples_and_floor_images.md R235). -/
def R.cvuCfg (n : Nat) : Nat := 0x1C0000 + n * 0x1000 + 0x040
def F.cvuCfg_write_refused : Fld := ⟨31, 31⟩
def F.cvuCfg_refout : Fld := ⟨9, 9⟩
def F.cvuCfg_refin : Fld := ⟨8, 8⟩
def F.cvuCfg_width_m1 : Fld := ⟨4, 0⟩

/-- CVU_POLY (08_check_values_core_samples_and_floor_images.md R235). -/
def R.cvuPoly (n : Nat) : Nat := 0x1C0000 + n * 0x1000 + 0x044
def F.cvuPoly_poly : Fld := ⟨31, 0⟩

/-- CVU_INIT (08_check_values_core_samples_and_floor_images.md R235). -/
def R.cvuInit (n : Nat) : Nat := 0x1C0000 + n * 0x1000 + 0x048
def F.cvuInit_init : Fld := ⟨31, 0⟩

/-- CVU_XOROUT (08_check_values_core_samples_and_floor_images.md R235). -/
def R.cvuXorout (n : Nat) : Nat := 0x1C0000 + n * 0x1000 + 0x04C
def F.cvuXorout_xorout : Fld := ⟨31, 0⟩

/-- CVU_VALUE (08_check_values_core_samples_and_floor_images.md R235). -/
def R.cvuValue (n : Nat) : Nat := 0x1C0000 + n * 0x1000 + 0x050
def F.cvuValue_value : Fld := ⟨31, 0⟩

/-- CVU_FINAL (08_check_values_core_samples_and_floor_images.md R235). -/
def R.cvuFinal (n : Nat) : Nat := 0x1C0000 + n * 0x1000 + 0x054
def F.cvuFinal_final : Fld := ⟨31, 0⟩

/-- CVU_FEED (08_check_values_core_samples_and_floor_images.md R235). -/
def R.cvuFeed (n : Nat) : Nat := 0x1C0000 + n * 0x1000 + 0x058
def F.cvuFeed_source : Fld := ⟨31, 30⟩
def F.cvuFeed_slice : Fld := ⟨15, 8⟩
def F.cvuFeed_regions : Fld := ⟨7, 0⟩

/-- CVU_BYTES (08_check_values_core_samples_and_floor_images.md R235). -/
def R.cvuBytes (n : Nat) : Nat := 0x1C0000 + n * 0x1000 + 0x05C
def F.cvuBytes_bytes : Fld := ⟨31, 0⟩

/-- CSR_CTRL (08_check_values_core_samples_and_floor_images.md R241). -/
def R.csrCtrl (n : Nat) : Nat := 0x1E0000 + n * 0x1000 + 0x040
def F.csrCtrl_unit : Fld := ⟨20, 16⟩
def F.csrCtrl_layer : Fld := ⟨13, 8⟩
def F.csrCtrl_enable : Fld := ⟨0, 0⟩

/-- CSR_POS (08_check_values_core_samples_and_floor_images.md R241). -/
def R.csrPos (n : Nat) : Nat := 0x1E0000 + n * 0x1000 + 0x044
def F.csrPos_y : Fld := ⟨31, 16⟩
def F.csrPos_x : Fld := ⟨15, 0⟩

/-- CSR_SIZE (08_check_values_core_samples_and_floor_images.md R241). -/
def R.csrSize (n : Nat) : Nat := 0x1E0000 + n * 0x1000 + 0x048
def F.csrSize_h : Fld := ⟨31, 16⟩
def F.csrSize_w : Fld := ⟨15, 0⟩

/-- CSR_EXPECT (08_check_values_core_samples_and_floor_images.md R241). -/
def R.csrExpect (n : Nat) : Nat := 0x1E0000 + n * 0x1000 + 0x04C
def F.csrExpect_expect : Fld := ⟨31, 0⟩

/-- CSR_LAT_CTRL (08_check_values_core_samples_and_floor_images.md R241). -/
def R.csrLatCtrl (n : Nat) : Nat := 0x1E0000 + n * 0x1000 + 0x050
def F.csrLatCtrl_v : Fld := ⟨31, 0⟩

/-- CSR_LAT_POS (08_check_values_core_samples_and_floor_images.md R241). -/
def R.csrLatPos (n : Nat) : Nat := 0x1E0000 + n * 0x1000 + 0x054
def F.csrLatPos_v : Fld := ⟨31, 0⟩

/-- CSR_LAT_SIZE (08_check_values_core_samples_and_floor_images.md R241). -/
def R.csrLatSize (n : Nat) : Nat := 0x1E0000 + n * 0x1000 + 0x058
def F.csrLatSize_v : Fld := ⟨31, 0⟩

/-- CSR_LAT_EXPECT (08_check_values_core_samples_and_floor_images.md R241). -/
def R.csrLatExpect (n : Nat) : Nat := 0x1E0000 + n * 0x1000 + 0x05C
def F.csrLatExpect_v : Fld := ⟨31, 0⟩

/-- CSR_RESULT (08_check_values_core_samples_and_floor_images.md R241). -/
def R.csrResult (n : Nat) : Nat := 0x1E0000 + n * 0x1000 + 0x060
def F.csrResult_v : Fld := ⟨31, 0⟩

/-- CSR_RESULT_FRAME (08_check_values_core_samples_and_floor_images.md R241). -/
def R.csrResultFrame (n : Nat) : Nat := 0x1E0000 + n * 0x1000 + 0x064
def F.csrResultFrame_v : Fld := ⟨31, 0⟩

/-- CSR_STATE (08_check_values_core_samples_and_floor_images.md R241). -/
def R.csrState (n : Nat) : Nat := 0x1E0000 + n * 0x1000 + 0x068
def F.csrState_unit : Fld := ⟨23, 16⟩
def F.csrState_state : Fld := ⟨2, 0⟩

/-- CSR_MISMATCHES (08_check_values_core_samples_and_floor_images.md R249). -/
def R.csrMismatches (n : Nat) : Nat := 0x1E0000 + n * 0x1000 + 0x06C
def F.csrMismatches_n : Fld := ⟨31, 0⟩

/-- TCP_PIN_SEL (09_capacitive_touch.md R258). -/
def R.tcpPinSel : Nat := 0x260000 + 0x040
def F.tcpPinSel_pin : Fld := ⟨8, 0⟩

/-- TCP_PIN_CFG (09_capacitive_touch.md ). -/
def R.tcpPinCfg : Nat := 0x260000 + 0x044
def F.tcpPinCfg_role : Fld := ⟨11, 10⟩
def F.tcpPinCfg_panel : Fld := ⟨9, 7⟩
def F.tcpPinCfg_index : Fld := ⟨6, 0⟩

/-- TCP_ALLOT_ERR (09_capacitive_touch.md R258). -/
def R.tcpAllotErr : Nat := 0x260000 + 0x048
def F.tcpAllotErr_refused : Fld := ⟨31, 31⟩
def F.tcpAllotErr_pin : Fld := ⟨8, 0⟩

/-- TCP_PW_BASE (09_capacitive_touch.md R292). -/
def R.tcpPwBase : Nat := 0x260000 + 0x060
def F.tcpPwBase_base : Fld := ⟨19, 0⟩

/-- TCP_PW_CTRL (09_capacitive_touch.md R292). -/
def R.tcpPwCtrl : Nat := 0x260000 + 0x064
def F.tcpPwCtrl_log2_records : Fld := ⟨4, 1⟩
def F.tcpPwCtrl_enable : Fld := ⟨0, 0⟩

/-- TCP_PW_POS (09_capacitive_touch.md R292). -/
def R.tcpPwPos : Nat := 0x260000 + 0x068
def F.tcpPwPos_tail : Fld := ⟨31, 16⟩
def F.tcpPwPos_head : Fld := ⟨15, 0⟩

/-- TCP_PW_DROPS (09_capacitive_touch.md R292). -/
def R.tcpPwDrops : Nat := 0x260000 + 0x06C
def F.tcpPwDrops_dropped : Fld := ⟨15, 0⟩

/-- TCP_PW_RFX_SEL (09_capacitive_touch.md R293). -/
def R.tcpPwRfxSel : Nat := 0x260000 + 0x070
def F.tcpPwRfxSel_binding : Fld := ⟨5, 2⟩
def F.tcpPwRfxSel_word : Fld := ⟨1, 0⟩

/-- TCP_PW_RFX_DATA (09_capacitive_touch.md R293). -/
def R.tcpPwRfxData : Nat := 0x260000 + 0x074
def F.tcpPwRfxData_data : Fld := ⟨31, 0⟩

/-- TCH_CTRL (09_capacitive_touch.md R260). -/
def R.tchCtrl (n : Nat) : Nat := 0x261000 + n * 0x1000 + 0x040
def F.tchCtrl_bad_config : Fld := ⟨31, 31⟩
def F.tchCtrl_ref_refused : Fld := ⟨30, 30⟩
def F.tchCtrl_capture_ref : Fld := ⟨29, 29⟩
def F.tchCtrl_rebase : Fld := ⟨28, 28⟩
def F.tchCtrl_tx_level : Fld := ⟨11, 8⟩
def F.tchCtrl_rate : Fld := ⟨5, 4⟩
def F.tchCtrl_window : Fld := ⟨1, 0⟩

/-- TCH_MAP (09_capacitive_touch.md R282). -/
def R.tchMap (n : Nat) : Nat := 0x261000 + n * 0x1000 + 0x044
def F.tchMap_mirror_y : Fld := ⟨6, 6⟩
def F.tchMap_mirror_x : Fld := ⟨5, 5⟩
def F.tchMap_swap : Fld := ⟨4, 4⟩
def F.tchMap_output : Fld := ⟨3, 0⟩

/-- TCH_SCALE (09_capacitive_touch.md R282). -/
def R.tchScale (n : Nat) : Nat := 0x261000 + n * 0x1000 + 0x048
def F.tchScale_scale_y : Fld := ⟨31, 16⟩
def F.tchScale_scale_x : Fld := ⟨15, 0⟩

/-- TCH_OFFSET (09_capacitive_touch.md R282). -/
def R.tchOffset (n : Nat) : Nat := 0x261000 + n * 0x1000 + 0x04C
def F.tchOffset_off_y : Fld := ⟨31, 16⟩
def F.tchOffset_off_x : Fld := ⟨15, 0⟩

/-- TCH_THRESH (09_capacitive_touch.md R279). -/
def R.tchThresh (n : Nat) : Nat := 0x261000 + n * 0x1000 + 0x050
def F.tchThresh_release_th : Fld := ⟨23, 12⟩
def F.tchThresh_touch_th : Fld := ⟨11, 0⟩

/-- TCH_NOISE (09_capacitive_touch.md R268). -/
def R.tchNoise (n : Nat) : Nat := 0x261000 + n * 0x1000 + 0x054
def F.tchNoise_charger_add : Fld := ⟨31, 24⟩
def F.tchNoise_cm_exit : Fld := ⟨23, 12⟩
def F.tchNoise_cm_enter : Fld := ⟨11, 0⟩

/-- TCH_HOP (09_capacitive_touch.md R267). -/
def R.tchHop (n : Nat) : Nat := 0x261000 + n * 0x1000 + 0x058
def F.tchHop_lock : Fld := ⟨31, 31⟩
def F.tchHop_lock_set : Fld := ⟨28, 24⟩
def F.tchHop_hop_scans : Fld := ⟨23, 16⟩
def F.tchHop_hop_trigger : Fld := ⟨11, 0⟩

/-- TCH_BASE (09_capacitive_touch.md R270). -/
def R.tchBase (n : Nat) : Nat := 0x261000 + n * 0x1000 + 0x05C
def F.tchBase_neg_th : Fld := ⟨31, 24⟩
def F.tchBase_neg_scans : Fld := ⟨23, 16⟩
def F.tchBase_rest_s : Fld := ⟨15, 4⟩
def F.tchBase_k_slow : Fld := ⟨3, 0⟩

/-- TCH_TRACK (09_capacitive_touch.md R280). -/
def R.tchTrack (n : Nat) : Nat := 0x261000 + n * 0x1000 + 0x060
def F.tchTrack_still_radius : Fld := ⟨23, 16⟩
def F.tchTrack_max_jump : Fld := ⟨15, 0⟩

/-- TCH_HOPSET_SEL (09_capacitive_touch.md R264). -/
def R.tchHopsetSel (n : Nat) : Nat := 0x261000 + n * 0x1000 + 0x064
def F.tchHopsetSel_set : Fld := ⟨4, 0⟩

/-- TCH_HOPSET_DATA (09_capacitive_touch.md R263). -/
def R.tchHopsetData (n : Nat) : Nat := 0x261000 + n * 0x1000 + 0x068
def F.tchHopsetData_valid : Fld := ⟨31, 31⟩
def F.tchHopsetData_stride_m1 : Fld := ⟨11, 9⟩
def F.tchHopsetData_base : Fld := ⟨8, 0⟩

/-- TCH_STATE (09_capacitive_touch.md R295). -/
def R.tchState (n : Nat) : Nat := 0x261000 + n * 0x1000 + 0x06C
def F.tchState_scan_count : Fld := ⟨31, 16⟩
def F.tchState_hop_set : Fld := ⟨15, 11⟩
def F.tchState_charger : Fld := ⟨10, 10⟩
def F.tchState_ref_valid : Fld := ⟨9, 9⟩
def F.tchState_rate_limited : Fld := ⟨8, 8⟩
def F.tchState_base_state : Fld := ⟨7, 6⟩
def F.tchState_contacts : Fld := ⟨4, 0⟩

/-- TCH_REF_SEL (09_capacitive_touch.md R273). -/
def R.tchRefSel (n : Nat) : Nat := 0x261000 + n * 0x1000 + 0x070
def F.tchRefSel_node : Fld := ⟨11, 0⟩

/-- TCH_REF_DATA (09_capacitive_touch.md R273). -/
def R.tchRefData (n : Nat) : Nat := 0x261000 + n * 0x1000 + 0x074
def F.tchRefData_ref : Fld := ⟨15, 0⟩

/-- TCH_REF_INFO (09_capacitive_touch.md R273). -/
def R.tchRefInfo (n : Nat) : Nat := 0x261000 + n * 0x1000 + 0x078
def F.tchRefInfo_valid : Fld := ⟨31, 31⟩
def F.tchRefInfo_window : Fld := ⟨6, 5⟩
def F.tchRefInfo_hopset : Fld := ⟨4, 0⟩

/-- TCH_RB_CTRL (09_capacitive_touch.md R266). -/
def R.tchRbCtrl (n : Nat) : Nat := 0x261000 + n * 0x1000 + 0x080
def F.tchRbCtrl_valid : Fld := ⟨31, 31⟩
def F.tchRbCtrl_which : Fld := ⟨1, 1⟩
def F.tchRbCtrl_snap : Fld := ⟨0, 0⟩

/-- TCH_RB_INDEX (09_capacitive_touch.md R266). -/
def R.tchRbIndex (n : Nat) : Nat := 0x261000 + n * 0x1000 + 0x084
def F.tchRbIndex_index : Fld := ⟨6, 0⟩

/-- TCH_RB_DATA (09_capacitive_touch.md R267). -/
def R.tchRbData (n : Nat) : Nat := 0x261000 + n * 0x1000 + 0x088
def F.tchRbData_word : Fld := ⟨31, 0⟩

/-- TCH_RB_SCAN (09_capacitive_touch.md R267). -/
def R.tchRbScan (n : Nat) : Nat := 0x261000 + n * 0x1000 + 0x08C
def F.tchRbScan_next : Fld := ⟨16, 16⟩
def F.tchRbScan_scan : Fld := ⟨15, 0⟩

/-- TCH_HOPS (09_capacitive_touch.md R270). -/
def R.tchHops (n : Nat) : Nat := 0x261000 + n * 0x1000 + 0x090
def F.tchHops_n : Fld := ⟨31, 0⟩

/-- TCH_NOBODY (09_capacitive_touch.md R285). -/
def R.tchNobody (n : Nat) : Nat := 0x261000 + n * 0x1000 + 0x094
def F.tchNobody_n : Fld := ⟨31, 0⟩

/-- TCH_OVERFLOW (09_capacitive_touch.md R280). -/
def R.tchOverflow (n : Nat) : Nat := 0x261000 + n * 0x1000 + 0x098
def F.tchOverflow_n : Fld := ⟨31, 0⟩

/-- TCH_REFLEXES (09_capacitive_touch.md R294). -/
def R.tchReflexes (n : Nat) : Nat := 0x261000 + n * 0x1000 + 0x09C
def F.tchReflexes_n : Fld := ⟨31, 0⟩

/-- TCH_DIAG_SEL (09_capacitive_touch.md R295). -/
def R.tchDiagSel (n : Nat) : Nat := 0x261000 + n * 0x1000 + 0x0A0
def F.tchDiagSel_kind : Fld := ⟨31, 30⟩
def F.tchDiagSel_index : Fld := ⟨11, 0⟩

/-- TCH_DIAG_DATA (09_capacitive_touch.md R295). -/
def R.tchDiagData (n : Nat) : Nat := 0x261000 + n * 0x1000 + 0x0A4
def F.tchDiagData_data : Fld := ⟨31, 0⟩

/-- HAP_CFG (10_haptic_and_acoustic_feedback.md R297). -/
def R.hapCfg (n : Nat) : Nat := 0x270000 + n * 0x1000 + 0x040
def F.hapCfg_slice_prio_max : Fld := ⟨21, 20⟩
def F.hapCfg_cap_nf : Fld := ⟨15, 0⟩

/-- HAP_VOLT (10_haptic_and_acoustic_feedback.md R297). -/
def R.hapVolt (n : Nat) : Nat := 0x270000 + n * 0x1000 + 0x044
def F.hapVolt_v_max : Fld := ⟨27, 16⟩
def F.hapVolt_bias : Fld := ⟨11, 0⟩

/-- HAP_GAIN_A (10_haptic_and_acoustic_feedback.md R302). -/
def R.hapGainA (n : Nat) : Nat := 0x270000 + n * 0x1000 + 0x048
def F.hapGainA_kff : Fld := ⟨31, 16⟩
def F.hapGainA_kp : Fld := ⟨15, 0⟩

/-- HAP_GAIN_B (10_haptic_and_acoustic_feedback.md R302). -/
def R.hapGainB (n : Nat) : Nat := 0x270000 + n * 0x1000 + 0x04C
def F.hapGainB_ki : Fld := ⟨31, 16⟩
def F.hapGainB_kb : Fld := ⟨15, 0⟩

/-- HAP_LIMIT (10_haptic_and_acoustic_feedback.md R301). -/
def R.hapLimit (n : Nat) : Nat := 0x270000 + n * 0x1000 + 0x050
def F.hapLimit_acc_max : Fld := ⟨31, 16⟩
def F.hapLimit_brake_max : Fld := ⟨15, 8⟩
def F.hapLimit_quiet : Fld := ⟨7, 0⟩

/-- HAP_BUDGET (10_haptic_and_acoustic_feedback.md R309). -/
def R.hapBudget (n : Nat) : Nat := 0x270000 + n * 0x1000 + 0x054
def F.hapBudget_refused : Fld := ⟨31, 31⟩
def F.hapBudget_floor_mw : Fld := ⟨15, 0⟩

/-- HAP_ACC_CFG (10_haptic_and_acoustic_feedback.md R298). -/
def R.hapAccCfg (n : Nat) : Nat := 0x270000 + n * 0x1000 + 0x060
def F.hapAccCfg_cpol : Fld := ⟨31, 31⟩
def F.hapAccCfg_cpha : Fld := ⟨30, 30⟩
def F.hapAccCfg_clk_div : Fld := ⟨23, 16⟩
def F.hapAccCfg_cmd : Fld := ⟨15, 8⟩
def F.hapAccCfg_msb_first : Fld := ⟨2, 2⟩
def F.hapAccCfg_bytes_m1 : Fld := ⟨1, 0⟩

/-- HAP_ACC_SCALE (10_haptic_and_acoustic_feedback.md R299). -/
def R.hapAccScale (n : Nat) : Nat := 0x270000 + n * 0x1000 + 0x064
def F.hapAccScale_scale : Fld := ⟨31, 16⟩
def F.hapAccScale_offset : Fld := ⟨15, 0⟩

/-- HAP_ACC_RAW (10_haptic_and_acoustic_feedback.md R298). -/
def R.hapAccRaw (n : Nat) : Nat := 0x270000 + n * 0x1000 + 0x068
def F.hapAccRaw_start : Fld := ⟨31, 31⟩
def F.hapAccRaw_refused : Fld := ⟨30, 30⟩
def F.hapAccRaw_len_m1 : Fld := ⟨25, 24⟩
def F.hapAccRaw_data : Fld := ⟨23, 0⟩

/-- HAP_STATE (10_haptic_and_acoustic_feedback.md R311). -/
def R.hapState (n : Nat) : Nat := 0x270000 + n * 0x1000 + 0x070
def F.hapState_cmd_result : Fld := ⟨31, 24⟩
def F.hapState_owner : Fld := ⟨23, 16⟩
def F.hapState_source : Fld := ⟨15, 13⟩
def F.hapState_priority : Fld := ⟨12, 10⟩
def F.hapState_pending : Fld := ⟨7, 7⟩
def F.hapState_budget_limited : Fld := ⟨6, 6⟩
def F.hapState_sensor_fault : Fld := ⟨5, 5⟩
def F.hapState_state : Fld := ⟨2, 0⟩

/-- HAP_MEAS (10_haptic_and_acoustic_feedback.md R311). -/
def R.hapMeas (n : Nat) : Nat := 0x270000 + n * 0x1000 + 0x074
def F.hapMeas_a : Fld := ⟨31, 16⟩
def F.hapMeas_out : Fld := ⟨11, 0⟩

/-- HAP_CMD (10_haptic_and_acoustic_feedback.md R305). -/
def R.hapCmd (n : Nat) : Nat := 0x270000 + n * 0x1000 + 0x078
def F.hapCmd_stop : Fld := ⟨31, 31⟩
def F.hapCmd_level : Fld := ⟨23, 16⟩
def F.hapCmd_effect : Fld := ⟨15, 0⟩

/-- HAP_STARTS (10_haptic_and_acoustic_feedback.md R311). -/
def R.hapStarts (n : Nat) : Nat := 0x270000 + n * 0x1000 + 0x080
def F.hapStarts_n : Fld := ⟨31, 0⟩

/-- HAP_DROPPED (10_haptic_and_acoustic_feedback.md R307). -/
def R.hapDropped (n : Nat) : Nat := 0x270000 + n * 0x1000 + 0x084
def F.hapDropped_n : Fld := ⟨31, 0⟩

/-- HAP_PREEMPTS (10_haptic_and_acoustic_feedback.md R307). -/
def R.hapPreempts (n : Nat) : Nat := 0x270000 + n * 0x1000 + 0x088
def F.hapPreempts_n : Fld := ⟨31, 0⟩

/-- HAP_LIMITED_TICKS (10_haptic_and_acoustic_feedback.md R310). -/
def R.hapLimitedTicks (n : Nat) : Nat := 0x270000 + n * 0x1000 + 0x08C
def F.hapLimitedTicks_n : Fld := ⟨31, 0⟩

/-- HAP_RB_CTRL (10_haptic_and_acoustic_feedback.md R312). -/
def R.hapRbCtrl (n : Nat) : Nat := 0x270000 + n * 0x1000 + 0x0A0
def F.hapRbCtrl_valid : Fld := ⟨31, 31⟩
def F.hapRbCtrl_snap : Fld := ⟨0, 0⟩

/-- HAP_RB_INDEX (10_haptic_and_acoustic_feedback.md R312). -/
def R.hapRbIndex (n : Nat) : Nat := 0x270000 + n * 0x1000 + 0x0A4
def F.hapRbIndex_index : Fld := ⟨3, 0⟩

/-- HAP_RB_DATA (10_haptic_and_acoustic_feedback.md R312). -/
def R.hapRbData (n : Nat) : Nat := 0x270000 + n * 0x1000 + 0x0A8
def F.hapRbData_word : Fld := ⟨31, 0⟩

/-- HAP_STORE_CTRL (10_haptic_and_acoustic_feedback.md R303). -/
def R.hapStoreCtrl (n : Nat) : Nat := 0x270000 + n * 0x1000 + 0x0C0
def F.hapStoreCtrl_old_busy : Fld := ⟨31, 31⟩
def F.hapStoreCtrl_write_refused : Fld := ⟨30, 30⟩
def F.hapStoreCtrl_publish : Fld := ⟨0, 0⟩

/-- HAP_STORE_ADDR (10_haptic_and_acoustic_feedback.md R303). -/
def R.hapStoreAddr (n : Nat) : Nat := 0x270000 + n * 0x1000 + 0x0C4
def F.hapStoreAddr_addr : Fld := ⟨21, 2⟩

/-- HAP_STORE_DATA (10_haptic_and_acoustic_feedback.md R303). -/
def R.hapStoreData (n : Nat) : Nat := 0x270000 + n * 0x1000 + 0x0C8
def F.hapStoreData_data : Fld := ⟨31, 0⟩

/-- HAP_RAIL (10_haptic_and_acoustic_feedback.md R311). -/
def R.hapRail (n : Nat) : Nat := 0x270000 + n * 0x1000 + 0x0D0
def F.hapRail_rail_ok : Fld := ⟨31, 31⟩
def F.hapRail_fault : Fld := ⟨30, 30⟩
def F.hapRail_tenths : Fld := ⟨11, 0⟩

/-- AUD_ROUTE_SEL (10_haptic_and_acoustic_feedback.md R317). -/
def R.audRouteSel : Nat := 0x278000 + 0x040
def F.audRouteSel_stream : Fld := ⟨7, 0⟩

/-- AUD_ROUTE_DATA (10_haptic_and_acoustic_feedback.md R317). -/
def R.audRouteData : Nat := 0x278000 + 0x044
def F.audRouteData_g_station : Fld := ⟨31, 16⟩
def F.audRouteData_enable : Fld := ⟨15, 15⟩
def F.audRouteData_port : Fld := ⟨12, 11⟩
def F.audRouteData_slot_l : Fld := ⟨10, 8⟩
def F.audRouteData_slot_r : Fld := ⟨6, 4⟩

/-- AUD_ACTIVE (10_haptic_and_acoustic_feedback.md R317). -/
def R.audActive : Nat := 0x278000 + 0x048
def F.audActive_streams : Fld := ⟨8, 0⟩

/-- AUD_TDM_CTRL (10_haptic_and_acoustic_feedback.md R318). -/
def R.audTdmCtrl (n : Nat) : Nat := 0x279000 + n * 0x1000 + 0x040
def F.audTdmCtrl_clock_lost : Fld := ⟨31, 31⟩
def F.audTdmCtrl_fsync_pol : Fld := ⟨5, 5⟩
def F.audTdmCtrl_fsync_slot : Fld := ⟨4, 4⟩
def F.audTdmCtrl_delay : Fld := ⟨3, 3⟩
def F.audTdmCtrl_launch_fall : Fld := ⟨2, 2⟩
def F.audTdmCtrl_master : Fld := ⟨0, 0⟩

/-- AUD_TDM_SLOTS (10_haptic_and_acoustic_feedback.md R319). -/
def R.audTdmSlots (n : Nat) : Nat := 0x279000 + n * 0x1000 + 0x044
def F.audTdmSlots_slots : Fld := ⟨7, 0⟩

/-- AUD_TDM_SLIPS (10_haptic_and_acoustic_feedback.md R319). -/
def R.audTdmSlips (n : Nat) : Nat := 0x279000 + n * 0x1000 + 0x048
def F.audTdmSlips_n : Fld := ⟨31, 0⟩

/-- AUD_TDM_CLIP (10_haptic_and_acoustic_feedback.md R318). -/
def R.audTdmClip (n : Nat) : Nat := 0x279000 + n * 0x1000 + 0x04C
def F.audTdmClip_n : Fld := ⟨31, 0⟩

/-- WLD_STATUS (11_control_cores_and_the_protected_world.md R350). -/
def R.wldStatus : Nat := 0x280000 + 0x040
def F.wldStatus_running : Fld := ⟨31, 31⟩
def F.wldStatus_parked : Fld := ⟨30, 30⟩
def F.wldStatus_restarts : Fld := ⟨23, 16⟩
def F.wldStatus_last_cause : Fld := ⟨7, 0⟩

/-- WLD_PW_CTRL (11_control_cores_and_the_protected_world.md R351). -/
def R.wldPwCtrl : Nat := 0x280000 + 0x044
def F.wldPwCtrl_self_reset : Fld := ⟨31, 31⟩
def F.wldPwCtrl_max_restarts : Fld := ⟨7, 4⟩
def F.wldPwCtrl_running : Fld := ⟨0, 0⟩

/-- WLD_WDOG_CTRL (11_control_cores_and_the_protected_world.md R351). -/
def R.wldWdogCtrl : Nat := 0x280000 + 0x048
def F.wldWdogCtrl_enabled : Fld := ⟨31, 31⟩
def F.wldWdogCtrl_timeout_ms : Fld := ⟨15, 0⟩

/-- WLD_WDOG_KICK (11_control_cores_and_the_protected_world.md R351). -/
def R.wldWdogKick : Nat := 0x280000 + 0x04C
def F.wldWdogKick_key : Fld := ⟨31, 0⟩

/-- WLD_WDOG_LEFT (11_control_cores_and_the_protected_world.md R351). -/
def R.wldWdogLeft : Nat := 0x280000 + 0x050
def F.wldWdogLeft_us : Fld := ⟨31, 0⟩

/-- WLD_LOCK (11_control_cores_and_the_protected_world.md R346). -/
def R.wldLock : Nat := 0x280000 + 0x054
def F.wldLock_cache_lock : Fld := ⟨2, 2⟩
def F.wldLock_assign_lock : Fld := ⟨1, 1⟩
def F.wldLock_guard_lock : Fld := ⟨0, 0⟩

/-- WLD_CORE_CTRL (11_control_cores_and_the_protected_world.md R347). -/
def R.wldCoreCtrl : Nat := 0x280000 + 0x058
def F.wldCoreCtrl_mon_ecall : Fld := ⟨3, 0⟩

/-- WLD_FW_VERSION (11_control_cores_and_the_protected_world.md R347). -/
def R.wldFwVersion : Nat := 0x280000 + 0x05C
def F.wldFwVersion_version : Fld := ⟨31, 0⟩

/-- WLD_BOOT_G_ENTRY (11_control_cores_and_the_protected_world.md R347). -/
def R.wldBootGEntry : Nat := 0x280000 + 0x060
def F.wldBootGEntry_entry : Fld := ⟨31, 1⟩

/-- WLD_CACHE_WAYS (11_control_cores_and_the_protected_world.md R342). -/
def R.wldCacheWays : Nat := 0x280000 + 0x064
def F.wldCacheWays_l1d_pw : Fld := ⟨15, 8⟩
def F.wldCacheWays_l1i_pw : Fld := ⟨7, 0⟩

/-- WLD_GUARD_SEL (11_control_cores_and_the_protected_world.md R338). -/
def R.wldGuardSel : Nat := 0x281000 + 0x040
def F.wldGuardSel_guard : Fld := ⟨31, 30⟩
def F.wldGuardSel_region : Fld := ⟨3, 0⟩

/-- WLD_GUARD_BASE (11_control_cores_and_the_protected_world.md R338). -/
def R.wldGuardBase : Nat := 0x281000 + 0x044
def F.wldGuardBase_base : Fld := ⟨19, 0⟩

/-- WLD_GUARD_SIZE (11_control_cores_and_the_protected_world.md R338). -/
def R.wldGuardSize : Nat := 0x281000 + 0x048
def F.wldGuardSize_enable : Fld := ⟨31, 31⟩
def F.wldGuardSize_size : Fld := ⟨19, 0⟩

/-- WLD_GUARD_LOG_INFO (11_control_cores_and_the_protected_world.md R340). -/
def R.wldGuardLogInfo : Nat := 0x281000 + 0x050
def F.wldGuardLogInfo_valid : Fld := ⟨31, 31⟩
def F.wldGuardLogInfo_write : Fld := ⟨30, 30⟩
def F.wldGuardLogInfo_guard : Fld := ⟨29, 28⟩
def F.wldGuardLogInfo_requester : Fld := ⟨23, 16⟩

/-- WLD_GUARD_LOG_ADDR (11_control_cores_and_the_protected_world.md R340). -/
def R.wldGuardLogAddr : Nat := 0x281000 + 0x054
def F.wldGuardLogAddr_addr : Fld := ⟨31, 0⟩

/-- WLD_GUARD_DENIALS (11_control_cores_and_the_protected_world.md R340). -/
def R.wldGuardDenials : Nat := 0x281000 + 0x058
def F.wldGuardDenials_n : Fld := ⟨31, 0⟩

/-- WLD_GATE_CTRL (11_control_cores_and_the_protected_world.md R335). -/
def R.wldGateCtrl : Nat := 0x282000 + 0x040
def F.wldGateCtrl_armed : Fld := ⟨31, 31⟩
def F.wldGateCtrl_busy : Fld := ⟨30, 30⟩
def F.wldGateCtrl_holder : Fld := ⟨29, 28⟩

/-- WLD_GATE_SEL (11_control_cores_and_the_protected_world.md R336). -/
def R.wldGateSel : Nat := 0x282000 + 0x044
def F.wldGateSel_service : Fld := ⟨5, 0⟩

/-- WLD_GATE_ENTRY (11_control_cores_and_the_protected_world.md R336). -/
def R.wldGateEntry : Nat := 0x282000 + 0x048
def F.wldGateEntry_entry : Fld := ⟨31, 2⟩
def F.wldGateEntry_valid : Fld := ⟨0, 0⟩

/-- WLD_GATE_CALLS (11_control_cores_and_the_protected_world.md R336). -/
def R.wldGateCalls : Nat := 0x282000 + 0x04C
def F.wldGateCalls_n : Fld := ⟨31, 0⟩

/-- WLD_GATE_REFUSED (11_control_cores_and_the_protected_world.md R336). -/
def R.wldGateRefused : Nat := 0x282000 + 0x050
def F.wldGateRefused_n : Fld := ⟨31, 0⟩

/-- WLD_MBOX_SEL (11_control_cores_and_the_protected_world.md R334). -/
def R.wldMboxSel : Nat := 0x282000 + 0x060
def F.wldMboxSel_slot : Fld := ⟨7, 4⟩
def F.wldMboxSel_word : Fld := ⟨2, 0⟩

/-- WLD_MBOX_DATA (11_control_cores_and_the_protected_world.md R334). -/
def R.wldMboxData : Nat := 0x282000 + 0x064
def F.wldMboxData_data : Fld := ⟨31, 0⟩

/-- WLD_ASSIGN (11_control_cores_and_the_protected_world.md R343). -/
def R.wldAssign : Nat := 0x283000 + 0x040
def F.wldAssign_refused : Fld := ⟨31, 31⟩
def F.wldAssign_type : Fld := ⟨23, 8⟩
def F.wldAssign_instance : Fld := ⟨7, 0⟩

/-- WLD_XW_INFO (11_control_cores_and_the_protected_world.md R350). -/
def R.wldXwInfo : Nat := 0x283000 + 0x044
def F.wldXwInfo_valid : Fld := ⟨31, 31⟩
def F.wldXwInfo_kind : Fld := ⟨30, 28⟩
def F.wldXwInfo_requester : Fld := ⟨27, 24⟩
def F.wldXwInfo_page : Fld := ⟨11, 0⟩

/-- WLD_XW_DENIED (11_control_cores_and_the_protected_world.md R350). -/
def R.wldXwDenied : Nat := 0x283000 + 0x048
def F.wldXwDenied_n : Fld := ⟨31, 0⟩

/-- WLD_PWR_NOTICE (11_control_cores_and_the_protected_world.md R349). -/
def R.wldPwrNotice : Nat := 0x283000 + 0x04C
def F.wldPwrNotice_pending : Fld := ⟨31, 31⟩
def F.wldPwrNotice_ready : Fld := ⟨30, 30⟩
def F.wldPwrNotice_state : Fld := ⟨3, 0⟩

/-- WLD_SRC_WORLD (11_control_cores_and_the_protected_world.md R345). -/
def R.wldSrcWorld (i : Nat) : Nat := 0x283000 + 0x060 + i * 4
def F.wldSrcWorld_world : Fld := ⟨31, 0⟩

/-- CIC_SRC_SEL (12_interrupt_delivery.md R358). -/
def R.cicSrcSel : Nat := 0x288000 + 0x040
def F.cicSrcSel_source : Fld := ⟨8, 0⟩

/-- CIC_SRC_CFG (12_interrupt_delivery.md R357). -/
def R.cicSrcCfg : Nat := 0x288000 + 0x044
def F.cicSrcCfg_pending : Fld := ⟨31, 31⟩
def F.cicSrcCfg_claimed : Fld := ⟨30, 30⟩
def F.cicSrcCfg_claimer : Fld := ⟨29, 28⟩
def F.cicSrcCfg_world : Fld := ⟨27, 27⟩
def F.cicSrcCfg_level : Fld := ⟨26, 26⟩
def F.cicSrcCfg_input : Fld := ⟨25, 25⟩
def F.cicSrcCfg_priority : Fld := ⟨10, 8⟩
def F.cicSrcCfg_target : Fld := ⟨5, 4⟩
def F.cicSrcCfg_enable : Fld := ⟨0, 0⟩

/-- CIC_PENDING (12_interrupt_delivery.md R358). -/
def R.cicPending (i : Nat) : Nat := 0x288000 + 0x080 + i * 4
def F.cicPending_pending : Fld := ⟨31, 0⟩

/-- CIC_CLAIM (12_interrupt_delivery.md R360). -/
def R.cicClaim : Nat := 0x289000 + 0x040
def F.cicClaim_source : Fld := ⟨8, 0⟩

/-- CIC_COMPLETE_ERR (12_interrupt_delivery.md R362). -/
def R.cicCompleteErr : Nat := 0x289000 + 0x044
def F.cicCompleteErr_n : Fld := ⟨31, 0⟩

/-- CIC_THRESH (12_interrupt_delivery.md R363). -/
def R.cicThresh (i : Nat) : Nat := 0x289000 + 0x050 + i * 4
def F.cicThresh_p_thresh : Fld := ⟨10, 8⟩
def F.cicThresh_g_thresh : Fld := ⟨2, 0⟩

/-- CIC_SWI (12_interrupt_delivery.md R357). -/
def R.cicSwi : Nat := 0x289000 + 0x060
def F.cicSwi_swi : Fld := ⟨3, 0⟩

/-- CIC_TCMP_LO (12_interrupt_delivery.md R357). -/
def R.cicTcmpLo (i : Nat) : Nat := 0x289000 + 0x070 + i * 8
def F.cicTcmpLo_lo : Fld := ⟨31, 0⟩

/-- CIC_TCMP_HI (12_interrupt_delivery.md R357). -/
def R.cicTcmpHi (i : Nat) : Nat := 0x289000 + 0x074 + i * 8
def F.cicTcmpHi_hi : Fld := ⟨31, 0⟩

/-- DMC_CTRL (13_memory_controller.md R376). -/
def R.dmcCtrl : Nat := 0x290000 + 0x040
def F.dmcCtrl_cfg_lock : Fld := ⟨31, 31⟩
def F.dmcCtrl_scrub_en : Fld := ⟨8, 8⟩
def F.dmcCtrl_sp_min : Fld := ⟨3, 2⟩
def F.dmcCtrl_sp_target : Fld := ⟨1, 0⟩

/-- DMC_STATUS (13_memory_controller.md R376). -/
def R.dmcStatus : Nat := 0x290000 + 0x044
def F.dmcStatus_sp_current : Fld := ⟨17, 16⟩
def F.dmcStatus_switching : Fld := ⟨9, 9⟩
def F.dmcStatus_extended : Fld := ⟨8, 8⟩
def F.dmcStatus_ready : Fld := ⟨0, 0⟩

/-- DMC_HASH_0 (13_memory_controller.md R374). -/
def R.dmcHash0 : Nat := 0x290000 + 0x060
def F.dmcHash0_mask : Fld := ⟨29, 15⟩

/-- DMC_HASH_1 (13_memory_controller.md R374). -/
def R.dmcHash1 : Nat := 0x290000 + 0x064
def F.dmcHash1_mask : Fld := ⟨29, 15⟩

/-- DMC_HASH_2 (13_memory_controller.md R374). -/
def R.dmcHash2 : Nat := 0x290000 + 0x068
def F.dmcHash2_mask : Fld := ⟨29, 15⟩

/-- DMC_HASH_3 (13_memory_controller.md R374). -/
def R.dmcHash3 : Nat := 0x290000 + 0x06C
def F.dmcHash3_mask : Fld := ⟨29, 15⟩

/-- DMC_WQ (13_memory_controller.md R387). -/
def R.dmcWq : Nat := 0x290000 + 0x070
def F.dmcWq_wq_high : Fld := ⟨15, 8⟩
def F.dmcWq_wq_low : Fld := ⟨7, 0⟩

/-- DMC_UE_INFO (13_memory_controller.md R383). -/
def R.dmcUeInfo : Nat := 0x290000 + 0x080
def F.dmcUeInfo_valid : Fld := ⟨31, 31⟩
def F.dmcUeInfo_rmw : Fld := ⟨30, 30⟩
def F.dmcUeInfo_channel : Fld := ⟨29, 27⟩
def F.dmcUeInfo_requester : Fld := ⟨23, 16⟩
def F.dmcUeInfo_slice : Fld := ⟨15, 8⟩

/-- DMC_UE_BLOCK (13_memory_controller.md R383). -/
def R.dmcUeBlock : Nat := 0x290000 + 0x084
def F.dmcUeBlock_block : Fld := ⟨26, 0⟩

/-- DMC_UE_COUNT (13_memory_controller.md R383). -/
def R.dmcUeCount : Nat := 0x290000 + 0x088
def F.dmcUeCount_n : Fld := ⟨31, 0⟩

/-- DMC_CE_COUNT (13_memory_controller.md R380). -/
def R.dmcCeCount : Nat := 0x290000 + 0x08C
def F.dmcCeCount_n : Fld := ⟨31, 0⟩

/-- DMC_ECC_INJECT (13_memory_controller.md R383). -/
def R.dmcEccInject : Nat := 0x290000 + 0x090
def F.dmcEccInject_arm : Fld := ⟨31, 31⟩
def F.dmcEccInject_two_words : Fld := ⟨30, 30⟩
def F.dmcEccInject_block : Fld := ⟨26, 0⟩

/-- DMC_SCRUB (13_memory_controller.md R383). -/
def R.dmcScrub : Nat := 0x290000 + 0x094
def F.dmcScrub_period : Fld := ⟨15, 0⟩

/-- DMC_SCRUB_POS (13_memory_controller.md R383). -/
def R.dmcScrubPos : Nat := 0x290000 + 0x098
def F.dmcScrubPos_block : Fld := ⟨26, 0⟩

/-- DMC_HAMMER (13_memory_controller.md R391). -/
def R.dmcHammer : Nat := 0x290000 + 0x0A0
def F.dmcHammer_threshold : Fld := ⟨31, 16⟩
def F.dmcHammer_strikes : Fld := ⟨15, 8⟩

/-- DMC_HAMMER_INFO (13_memory_controller.md R392). -/
def R.dmcHammerInfo : Nat := 0x290000 + 0x0A4
def F.dmcHammerInfo_valid : Fld := ⟨31, 31⟩
def F.dmcHammerInfo_throttled : Fld := ⟨30, 30⟩
def F.dmcHammerInfo_requester : Fld := ⟨23, 16⟩
def F.dmcHammerInfo_slice : Fld := ⟨15, 8⟩
def F.dmcHammerInfo_channel : Fld := ⟨6, 4⟩
def F.dmcHammerInfo_bank : Fld := ⟨3, 0⟩

/-- DMC_HAMMER_ROW (13_memory_controller.md R392). -/
def R.dmcHammerRow : Nat := 0x290000 + 0x0A8
def F.dmcHammerRow_row : Fld := ⟨14, 0⟩

/-- DMC_HAMMER_COUNT (13_memory_controller.md R392). -/
def R.dmcHammerCount : Nat := 0x290000 + 0x0AC
def F.dmcHammerCount_n : Fld := ⟨31, 0⟩

/-- DMC_CH_STATUS (13_memory_controller.md R390). -/
def R.dmcChStatus (n : Nat) : Nat := 0x291000 + n * 0x1000 + 0x040
def F.dmcChStatus_trained : Fld := ⟨31, 31⟩
def F.dmcChStatus_sp_trained : Fld := ⟨26, 24⟩
def F.dmcChStatus_postponed : Fld := ⟨19, 16⟩
def F.dmcChStatus_wq_fill : Fld := ⟨6, 0⟩

/-- DMC_CH_CE (13_memory_controller.md R390). -/
def R.dmcChCe (n : Nat) : Nat := 0x291000 + n * 0x1000 + 0x044
def F.dmcChCe_n : Fld := ⟨31, 0⟩

/-- DMC_CH_UE (13_memory_controller.md R390). -/
def R.dmcChUe (n : Nat) : Nat := 0x291000 + n * 0x1000 + 0x048
def F.dmcChUe_n : Fld := ⟨31, 0⟩

/-- DMC_CH_TEMP (13_memory_controller.md R390). -/
def R.dmcChTemp (n : Nat) : Nat := 0x291000 + n * 0x1000 + 0x04C
def F.dmcChTemp_temp : Fld := ⟨7, 0⟩

/-- DMC_CH_RT_LO (13_memory_controller.md R390). -/
def R.dmcChRtLo (n : Nat) : Nat := 0x291000 + n * 0x1000 + 0x050
def F.dmcChRtLo_lo : Fld := ⟨31, 0⟩

/-- DMC_CH_RT_HI (13_memory_controller.md R390). -/
def R.dmcChRtHi (n : Nat) : Nat := 0x291000 + n * 0x1000 + 0x054
def F.dmcChRtHi_hi : Fld := ⟨31, 0⟩

/-- DMC_CH_RT_MAXLAT (13_memory_controller.md R390). -/
def R.dmcChRtMaxlat (n : Nat) : Nat := 0x291000 + n * 0x1000 + 0x058
def F.dmcChRtMaxlat_ns : Fld := ⟨31, 0⟩

/-- PAIR_CTRL (15_pairs_and_live_insertion.md R451). -/
def R.pairCtrl : Nat := 0x2A0000 + 0x040
def F.pairCtrl_handover : Fld := ⟨31, 31⟩
def F.pairCtrl_feed_home : Fld := ⟨30, 30⟩
def F.pairCtrl_refused : Fld := ⟨29, 29⟩

/-- PAIR_STATUS (15_pairs_and_live_insertion.md R451). -/
def R.pairStatus : Nat := 0x2A0000 + 0x044
def F.pairStatus_last_cause : Fld := ⟨27, 24⟩
def F.pairStatus_takeovers : Fld := ⟨23, 16⟩
def F.pairStatus_role_line : Fld := ⟨11, 11⟩
def F.pairStatus_hb_seen : Fld := ⟨10, 10⟩
def F.pairStatus_link_up : Fld := ⟨9, 9⟩
def F.pairStatus_guard_tripped : Fld := ⟨8, 8⟩
def F.pairStatus_role : Fld := ⟨5, 4⟩
def F.pairStatus_state : Fld := ⟨2, 0⟩

/-- PAIR_STATION_ID_LO (15_pairs_and_live_insertion.md R451). -/
def R.pairStationIdLo : Nat := 0x2A0000 + 0x048
def F.pairStationIdLo_v : Fld := ⟨31, 0⟩

/-- PAIR_STATION_ID_HI (15_pairs_and_live_insertion.md R451). -/
def R.pairStationIdHi : Nat := 0x2A0000 + 0x04C
def F.pairStationIdHi_v : Fld := ⟨31, 0⟩

/-- PAIR_KEY_LO (15_pairs_and_live_insertion.md R422). -/
def R.pairKeyLo : Nat := 0x2A0000 + 0x050
def F.pairKeyLo_v : Fld := ⟨31, 0⟩

/-- PAIR_KEY_HI (15_pairs_and_live_insertion.md R422). -/
def R.pairKeyHi : Nat := 0x2A0000 + 0x054
def F.pairKeyHi_v : Fld := ⟨31, 0⟩

/-- PAIR_PARTNER_KEY_LO (15_pairs_and_live_insertion.md R451). -/
def R.pairPartnerKeyLo : Nat := 0x2A0000 + 0x058
def F.pairPartnerKeyLo_v : Fld := ⟨31, 0⟩

/-- PAIR_PARTNER_KEY_HI (15_pairs_and_live_insertion.md R451). -/
def R.pairPartnerKeyHi : Nat := 0x2A0000 + 0x05C
def F.pairPartnerKeyHi_v : Fld := ⟨31, 0⟩

/-- PAIR_LINK_STATUS (15_pairs_and_live_insertion.md R451). -/
def R.pairLinkStatus : Nat := 0x2A1000 + 0x040
def F.pairLinkStatus_up : Fld := ⟨31, 31⟩
def F.pairLinkStatus_training : Fld := ⟨30, 30⟩
def F.pairLinkStatus_lane_map : Fld := ⟨23, 16⟩
def F.pairLinkStatus_downs : Fld := ⟨15, 0⟩

/-- PAIR_LINK_CRC (15_pairs_and_live_insertion.md R428). -/
def R.pairLinkCrc : Nat := 0x2A1000 + 0x044
def F.pairLinkCrc_n : Fld := ⟨31, 0⟩

/-- PAIR_LINK_REPLAY (15_pairs_and_live_insertion.md R426). -/
def R.pairLinkReplay : Nat := 0x2A1000 + 0x048
def F.pairLinkReplay_n : Fld := ⟨31, 0⟩

/-- PAIR_LINK_LATE (15_pairs_and_live_insertion.md R439). -/
def R.pairLinkLate : Nat := 0x2A1000 + 0x04C
def F.pairLinkLate_n : Fld := ⟨31, 0⟩

/-- PAIR_FEED (15_pairs_and_live_insertion.md R441). -/
def R.pairFeed : Nat := 0x2A2000 + 0x040
def F.pairFeed_moved : Fld := ⟨23, 16⟩
def F.pairFeed_driving : Fld := ⟨7, 0⟩

/-- PAIR_ATTR_INFO (15_pairs_and_live_insertion.md R451). -/
def R.pairAttrInfo : Nat := 0x2A2000 + 0x044
def F.pairAttrInfo_valid : Fld := ⟨31, 31⟩
def F.pairAttrInfo_partner : Fld := ⟨30, 30⟩
def F.pairAttrInfo_output : Fld := ⟨18, 16⟩
def F.pairAttrInfo_flags : Fld := ⟨12, 8⟩

/-- PAIR_ATTR_LINE (15_pairs_and_live_insertion.md R440). -/
def R.pairAttrLine : Nat := 0x2A2000 + 0x048
def F.pairAttrLine_line : Fld := ⟨15, 0⟩

/-- PAIR_ATTR_FRAME (15_pairs_and_live_insertion.md R440). -/
def R.pairAttrFrame : Nat := 0x2A2000 + 0x04C
def F.pairAttrFrame_frame : Fld := ⟨31, 0⟩

/-- PAIR_UNATTR (15_pairs_and_live_insertion.md R440). -/
def R.pairUnattr (i : Nat) : Nat := 0x2A2000 + 0x060 + i * 4
def F.pairUnattr_n : Fld := ⟨31, 0⟩

/-- PAIR_CATCHUP (15_pairs_and_live_insertion.md R451). -/
def R.pairCatchup : Nat := 0x2A3000 + 0x040
def F.pairCatchup_active : Fld := ⟨31, 31⟩
def F.pairCatchup_failed : Fld := ⟨30, 30⟩
def F.pairCatchup_copied_mib : Fld := ⟨15, 0⟩

/-- PAIR_CATCHUP_FAILS (15_pairs_and_live_insertion.md R451). -/
def R.pairCatchupFails : Nat := 0x2A3000 + 0x044
def F.pairCatchupFails_n : Fld := ⟨31, 0⟩

/-- CMD_ARG (02_host_interface.md R70). -/
def R.cmdArg (sp i : Nat) : Nat := cmdPage sp + 0x040 + i * 4
def F.cmdArg_arg : Fld := ⟨31, 0⟩

/-- CMD_OP (02_host_interface.md R70). -/
def R.cmdOp (sp : Nat) : Nat := cmdPage sp + 0x060
def F.cmdOp_no_interrupt : Fld := ⟨9, 9⟩
def F.cmdOp_fence : Fld := ⟨8, 8⟩
def F.cmdOp_opcode : Fld := ⟨7, 0⟩

/-- CMD_RESULT (02_host_interface.md R70). -/
def R.cmdResult (sp : Nat) : Nat := cmdPage sp + 0x064
def F.cmdResult_handle : Fld := ⟨31, 0⟩

/-- CMD_REFUSAL (02_host_interface.md R70). -/
def R.cmdRefusal (sp : Nat) : Nat := cmdPage sp + 0x068
def F.cmdRefusal_status : Fld := ⟨15, 0⟩

/-- HANDLE_QUERY (02_host_interface.md R79). -/
def R.handleQuery (sp : Nat) : Nat := cmdPage sp + 0x06C
def F.handleQuery_handle : Fld := ⟨31, 0⟩

/-- SQ_BASE_LO (02_host_interface.md R70). -/
def R.sqBaseLo (sp : Nat) : Nat := cmdPage sp + 0x080
def F.sqBaseLo_base : Fld := ⟨31, 12⟩

/-- SQ_BASE_HI (02_host_interface.md R70). -/
def R.sqBaseHi (sp : Nat) : Nat := cmdPage sp + 0x084
def F.sqBaseHi_base : Fld := ⟨31, 0⟩

/-- SQ_CTRL (02_host_interface.md R73). -/
def R.sqCtrl (sp : Nat) : Nat := cmdPage sp + 0x088
def F.sqCtrl_error : Fld := ⟨31, 31⟩
def F.sqCtrl_fetch_error : Fld := ⟨30, 30⟩
def F.sqCtrl_log2_entries : Fld := ⟨4, 1⟩
def F.sqCtrl_enable : Fld := ⟨0, 0⟩

/-- SQ_TAIL (02_host_interface.md R70). -/
def R.sqTail (sp : Nat) : Nat := cmdPage sp + 0x08C
def F.sqTail_tail : Fld := ⟨31, 0⟩

/-- SQ_HEAD (02_host_interface.md R70). -/
def R.sqHead (sp : Nat) : Nat := cmdPage sp + 0x090
def F.sqHead_head : Fld := ⟨31, 0⟩

/-- CQ_BASE_LO (02_host_interface.md R70). -/
def R.cqBaseLo (sp : Nat) : Nat := cmdPage sp + 0x0A0
def F.cqBaseLo_base : Fld := ⟨31, 12⟩

/-- CQ_BASE_HI (02_host_interface.md R70). -/
def R.cqBaseHi (sp : Nat) : Nat := cmdPage sp + 0x0A4
def F.cqBaseHi_base : Fld := ⟨31, 0⟩

/-- CQ_CTRL (02_host_interface.md R79). -/
def R.cqCtrl (sp : Nat) : Nat := cmdPage sp + 0x0A8
def F.cqCtrl_log2_records : Fld := ⟨4, 1⟩
def F.cqCtrl_enable : Fld := ⟨0, 0⟩

/-- CQ_HEAD (02_host_interface.md R70). -/
def R.cqHead (sp : Nat) : Nat := cmdPage sp + 0x0AC
def F.cqHead_head : Fld := ⟨31, 0⟩

/-- CQ_TAIL (02_host_interface.md R70). -/
def R.cqTail (sp : Nat) : Nat := cmdPage sp + 0x0B0
def F.cqTail_tail : Fld := ⟨31, 0⟩

/-- CQ_STATUS (02_host_interface.md R79). -/
def R.cqStatus (sp : Nat) : Nat := cmdPage sp + 0x0B4
def F.cqStatus_lost_completion : Fld := ⟨31, 31⟩
def F.cqStatus_disable_refused : Fld := ⟨30, 30⟩
def F.cqStatus_head_error : Fld := ⟨29, 29⟩
def F.cqStatus_events_lost : Fld := ⟨15, 0⟩

/-- SLC_STATE (03_slices.md R95). -/
def R.slcState (s : Nat) : Nat := winPage s 1 + 0x040
def F.slcState_state : Fld := ⟨2, 0⟩

/-- SLC_GRANT_COUNTS_A (03_slices.md R95). -/
def R.slcGrantCountsA (s : Nat) : Nat := winPage s 1 + 0x044
def F.slcGrantCountsA_layers : Fld := ⟨31, 24⟩
def F.slcGrantCountsA_csrs : Fld := ⟨23, 16⟩
def F.slcGrantCountsA_cvus : Fld := ⟨15, 8⟩

/-- SLC_GRANT_COUNTS_B (03_slices.md R95). -/
def R.slcGrantCountsB (s : Nat) : Nat := winPage s 1 + 0x048
def F.slcGrantCountsB_audio : Fld := ⟨12, 12⟩
def F.slcGrantCountsB_haptic : Fld := ⟨11, 8⟩
def F.slcGrantCountsB_touch : Fld := ⟨7, 4⟩
def F.slcGrantCountsB_outputs : Fld := ⟨3, 0⟩

/-- SLC_GRANT_QUERY (03_slices.md R95). -/
def R.slcGrantQuery (s : Nat) : Nat := winPage s 1 + 0x04C
def F.slcGrantQuery_kind : Fld := ⟨31, 28⟩
def F.slcGrantQuery_valid : Fld := ⟨27, 27⟩
def F.slcGrantQuery_output : Fld := ⟨23, 20⟩
def F.slcGrantQuery_ordinal : Fld := ⟨7, 0⟩

/-- SLC_GRANT_RES (03_slices.md R95). -/
def R.slcGrantRes (s : Nat) : Nat := winPage s 1 + 0x050
def F.slcGrantRes_mem_quota_mib : Fld := ⟨31, 16⟩
def F.slcGrantRes_haul_weight : Fld := ⟨7, 0⟩

/-- SLC_GRANT_SEQ (03_slices.md R95). -/
def R.slcGrantSeq (s : Nat) : Nat := winPage s 1 + 0x054
def F.slcGrantSeq_migration_count : Fld := ⟨31, 16⟩
def F.slcGrantSeq_grant_seq : Fld := ⟨15, 0⟩

/-- SLC_TIME_LO (03_slices.md R95). -/
def R.slcTimeLo (s : Nat) : Nat := winPage s 1 + 0x058
def F.slcTimeLo_lo : Fld := ⟨31, 0⟩

/-- SLC_TIME_HI (03_slices.md R95). -/
def R.slcTimeHi (s : Nat) : Nat := winPage s 1 + 0x05C
def F.slcTimeHi_hi : Fld := ⟨31, 0⟩

/-- SLC_SRF_USE (04_surfaces_and_haul.md R125). -/
def R.slcSrfUse (s : Nat) : Nat := winPage s 2 + 0x040
def F.slcSrfUse_used_64k : Fld := ⟨19, 0⟩

/-- SLC_SRF_COUNT (04_surfaces_and_haul.md R125). -/
def R.slcSrfCount (s : Nat) : Nat := winPage s 2 + 0x044
def F.slcSrfCount_pending_versions : Fld := ⟨31, 16⟩
def F.slcSrfCount_surfaces : Fld := ⟨11, 0⟩

/-- SLC_LYR_SEL (06_layer_composition.md R183). -/
def R.slcLyrSel (s : Nat) : Nat := winPage s 3 + 0x040
def F.slcLyrSel_bank : Fld := ⟨31, 31⟩
def F.slcLyrSel_word : Fld := ⟨16, 8⟩
def F.slcLyrSel_ordinal : Fld := ⟨5, 0⟩

/-- SLC_LYR_DATA (06_layer_composition.md R184). -/
def R.slcLyrData (s : Nat) : Nat := winPage s 3 + 0x044
def F.slcLyrData_data : Fld := ⟨31, 0⟩

/-- SLC_LYR_CTRL (06_layer_composition.md R183). -/
def R.slcLyrCtrl (s : Nat) : Nat := winPage s 3 + 0x048
def F.slcLyrCtrl_clear : Fld := ⟨1, 1⟩
def F.slcLyrCtrl_copy : Fld := ⟨0, 0⟩

/-- SLC_LYR_INFO (06_layer_composition.md R183). -/
def R.slcLyrInfo (s : Nat) : Nat := winPage s 3 + 0x04C
def F.slcLyrInfo_valid : Fld := ⟨31, 31⟩
def F.slcLyrInfo_shed : Fld := ⟨30, 30⟩
def F.slcLyrInfo_latched_enabled : Fld := ⟨29, 29⟩
def F.slcLyrInfo_output : Fld := ⟨23, 20⟩
def F.slcLyrInfo_position : Fld := ⟨10, 8⟩

/-- SLC_CV_SEL (08_check_values_core_samples_and_floor_images.md R240). -/
def R.slcCvSel (s : Nat) : Nat := winPage s 4 + 0x040
def F.slcCvSel_kind : Fld := ⟨31, 30⟩
def F.slcCvSel_bank : Fld := ⟨29, 29⟩
def F.slcCvSel_word : Fld := ⟨11, 8⟩
def F.slcCvSel_ordinal : Fld := ⟨6, 0⟩

/-- SLC_CV_DATA (08_check_values_core_samples_and_floor_images.md R241). -/
def R.slcCvData (s : Nat) : Nat := winPage s 4 + 0x044
def F.slcCvData_data : Fld := ⟨31, 0⟩

/-- SLC_CV_SUMMARY (08_check_values_core_samples_and_floor_images.md R240). -/
def R.slcCvSummary (s : Nat) : Nat := winPage s 4 + 0x048
def F.slcCvSummary_substituted : Fld := ⟨23, 16⟩
def F.slcCvSummary_onsets : Fld := ⟨15, 0⟩

/-- SLC_TR_BASE_LO (09_capacitive_touch.md R288). -/
def R.slcTrBaseLo (s : Nat) : Nat := winPage s 5 + 0x040
def F.slcTrBaseLo_base : Fld := ⟨31, 12⟩
def F.slcTrBaseLo_log2_records : Fld := ⟨4, 1⟩
def F.slcTrBaseLo_enable : Fld := ⟨0, 0⟩

/-- SLC_TR_BASE_HI (09_capacitive_touch.md R288). -/
def R.slcTrBaseHi (s : Nat) : Nat := winPage s 5 + 0x044
def F.slcTrBaseHi_base : Fld := ⟨31, 0⟩

/-- SLC_TR_POS (09_capacitive_touch.md R288). -/
def R.slcTrPos (s : Nat) : Nat := winPage s 5 + 0x048
def F.slcTrPos_tail : Fld := ⟨31, 16⟩
def F.slcTrPos_head : Fld := ⟨15, 0⟩

/-- SLC_TR_STATUS (09_capacitive_touch.md R288). -/
def R.slcTrStatus (s : Nat) : Nat := winPage s 5 + 0x04C
def F.slcTrStatus_resync_pending : Fld := ⟨31, 31⟩
def F.slcTrStatus_dropped : Fld := ⟨15, 0⟩

/-- SLC_RFX_SEL (09_capacitive_touch.md R292). -/
def R.slcRfxSel (s : Nat) : Nat := winPage s 6 + 0x040
def F.slcRfxSel_binding : Fld := ⟨5, 2⟩
def F.slcRfxSel_word : Fld := ⟨1, 0⟩

/-- SLC_RFX_DATA (09_capacitive_touch.md R292). -/
def R.slcRfxData (s : Nat) : Nat := winPage s 6 + 0x044
def F.slcRfxData_data : Fld := ⟨31, 0⟩

/-- SLC_HAP_SEL (10_haptic_and_acoustic_feedback.md R313). -/
def R.slcHapSel (s : Nat) : Nat := winPage s 7 + 0x040
def F.slcHapSel_ordinal : Fld := ⟨11, 8⟩
def F.slcHapSel_word : Fld := ⟨2, 0⟩

/-- SLC_HAP_DATA (10_haptic_and_acoustic_feedback.md R313). -/
def R.slcHapData (s : Nat) : Nat := winPage s 7 + 0x044
def F.slcHapData_data : Fld := ⟨31, 0⟩

/-- SLC_HAP_TRIG (10_haptic_and_acoustic_feedback.md R305). -/
def R.slcHapTrig (s : Nat) : Nat := winPage s 7 + 0x048
def F.slcHapTrig_stop : Fld := ⟨31, 31⟩
def F.slcHapTrig_channel : Fld := ⟨27, 24⟩
def F.slcHapTrig_level : Fld := ⟨23, 16⟩
def F.slcHapTrig_effect : Fld := ⟨15, 0⟩

/-- SLC_AUD_SEL (10_haptic_and_acoustic_feedback.md R317). -/
def R.slcAudSel (s : Nat) : Nat := winPage s 8 + 0x040
def F.slcAudSel_word : Fld := ⟨2, 0⟩

/-- SLC_AUD_DATA (10_haptic_and_acoustic_feedback.md R317). -/
def R.slcAudData (s : Nat) : Nat := winPage s 8 + 0x044
def F.slcAudData_data : Fld := ⟨31, 0⟩

/-- SLC_AUD_STATUS (10_haptic_and_acoustic_feedback.md R317). -/
def R.slcAudStatus (s : Nat) : Nat := winPage s 8 + 0x048
def F.slcAudStatus_playing : Fld := ⟨31, 31⟩
def F.slcAudStatus_starved : Fld := ⟨30, 30⟩
def F.slcAudStatus_underruns : Fld := ⟨15, 0⟩

/-- The block registers of page type 0x0001. -/
def regs01 : List RegDesc := [
  ⟨0x040, 1, 4, 0x57418802, [fd 31 16 .ro, fd 15 8 .ro, fd 7 0 .ro]⟩,
  ⟨0x044, 1, 4, 0x40FF8820, [fd 31 24 .ro, fd 23 16 .ro, fd 15 12 .ro, fd 11 8 .ro, fd 5 0 .ro]⟩,
  ⟨0x048, 1, 4, 0x80222401, [fd 31 22 .ro, fd 21 18 .ro, fd 17 14 .ro, fd 13 11 .ro, fd 10 8 .ro, fd 0 0 .ro]⟩,
  ⟨0x04C, 1, 4, 0x8830000, [fd 31 24 .ro, fd 23 20 .ro, fd 19 12 .ro, fd 1 0 .ro]⟩]

/-- The block registers of page type 0x0002. -/
def regs02 : List RegDesc := [
  ⟨0x080, 1, 4, 0x0, [fd 31 31 .w1c, fd 30 30 .ro, fd 29 29 .ro, fd 28 28 .ro, fd 23 16 .ro, fd 7 0 .ro]⟩,
  ⟨0x090, 1, 4, 0x640000, [fd 31 31 .w1c, fd 30 30 .ro, fd 29 29 .ro, fdl 23 16 .rw [(60, 115)], fd 7 0 .ro]⟩]

/-- The block registers of page type 0x0003. -/
def regs03 : List RegDesc := [
  ⟨0x040, 1, 4, 0x0, [fd 31 0 .ro]⟩,
  ⟨0x044, 1, 4, 0x0, [fd 31 0 .ro]⟩,
  ⟨0x060, 1, 4, 0x2, [fd 31 31 .ro, fdl 1 0 .rw [(0, 2)]]⟩]

/-- The block registers of page type 0x0010, page 0. -/
def regs10_0 : List RegDesc := [
  ⟨0x050, 1, 4, 0x0, [fd 31 31 .w1c, fd 30 30 .ro, fd 29 29 .ro, fd 27 20 .ro, fd 19 0 .ro]⟩,
  ⟨0x054, 1, 4, 0x0, [fd 31 0 .ro]⟩,
  ⟨0x058, 1, 4, 0x0, [fd 31 0 .rc]⟩,
  ⟨0x060, 1, 4, 0x0, [fd 31 0 .rc]⟩,
  ⟨0x064, 1, 4, 0x0, [fd 31 31 .w1c, fd 30 30 .ro, fd 29 27 .ro, fd 15 8 .ro, fd 3 0 .ro]⟩,
  ⟨0x068, 1, 4, 0x0, [fd 25 0 .ro]⟩,
  ⟨0x070, 1, 4, 0x0, [fd 31 31 .ro, fd 30 30 .ro, fd 29 29 .ro, fd 15 0 .ro]⟩,
  ⟨0x074, 1, 4, 0x0, [fd 0 0 .w1s]⟩]

/-- The block registers of page type 0x0010, page 1. -/
def regs10_1 : List RegDesc := [
  ⟨0x040, 8, 4, 0x0, [fd 31 0 .rw]⟩,
  ⟨0x060, 1, 4, 0x0, [fd 9 9 .wo, fd 8 8 .wo, fd 7 0 .wo]⟩,
  ⟨0x064, 1, 4, 0x0, [fd 31 0 .ro]⟩,
  ⟨0x068, 1, 4, 0x0, [fd 15 0 .ro]⟩,
  ⟨0x06C, 1, 4, 0x0, [fd 31 0 .rw]⟩,
  ⟨0x080, 1, 4, 0x0, [fd 31 12 .rw]⟩,
  ⟨0x084, 1, 4, 0x0, [fd 31 0 .rw]⟩,
  ⟨0x088, 1, 4, 0x0, [fd 31 31 .w1c, fd 30 30 .w1c, fd 4 1 .rw, fd 0 0 .rw]⟩,
  ⟨0x08C, 1, 4, 0x0, [fd 31 0 .rw]⟩,
  ⟨0x090, 1, 4, 0x0, [fd 31 0 .ro]⟩,
  ⟨0x0A0, 1, 4, 0x0, [fd 31 12 .rw]⟩,
  ⟨0x0A4, 1, 4, 0x0, [fd 31 0 .rw]⟩,
  ⟨0x0A8, 1, 4, 0x0, [fd 4 1 .rw, fd 0 0 .rw]⟩,
  ⟨0x0AC, 1, 4, 0x0, [fd 31 0 .rw]⟩,
  ⟨0x0B0, 1, 4, 0x0, [fd 31 0 .ro]⟩,
  ⟨0x0B4, 1, 4, 0x0, [fd 31 31 .w1c, fd 30 30 .w1c, fd 29 29 .w1c, fd 15 0 .rc]⟩]

/-- The block registers of page type 0x0010, page 2. -/
def regs10_2 : List RegDesc := [
  ⟨0x040, 1, 4, 0x0, [fd 15 8 .w1c, fd 7 0 .w1c]⟩,
  ⟨0x044, 1, 4, 0x0, [fd 10 0 .rw]⟩,
  ⟨0x048, 1, 4, 0x0, [fd 9 0 .rw]⟩]

/-- The block registers of page type 0x0010, page 3. -/
def regs10_3 : List RegDesc := [
  ⟨0x040, 1, 4, 0x0, [fd 31 31 .rw, fd 30 30 .w1c, fd 12 0 .rw]⟩]

/-- The block registers of page type 0x00A0, page 0. -/
def regsA0_0 : List RegDesc := [
  ⟨0x040, 10, 4, 0x0, [fd 31 0 .ro]⟩,
  ⟨0x080, 10, 4, 0x0, [fd 31 0 .wo]⟩,
  ⟨0x0C0, 10, 4, 0x0, [fd 31 0 .wo]⟩,
  ⟨0x100, 1, 4, 0x0, [fd 31 31 .w1c, fd 8 0 .ro]⟩]

/-- The block registers of page type 0x00A0, page 1. -/
def regsA0_1 : List RegDesc := [
  ⟨0x040, 1, 4, 0x0, [fd 31 31 .ro, fd 30 30 .ro, fd 29 29 .ro, fd 28 28 .ro, fd 27 27 .w1c, fd 15 0 .rc]⟩,
  ⟨0x044, 1, 4, 0x0, [fd 19 0 .ro]⟩,
  ⟨0x048, 1, 4, 0x0, [fd 29 16 .w1c, fd 13 0 .ro]⟩,
  ⟨0x04C, 1, 4, 0x0, [fd 13 0 .w1c]⟩,
  ⟨0x050, 1, 4, 0x0, [fdl 4 0 .rw [(0, 18)]]⟩,
  ⟨0x054, 1, 4, 0x100, [fd 31 31 .ro, fd 30 30 .ro, fd 29 29 .w1c, fd 28 28 .w1c, fd 20 16 .ro, fd 9 8 .ro, fd 4 0 .rw]⟩,
  ⟨0x060, 1, 4, 0x0, [fd 31 31 .rwl, fdl 27 24 .rwl [(0, 7)], fd 22 20 .rwl, fd 9 0 .rwl]⟩]

/-- The block registers of page type 0x00A1, page 0. -/
def regsA1_0 : List RegDesc := [
  ⟨0x040, 1, 4, 0x0, [fd 31 31 .ro, fd 30 30 .w1c, fd 26 24 .ro, fd 15 12 .ro, fd 11 8 .ro, fd 3 0 .rw]⟩,
  ⟨0x044, 1, 4, 0x0, [fd 31 0 .rw]⟩,
  ⟨0x048, 1, 4, 0x0, [fd 31 0 .rw]⟩,
  ⟨0x04C, 1, 4, 0x0, [fd 3 0 .ro]⟩,
  ⟨0x050, 1, 4, 0x1DE0, [fd 12 0 .ro]⟩]

/-- The block registers of page type 0x00A1, page 1. -/
def regsA1_1 : List RegDesc := [
  ⟨0x040, 1, 4, 0x0, [fd 31 16 .wo, fd 0 0 .wo]⟩,
  ⟨0x044, 1, 4, 0x1, [fd 23 16 .ro, fd 15 8 .ro, fd 7 0 .ro]⟩,
  ⟨0x048, 1, 4, 0x1388, [fd 31 31 .w1s, fd 15 0 .rwl]⟩,
  ⟨0x04C, 1, 4, 0x0, [fd 31 0 .wo]⟩,
  ⟨0x050, 1, 4, 0x0, [fd 31 31 .ro, fd 30 30 .ro, fd 29 29 .ro, fd 28 28 .ro, fd 15 0 .rc]⟩,
  ⟨0x054, 1, 4, 0x0, [fd 15 0 .ro]⟩]

/-- The block registers of page type 0x00C0. -/
def regsC0 : List RegDesc := [
  ⟨0x040, 1, 4, 0x0, [fd 31 31 .ro, fd 30 30 .ro, fd 29 29 .ro, fd 28 28 .ro, fd 27 27 .ro, fd 23 20 .ro, fd 19 16 .ro, fd 15 12 .ro, fd 3 0 .ro]⟩,
  ⟨0x044, 1, 4, 0x0, [fd 31 31 .w1s, fd 30 30 .w1s, fd 3 1 .w1s]⟩,
  ⟨0x048, 1, 4, 0x0, [fd 25 0 .rw]⟩,
  ⟨0x04C, 1, 4, 0x0, [fd 31 31 .w1s, fd 30 28 .ro, fdl 1 0 .rw [(0, 2)]]⟩,
  ⟨0x050, 1, 4, 0x0, [fd 5 0 .rw]⟩,
  ⟨0x054, 1, 4, 0x0, [fd 31 0 .rw]⟩,
  ⟨0x058, 1, 4, 0x0, [fd 11 8 .w1s, fd 7 4 .w1s, fd 3 0 .w1s]⟩,
  ⟨0x05C, 1, 4, 0xE0, [fd 7 4 .ro, fd 3 0 .ro]⟩]

/-- The block registers of page type 0x0020. -/
def regs20 : List RegDesc := [
  ⟨0x040, 1, 4, 0x0, [fd 19 0 .rw]⟩,
  ⟨0x044, 1, 4, 0x0, [fd 8 8 .wo, fd 3 0 .wo]⟩,
  ⟨0x048, 1, 4, 0x0, [fd 23 16 .ro, fd 11 8 .ro, fd 2 0 .ro]⟩,
  ⟨0x04C, 1, 4, 0x0, [fd 24 24 .rw, fd 23 16 .rw, fd 15 8 .rw, fd 7 0 .rw]⟩,
  ⟨0x050, 1, 4, 0x0, [fd 31 16 .rw, fd 7 0 .rw]⟩,
  ⟨0x054, 1, 4, 0x0, [fdl 1 0 .rw [(0, 2)]]⟩,
  ⟨0x058, 1, 4, 0x0, [fdl 31 28 .rw [(0, 6)], fd 23 16 .ro, fd 15 15 .ro, fd 7 0 .rw]⟩,
  ⟨0x060, 1, 4, 0x0, [fd 31 12 .rw]⟩,
  ⟨0x064, 1, 4, 0x0, [fd 31 0 .rw]⟩,
  ⟨0x068, 1, 4, 0x0, [fd 31 31 .ro, fd 4 1 .rw, fd 0 0 .rw]⟩,
  ⟨0x06C, 1, 4, 0x0, [fd 31 0 .ro]⟩,
  ⟨0x070, 1, 4, 0x0, [fd 31 0 .rw]⟩,
  ⟨0x074, 1, 4, 0x0, [fd 31 0 .rc]⟩]

/-- The block registers of page type 0x0030, page 0. -/
def regs30_0 : List RegDesc := [
  ⟨0x040, 1, 4, 0x0, [fd 31 16 .ro, fd 12 0 .ro]⟩,
  ⟨0x044, 1, 4, 0x0, [fd 19 0 .ro]⟩,
  ⟨0x048, 1, 4, 0x0, [fd 31 0 .rc]⟩,
  ⟨0x04C, 1, 4, 0x0, [fd 16 0 .ro]⟩]

/-- The block registers of page type 0x0030, page 1. -/
def regs30_1 : List RegDesc := [
  ⟨0x040, 1, 4, 0x0, [fd 7 0 .rw]⟩,
  ⟨0x044, 1, 4, 0x0, [fd 31 0 .rw]⟩,
  ⟨0x048, 8, 4, 0x0, [fd 31 0 .ro]⟩,
  ⟨0x068, 1, 4, 0x0, [fd 23 16 .ro, fd 15 8 .ro, fd 2 0 .ro]⟩,
  ⟨0x06C, 1, 4, 0x0, [fd 19 0 .ro]⟩]

/-- The block registers of page type 0x0030, page 2. -/
def regs30_2 : List RegDesc := [
  ⟨0x040, 1, 4, 0x0, [fd 31 0 .rc]⟩,
  ⟨0x044, 1, 4, 0x0, [fd 31 0 .rc]⟩,
  ⟨0x048, 1, 4, 0x0, [fd 31 0 .rc]⟩]

/-- The block registers of page type 0x0031. -/
def regs31 : List RegDesc := [
  ⟨0x040, 1, 4, 0x0, [fd 31 31 .ro, fd 30 30 .ro, fd 15 8 .ro, fd 7 0 .ro]⟩,
  ⟨0x044, 1, 4, 0x0, [fd 31 0 .ro]⟩,
  ⟨0x048, 1, 4, 0x0, [fd 31 0 .ro]⟩,
  ⟨0x04C, 1, 4, 0x0, [fd 31 0 .ro]⟩,
  ⟨0x050, 1, 4, 0x0, [fd 31 0 .ro]⟩,
  ⟨0x060, 8, 4, 0x0, [fd 31 0 .ro]⟩]

/-- The block registers of page type 0x0040. -/
def regs40 : List RegDesc := [
  ⟨0x040, 1, 4, 0x8041800, [fd 31 24 .rwl, fd 23 16 .rwl, fd 15 8 .rwl]⟩,
  ⟨0x044, 1, 4, 0x0, [fd 31 31 .ro, fd 30 30 .w1c, fd 29 24 .ro, fd 23 16 .ro, fd 7 0 .ro]⟩,
  ⟨0x048, 1, 4, 0x0, [fd 31 0 .ro]⟩,
  ⟨0x04C, 1, 4, 0x0, [fd 31 0 .ro]⟩,
  ⟨0x050, 1, 4, 0x0, [fd 31 0 .ro]⟩,
  ⟨0x054, 1, 4, 0x0, [fd 31 0 .rc]⟩,
  ⟨0x058, 1, 4, 0x0, [fd 31 0 .rc]⟩,
  ⟨0x060, 1, 4, 0x0, [fd 31 31 .ro, fd 1 1 .rw, fd 0 0 .w1s]⟩,
  ⟨0x064, 1, 4, 0x0, [fdl 7 0 .rw [(0, 179)]]⟩,
  ⟨0x068, 1, 4, 0x0, [fd 31 0 .ro]⟩,
  ⟨0x06C, 1, 4, 0x0, [fd 31 0 .ro]⟩,
  ⟨0x080, 1, 4, 0xC05400, [fd 28 24 .ro, fd 23 16 .ro, fd 15 8 .ro, fd 7 0 .ro]⟩]

/-- The block registers of page type 0x0041. -/
def regs41 : List RegDesc := [
  ⟨0x040, 1, 4, 0x60, [fd 31 31 .w1c, fd 30 30 .w1c, fd 7 7 .rw, fd 6 6 .rw, fd 5 5 .rw, fd 1 1 .rw, fd 0 0 .rw]⟩,
  ⟨0x044, 1, 4, 0x8980780, [fd 31 16 .rw, fd 15 0 .rw]⟩,
  ⟨0x048, 1, 4, 0x2C0058, [fd 31 16 .rw, fd 15 0 .rw]⟩,
  ⟨0x04C, 1, 4, 0x4650438, [fd 31 16 .rw, fd 15 0 .rw]⟩,
  ⟨0x050, 1, 4, 0x50004, [fd 31 16 .rw, fd 15 0 .rw]⟩,
  ⟨0x054, 1, 4, 0x24414, [fd 19 0 .rw]⟩,
  ⟨0x058, 1, 4, 0x2FFFF, [fd 21 16 .rw, fd 15 0 .rw]⟩,
  ⟨0x060, 1, 4, 0x0, [fd 31 16 .rw]⟩,
  ⟨0x064, 1, 4, 0x0, [fd 31 16 .rw, fd 15 0 .rw]⟩,
  ⟨0x068, 1, 4, 0x0, [fd 31 16 .rw]⟩,
  ⟨0x06C, 1, 4, 0x0, [fd 31 16 .rw, fd 15 0 .rw]⟩,
  ⟨0x070, 1, 4, 0x0, [fd 31 31 .rw, fd 30 30 .rw, fd 19 0 .rw]⟩,
  ⟨0x080, 1, 4, 0x0, [fd 31 0 .ro]⟩,
  ⟨0x084, 1, 4, 0x0, [fd 31 0 .ro]⟩,
  ⟨0x088, 1, 4, 0x0, [fd 31 0 .ro]⟩,
  ⟨0x08C, 1, 4, 0x0, [fd 31 16 .ro, fd 15 0 .ro]⟩,
  ⟨0x090, 1, 4, 0x0, [fd 31 0 .ro]⟩,
  ⟨0x0A0, 1, 4, 0x0, [fd 31 0 .rc]⟩,
  ⟨0x0A4, 1, 4, 0x0, [fd 31 0 .rc]⟩,
  ⟨0x0A8, 1, 4, 0x0, [fd 31 31 .w1c, fd 15 0 .ro]⟩,
  ⟨0x0AC, 1, 4, 0x0, [fd 31 0 .ro]⟩,
  ⟨0x0B0, 1, 4, 0x0, [fd 31 0 .rc]⟩,
  ⟨0x0C0, 1, 4, 0x1E0400, [fdl 23 16 .rw [(6, 6), (8, 10), (12, 12), (16, 16), (20, 20), (30, 30)], fdl 11 8 .rw [(1, 2), (4, 4)], fd 7 7 .rw, fdl 1 0 .rw [(0, 2)]]⟩,
  ⟨0x0C4, 1, 4, 0x0, [fd 31 24 .ro, fd 23 20 .ro, fd 19 16 .ro, fd 15 8 .ro]⟩,
  ⟨0x0C8, 1, 4, 0x0, [fd 31 16 .ro, fd 15 0 .rw]⟩,
  ⟨0x0CC, 1, 4, 0x0, [fd 31 0 .rc]⟩,
  ⟨0x0E0, 1, 4, 0x0, [fd 31 31 .w1s, fd 30 28 .ro, fd 27 24 .rw, fd 20 16 .ro, fd 3 0 .rw]⟩,
  ⟨0x0E4, 1, 4, 0x0, [fd 19 0 .rw]⟩,
  ⟨0x0E8, 4, 4, 0x0, [fd 31 0 .rw]⟩]

/-- The block registers of page type 0x0043. -/
def regs43 : List RegDesc := [
  ⟨0x040, 1, 4, 0x0, [fd 31 31 .ro, fd 30 30 .ro, fd 20 0 .ro]⟩,
  ⟨0x044, 1, 4, 0x0, [fd 31 0 .ro]⟩,
  ⟨0x048, 1, 4, 0x0, [fd 23 16 .rwl, fd 15 8 .rwl, fd 7 0 .rwl]⟩,
  ⟨0x04C, 1, 4, 0x0, [fd 15 0 .ro]⟩,
  ⟨0x050, 1, 4, 0xFFFFFFFF, [fd 31 0 .ro]⟩,
  ⟨0x054, 1, 4, 0x0, [fd 31 31 .w1s, fd 30 30 .w1c, fd 19 0 .rw]⟩]

/-- The block registers of page type 0x0042. -/
def regs42 : List RegDesc := [
  ⟨0x040, 1, 4, 0xF, [fd 31 31 .w1c, fd 15 15 .rwl, fd 10 8 .rwl, fdl 3 0 .rwl [(0, 7), (15, 15)]]⟩,
  ⟨0x044, 1, 4, 0x0, [fd 31 31 .rw, fd 16 8 .rw]⟩,
  ⟨0x048, 1, 4, 0x0, [fd 31 0 .rw]⟩,
  ⟨0x04C, 1, 4, 0xFFFFFFFF, [fd 31 0 .ro]⟩,
  ⟨0x050, 1, 4, 0x0, [fd 31 31 .ro, fd 30 30 .w1c, fd 29 29 .w1c, fd 23 16 .ro, fd 0 0 .w1s]⟩]

/-- The block registers of page type 0x0050. -/
def regs50 : List RegDesc := [
  ⟨0x040, 1, 4, 0x31F, [fd 31 31 .w1c, fd 9 9 .rw, fd 8 8 .rw, fd 4 0 .rw]⟩,
  ⟨0x044, 1, 4, 0x4C11DB7, [fd 31 0 .rw]⟩,
  ⟨0x048, 1, 4, 0xFFFFFFFF, [fd 31 0 .rw]⟩,
  ⟨0x04C, 1, 4, 0xFFFFFFFF, [fd 31 0 .rw]⟩,
  ⟨0x050, 1, 4, 0xFFFFFFFF, [fd 31 0 .rw]⟩,
  ⟨0x054, 1, 4, 0x0, [fd 31 0 .ro]⟩,
  ⟨0x058, 1, 4, 0x0, [fd 31 30 .ro, fd 15 8 .ro, fd 7 0 .ro]⟩,
  ⟨0x05C, 1, 4, 0x0, [fd 31 0 .ro]⟩]

/-- The block registers of page type 0x0051. -/
def regs51 : List RegDesc := [
  ⟨0x040, 1, 4, 0x0, [fd 20 16 .rw, fd 13 8 .rw, fd 0 0 .rw]⟩,
  ⟨0x044, 1, 4, 0x0, [fd 31 16 .rw, fd 15 0 .rw]⟩,
  ⟨0x048, 1, 4, 0x10001, [fd 31 16 .rw, fd 15 0 .rw]⟩,
  ⟨0x04C, 1, 4, 0x0, [fd 31 0 .rw]⟩,
  ⟨0x050, 1, 4, 0x0, [fd 31 0 .ro]⟩,
  ⟨0x054, 1, 4, 0x0, [fd 31 0 .ro]⟩,
  ⟨0x058, 1, 4, 0x10001, [fd 31 0 .ro]⟩,
  ⟨0x05C, 1, 4, 0x0, [fd 31 0 .ro]⟩,
  ⟨0x060, 1, 4, 0x0, [fd 31 0 .ro]⟩,
  ⟨0x064, 1, 4, 0xFFFFFFFF, [fd 31 0 .ro]⟩,
  ⟨0x068, 1, 4, 0x0, [fd 23 16 .ro, fd 2 0 .ro]⟩,
  ⟨0x06C, 1, 4, 0x0, [fd 31 0 .rc]⟩]

/-- The block registers of page type 0x0060. -/
def regs60 : List RegDesc := [
  ⟨0x040, 1, 4, 0x0, [fd 8 0 .rw]⟩,
  ⟨0x044, 1, 4, 0x0, [fdl 11 10 .rw [(0, 2)], fd 9 7 .rw, fd 6 0 .rw]⟩,
  ⟨0x048, 1, 4, 0x0, [fd 31 31 .w1c, fd 8 0 .ro]⟩,
  ⟨0x060, 1, 4, 0x0, [fd 19 0 .rw]⟩,
  ⟨0x064, 1, 4, 0x0, [fd 4 1 .rw, fd 0 0 .rw]⟩,
  ⟨0x068, 1, 4, 0x0, [fd 31 16 .ro, fd 15 0 .rw]⟩,
  ⟨0x06C, 1, 4, 0x0, [fd 15 0 .rc]⟩,
  ⟨0x070, 1, 4, 0x0, [fd 5 2 .rw, fd 1 0 .rw]⟩,
  ⟨0x074, 1, 4, 0x0, [fd 31 0 .rw]⟩]

/-- The block registers of page type 0x0061. -/
def regs61 : List RegDesc := [
  ⟨0x040, 1, 4, 0x821, [fd 31 31 .w1c, fd 30 30 .w1c, fd 29 29 .w1s, fd 28 28 .w1s, fd 11 8 .rwl, fdl 5 4 .rwl [(0, 2)], fdl 1 0 .rwl [(0, 2)]]⟩,
  ⟨0x044, 1, 4, 0xF, [fd 6 6 .rw, fd 5 5 .rw, fd 4 4 .rw, fdl 3 0 .rw [(0, 7), (15, 15)]]⟩,
  ⟨0x048, 1, 4, 0x0, [fd 31 16 .rw, fd 15 0 .rw]⟩,
  ⟨0x04C, 1, 4, 0x0, [fd 31 16 .rw, fd 15 0 .rw]⟩,
  ⟨0x050, 1, 4, 0x780C8, [fd 23 12 .rw, fd 11 0 .rw]⟩,
  ⟨0x054, 1, 4, 0x60500A0, [fd 31 24 .rw, fd 23 12 .rw, fd 11 0 .rw]⟩,
  ⟨0x058, 1, 4, 0x10003C, [fd 31 31 .rw, fd 28 24 .rw, fd 23 16 .rw, fd 11 0 .rw]⟩,
  ⟨0x05C, 1, 4, 0x100801E6, [fd 31 24 .rw, fd 23 16 .rw, fd 15 4 .rw, fd 3 0 .rw]⟩,
  ⟨0x060, 1, 4, 0x400400, [fd 23 16 .rw, fd 15 0 .rw]⟩,
  ⟨0x064, 1, 4, 0x0, [fd 4 0 .rw]⟩,
  ⟨0x068, 1, 4, 0x0, [fd 31 31 .rw, fd 11 9 .rw, fd 8 0 .rw]⟩,
  ⟨0x06C, 1, 4, 0x0, [fd 31 16 .ro, fd 15 11 .ro, fd 10 10 .ro, fd 9 9 .ro, fd 8 8 .ro, fd 7 6 .ro, fd 4 0 .ro]⟩,
  ⟨0x070, 1, 4, 0x0, [fd 11 0 .rw]⟩,
  ⟨0x074, 1, 4, 0x0, [fd 15 0 .rw]⟩,
  ⟨0x078, 1, 4, 0x0, [fd 31 31 .rw, fdl 6 5 .rw [(0, 2)], fd 4 0 .rw]⟩,
  ⟨0x080, 1, 4, 0x0, [fd 31 31 .ro, fd 1 1 .rw, fd 0 0 .w1s]⟩,
  ⟨0x084, 1, 4, 0x0, [fdl 6 0 .rw [(0, 103)]]⟩,
  ⟨0x088, 1, 4, 0x0, [fd 31 0 .ro]⟩,
  ⟨0x08C, 1, 4, 0x0, [fd 16 16 .ro, fd 15 0 .ro]⟩,
  ⟨0x090, 1, 4, 0x0, [fd 31 0 .rc]⟩,
  ⟨0x094, 1, 4, 0x0, [fd 31 0 .rc]⟩,
  ⟨0x098, 1, 4, 0x0, [fd 31 0 .rc]⟩,
  ⟨0x09C, 1, 4, 0x0, [fd 31 0 .rc]⟩,
  ⟨0x0A0, 1, 4, 0x0, [fd 31 30 .rw, fd 11 0 .rw]⟩,
  ⟨0x0A4, 1, 4, 0x0, [fd 31 0 .ro]⟩]

/-- The block registers of page type 0x0070. -/
def regs70 : List RegDesc := [
  ⟨0x040, 1, 4, 0x1003E8, [fd 21 20 .rwl, fd 15 0 .rwl]⟩,
  ⟨0x044, 1, 4, 0xFFF0800, [fd 27 16 .rwl, fd 11 0 .rwl]⟩,
  ⟨0x048, 1, 4, 0x10000800, [fd 31 16 .rwl, fd 15 0 .rwl]⟩,
  ⟨0x04C, 1, 4, 0x401000, [fd 31 16 .rwl, fd 15 0 .rwl]⟩,
  ⟨0x050, 1, 4, 0x20001020, [fd 31 16 .rwl, fd 15 8 .rwl, fd 7 0 .rwl]⟩,
  ⟨0x054, 1, 4, 0x5DC, [fd 31 31 .w1c, fd 15 0 .rw]⟩,
  ⟨0x060, 1, 4, 0xC0040001, [fd 31 31 .rwl, fd 30 30 .rwl, fd 23 16 .rwl, fd 15 8 .rwl, fd 2 2 .rwl, fd 1 0 .rwl]⟩,
  ⟨0x064, 1, 4, 0x10000000, [fd 31 16 .rwl, fd 15 0 .rwl]⟩,
  ⟨0x068, 1, 4, 0x0, [fd 31 31 .w1s, fd 30 30 .w1c, fd 25 24 .rw, fd 23 0 .rw]⟩,
  ⟨0x070, 1, 4, 0x0, [fd 31 24 .ro, fd 23 16 .ro, fd 15 13 .ro, fd 12 10 .ro, fd 7 7 .ro, fd 6 6 .ro, fd 5 5 .ro, fd 2 0 .ro]⟩,
  ⟨0x074, 1, 4, 0x0, [fd 31 16 .ro, fd 11 0 .ro]⟩,
  ⟨0x078, 1, 4, 0x0, [fd 31 31 .wo, fd 23 16 .wo, fd 15 0 .wo]⟩,
  ⟨0x080, 1, 4, 0x0, [fd 31 0 .rc]⟩,
  ⟨0x084, 1, 4, 0x0, [fd 31 0 .rc]⟩,
  ⟨0x088, 1, 4, 0x0, [fd 31 0 .rc]⟩,
  ⟨0x08C, 1, 4, 0x0, [fd 31 0 .rc]⟩,
  ⟨0x0A0, 1, 4, 0x0, [fd 31 31 .ro, fd 0 0 .w1s]⟩,
  ⟨0x0A4, 1, 4, 0x0, [fdl 3 0 .rw [(0, 11)]]⟩,
  ⟨0x0A8, 1, 4, 0x0, [fd 31 0 .ro]⟩,
  ⟨0x0C0, 1, 4, 0x0, [fd 31 31 .ro, fd 30 30 .w1c, fd 0 0 .w1s]⟩,
  ⟨0x0C4, 1, 4, 0x0, [fd 21 2 .rw]⟩,
  ⟨0x0C8, 1, 4, 0x0, [fd 31 0 .rw]⟩,
  ⟨0x0D0, 1, 4, 0x0, [fd 31 31 .ro, fd 30 30 .w1c, fd 11 0 .ro]⟩]

/-- The block registers of page type 0x0071. -/
def regs71 : List RegDesc := [
  ⟨0x040, 1, 4, 0x0, [fd 7 0 .rw]⟩,
  ⟨0x044, 1, 4, 0x80000010, [fd 31 16 .rw, fd 15 15 .rw, fd 12 11 .rw, fd 10 8 .rw, fd 6 4 .rw]⟩,
  ⟨0x048, 1, 4, 0x0, [fd 8 0 .ro]⟩]

/-- The block registers of page type 0x0072. -/
def regs72 : List RegDesc := [
  ⟨0x040, 1, 4, 0x2D, [fd 31 31 .w1c, fd 5 5 .rwl, fd 4 4 .rwl, fd 3 3 .rwl, fd 2 2 .rwl, fd 0 0 .rwl]⟩,
  ⟨0x044, 1, 4, 0xFF, [fd 7 0 .rw]⟩,
  ⟨0x048, 1, 4, 0x0, [fd 31 0 .rc]⟩,
  ⟨0x04C, 1, 4, 0x0, [fd 31 0 .rc]⟩]

/-- The block registers of page type 0x0080, page 0. -/
def regs80_0 : List RegDesc := [
  ⟨0x040, 1, 4, 0x0, [fd 31 31 .ro, fd 30 30 .ro, fd 23 16 .ro, fd 7 0 .ro]⟩,
  ⟨0x044, 1, 4, 0x30, [fd 31 31 .w1s, fd 7 4 .rwl, fd 0 0 .w1s]⟩,
  ⟨0x048, 1, 4, 0x7D0, [fd 31 31 .ro, fd 15 0 .rw]⟩,
  ⟨0x04C, 1, 4, 0x0, [fd 31 0 .wo]⟩,
  ⟨0x050, 1, 4, 0x0, [fd 31 0 .ro]⟩,
  ⟨0x054, 1, 4, 0x0, [fd 2 2 .w1s, fd 1 1 .w1s, fd 0 0 .w1s]⟩,
  ⟨0x058, 1, 4, 0xF, [fd 3 0 .rwl]⟩,
  ⟨0x05C, 1, 4, 0x0, [fd 31 0 .rw]⟩,
  ⟨0x060, 1, 4, 0x0, [fd 31 1 .rwl]⟩,
  ⟨0x064, 1, 4, 0x303, [fdl 15 8 .rwl [(1, 254)], fdl 7 0 .rwl [(1, 254)]]⟩]

/-- The block registers of page type 0x0080, page 1. -/
def regs80_1 : List RegDesc := [
  ⟨0x040, 1, 4, 0x0, [fdl 31 30 .rw [(0, 2)], fd 3 0 .rw]⟩,
  ⟨0x044, 1, 4, 0x0, [fd 19 0 .rwl]⟩,
  ⟨0x048, 1, 4, 0x0, [fd 31 31 .rwl, fd 19 0 .rwl]⟩,
  ⟨0x050, 1, 4, 0x0, [fd 31 31 .w1c, fd 30 30 .ro, fd 29 28 .ro, fd 23 16 .ro]⟩,
  ⟨0x054, 1, 4, 0x0, [fd 31 0 .ro]⟩,
  ⟨0x058, 1, 4, 0x0, [fd 31 0 .rc]⟩]

/-- The block registers of page type 0x0080, page 2. -/
def regs80_2 : List RegDesc := [
  ⟨0x040, 1, 4, 0x40000000, [fd 31 31 .w1s, fd 30 30 .ro, fd 29 28 .ro]⟩,
  ⟨0x044, 1, 4, 0x0, [fd 5 0 .rw]⟩,
  ⟨0x048, 1, 4, 0x0, [fd 31 2 .rw, fd 0 0 .rw]⟩,
  ⟨0x04C, 1, 4, 0x0, [fd 31 0 .rc]⟩,
  ⟨0x050, 1, 4, 0x0, [fd 31 0 .rc]⟩,
  ⟨0x060, 1, 4, 0x0, [fd 7 4 .rw, fd 2 0 .rw]⟩,
  ⟨0x064, 1, 4, 0x0, [fd 31 0 .rw]⟩]

/-- The block registers of page type 0x0080, page 3. -/
def regs80_3 : List RegDesc := [
  ⟨0x040, 1, 4, 0x0, [fd 31 31 .w1c, fd 23 8 .wo, fd 7 0 .wo]⟩,
  ⟨0x044, 1, 4, 0x0, [fd 31 31 .w1c, fd 30 28 .ro, fd 27 24 .ro, fd 11 0 .ro]⟩,
  ⟨0x048, 1, 4, 0x0, [fd 31 0 .rc]⟩,
  ⟨0x04C, 1, 4, 0x0, [fd 31 31 .ro, fd 30 30 .w1s, fd 3 0 .ro]⟩,
  ⟨0x060, 14, 4, 0x0, [fd 31 0 .w1s]⟩]

/-- The block registers of page type 0x0081, page 0. -/
def regs81_0 : List RegDesc := [
  ⟨0x040, 1, 4, 0x0, [fd 8 0 .rw]⟩,
  ⟨0x044, 1, 4, 0x0, [fd 31 31 .ro, fd 30 30 .ro, fd 29 28 .ro, fd 27 27 .ro, fd 26 26 .ro, fd 25 25 .ro, fd 10 8 .rw, fd 5 4 .rw, fd 0 0 .rw]⟩,
  ⟨0x080, 14, 4, 0x0, [fd 31 0 .ro]⟩]

/-- The block registers of page type 0x0081, page 1. -/
def regs81_1 : List RegDesc := [
  ⟨0x040, 1, 4, 0x0, [fd 8 0 .rw]⟩,
  ⟨0x044, 1, 4, 0x0, [fd 31 0 .rc]⟩,
  ⟨0x050, 4, 4, 0x0, [fd 10 8 .rw, fd 2 0 .rw]⟩,
  ⟨0x060, 1, 4, 0x0, [fd 3 0 .w1s]⟩,
  ⟨0x070, 4, 8, 0xFFFFFFFF, [fd 31 0 .rw]⟩,
  ⟨0x074, 4, 8, 0xFFFFFFFF, [fd 31 0 .rw]⟩]

/-- The block registers of page type 0x0090. -/
def regs90 : List RegDesc := [
  ⟨0x040, 1, 4, 0x108, [fd 31 31 .w1s, fd 8 8 .rw, fdl 3 2 .rwl [(0, 2)], fdl 1 0 .rw [(0, 2)]]⟩,
  ⟨0x044, 1, 4, 0x20000, [fd 17 16 .ro, fd 9 9 .ro, fd 8 8 .ro, fd 0 0 .ro]⟩,
  ⟨0x060, 1, 4, 0x8888000, [fd 29 15 .rwl]⟩,
  ⟨0x064, 1, 4, 0x11110000, [fd 29 15 .rwl]⟩,
  ⟨0x068, 1, 4, 0x22220000, [fd 29 15 .rwl]⟩,
  ⟨0x06C, 1, 4, 0x4440000, [fd 29 15 .rwl]⟩,
  ⟨0x070, 1, 4, 0x3010, [fd 15 8 .rwl, fd 7 0 .rwl]⟩,
  ⟨0x080, 1, 4, 0x0, [fd 31 31 .w1c, fd 30 30 .ro, fd 29 27 .ro, fd 23 16 .ro, fd 15 8 .ro]⟩,
  ⟨0x084, 1, 4, 0x0, [fd 26 0 .ro]⟩,
  ⟨0x088, 1, 4, 0x0, [fd 31 0 .rc]⟩,
  ⟨0x08C, 1, 4, 0x0, [fd 31 0 .rc]⟩,
  ⟨0x090, 1, 4, 0x0, [fd 31 31 .w1s, fd 30 30 .rw, fd 26 0 .rw]⟩,
  ⟨0x094, 1, 4, 0x18, [fd 15 0 .rw]⟩,
  ⟨0x098, 1, 4, 0x0, [fd 26 0 .ro]⟩,
  ⟨0x0A0, 1, 4, 0x8000400, [fd 31 16 .rwl, fd 15 8 .rwl]⟩,
  ⟨0x0A4, 1, 4, 0x0, [fd 31 31 .w1c, fd 30 30 .ro, fd 23 16 .ro, fd 15 8 .ro, fd 6 4 .ro, fd 3 0 .ro]⟩,
  ⟨0x0A8, 1, 4, 0x0, [fd 14 0 .ro]⟩,
  ⟨0x0AC, 1, 4, 0x0, [fd 31 0 .rc]⟩]

/-- The block registers of page type 0x0091. -/
def regs91 : List RegDesc := [
  ⟨0x040, 1, 4, 0x0, [fd 31 31 .ro, fd 26 24 .ro, fd 19 16 .ro, fd 6 0 .ro]⟩,
  ⟨0x044, 1, 4, 0x0, [fd 31 0 .rc]⟩,
  ⟨0x048, 1, 4, 0x0, [fd 31 0 .rc]⟩,
  ⟨0x04C, 1, 4, 0x0, [fd 7 0 .ro]⟩,
  ⟨0x050, 1, 4, 0x0, [fd 31 0 .ro]⟩,
  ⟨0x054, 1, 4, 0x0, [fd 31 0 .ro]⟩,
  ⟨0x058, 1, 4, 0x0, [fd 31 0 .rc]⟩]

/-- The block registers of page type 0x00B0, page 0. -/
def regsB0_0 : List RegDesc := [
  ⟨0x040, 1, 4, 0x0, [fd 31 31 .w1s, fd 30 30 .w1s, fd 29 29 .w1c]⟩,
  ⟨0x044, 1, 4, 0x0, [fd 27 24 .ro, fd 23 16 .ro, fd 11 11 .ro, fd 10 10 .ro, fd 9 9 .ro, fd 8 8 .ro, fd 5 4 .ro, fd 2 0 .ro]⟩,
  ⟨0x048, 1, 4, 0x0, [fd 31 0 .ro]⟩,
  ⟨0x04C, 1, 4, 0x0, [fd 31 0 .ro]⟩,
  ⟨0x050, 1, 4, 0x0, [fd 31 0 .ro]⟩,
  ⟨0x054, 1, 4, 0x0, [fd 31 0 .ro]⟩,
  ⟨0x058, 1, 4, 0x0, [fd 31 0 .ro]⟩,
  ⟨0x05C, 1, 4, 0x0, [fd 31 0 .ro]⟩]

/-- The block registers of page type 0x00B0, page 1. -/
def regsB0_1 : List RegDesc := [
  ⟨0x040, 1, 4, 0x0, [fd 31 31 .ro, fd 30 30 .ro, fd 23 16 .ro, fd 15 0 .rc]⟩,
  ⟨0x044, 1, 4, 0x0, [fd 31 0 .rc]⟩,
  ⟨0x048, 1, 4, 0x0, [fd 31 0 .rc]⟩,
  ⟨0x04C, 1, 4, 0x0, [fd 31 0 .rc]⟩]

/-- The block registers of page type 0x00B0, page 2. -/
def regsB0_2 : List RegDesc := [
  ⟨0x040, 1, 4, 0x0, [fd 23 16 .ro, fd 7 0 .ro]⟩,
  ⟨0x044, 1, 4, 0x0, [fd 31 31 .w1c, fd 30 30 .ro, fd 18 16 .ro, fd 12 8 .ro]⟩,
  ⟨0x048, 1, 4, 0x0, [fd 15 0 .ro]⟩,
  ⟨0x04C, 1, 4, 0x0, [fd 31 0 .ro]⟩,
  ⟨0x060, 8, 4, 0x0, [fd 31 0 .rc]⟩]

/-- The block registers of page type 0x00B0, page 3. -/
def regsB0_3 : List RegDesc := [
  ⟨0x040, 1, 4, 0x0, [fd 31 31 .ro, fd 30 30 .w1c, fd 15 0 .ro]⟩,
  ⟨0x044, 1, 4, 0x0, [fd 31 0 .rc]⟩]

/-- The block registers of page type 0x0100. -/
def regs100 : List RegDesc := [
  ⟨0x040, 8, 4, 0x0, [fd 31 0 .rw]⟩,
  ⟨0x060, 1, 4, 0x0, [fd 9 9 .wo, fd 8 8 .wo, fd 7 0 .wo]⟩,
  ⟨0x064, 1, 4, 0x0, [fd 31 0 .ro]⟩,
  ⟨0x068, 1, 4, 0x0, [fd 15 0 .ro]⟩,
  ⟨0x06C, 1, 4, 0x0, [fd 31 0 .rw]⟩,
  ⟨0x080, 1, 4, 0x0, [fd 31 12 .rw]⟩,
  ⟨0x084, 1, 4, 0x0, [fd 31 0 .rw]⟩,
  ⟨0x088, 1, 4, 0x0, [fd 31 31 .w1c, fd 30 30 .w1c, fd 4 1 .rw, fd 0 0 .rw]⟩,
  ⟨0x08C, 1, 4, 0x0, [fd 31 0 .rw]⟩,
  ⟨0x090, 1, 4, 0x0, [fd 31 0 .ro]⟩,
  ⟨0x0A0, 1, 4, 0x0, [fd 31 12 .rw]⟩,
  ⟨0x0A4, 1, 4, 0x0, [fd 31 0 .rw]⟩,
  ⟨0x0A8, 1, 4, 0x0, [fd 4 1 .rw, fd 0 0 .rw]⟩,
  ⟨0x0AC, 1, 4, 0x0, [fd 31 0 .rw]⟩,
  ⟨0x0B0, 1, 4, 0x0, [fd 31 0 .ro]⟩,
  ⟨0x0B4, 1, 4, 0x0, [fd 31 31 .w1c, fd 30 30 .w1c, fd 29 29 .w1c, fd 15 0 .rc]⟩]

/-- The block registers of page type 0x0101. -/
def regs101 : List RegDesc := [
  ⟨0x040, 1, 4, 0x0, [fd 2 0 .ro]⟩,
  ⟨0x044, 1, 4, 0x0, [fd 31 24 .ro, fd 23 16 .ro, fd 15 8 .ro]⟩,
  ⟨0x048, 1, 4, 0x0, [fd 12 12 .ro, fd 11 8 .ro, fd 7 4 .ro, fd 3 0 .ro]⟩,
  ⟨0x04C, 1, 4, 0xF00000, [fdl 31 28 .rw [(0, 6)], fd 27 27 .ro, fd 23 20 .ro, fd 7 0 .rw]⟩,
  ⟨0x050, 1, 4, 0x0, [fd 31 16 .ro, fd 7 0 .ro]⟩,
  ⟨0x054, 1, 4, 0x0, [fd 31 16 .ro, fd 15 0 .ro]⟩,
  ⟨0x058, 1, 4, 0x0, [fd 31 0 .ro]⟩,
  ⟨0x05C, 1, 4, 0x0, [fd 31 0 .ro]⟩]

/-- The block registers of page type 0x0102. -/
def regs102 : List RegDesc := [
  ⟨0x040, 1, 4, 0x0, [fd 19 0 .ro]⟩,
  ⟨0x044, 1, 4, 0x0, [fd 31 16 .ro, fd 11 0 .ro]⟩]

/-- The block registers of page type 0x0103. -/
def regs103 : List RegDesc := [
  ⟨0x040, 1, 4, 0x0, [fd 31 31 .rw, fd 16 8 .rw, fd 5 0 .rw]⟩,
  ⟨0x044, 1, 4, 0x0, [fd 31 0 .rw]⟩,
  ⟨0x048, 1, 4, 0x0, [fd 1 1 .wo, fd 0 0 .wo]⟩,
  ⟨0x04C, 1, 4, 0xF00000, [fd 31 31 .ro, fd 30 30 .ro, fd 29 29 .ro, fd 23 20 .ro, fd 10 8 .ro]⟩]

/-- The block registers of page type 0x0104. -/
def regs104 : List RegDesc := [
  ⟨0x040, 1, 4, 0x0, [fdl 31 30 .rw [(0, 2)], fd 29 29 .rw, fd 11 8 .rw, fd 6 0 .rw]⟩,
  ⟨0x044, 1, 4, 0x0, [fd 31 0 .rw]⟩,
  ⟨0x048, 1, 4, 0x0, [fd 23 16 .ro, fd 15 0 .rc]⟩]

/-- The block registers of page type 0x0105. -/
def regs105 : List RegDesc := [
  ⟨0x040, 1, 4, 0x0, [fd 31 12 .rw, fd 4 1 .rw, fd 0 0 .rw]⟩,
  ⟨0x044, 1, 4, 0x0, [fd 31 0 .rw]⟩,
  ⟨0x048, 1, 4, 0x0, [fd 31 16 .ro, fd 15 0 .rw]⟩,
  ⟨0x04C, 1, 4, 0x0, [fd 31 31 .ro, fd 15 0 .rc]⟩]

/-- The block registers of page type 0x0106. -/
def regs106 : List RegDesc := [
  ⟨0x040, 1, 4, 0x0, [fd 5 2 .rw, fd 1 0 .rw]⟩,
  ⟨0x044, 1, 4, 0x0, [fd 31 0 .rw]⟩]

/-- The block registers of page type 0x0107. -/
def regs107 : List RegDesc := [
  ⟨0x040, 1, 4, 0x0, [fd 11 8 .rw, fd 2 0 .rw]⟩,
  ⟨0x044, 1, 4, 0x0, [fd 31 0 .rw]⟩,
  ⟨0x048, 1, 4, 0x0, [fd 31 31 .wo, fd 27 24 .wo, fd 23 16 .wo, fd 15 0 .wo]⟩]

/-- The block registers of page type 0x0108. -/
def regs108 : List RegDesc := [
  ⟨0x040, 1, 4, 0x0, [fd 2 0 .rw]⟩,
  ⟨0x044, 1, 4, 0x0, [fd 31 0 .rw]⟩,
  ⟨0x048, 1, 4, 0x0, [fd 31 31 .ro, fd 30 30 .ro, fd 15 0 .rc]⟩]

/-- The block registers of a page by its type code and number; pages the map does not name have none. -/
def regsOf : Nat → Nat → List RegDesc
  | 0x01, _ => regs01
  | 0x02, _ => regs02
  | 0x03, _ => regs03
  | 0x10, 0 => regs10_0
  | 0x10, 1 => regs10_1
  | 0x10, 2 => regs10_2
  | 0x10, 3 => regs10_3
  | 0xA0, 0 => regsA0_0
  | 0xA0, 1 => regsA0_1
  | 0xA1, 0 => regsA1_0
  | 0xA1, 1 => regsA1_1
  | 0xC0, _ => regsC0
  | 0x20, _ => regs20
  | 0x30, 0 => regs30_0
  | 0x30, 1 => regs30_1
  | 0x30, 2 => regs30_2
  | 0x31, _ => regs31
  | 0x40, _ => regs40
  | 0x41, _ => regs41
  | 0x43, _ => regs43
  | 0x42, _ => regs42
  | 0x50, _ => regs50
  | 0x51, _ => regs51
  | 0x60, _ => regs60
  | 0x61, _ => regs61
  | 0x70, _ => regs70
  | 0x71, _ => regs71
  | 0x72, _ => regs72
  | 0x80, 0 => regs80_0
  | 0x80, 1 => regs80_1
  | 0x80, 2 => regs80_2
  | 0x80, 3 => regs80_3
  | 0x81, 0 => regs81_0
  | 0x81, 1 => regs81_1
  | 0x90, _ => regs90
  | 0x91, _ => regs91
  | 0xB0, 0 => regsB0_0
  | 0xB0, 1 => regsB0_1
  | 0xB0, 2 => regsB0_2
  | 0xB0, 3 => regsB0_3
  | 0x100, _ => regs100
  | 0x101, _ => regs101
  | 0x102, _ => regs102
  | 0x103, _ => regs103
  | 0x104, _ => regs104
  | 0x105, _ => regs105
  | 0x106, _ => regs106
  | 0x107, _ => regs107
  | 0x108, _ => regs108
  | _, _ => []

/-- The description of the register at a page offset, and its place in its run. -/
def regAt (ty inst off : Nat) : Option (RegDesc × Nat) :=
  ((regsOf ty inst).find? fun r => r.off ≤ off && (off - r.off) % r.stride == 0 && (off - r.off) / r.stride < r.n).map
    fun r => (r, (off - r.off) / r.stride)

/-- The reset word of the register at a page offset; a reserved offset reads 0 (00_scope.md R15). -/
def regReset (ty inst off : Nat) : Nat :=
  match regAt ty inst off with
  | some (r, _) => r.reset
  | none => 0

end Sys2Proof
end

