-- ==== Sys2Proof/Machine/State.lean ====
section
/-!
DEFINITION. The state of the block: every register (the table `cells`, keyed by BAR0 offset and by the numbers of the
indexed tables), every memory, queue, counter, mode and pin the spec gives it, as plain data, and the queue of waiting
commands. A block that comes in numbers (outputs, slots, channels) is a table from its number; an absent number reads
as that block's reset record.
-/

namespace Sys2Proof.Machine

/-- Why the block stops: nothing. The spec describes every error as a status, a flag, a record or a response, so a step
always answers a next state; the type has no constructor. -/
inductive Fault where
deriving DecidableEq, Repr

/-- Why a command has no meaning. `notModelled` was raised by the arms of `exec` not yet written; no arm raises it; safe. -/
inductive Refusal where
  | notModelled (mnemonic : String)
deriving DecidableEq, Repr

/-! ### What the block emits and answers -/

/-- A haul-link message with its payload (15_pairs_and_live_insertion.md R428). -/
inductive Msg where
  | idle
  | hello (key : Nat) (digest family capsMem : Word) (st : Nat)
  | time (t : Nat) (starts : List (Nat × Nat))
  | lineCv (o flags line frame cv : Nat)
  | latch (o frame fence : Nat) (crc : Word)
  | latchAck (o frame : Nat) (late : Bool)
  | writeReg (addr : Nat) (v : Word) (how : RegMsg)
  | writeDram (off : Nat) (data : List Byte) (world1 poisoned : Bool)
  | decision (d : PairDecision)
  | touchState (n scan : Nat) (st : TouchMirror)
  | hapticState (chs : List HapMirror)
  | streamData (s : Nat) (ch : Option Nat) (pos : Nat) (samples : List Int)
  | feed (o t : Nat) (toPrimary : Bool)
  | handover (t : Nat)
  | yield (cause : Nat)
  | catchupDone (last : Nat)
deriving DecidableEq, Repr

/-- A frame on the haul link, or one sent and not yet acknowledged (15_pairs_and_live_insertion.md R425, R426). -/
structure Frame where
  bulk : Bool
  nak : Bool
  seq : Nat
  ackT : Nat
  ackB : Nat
  msg : Msg
  replays : Nat := 0
deriving DecidableEq, Repr

/-- How an accelerometer port clocks a transaction: polarity, phase, and the divider of its clock
(10_haptic_and_acoustic_feedback.md, HAP_ACC_CFG). -/
structure SpiMode where
  cpol : Bool
  cpha : Bool
  div : Nat
deriving DecidableEq, Repr

/-- What leaves the block in the last command, in order (log 2): upstream requests of the host link (02_host_interface.md R47, R83), frames of
the haul link (15_pairs_and_live_insertion.md R425), changes of a pin, and interrupt messages. -/
inductive Emit where
  | hostWrite (pasid : Option (BitVec 20)) (addr : Nat) (data : List Byte) (relaxed : Bool)
  | hostRead (tag : Nat) (pasid : Option (BitVec 20)) (addr len : Nat)
  | msix (vec : Nat) (addr : Nat) (data : Word)
  | pme
  | aerAdvisory
  | frame (f : Frame)
  | pairSync
  | accTransaction (ch : Nat) (spi : SpiMode) (data : List Byte)
  | accPoll (ch : Nat) (spi : SpiMode) (cmd bytes : Nat)
  | aux (o : Nat) (request addr len : Nat) (data : List Byte)
  /-- a training pattern TPS1 to TPS4 on the main link, with its rate, lanes and down-spreading
  (07_scanout_and_display_links.md R227, R232) -/
  | linkPattern (o tps rate lanes : Nat) (ssc : Bool)
  | tdmFrame (port : Nat) (slots : List (Option Word))
  | stage (o : Nat) (what : Nat)
deriving DecidableEq, Repr

/-- The answer to the last bus access (log 2). -/
inductive Resp where
  | data (bytes : List Byte)
  | unsupported
  | poisoned (bytes : List Byte)
  | busError
  /-- Configuration Request Retry Status (16_power_resets_and_start_up.md R463) -/
  | retry
  | done
deriving DecidableEq, Repr

/-! ### The host interface -/

/-- What a read of host memory is for (02_host_interface.md R48, R74; 10_haptic_and_acoustic_feedback.md R314). -/
inductive ReadFor where
  | entry (sp : Nat)
  | segment (sp handle : Nat) (off : Nat)
  | haptic (s ch : Nat) (count : Nat)
  | audio (s : Nat) (count : Nat)
deriving DecidableEq, Repr

/-- A read request the module has issued (02_host_interface.md R46, R49). -/
structure HostRead where
  tag : Nat
  use : ReadFor
  /-- the bytes it reads for, where its own stand among them, and how far from the first address they lie -/
  gid : Nat
  place : Nat
  off : Nat
  len : Nat
  pasid : Option (BitVec 20)
  /-- its data are discarded when they come: the slice was reset (03_slices.md R107) -/
  discard : Bool
deriving DecidableEq, Repr

/-- Bytes of host memory that one use wants: the requests not yet issued, as place among the bytes, address and length, and
the data that have come, by place (02_host_interface.md R46). -/
structure Gather where
  gid : Nat
  use : ReadFor
  pasid : Option (BitVec 20)
  first : Nat
  len : Nat
  todo : List (Nat × Nat × Nat)
  got : List (Nat × List Byte) := []
deriving DecidableEq, Repr

/-- The host link and its configuration space (02_host_interface.md R46, R90; 12_interrupt_delivery.md R369, R370). -/
structure Hif where
  linkUp : Bool := false
  memorySpace : Bool := false
  busMaster : Bool := false
  msixEnable : Bool := false
  functionMask : Bool := false
  relaxedOrdering : Bool := false
  timeoutValue : Nat := 0
  timeoutDisable : Bool := false
  /-- 0 is D0, 3 is D3hot -/
  powerState : Nat := 0
  pmeEnable : Bool := false
  /-- the function answers only retries until host_ready (16_power_resets_and_start_up.md R463) -/
  retry : Bool := true
  /-- the base addresses in BAR0, BAR2 and BAR4 with their upper halves (02_host_interface.md R50) -/
  bar0 : Nat := 0
  bar2 : Nat := 0
  bar4 : Nat := 0
  /-- size codes of PCI Express: 128 bytes shifted left by the code (02_host_interface.md R46) -/
  maxPayload : Nat := 0
  maxRead : Nat := 2
  tenBitTag : Bool := false
  /-- speed code and lanes at which the link has trained (02_host_interface.md R46) -/
  linkSpeed : Nat := 5
  linkWidth : Nat := 8
  aspm : Nat := 0
  l1Sub : Nat := 0
  ltr : Bool := false
  pasidEnable : Bool := false
  pmeStatus : Bool := false
  /-- the AER status bits of an Advisory Non-Fatal Unsupported Request (02_host_interface.md R67) -/
  aerUnsupported : Bool := false
  aerAdvisory : Bool := false
  reads : List HostRead := []
  gathers : List Gather := []
  nextGather : Nat := 0
  nextTag : Nat := 0
  /-- station time of the last message of a vector (R370) -/
  lastMsg : Tab (Option Nat) := []
  /-- vectors with a message merged in their moderation interval (R370) -/
  merged : List Nat := []
  /-- lines of slice 255 signalled while it is DETACHED: their messages follow its held records (R369) -/
  heldLines : List Nat := []
  /-- pages whose block soft reset is in progress (R62) -/
  softReset : List Nat := []
  subsystem : Word := 0#32
deriving DecidableEq, Repr

/-- Where a command stands (02_host_interface.md R72, R78). -/
inductive CmdPhase where
  | waiting               -- behind a fence, or behind an earlier command on its surface (R147)
  | running
  | held                  -- completed, its record held
  | written (n : Nat)     -- completed, its record is number n of the ring
deriving DecidableEq, Repr

/-- An outstanding command (02_host_interface.md R70, R78). -/
structure Cmd where
  handle : Nat
  op : Nat
  words : List Word
  fence : Bool
  noInt : Bool
  phase : CmdPhase
deriving DecidableEq, Repr

/-- One handle space with its rings (02_host_interface.md R70 to R85). -/
structure CmdSpace where
  cursor : Nat := 0
  gens : Tab Nat := []
  cmds : List Cmd := []
  heldRecs : List Rec := []
  query : Nat := 0
  /-- the submission entry fetched and not yet taken (R74) -/
  entry : Option (List Byte) := none
  fetching : Bool := false
  /-- no entry is read until the tail is written again (R75, R503) -/
  stopped : Bool := false
  /-- the tail was written after a failed read: the entry is read again, whatever the tail's value (R503) -/
  again : Bool := false
  /-- events dropped and not yet told in an EVENTS_LOST record (R84) -/
  lost : Nat := 0
deriving DecidableEq, Repr

/-! ### Slices -/

/-- The slice states (03_slices.md R96). -/
inductive SliceState where
  | unbound | bound | freezing | frozen | resetting | detached
deriving DecidableEq, Repr

/-- A write to guest memory that waits for dirty-log space (03_slices.md R116), with its log kind, its Relaxed Ordering and,
for export data, the handle of the export. A submission-entry result (kind 2) has no data yet: the entry is taken when it
can be written (02_host_interface.md R75). -/
structure GuestWrite where
  addr : Nat
  data : List Byte
  kind : Nat
  relaxed : Bool := false
  handle : Nat := 0
deriving DecidableEq, Repr

/-- One slice (03_slices.md). -/
structure Slice where
  st : SliceState := .unbound
  /-- the state to return to from DETACHED (02_host_interface.md R91) -/
  before : SliceState := .bound
  pasid : BitVec 20 := 0#20
  /-- the reset in progress ends in UNBOUND, and drops records (R107, R108) -/
  unbinding : Bool := false
  discard : Bool := false
  /-- outputs whose removal tick the reset awaits (R109) -/
  awaits : List Nat := []
  /-- global number at each ordinal of a kind, keyed kind × 256 + ordinal (R102); `none` is not in use -/
  ords : Tab (Option Nat) := []
  captured : Bool := false
  firstDone : Bool := false
  /-- a reset has to return the words of the haptic and of the audio streams to their reset values, once braking and the fade
  have begun (10_haptic_and_acoustic_feedback.md R315) -/
  hapWords : Bool := false
  audWords : Bool := false
  round : Nat := 0
  /-- identifiers written or freed since the last round (R120) -/
  dirty : List Nat := []
  freed : List Nat := []
  nextRound : Nat := 0
  restored : Bool := false
  /-- outputs whose restored layers are to latch, and whether all did (R122) -/
  relatch : List Nat := []
  latchedAll : Bool := true
  waiting : List GuestWrite := []
deriving DecidableEq, Repr

/-! ### Surfaces and haul engines -/

/-- Who holds a version (04_surfaces_and_haul.md R151). -/
inductive Holder where
  | commit (o sp handle : Nat)
  | output (o : Nat)
  | cmd (sp handle : Nat)
deriving DecidableEq, Repr

/-- The lease states of a live version (04_surfaces_and_haul.md R153); FREED versions are not kept. -/
inductive Lease where
  | filling | current | retired
deriving DecidableEq, Repr

/-- One version (04_surfaces_and_haul.md R124, R153). IDLE and HELD are `current` without and with holders. -/
structure Version where
  slice : Nat := 0
  ident : Nat := 0
  unit0 : Nat := 0
  units : Nat := 0
  lease : Lease := .filling
  holders : List Holder := []
  importCount : Nat := 0
  /-- the last frame and output that read it (R141) -/
  lastFrame : Nat := 0xFFFFFFFF
  lastOut : Nat := 0xFF
deriving DecidableEq, Repr

/-- One live surface (04_surfaces_and_haul.md R123, R128). -/
structure Surface where
  ident : Nat := 0
  w : Nat := 0
  h : Nat := 0
  fmt : Nat := 0
  colour : Nat := 0
  importCount : Nat := 0
  cur : Option Nat := none
deriving DecidableEq, Repr

/-- What a segment does (04_surfaces_and_haul.md R145). -/
inductive SegKind where
  | host      -- moves bytes between the host and the version
  | copy      -- the copy of R137
  | zero      -- the zero fill of R137
deriving DecidableEq, Repr

/-- One segment of a transfer (04_surfaces_and_haul.md R145, R150). -/
structure Seg where
  kind : SegKind
  /-- host runs, address and length, in the order they are read or written -/
  runs : List (Nat × Nat)
  /-- version-relative runs of linear or stored bytes that the host bytes fill -/
  dram : List (Nat × Nat)
  /-- groups (gx, gy) of a tile-compressed transfer with stored clear -/
  groups : List (Nat × Nat)
  /-- offset of the segment's first byte in the host range, and its size (R142, R145) -/
  off : Nat
  size : Nat
deriving DecidableEq, Repr

/-- A transfer in progress (04_surfaces_and_haul.md R145; also CV_SEED, the capture and restore, FLOOR_LOAD). -/
structure Xfer where
  sp : Nat
  handle : Nat
  op : Nat
  slice : Nat
  segs : List Seg
  idx : Nat
  done : Nat
  /-- the surface moved, its width, height and format -/
  ident : Nat := 0
  w : Nat := 0
  h : Nat := 0
  fmt : Nat := 0
  vid : Option Nat
  src : Option Nat
  /-- the snooped unit, and whether at the target point (R140) -/
  snoop : Option (Nat × Bool)
  /-- bytes gathered for a command that works on a whole buffer -/
  buf : List Byte
  /-- the running segment's data have come from the host -/
  data : Option (List Byte)
  /-- order of starting, for the arbiter (R146) -/
  order : Nat
deriving DecidableEq, Repr

/-- A haul engine: the transfer whose segment it runs, by space and handle (04_surfaces_and_haul.md R145). -/
structure Engine where
  run : Option (Nat × Nat) := none
  bytes : Nat := 0
deriving DecidableEq, Repr

/-- Surfaces, versions, transfers and the arbiter (04_surfaces_and_haul.md). -/
structure Haul where
  /-- keyed slice × 4,096 + index -/
  surfaces : Tab (Option Surface) := []
  idGens : Tab Nat := []
  versions : Tab (Option Version) := []
  nextVid : Nat := 1
  xfers : List Xfer := []
  nextOrder : Nat := 0
  credit : Tab Nat := []
  turn : Nat := 0
  engines : Tab Engine := []
  /-- versions filled whose DECISION and data the secondary has not yet acknowledged (15_pairs_and_live_insertion.md R433) -/
  mirrorWait : List (Nat × Nat × Nat) := []
deriving DecidableEq, Repr

/-! ### Outputs, plans and layers -/

/-- A layer of a configuration: its slot, owner (256 is the protected world) and image, with the version bound at the
take-up (05_bench_plan_and_fit_check.md R158, R165; 06_layer_composition.md R182). -/
structure CfgLayer where
  slot : Nat
  owner : Nat
  image : Tab Word
  vid : Option Nat
  /-- DRAM offset of the version or of the capstone source, width, height, format and colour of the source -/
  base : Nat
  sw : Nat
  sh : Nat
  fmt : Nat
  colour : Nat
deriving DecidableEq, Repr

/-- One region image: CTRL, POS, SIZE and EXPECT (08_check_values_core_samples_and_floor_images.md, CSR_CTRL and after). -/
structure RegionImg where
  ctrl : Word := 0#32
  pos : Word := 0#32
  size : Word := 0x10001#32
  expect : Word := 0#32
deriving DecidableEq, Repr

/-- A commit on an output: a slice's, or with owner 256 a capstone commit (05_bench_plan_and_fit_check.md R155 to R160;
06_layer_composition.md R203). -/
structure Commit where
  owner : Nat
  handle : Nat
  probe : Bool
  layers : List (Nat × Tab Word)
  regions : List (Nat × RegionImg)
  bound : List CfgLayer
  /-- acceptance instant (R161), and the headroom of R162 -/
  acc : Nat
  headroom : Nat
deriving DecidableEq, Repr

/-- An entry of a checker queue (05_bench_plan_and_fit_check.md R157, R164). -/
inductive Entry where
  | commit (c : Commit)
  | share (w : Word)
deriving DecidableEq, Repr

/-- A compiled bench plan (05_bench_plan_and_fit_check.md R162, R178). Bands and costs are computed from it. -/
structure Plan where
  frame : Nat := 0xFFFFFFFF
  layers : List CfgLayer := []
  shed : List Nat := []
  fallback : Bool := false
  accTime : Nat := 0
  /-- by slot, the cause bits in force at the pass that last shed or restored its layer, with bit 4 after an acceptance (R177) -/
  causes : List (Nat × Nat) := []
deriving DecidableEq, Repr

/-- Work to be cleared at a frame tick (07_scanout_and_display_links.md R506). -/
inductive Removal where
  | layer (slot : Nat)
  | sliceLayers (s : Nat)
  | region (n : Nat) (silent : Bool)
deriving DecidableEq, Repr

/-- The timing generator (07_scanout_and_display_links.md R210, R211). -/
inductive Gen where
  | stopped | locking | running | stopping
deriving DecidableEq, Repr

/-- An AUX transaction that software has started: request, address, length, the bytes it writes, and the DEFER replies that it
has met (07_scanout_and_display_links.md R231). -/
structure AuxReq where
  request : Nat
  addr : Nat
  len : Nat
  data : List Byte
  defers : Nat := 0
deriving DecidableEq, Repr

/-- One output: timing generator, checker, plans, underrun and link (05_bench_plan_and_fit_check.md, 07_scanout_and_display_links.md). -/
structure OutSt where
  gen : Gen := .stopped
  /-- station time of the first tick of the present grid, the pixel clocks from it to the last change of timing, and the ticks
  since (R209) -/
  t0 : Nat := 0
  clk0 : Nat := 0
  ticks : Nat := 0
  fallback : Bool := false
  fbNext : Option Bool := none
  /-- the timing generator halts while its PLL retunes (14_clock_generation.md R411) -/
  retune : Bool := false
  line : Nat := 0
  queue : List Entry := []
  /-- commits issued whose start a fence delays, with their snapshots (05_bench_plan_and_fit_check.md R156; 02_host_interface.md R72) -/
  fenced : List Commit := []
  check : Option Entry := none
  accepted : List Commit := []
  deferred : List Commit := []
  /-- restored configurations that wait for the THAW of their slices (03_slices.md R121, R122) -/
  restored : List Commit := []
  plan : Option Plan := none
  next : Option Plan := none
  /-- causes of the changes that a pass made while the next plan was frozen, by slot (R177, R217) -/
  lateCauses : List (Nat × Nat) := []
  removals : List Removal := []
  removalsLate : List Removal := []
  urLines : Nat := 0
  urFirst : Nat := 0
  /-- the whole active area shows the floor image: ENG or MEM is lost (14_clock_generation.md R410) -/
  allFloor : Bool := false
  allFloorNext : Bool := false
  /-- capstone rectangles show the floor image (06_layer_composition.md R204; 11_control_cores_and_the_protected_world.md R353) -/
  capFloor : Bool := false
  capFloorNext : Bool := false
  /-- blocks that failed or were denied, and tiles that failed to decode, in this frame (R224; 04_surfaces_and_haul.md R134) -/
  eccSeen : List Nat := []
  denied : List Nat := []
  tileSeen : List Nat := []
  tryRate : Nat := 0
  tryLanes : Nat := 0
  /-- an AUX transaction of the module's own is in progress; the transaction of software, which waits or runs (R231) -/
  auxOwn : Bool := false
  auxWait : Bool := false
  auxReq : Option AuxReq := none
  /-- video starts at the next tick (R219) -/
  videoDue : Bool := false
  pixels : List (Nat × Nat × Nat) := []
  tickTime : Nat := 0
  /-- the frame is composed 2 line starts ahead, and the lines composed and not yet sent (15_pairs_and_live_insertion.md R438) -/
  lead : Bool := false
  hold : List (Nat × List (Nat × Nat × Nat)) := []
  trained : Bool := false
  rb : List Word := []
deriving DecidableEq, Repr

/-- One layer slot (06_layer_composition.md R182, R185); image words not listed hold their reset values. -/
structure LyrSt where
  shadow : Tab Word := []
  latched : Tab Word := []
  /-- who latched it: a slice, or 256 for the protected world -/
  owner : Nat := 257
  /-- the version the latched image is bound to (04_surfaces_and_haul.md R151) -/
  vid : Option Nat := none
  /-- the source it was bound with: DRAM offset, width, height, format, colour byte -/
  base : Nat := 0
  sw : Nat := 0
  sh : Nat := 0
  fmt : Nat := 0
  colour : Nat := 0
  /-- the snapshot that reads of LYR_IMG_DATA with bank 1 return (R184) -/
  snap : Tab Word := []
deriving DecidableEq, Repr

/-- A check-value unit's configuration as a region takes it at a frame tick (08_check_values_core_samples_and_floor_images.md R246). -/
structure CvCfg where
  w : Nat := 32
  poly : Nat := 0x04C11DB7
  init : Nat := 0xFFFFFFFF
  refin : Bool := true
  refout : Bool := true
  xorout : Nat := 0xFFFFFFFF
deriving DecidableEq, Repr

/-- One core-sample region (08_check_values_core_samples_and_floor_images.md R242 to R250). -/
structure CsrSt where
  shadow : RegionImg := {}
  latched : RegionImg := {}
  st : Nat := 0
  cfg : CvCfg := {}
  acc : Nat := 0
  /-- the frame is checked; its image and verdict -/
  checking : Bool := false
  image : RegionImg := {}
  verdict : Option (Bool × Nat) := none
  /-- a commit has re-latched the image since the substitution began (R248) -/
  relatched : Bool := false
  /-- a withdrawal or a slice reset has cleared the image, and no record tells of what it ends (R250) -/
  silent : Bool := false
  /-- frame, final and expected value of the verdict that began the substitution (R250) -/
  began : Nat × Nat × Nat := (0, 0, 0)
deriving DecidableEq, Repr

/-- What feeds a check-value unit (08_check_values_core_samples_and_floor_images.md R238). -/
inductive Feed where
  | idle
  | haul (sp handle : Nat)
  | seed (sp handle : Nat)
deriving DecidableEq, Repr

/-- A floor load (08_check_values_core_samples_and_floor_images.md R255). -/
inductive FloorSrc where
  | host (handle len : Nat)
  | dram (base : Nat)
deriving DecidableEq, Repr

/-- How far a floor load is (08_check_values_core_samples_and_floor_images.md R255). -/
inductive FloorPhase where
  | awaitTick | copying | awaitValid (len : Nat)
deriving DecidableEq, Repr

/-- The floor image of an output (08_check_values_core_samples_and_floor_images.md R252, R255). -/
structure FloorSt where
  load : Option (FloorSrc × FloorPhase) := none
  waiting : List FloorSrc := []
deriving DecidableEq, Repr

/-! ### Touch -/

/-- A scan plan (09_capacitive_touch.md R266, R267). -/
structure ScanPlan where
  txPins : List Nat := []
  rxPins : List Nat := []
  set : Nat := 0
  base : Nat := 0
  stride : Nat := 1
  window : Nat := 1
  level : Nat := 8
  period : Nat := 1000000
  firstScan : Nat := 0
  firstEnd : Nat := 0
  bridge : Bool := false
deriving DecidableEq, Repr

/-- The panel settings that a write changes at the next scan tick (09_capacitive_touch.md, text before R279). -/
structure TchSet where
  thresh : Word := 0x000780C8#32
  noise : Word := 0x060500A0#32
  hop : Word := 0x0010003C#32
  base : Word := 0x100801E6#32
  track : Word := 0x00400400#32
  map : Word := 0x0000000F#32
  scale : Word := 0#32
  off : Word := 0#32
deriving DecidableEq, Repr

/-- One touch panel (09_capacitive_touch.md R261 to R291). -/
structure TchSt where
  plan : Option ScanPlan := none
  next : Option ScanPlan := none
  stopDue : Bool := false
  /-- 0 OFF, 1 ACQUIRE, 2 RUN, 3 BRIDGE (R271) -/
  mode : Nat := 0
  scans : Nat := 0
  charger : Bool := false
  set : TchSet := {}
  base : List Int := []
  delta : List Int := []
  value : List Nat := []
  neg : List Nat := []
  /-- bin noise, `none` where never idle (R268) -/
  noise : Tab (Option Nat) := []
  ncur : Int := 0
  noisy : Nat := 0
  sinceHop : Nat := 0
  cmHigh : Nat := 0
  cmLow : Nat := 0
  contacts : Tab (Option Contact) := []
  seq : Nat := 0
  lastEnd : Nat := 0
  diag : List Word := []
  rb : List Word := []
  rbScan : Nat := 0
  rbNext : Bool := false
deriving DecidableEq, Repr

/-! ### Haptics and sound -/

/-- Who starts or owns a play (10_haptic_and_acoustic_feedback.md R305, R307), in the order of R307. -/
inductive HapSrc where
  | protectedWorld | station | reflex | trigger | stream
deriving DecidableEq, Repr

/-- A start request or a pending start (10_haptic_and_acoustic_feedback.md R305, R307). Owner 0 to 255 a slice, 0xFE the station, 0xFF the protected world. -/
structure HapStart where
  src : HapSrc
  owner : Nat
  ownerSlice : Bool
  prio : Nat
  level : Nat
  effect : Nat
  /-- the slice's haptic ordinal of a trigger or stream (R306); the panel of a reflex. A stream's `effect` is its sample as
  16 bits. -/
  ord : Nat
  /-- number of the loop tick from which it takes effect; in the pending slot, the tick at which it became pending -/
  due : Nat
deriving DecidableEq, Repr

/-- A play: its start request and the directory entry it keeps (10_haptic_and_acoustic_feedback.md R304, R305). -/
structure Play where
  req : HapStart
  addr : Nat
  len : Nat
  repeats : Nat
  k0 : Nat
  /-- the directory it was started under is still the active one (R304) -/
  fresh : Bool
deriving DecidableEq, Repr

/-- The plays of its requester that a stop brakes: all; all but a reflex, which plays on at a slice reset (03_slices.md R107);
the play of the stream of its ordinal (10_haptic_and_acoustic_feedback.md R306). -/
inductive StopOf where
  | all | notReflex | stream
deriving DecidableEq, Repr

/-- A stop request (10_haptic_and_acoustic_feedback.md R305): by the station, the protected world, or a slice with its ordinal. -/
structure HapStop where
  who : Nat
  isSlice : Bool
  ord : Nat
  due : Nat
  /-- a stop without a result code: reset, withdrawal, the end of a stream (R308) -/
  silent : Bool
  what : StopOf := .all
deriving DecidableEq, Repr

/-- The channel states (10_haptic_and_acoustic_feedback.md R296). -/
inductive HapMode where
  | off | ramp | idle | playing | braking | fault
deriving DecidableEq, Repr

/-- One haptic channel (10_haptic_and_acoustic_feedback.md R296 to R312). -/
structure HapSt where
  mode : HapMode := .off
  /-- enable was cleared: the output slews to 0 V and the state becomes OFF (R296) -/
  closing : Bool := false
  /-- enable was written 0 since the last loop tick, which ends the play (R296) -/
  offDue : Bool := false
  out : Nat := 0
  integ : Int := 0
  a : Int := 0
  play : Option Play := none
  brakeStart : Nat := 0
  quietRun : Nat := 0
  pend : Option HapStart := none
  starts : List HapStart := []
  stops : List HapStop := []
  allOnes : Nat := 0
  stuck : Nat := 0
  sensorFault : Bool := false
  railFault : Bool := false
  limited : Bool := false
  bucket : Nat := 192000000
  floorNext : Option Nat := none
  cmdResult : Nat := 0
  /-- target of the stream in force until the next stream-sample tick (R306) -/
  streamTarget : Int := 0
  progTime : Nat := 0
  rb : List Word := []
deriving DecidableEq, Repr

/-- A haptic stream behind its words (10_haptic_and_acoustic_feedback.md R306, R314). -/
structure HstSt where
  fetched : List Int := []
  fetchPos : Nat := 0
  begun : Bool := false
  low : Bool := false
  stopped : Bool := false
  reading : Bool := false
deriving DecidableEq, Repr

/-- An audio stream behind its words (10_haptic_and_acoustic_feedback.md R314, R318). -/
structure AstSt where
  fetched : List (Int × Int) := []
  fetchPos : Nat := 0
  begun : Bool := false
  low : Bool := false
  stopped : Bool := false
  reading : Bool := false
  inMix : Bool := false
  starved : Bool := false
  fading : Bool := false
  /-- its frames have a right sample: AST_BASE_LO.stereo, as it was before a fade (R317, R318) -/
  stereo : Bool := false
  gain : Int := 0
  gain0 : Int := 0
  gainTo : Int := 0
  step : Nat := 48
deriving DecidableEq, Repr

/-- A TDM port: the samples mixed at the last sample tick, those before, and the slave's sync (10_haptic_and_acoustic_feedback.md R319). -/
structure TdmSt where
  mixed : List Int := List.replicate 8 0
  prev : List Int := List.replicate 8 0
  mixTick : Nat := 0
  sentTick : Nat := 0
  lost : Bool := false
deriving DecidableEq, Repr

/-- What the haptic channels share (10_haptic_and_acoustic_feedback.md R303, R304, R310, R311). -/
structure HapShared where
  pool : Nat := 0
  railOn : Bool := false
  railLow : Nat := 0
  railHigh : Nat := 0
  /-- the active directory, 16 bytes per effect -/
  active : Tab Byte := []
  publish : Bool := false
deriving DecidableEq, Repr

/-! ### Cores, worlds and interrupts -/

/-- How the core entered PROTECTED or MONITOR (11_control_cores_and_the_protected_world.md R326, R330). -/
inductive EntryKind where
  | gate (rd : Nat)
  /-- with the mode that the entry leaves, to which its exit returns (R328, R330) -/
  | forced (user : Bool)
  | restart (user : Bool)
  | monitor
  | powerOn
deriving DecidableEq, Repr

/-- One control core (11_control_cores_and_the_protected_world.md R320 to R332; 16_power_resets_and_start_up.md R478). -/
structure CoreSt where
  x : Tab Word := []
  pc : Word := 0#32
  /-- the general and the protected bank, keyed by CSR number (R324) -/
  g : Tab Word := []
  p : Tab Word := []
  mcycle : Nat := 0
  /-- 0 GENERAL, 1 PROTECTED, 2 MONITOR (R322) -/
  st : Nat := 0
  entry : Option EntryKind := none
  held : Bool := true
  halted : Bool := false
  wfi : Bool := false
  user : Bool := false
deriving DecidableEq, Repr

/-- A cache line (11_control_cores_and_the_protected_world.md R342, R343). Core 4 is the shared L2; an L1 line is of the data
or of the instruction cache; the way says which world it serves; the address is a DRAM offset. -/
structure Line where
  core : Nat
  instr : Bool
  way : Nat
  addr : Nat
  dirty : Bool
  data : List Byte
deriving DecidableEq, Repr

/-- The worlds (11_control_cores_and_the_protected_world.md R323 to R356). -/
structure Wld where
  cores : Tab CoreSt := []
  token : Option Nat := none
  lines : List Line := []
  /-- station time at which the protected-world watchdog expires, while it counts (R351) -/
  wdog : Option Nat := none
  resetting : Bool := false
  restartDue : Bool := false
  resets : List Nat := []
  /-- the power state that a notice is held for, and the end of its 5 ms (R349) -/
  notice : Option (Nat × Nat) := none
  /-- the reset in progress ends with the protected world parked (R356) -/
  pendingPark : Bool := false
deriving DecidableEq, Repr

/-- One interrupt source (12_interrupt_delivery.md R357, R359). `cfg` holds priority, target and enable. -/
structure Src where
  pending : Bool := false
  claimed : Bool := false
  claimer : Nat := 0
  input : Bool := false
  cfg : Word := 0#32
deriving DecidableEq, Repr

/-- Interrupt delivery (12_interrupt_delivery.md). -/
structure Cic where
  srcs : Tab Src := []
  /-- compare values in force, by core (12_interrupt_delivery.md, CIC_TCMP_LO_n); absent is 2^64 − 1 -/
  tcmp : Tab Nat := []
deriving DecidableEq, Repr

/-! ### Memory controller and clocks -/

/-- The activations of one row by one requester in the present window (13_memory_controller.md R391). -/
structure RowActs where
  ch : Nat
  bank : Nat
  row : Nat
  req : DramReq
  n : Nat
deriving DecidableEq, Repr

/-- The memory controller (13_memory_controller.md). -/
structure Dmc where
  /-- 1 a correctable mark, 2 an uncorrectable or poisoned block, keyed by block number (R381, R383) -/
  bad : Tab Nat := []
  /-- blocks in the write queues with the time they entered, oldest first (R386) -/
  queue : List (Nat × Nat) := []
  switching : Option Nat := none
  /-- the set point written during a change, which takes effect when it completes (R378) -/
  target : Option Nat := none
  /-- consecutive measurements with every package at 75 °C or less (R389) -/
  cool : Nat := 0
  /-- row activations counted in the present window (R391; log 62) -/
  acts : List RowActs := []
  /-- strikes with their times, and throttled requesters with the end of the throttle (R392) -/
  strikes : List (DramReq × Nat) := []
  throttled : List (DramReq × Nat) := []
  selfRefresh : Bool := false
  lastTemp : Nat := 0
deriving DecidableEq, Repr

/-- A reduction of capacity under way (05_bench_plan_and_fit_check.md R176): its cause bit (0 set point, 1 extended
refresh, 2 the loss of a partner, whose allowance waits), its new value, and the outputs whose plans for it are not in use yet, each with the frame ticks that it waits for. -/
structure Reduction where
  cause : Nat
  value : Nat
  waits : List (Nat × Nat)
deriving DecidableEq, Repr

/-- One clock domain (14_clock_generation.md R395 to R399). Source 0 primary, 1 FRO, 2 stopped. -/
structure Dom where
  src : Nat := 1
  now : Nat := 0
  target : Nat := 0
  switching : Bool := false
  coasting : Bool := false
  escaped : Bool := false
  refused : Bool := false
  /-- the source that a switch in progress ramps down for (R399) -/
  toSrc : Option Nat := none
deriving DecidableEq, Repr

/-- Clocks (14_clock_generation.md). -/
structure Clk where
  closing : List Nat := []
  doms : Tab (Option Dom) := []
  /-- station times of the losses of lock of each PLL within 1 s (R409) -/
  losses : Tab (List Nat) := []
  started : List Nat := []
  windowsOk : Nat := 0
  /-- REF has missed an edge in the XO32 window that runs (R415) -/
  missed : Bool := false
  holdStart : Nat := 0
deriving DecidableEq, Repr

/-! ### The pair and power -/

/-- A line check value (15_pairs_and_live_insertion.md R439). -/
structure LineCv where
  o : Nat
  line : Nat
  frame : Nat
  flags : Nat
  cv : Nat
deriving DecidableEq, Repr

/-- A feed move that is due: output, the station time from which it takes place at the next line, and to this module
(15_pairs_and_live_insertion.md R441, R444, R446, R449). -/
structure FeedMove where
  o : Nat
  t : Nat
  mine : Bool
deriving DecidableEq, Repr

/-- The pair and its link (15_pairs_and_live_insertion.md). -/
structure Pair where
  /-- the link was lost with the reference while PAIRED: the next 2 frames are compared again (R450) -/
  recheck : Bool := false
  /-- the image configures pair operation, with its election priority and digest (R417, R422, R451) -/
  configured : Bool := false
  prio : Nat := 0
  digest : Word := 0#32
  /-- the partner holds PAIR_ROLE low; its PAIR_HB toggles; what this module drives (R419) -/
  roleLow : Bool := false
  hbSeen : Bool := false
  roleHeld : Bool := false
  hbOut : Bool := false
  /-- outputs whose FEED_SEL this module holds high -/
  feedSel : List Nat := []
  /-- next sequence numbers sent and expected, timing and bulk (R426) -/
  seqT : Nat := 0
  seqB : Nat := 0
  rxT : Nat := 0
  rxB : Nat := 0
  nakOwed : Bool := false
  sent : List Frame := []
  /-- frames beyond the window of 2,048 unacknowledged frames, not yet sent (R426) -/
  queued : List Msg := []
  /-- the partner has been accepted and changes are forwarded (R430, R451) -/
  forwarding : Bool := false
  /-- LATCH messages that wait for their bulk fence: output, frame, fence, CRC (R429) -/
  fenced : List (Nat × Nat × Nat × Nat) := []
  /-- output, frame of the latch tick, plan CRC, acknowledged (R434) -/
  latches : List (Nat × Nat × Nat × Bool) := []
  own : List LineCv := []
  theirs : List LineCv := []
  moves : List FeedMove := []
  /-- consecutive frames with unattributed lines, and the last such frame, by output (R440) -/
  unattr : Tab (Nat × Nat) := []
  /-- lines compared equal since the newcomer's VERIFY began, by output (R451) -/
  verify : Tab Nat := []
  verifying : Bool := false
  /-- the copy of DRAM: in progress, bytes sent, when it began (R451) -/
  copying : Bool := false
  copyPos : Nat := 0
  copyStart : Nat := 0
  /-- the TIME message that the next PAIR_SYNC edge applies: its time and the starts of the generators (R436) -/
  edge : Option Nat := none
  starts : List (Nat × Nat) := []
  handover : Option Nat := none
  handoverModEn : Bool := false
  aligned : Bool := false
  electing : Bool := false
  /-- the cause of a yield under way: 0 is a lost role or a failed catch-up; 3 is the partner's, ahead of its handover
  (R445, R449, R450) -/
  yielding : Option Nat := none
  /-- handle and status of the primary's last command, which its register write shows next (R430; log 40) -/
  lastIssue : Nat × Nat := (0, 0)
deriving DecidableEq, Repr

/-- A flash operation in progress (16_power_resets_and_start_up.md, BOOT_FLASH_CMD). -/
structure FlashOp where
  erase : Bool
  addr : Nat
  data : List Byte
  suspended : Bool
deriving DecidableEq, Repr

/-- Power, resets, boot and supplies (16_power_resets_and_start_up.md; 17_connectors_and_electrical_characteristics.md). -/
structure Pwr where
  /-- an accepted request for Retain, and since when its cores are awaited (R456, R458) -/
  retaining : Option Nat := none
  /-- sp_target, tick rate and HAUL ratio that Dim saved (R457) -/
  saved : Option (Nat × Nat × Nat) := none
  /-- the wake time in force, 0 is none (R455) -/
  wakeTime : Nat := 0
  /-- station time at the entry to Retain or Standby (R455) -/
  entryTime : Nat := 0
  /-- a STATION or WATCHDOG reset lasts until host_ready is set (R464) -/
  resetting : Bool := false
  perstLow : Bool := true
  /-- station time at which PERST# rose (R463) -/
  perstHigh : Nat := 0
  /-- the boot waits for PERST#, with its reset cause (R463, R489) -/
  bootDue : Bool := true
  modEn : Bool := true
  /-- station time at which MOD_EN fell (R490) -/
  modEnFell : Option Nat := none
  vstby : Bool := true
  mainOk : Bool := true
  /-- the internal 12 V switch the thermal trip opened (17_connectors_and_electrical_characteristics.md R501) -/
  tripOpen : Bool := false
  /-- WAKE# is driven low (17_connectors_and_electrical_characteristics.md R488) -/
  wakePin : Bool := false
  /-- station time at which the station watchdog expires (R462) -/
  wdog : Option Nat := none
  flash : Option FlashOp := none
  /-- boots counted in retention memory, and the sequence number they are keyed to (R469) -/
  attempts : Nat := 0
  attemptsSeq : Nat := 0
  jtagOpen : Bool := false
deriving DecidableEq, Repr

/-- The addressed memories (13_memory_controller.md R371; 11_control_cores_and_the_protected_world.md R321;
16_power_resets_and_start_up.md R467; 10_haptic_and_acoustic_feedback.md R303; 08_check_values_core_samples_and_floor_images.md R252).
`ctl` holds control-core memory from 0 and retention memory from 0x100_0000; `floor` holds output o from o × 0x10_0000. -/
structure Mems where
  dram : Tab Byte := []
  ctl : Tab Byte := []
  flash : Tab Byte := []
  store : Tab Byte := []
  floor : Tab Byte := []
deriving DecidableEq, Repr

/-- The state of the block. -/
structure State where
  /-- the commands that wait, first in, first out -/
  pending : List Instr
  /-- station time in ns (01_the_w880_at_a_glance.md R28) -/
  time : Nat
  /-- last processed station, loop, stream-sample and sample tick; the station tick rate in force (R30, R33) -/
  ticks : Nat × Nat × Nat × Nat
  rate : Nat
  /-- every register word, by BAR0 offset, and the entries of the indexed tables above 0x1000_0000 -/
  cells : Tab Word
  /-- high words latched by a read of a low word, by register and requester (R29; 04, 07, 13 register lists) -/
  latches : Tab Word
  hif : Hif
  cmds : Tab CmdSpace
  slices : Tab Slice
  haul : Haul
  outs : Tab OutSt
  lyr : Tab LyrSt
  /-- the snapshots that reads of SLC_LYR_DATA with bank 1 return, by slice (06_layer_composition.md R184) -/
  lyrSnap : Tab (Tab Word)
  csr : Tab CsrSt
  cvu : Tab Feed
  floor : Tab FloorSt
  /-- the snapshots of SLC_CV_SEL, by slice (08_check_values_core_samples_and_floor_images.md R241) -/
  cvSnap : Tab (List Word)
  tch : Tab TchSt
  /-- bindings written and not yet in force (09_capacitive_touch.md R293) -/
  reflexDirty : Bool
  /-- the protected touch ring owes a resync (09_capacitive_touch.md R291, R292) -/
  pwResync : Bool
  hap : Tab HapSt
  hapShared : HapShared
  hst : Tab HstSt
  ast : Tab AstSt
  tdm : Tab TdmSt
  wld : Wld
  cic : Cic
  dmc : Dmc
  /-- reductions of capacity under way, kept until they are in force (05_bench_plan_and_fit_check.md R176) -/
  reductions : List Reduction
  clk : Clk
  pair : Pair
  pwr : Pwr
  mem : Mems
  /-- free values used so far (log 1) -/
  freeCtr : Nat
  emits : List Emit
  resp : Resp
deriving DecidableEq, Repr

/-- The reset core records: C0 in PROTECTED at the power-on vector with the token, C1 to C3 held
(11_control_cores_and_the_protected_world.md R324). -/
def State.resetCores : Tab CoreSt :=
  [(0, { st := 1, entry := some .powerOn, held := false })]

/-- The block right after POWER_ON, before the boot ROM runs: station time 0 (01_the_w880_at_a_glance.md R28), every register at
its Reset column (00_scope.md R17), every clock gate closed (14_clock_generation.md R402), every slice UNBOUND, no
surface, no image, memories with nothing listed, and no command waiting. -/
def State.reset : State where
  pending := []
  time := 0
  ticks := (0, 0, 0, 0)
  rate := 2
  cells := []
  latches := []
  hif := {}
  cmds := []
  slices := []
  haul := {}
  outs := []
  lyr := []
  lyrSnap := []
  csr := []
  cvu := []
  floor := []
  cvSnap := []
  tch := []
  reflexDirty := false
  pwResync := false
  hap := []
  hapShared := {}
  hst := []
  ast := []
  tdm := []
  wld := { cores := State.resetCores, token := some 0 }
  cic := {}
  dmc := {}
  reductions := []
  clk := {}
  pair := {}
  pwr := {}
  mem := {}
  freeCtr := 0
  emits := []
  resp := .done

end Sys2Proof.Machine
end

