-- ==== Sys2Proof/Machine/Ops.lean ====
section
/-!
DEFINITION. The named operations over registers, memories, events, interrupts, the haul link and free values that
every family uses.
-/

namespace Sys2Proof.Machine

/-! ### Registers -/

/-- PAGE_OWNER of a page at power-on (02_host_interface.md R56, R59; 03_slices.md R101; 11_control_cores_and_the_protected_world.md R345). -/
def ownerReset (ty inst : Nat) : Nat :=
  if 0x100 ≤ ty then 0x200 + inst
  else if ty = 0x42 then 0
  else if ty = 0x51 then 0
  else if ty = 0x50 then (if inst < 28 then 0 else 0x80000100)
  else if ty = 0x80 then 0x80000100
  else 0x100

/-- PAGE_LOCK of a page at power-on (11_control_cores_and_the_protected_world.md R345). -/
def lockReset (ty inst : Nat) : Nat :=
  if ty = 0x80 ∨ (ty = 0x50 ∧ 28 ≤ inst) then 2 else 0

/-- Keys of the indexed tables that share `cells` with the registers. -/
def K.pin (p : Nat) : Nat := 0x10000000 + p
def K.hop (n set : Nat) : Nat := 0x10001000 + n * 32 + set
def K.ref (n node : Nat) : Nat := 0x10010000 + n * 4096 + node
def K.moderation (vec : Nat) : Nat := 0x10020000 + vec
def K.route (s : Nat) : Nat := 0x10021000 + s
def K.guardBase (g r : Nat) : Nat := 0x10022000 + g * 16 + r
def K.guardSize (g r : Nat) : Nat := 0x10022040 + g * 16 + r
def K.gateEntry (svc : Nat) : Nat := 0x10022100 + svc
def K.mailbox (slot w : Nat) : Nat := 0x10022200 + slot * 8 + w
def K.hst (s ch w : Nat) : Nat := 0x10030000 + (s * 8 + ch) * 8 + w
def K.ast (s w : Nat) : Nat := 0x10040000 + s * 8 + w
def K.reflex (s b w : Nat) : Nat := 0x10050000 + s * 64 + b * 4 + w
def K.reflexLive (s b w : Nat) : Nat := 0x10060000 + s * 64 + b * 4 + w
def K.flashBuf (i : Nat) : Nat := 0x10070000 + i
def K.msix (vec w : Nat) : Nat := 0x10080000 + vec * 4 + w
def K.pba (i : Nat) : Nat := 0x10090000 + i

/-- The reset value of an entry of an indexed table (02_host_interface.md R46; 10_haptic_and_acoustic_feedback.md, stream words and routes). -/
def tableReset (k : Nat) : Nat :=
  if 0x10021000 ≤ k ∧ k < 0x10021100 then 0x80000010
  else if 0x10040000 ≤ k ∧ k < 0x10040800 then (if k % 8 = 2 then 0x8000 else 0)
  else if 0x10080000 ≤ k ∧ k < 0x10082000 then (if k % 4 = 3 then 1 else 0)
  else 0

/-- The value of a register at power-on: the Reset column (00_scope.md R17), with what the tables give per page or per
ordering code. -/
def cellReset (a : Nat) : Word :=
  BitVec.ofNat 32 <|
    if 0x4000000 ≤ a then tableReset a
    else match pageAt a with
      | none => 0
      | some (ty, inst) =>
        let off := a % 0x1000
        if off < 0x40 then
          (if off = 0x1C then ownerReset ty inst else if off = 0x20 then lockReset ty inst else 0)
        else if a = R.stnCapsMem then regReset ty inst off + b2n Config.gradeI
        else if a = R.wldSrcWorld 4 then 0x1E0000
        else if a = R.wldSrcWorld 9 then 0x7800
        else if a = R.pairKeyLo then Config.serial.toNat % 2 ^ 32
        else if a = R.pairKeyHi then Config.serial.toNat / 2 ^ 32
        else if ty = 0x40 ∧ off = 0x080 ∧ inst ≠ 0 then 0
        else regReset ty inst off

/-- The word of a register. -/
def State.rd (s : State) (a : Nat) : Word := Tab.get (cellReset a) s.cells a

/-- Write the word of a register. -/
def State.wr (s : State) (a : Nat) (w : Word) : State :=
  { s with cells := Tab.set (cellReset a) s.cells a w }

/-- A field of a register. -/
def State.fld (s : State) (a : Nat) (f : Fld) : Nat := f.get (s.rd a)

/-- Write a field of a register. -/
def State.put (s : State) (a : Nat) (f : Fld) (v : Nat) : State := s.wr a (f.put (s.rd a) v)

/-- A one-bit field of a register. -/
def State.flag (s : State) (a : Nat) (f : Fld) : Bool := s.fld a f != 0

/-- Set a one-bit field. -/
def State.setF (s : State) (a : Nat) (f : Fld) : State := s.put a f 1

/-- Clear a field. -/
def State.clrF (s : State) (a : Nat) (f : Fld) : State := s.put a f 0

/-- Count `n` events in a saturating counter field (02_host_interface.md R92). -/
def State.count (s : State) (a : Nat) (f : Fld) (n : Nat := 1) : State :=
  s.put a f (satAdd (f.hi + 1 - f.lo) (s.fld a f) n)

/-- A register word as a number. -/
def State.num (s : State) (a : Nat) : Nat := (s.rd a).toNat

/-- A 64-bit register pair, low word first. -/
def State.num64 (s : State) (lo hi : Nat) : Nat := s.num lo + s.num hi * 2 ^ 32

/-- A number as a register word. -/
def w32 (n : Nat) : Word := BitVec.ofNat 32 n

/-- Write a register with a number. -/
def State.wrN (s : State) (a n : Nat) : State := s.wr a (w32 n)

/-- Return a range of register keys to reset. -/
def State.resetKeys (s : State) (p : Nat → Bool) : State :=
  { s with cells := s.cells.filter fun e => !p e.1 }

/-! ### Station time, emissions, free values -/

/-- Station time as software reads it: 64 bits (01_the_w880_at_a_glance.md R28). -/
def State.now (s : State) : Nat := s.time % 2 ^ 64

/-- Something leaves the block. -/
def State.emit (s : State) (e : Emit) : State := { s with emits := s.emits ++ [e] }

/-- The state in which a command's effect starts: nothing has left the block yet (log 2). -/
def State.begin (s : State) : State := { s with emits := [], resp := .done }

/-- The next free value below `n` (log 1), and the state that has used it. -/
def State.free (s : State) (n : Nat) : Nat × State :=
  (Config.free s.freeCtr % n, { s with freeCtr := s.freeCtr + 1 })

/-! ### Tables of the state -/

def State.slice (s : State) (i : Nat) : Slice := Tab.get {} s.slices i
def State.setSlice (s : State) (i : Nat) (x : Slice) : State := { s with slices := Tab.set {} s.slices i x }
def State.updSlice (s : State) (i : Nat) (f : Slice → Slice) : State := s.setSlice i (f (s.slice i))
def State.space (s : State) (i : Nat) : CmdSpace := Tab.get {} s.cmds i
def State.setSpace (s : State) (i : Nat) (x : CmdSpace) : State := { s with cmds := Tab.set {} s.cmds i x }
def State.updSpace (s : State) (i : Nat) (f : CmdSpace → CmdSpace) : State := s.setSpace i (f (s.space i))
def State.out (s : State) (i : Nat) : OutSt := Tab.get {} s.outs i
def State.setOut (s : State) (i : Nat) (x : OutSt) : State := { s with outs := Tab.set {} s.outs i x }
def State.updOut (s : State) (i : Nat) (f : OutSt → OutSt) : State := s.setOut i (f (s.out i))
def State.layer (s : State) (i : Nat) : LyrSt := Tab.get {} s.lyr i
def State.setLayer (s : State) (i : Nat) (x : LyrSt) : State := { s with lyr := Tab.set {} s.lyr i x }
def State.updLayer (s : State) (i : Nat) (f : LyrSt → LyrSt) : State := s.setLayer i (f (s.layer i))
def State.region (s : State) (i : Nat) : CsrSt := Tab.get {} s.csr i
def State.setRegion (s : State) (i : Nat) (x : CsrSt) : State := { s with csr := Tab.set {} s.csr i x }
def State.updRegion (s : State) (i : Nat) (f : CsrSt → CsrSt) : State := s.setRegion i (f (s.region i))
def State.panel (s : State) (i : Nat) : TchSt := Tab.get {} s.tch i
def State.setPanel (s : State) (i : Nat) (x : TchSt) : State := { s with tch := Tab.set {} s.tch i x }
def State.updPanel (s : State) (i : Nat) (f : TchSt → TchSt) : State := s.setPanel i (f (s.panel i))
def State.chan (s : State) (i : Nat) : HapSt := Tab.get {} s.hap i
def State.setChan (s : State) (i : Nat) (x : HapSt) : State := { s with hap := Tab.set {} s.hap i x }
def State.updChan (s : State) (i : Nat) (f : HapSt → HapSt) : State := s.setChan i (f (s.chan i))
def State.core (s : State) (i : Nat) : CoreSt := Tab.get {} s.wld.cores i
def State.setCore (s : State) (i : Nat) (x : CoreSt) : State :=
  { s with wld := { s.wld with cores := Tab.set {} s.wld.cores i x } }
def State.updCore (s : State) (i : Nat) (f : CoreSt → CoreSt) : State := s.setCore i (f (s.core i))
def State.src (s : State) (i : Nat) : Src := Tab.get {} s.cic.srcs i
def State.setSrc (s : State) (i : Nat) (x : Src) : State :=
  { s with cic := { s.cic with srcs := Tab.set {} s.cic.srcs i x } }
def State.hstSt (s : State) (i : Nat) : HstSt := Tab.get {} s.hst i
def State.updHst (s : State) (i : Nat) (f : HstSt → HstSt) : State := { s with hst := Tab.upd {} s.hst i f }
def State.astSt (s : State) (i : Nat) : AstSt := Tab.get {} s.ast i
def State.updAst (s : State) (i : Nat) (f : AstSt → AstSt) : State := { s with ast := Tab.upd {} s.ast i f }
def State.cvFeed (s : State) (i : Nat) : Feed := Tab.get .idle s.cvu i
def State.setCvFeed (s : State) (i : Nat) (x : Feed) : State := { s with cvu := Tab.set .idle s.cvu i x }
def State.floorSt (s : State) (i : Nat) : FloorSt := Tab.get {} s.floor i
def State.updFloor (s : State) (i : Nat) (f : FloorSt → FloorSt) : State := { s with floor := Tab.upd {} s.floor i f }

/-- Fold a state transformer over a list. -/
def State.each {α : Type} (s : State) (l : List α) (f : State → α → State) : State := l.foldl f s

/-! ### Pages -/

/-- The base of the page of an address. -/
def pageOf (a : Nat) : Nat := a / 0x1000 * 0x1000

/-- The base of the station page of a type and number (02_host_interface.md R55). -/
def pageBase (ty inst : Nat) : Nat :=
  match stationPages.find? fun e => e.2.2 == ty with
  | some (b, _, _) => b + inst * 0x1000
  | none => 0

/-- The CIC source that a page drives (12_interrupt_delivery.md R357). -/
def sourceOf (ty inst : Nat) : Option Nat :=
  match ty with
  | 0x01 => some 1
  | 0x02 => some 2
  | 0x03 => some 3
  | 0x10 => some (4 + inst)
  | 0xA0 => some (8 + inst)
  | 0xA1 => some (10 + inst)
  | 0xC0 => some 12
  | 0x20 => some (13 + inst / 32)
  | 0x30 => some (21 + inst)
  | 0x31 => some (25 + inst)
  | 0x40 => some (29 + inst)
  | 0x41 => some (37 + inst)
  | 0x43 => some (45 + inst)
  | 0x42 => some (53 + inst)
  | 0x50 => some (117 + inst)
  | 0x51 => some (149 + inst)
  | 0x60 => some 277
  | 0x61 => some (278 + inst)
  | 0x70 => some (286 + inst)
  | 0x71 => some 294
  | 0x72 => some (295 + inst)
  | 0x80 => some (299 + inst)
  | 0x81 => some (303 + inst)
  | 0x90 => some 305
  | 0x91 => some (306 + inst)
  | 0xB0 => some (314 + inst)
  | _ => none

/-- The page that a gateable source stands for (12_interrupt_delivery.md R357; 14_clock_generation.md R402). -/
def gatePage (g : Nat) : Nat :=
  match ([(21, 4, 0x30), (25, 4, 0x31), (29, 8, 0x40), (37, 8, 0x41), (45, 8, 0x43), (53, 64, 0x42), (117, 32, 0x50),
      (149, 128, 0x51), (277, 1, 0x60), (278, 8, 0x61), (286, 8, 0x70), (294, 1, 0x71), (295, 4, 0x72), (299, 4, 0x80),
      (303, 2, 0x81), (305, 1, 0x90), (306, 8, 0x91), (314, 4, 0xB0)] : List (Nat × Nat × Nat)).find?
      fun e => e.1 ≤ g && g < e.1 + e.2.1 with
  | some (b, _, ty) => pageBase ty (g - b)
  | none => 0

/-- The clock gate of a page, none where the page is always clocked (02_host_interface.md R58; 14_clock_generation.md R402). -/
def gateOf (ty inst : Nat) : Option Nat :=
  (sourceOf ty inst).bind fun g => if 21 ≤ g ∧ g ≤ 317 then some g else none

/-- The gate's clocks run, the gate is open or closing (14_clock_generation.md R406). -/
def State.gateBit (s : State) (g : Nat) : Bool := bitAt (s.num (R.clkGate (g / 32))) (g % 32)

/-- The gate is open and not closing: accesses to its page are served (14_clock_generation.md R405, R406). -/
def State.gateOpen (s : State) (g : Nat) : Bool := s.gateBit g && !s.clk.closing.contains g

/-- The clocks of a page's block run (14_clock_generation.md R402). -/
def State.clocked (s : State) (ty inst : Nat) : Bool :=
  match gateOf ty inst with
  | none => true
  | some g => s.gateBit g

/-- The world bit of a page (02_host_interface.md, PAGE_OWNER.world). -/
def State.pageWorld1 (s : State) (pg : Nat) : Bool := bitAt (s.num (pg + 0x1C)) 31

/-- PAGE_OWNER.owner_kind of a page. -/
def State.ownerKind (s : State) (pg : Nat) : Nat := bitsOf (s.num (pg + 0x1C)) 9 8

/-- PAGE_OWNER.slice of a page. -/
def State.ownerSlice (s : State) (pg : Nat) : Nat := bitsOf (s.num (pg + 0x1C)) 7 0

/-- The page belongs to a slice. -/
def State.ownedBy (s : State) (pg i : Nat) : Bool := s.ownerKind pg == 2 && s.ownerSlice pg == i

/-- PAGE_LOCK.owner_lock. -/
def State.ownerLock (s : State) (pg : Nat) : Bool := bitAt (s.num (pg + 0x20)) 0

/-- PAGE_LOCK.world_lock. -/
def State.worldLock (s : State) (pg : Nat) : Bool := bitAt (s.num (pg + 0x20)) 1

/-- PAGE_CTRL.enable. -/
def State.enabled (s : State) (pg : Nat) : Bool := bitAt (s.num (pg + 0x08)) 0

/-- The page's output: some event bit that is enabled (02_host_interface.md R59). -/
def State.output (s : State) (pg : Nat) : Bool := s.rd (pg + 0x10) &&& s.rd (pg + 0x14) != 0#32

/-! ### Interrupt sources and cores -/

/-- Sources that are edges (12_interrupt_delivery.md R357). -/
def srcIsEdge (n : Nat) : Bool := 318 ≤ n && n ≤ 322

/-- The world bit of a source (12_interrupt_delivery.md R357, text). -/
def State.srcWorld1 (s : State) (n : Nat) : Bool := bitAt (s.num (R.wldSrcWorld (n / 32))) (n % 32)

/-- A source is pending (12_interrupt_delivery.md R359). -/
def State.srcPending (s : State) (n : Nat) : Bool :=
  let x := s.src n
  if srcIsEdge n then x.pending else x.input && !x.claimed

/-- Places of CIC_SRC_CFG. -/
def srcPriority (x : Src) : Nat := bitsOf x.cfg.toNat 10 8
def srcTarget (x : Src) : Nat := bitsOf x.cfg.toNat 5 4
def srcEnable (x : Src) : Bool := bitAt x.cfg.toNat 0

/-- The threshold of a world on a core (12_interrupt_delivery.md, CIC_THRESH_n). -/
def State.threshold (s : State) (c : Nat) (w1 : Bool) : Nat :=
  if w1 then bitsOf (s.num (R.cicThresh c)) 10 8 else bitsOf (s.num (R.cicThresh c)) 2 0

/-- The core that a restart entry starts on: C0 if released, else the lowest released core, never a halted one
(11_control_cores_and_the_protected_world.md R355; 16_power_resets_and_start_up.md R478). -/
def State.restartCore (s : State) : Option Nat :=
  [0, 1, 2, 3].find? fun c => !(s.core c).held && !(s.core c).halted

/-- The core is in the reset of R355: the protected world of every core is in reset until a protected-world reset completes, and
that of the core that restarts until its restart entry (12_interrupt_delivery.md R363; DEDUCED, log 106). -/
def State.worldInReset (s : State) (c : Nat) : Bool :=
  s.wld.resetting || (s.wld.restartDue && s.restartCore == some c)

/-- Source `n` is delivered to core `c` (12_interrupt_delivery.md R360, R363). -/
def State.delivered (s : State) (c n : Nat) : Bool :=
  let x := s.src n
  s.srcPending n && !x.claimed && srcEnable x && srcTarget x == c &&
    s.threshold c (s.srcWorld1 n) < srcPriority x && !(s.core c).held && !(s.srcWorld1 n && s.worldInReset c)

/-- Some source of a world is delivered to a core: mip.MEIP of that bank (12_interrupt_delivery.md R360). -/
def State.meip (s : State) (c : Nat) (w1 : Bool) : Bool :=
  s.cic.srcs.any fun e => s.srcWorld1 e.1 == w1 && s.delivered c e.1

/-- A core in WFI wakes when a source of either world is delivered to it (12_interrupt_delivery.md R365). A halted core
takes no interrupt (16_power_resets_and_start_up.md R478). -/
def State.wake (s : State) : State :=
  s.each [0, 1, 2, 3] fun s c =>
    let x := s.core c
    if x.wfi && !x.halted && (s.meip c false || s.meip c true) then s.setCore c { x with wfi := false } else s

/-- A level source's input (12_interrupt_delivery.md R359). -/
def State.setInput (s : State) (n : Nat) (b : Bool) : State :=
  (s.setSrc n { s.src n with input := b }).wake

/-- An edge on a source: further edges merge (12_interrupt_delivery.md R359). -/
def State.edge (s : State) (n : Nat) : State :=
  (s.setSrc n { s.src n with pending := true }).wake

/-! ### MSI-X messages -/

/-- The table entry of line `v` of a slice, or of the station (02_host_interface.md R87). -/
def vecOf (sl : Option Nat) (v : Nat) : Nat :=
  match sl with
  | some n => if n < 255 then 8 * n + v else 0x7F8 + v
  | none => 0x7F8 + v

/-- A vector can send: not masked, bus mastering on, link up, its slice not detached (12_interrupt_delivery.md R369; MSI-X
Enable from PCI Express, log 16). -/
def State.canSend (s : State) (vec : Nat) : Bool :=
  s.hif.linkUp && s.hif.busMaster && s.hif.msixEnable && !s.hif.functionMask && !bitAt (s.num (K.msix vec 3)) 0 &&
    !(vec < 0x7F8 && (s.slice (vec / 8)).st == .detached)

/-- Set or clear a vector's bit of the pending-bit array. -/
def State.setPba (s : State) (vec : Nat) (b : Bool) : State :=
  s.put (K.pba (vec / 32)) ⟨vec % 32, vec % 32⟩ (b2n b)

/-- A vector's bit of the pending-bit array. -/
def State.pba (s : State) (vec : Nat) : Bool := bitAt (s.num (K.pba (vec / 32))) (vec % 32)

/-- Send a vector's message now. -/
def State.sendMsix (s : State) (vec : Nat) : State :=
  let s := s.emit (.msix vec (s.num64 (K.msix vec 0) (K.msix vec 1)) (s.rd (K.msix vec 2)))
  { s with hif := { s.hif with lastMsg := Tab.set none s.hif.lastMsg vec (some s.time),
                               merged := s.hif.merged.filter (· ≠ vec) } }

/-- The moderation interval of a vector in ns (12_interrupt_delivery.md R370). -/
def State.moderation (s : State) (vec : Nat) : Nat := bitsOf (s.num (K.moderation vec)) 9 0 * 1000

/-- The moderation interval since the vector's last message still runs (12_interrupt_delivery.md R370). -/
def State.moderated (s : State) (vec : Nat) : Bool :=
  match Tab.get none s.hif.lastMsg vec with
  | none => false
  | some t => s.time < t + s.moderation vec

/-- A message falls due on a vector that can send: moderation (12_interrupt_delivery.md R370). -/
def State.dueMsix (s : State) (vec : Nat) : State :=
  if s.moderated vec then
    { s with hif := { s.hif with merged := if s.hif.merged.contains vec then s.hif.merged else s.hif.merged ++ [vec] } }
  else s.sendMsix vec

/-- A message of slice 255 that was held while the slice was DETACHED waits on a vector: the vector is shared with the station,
whose messages do not wait (12_interrupt_delivery.md R369; 02_host_interface.md R87). -/
def State.lateMsix (s : State) (vec : Nat) : Bool :=
  0x7F8 ≤ vec && s.hif.heldLines.contains (vec - 0x7F8) && (s.slice 255).st != .detached

/-- A message falls due on a vector: held in the pending-bit array while it cannot be sent, and merged with a message that is
still pending (12_interrupt_delivery.md R369). -/
def State.message (s : State) (vec : Nat) : State :=
  if s.canSend vec && !s.pba vec && !s.lateMsix vec then s.dueMsix vec else s.setPba vec true

/-- A line of slice 255 waits for the slice's held records (12_interrupt_delivery.md R369). -/
def State.holdLine (s : State) (v : Nat) : State :=
  if s.hif.heldLines.contains v then s else { s with hif := { s.hif with heldLines := s.hif.heldLines ++ [v] } }

/-- Signal a line of a slice (`some n`) or of the station (02_host_interface.md R87, R88). A secondary signals nothing
(15_pairs_and_live_insertion.md R431). -/
def State.signal (s : State) (sl : Option Nat) (v : Nat) : State :=
  if s.fld R.pairStatus F.pairStatus_role = 2 then s
  else
    let s :=
      match sl with
      | some n => if n < 255 then s else s.put R.hifVecCause ⟨8 + v, 8 + v⟩ 1
      | none => s.put R.hifVecCause ⟨v, v⟩ 1
    if sl == some 255 && (s.slice 255).st == .detached then s.holdLine v else s.message (vecOf sl v)

/-- The station line that a page feeds (12_interrupt_delivery.md R366). -/
def State.stationLine (s : State) (ty pg : Nat) : Option Nat :=
  let w1 := s.pageWorld1 pg
  match ty with
  | 0x10 => some 1
  | 0x20 => some 1
  | 0x41 => if w1 then none else some 1
  | 0x40 => some 2
  | 0x50 => if s.ownerKind pg = 1 then some 3 else none
  | 0x51 => if s.ownerKind pg = 1 then some 3 else none
  | 0x43 => if s.ownerKind pg = 1 then some 3 else none
  | 0xB0 => some 4
  | 0xA1 => some 5
  | 0xA0 => some 5
  | 0x90 => some 7
  | 0x91 => some 7
  | _ => none

/-- A page's output signals its line (12_interrupt_delivery.md R366, R367, R368). -/
def State.signalPage (s : State) (pg : Nat) : State :=
  match pageAt pg with
  | none => s
  | some (ty, inst) =>
    if 0x100 ≤ ty then s.signal (some inst) 4
    else match s.stationLine ty pg with
      | some v => s.signal none v
      | none => s

/-- The level of the CIC source of a page: its output, or for the slice administration pages the OR of 32 of them
(12_interrupt_delivery.md R357). -/
def State.sourceLevel (s : State) (ty inst : Nat) : Bool :=
  if ty = 0x20 then (List.range 32).any fun i => s.output (0x40000 + (inst / 32 * 32 + i) * 0x1000)
  else s.output (pageBase ty inst)

/-- Bring the CIC input of a page's source up to date; a closed gate holds its level (12_interrupt_delivery.md R357). -/
def State.syncSource (s : State) (pg : Nat) : State :=
  match pageAt pg with
  | none => s
  | some (ty, inst) =>
    if !s.clocked ty inst then s
    else match sourceOf ty inst with
      | some n => s.setInput n (s.sourceLevel ty inst)
      | none => s

/-- The page's output may have risen: `old` is what it was (12_interrupt_delivery.md R368). -/
def State.afterOutput (s : State) (pg : Nat) (old : Bool) : State :=
  let s := s.syncSource pg
  if s.output pg && !old then s.signalPage pg else s

/-- Set event bits of a page; a block whose clocks are stopped sets none (02_host_interface.md R59, R64; 14_clock_generation.md R402). -/
def State.pageEvent (s : State) (pg bits : Nat) : State :=
  let go := match pageAt pg with | some (ty, inst) => s.clocked ty inst | none => false
  if go then
    let old := s.output pg
    (s.wr (pg + 0x10) (s.rd (pg + 0x10) ||| w32 bits)).afterOutput pg old
  else s

/-- Set one event bit of a page given by its type and number. -/
def State.event (s : State) (ty inst bit : Nat) : State := s.pageEvent (pageBase ty inst) (2 ^ bit)

/-! ### The haul link and mirroring -/

/-- The registers of a page act only on the module that is accessed (15_pairs_and_live_insertion.md R430). -/
def localPage (off : Nat) : Bool :=
  (0x10000 ≤ off && off < 0x14000) || (0x24000 ≤ off && off < 0x25000) || (0x2A0000 ≤ off && off < 0x2A4000)

/-- The register words that a pair takeover reset takes to reset and a catch-up copies from the primary: code C of the survival
table, by BAR0 offset or by the number of an indexed table (16_power_resets_and_start_up.md R466; log 101). -/
def catchupCell (a : Nat) : Bool :=
  (a < 0x4000000 && !(0x20000 ≤ a && a < 0x25000) && !(0x280000 ≤ a && a < 0x284000) && !(0x290000 ≤ a && a < 0x2A4000) &&
    a != R.stnModule) ||
  (R.clkGate 0 ≤ a && a < R.clkGate 10) || a == R.clkOutCtrl || (0x10000000 ≤ a && a < K.moderation 0) ||
  (K.route 0 ≤ a && a < K.guardBase 0 0) || (K.hst 0 0 0 ≤ a && a < K.flashBuf 0)

/-- The message travels in the bulk channel (15_pairs_and_live_insertion.md R428). -/
def Msg.bulk : Msg → Bool
  | .hello .. | .writeReg .. | .writeDram .. | .decision _ | .streamData .. | .catchupDone _ => true
  | _ => false

/-- The header of the next frame; sending it settles an owed NAK (15_pairs_and_live_insertion.md R425, R426). -/
def State.nextFrame (s : State) (m : Msg) : Frame :=
  { bulk := m.bulk, nak := s.pair.nakOwed, seq := if m.bulk then s.pair.seqB else s.pair.seqT,
    ackT := (s.pair.rxT + 2 ^ 24 - 1) % 2 ^ 24, ackB := (s.pair.rxB + 2 ^ 24 - 1) % 2 ^ 24, msg := m }

/-- Send a message, or queue it behind 2,048 unacknowledged frames of its channel; nothing is sent while the link is
down (15_pairs_and_live_insertion.md R426, R429). -/
def State.send (s : State) (m : Msg) : State :=
  if !s.flag R.pairLinkStatus F.pairLinkStatus_up then s
  else if (s.pair.sent.filter fun f => f.bulk == m.bulk).length < 2048 then
    let f := s.nextFrame m
    let s := s.emit (.frame f)
    { s with pair := { s.pair with
        nakOwed := false, sent := s.pair.sent ++ [f],
        seqB := if m.bulk then (s.pair.seqB + 1) % 2 ^ 24 else s.pair.seqB,
        seqT := if m.bulk then s.pair.seqT else (s.pair.seqT + 1) % 2 ^ 24 } }
  else { s with pair := { s.pair with queued := s.pair.queued ++ [m] } }

/-- The module is a secondary (15_pairs_and_live_insertion.md R423). -/
def State.secondary (s : State) : Bool := s.fld R.pairStatus F.pairStatus_role == 2

/-- The module is the primary of a partner that follows it (15_pairs_and_live_insertion.md R430). -/
def State.forwards (s : State) : Bool :=
  s.pair.forwarding && s.fld R.pairStatus F.pairStatus_role == 1

/-- Forward a change to the secondary (15_pairs_and_live_insertion.md R430). -/
def State.mirror (s : State) (m : Msg) : State := if s.forwards then s.send m else s

/-- Forward a decision of the primary (15_pairs_and_live_insertion.md R430). -/
def State.decide (s : State) (d : PairDecision) : State := s.mirror (.decision d)

/-! ### Guards -/

/-- The number of regions of a guard: 0 DRAM, 1 on-die, 2 flash (11_control_cores_and_the_protected_world.md R338). -/
def guardCount (g : Nat) : Nat := if g = 0 then 16 else if g < 3 then 8 else 0

/-- The unit of a guard's regions in bytes (11_control_cores_and_the_protected_world.md R338). -/
def guardUnit (g : Nat) : Nat := if g = 1 then 0x1000 else 0x10000

/-- Some byte of a range lies in an enabled region of a guard; size 0 disables a region
(11_control_cores_and_the_protected_world.md R338). -/
def State.inGuard (s : State) (g a len : Nat) : Bool :=
  (List.range (guardCount g)).any fun r =>
    let base := bitsOf (s.num (K.guardBase g r)) 19 0 * guardUnit g
    let sz := bitsOf (s.num (K.guardSize g r)) 19 0 * guardUnit g
    bitAt (s.num (K.guardSize g r)) 31 && sz != 0 && base < a + len && a < base + sz

/-- The save area of Retain in DRAM: its base and its 32 MiB (16_power_resets_and_start_up.md R458). -/
def State.saveBase (s : State) : Nat := s.fld R.pwrSave F.pwrSave_base * 0x100000

/-- A DRAM range is protected: an enabled guard region or the save area (11_control_cores_and_the_protected_world.md R338;
16_power_resets_and_start_up.md R458). -/
def State.dramProtected (s : State) (a len : Nat) : Bool :=
  s.inGuard 0 a len || (s.saveBase < a + len && a < s.saveBase + 0x2000000)

/-- Log a denial of the guards (11_control_cores_and_the_protected_world.md R340). -/
def State.denial (s : State) (write : Bool) (guard req off : Nat) : State :=
  let s := s.count R.wldGuardDenials F.wldGuardDenials_n
  let s :=
    if s.flag R.wldGuardLogInfo F.wldGuardLogInfo_valid then s
    else
      let s := s.wrN R.wldGuardLogInfo (2 ^ 31 + b2n write * 2 ^ 30 + guard * 2 ^ 28 + req * 2 ^ 16)
      s.wrN R.wldGuardLogAddr (off / 64)
  s.event 0x80 1 0

end Sys2Proof.Machine
end

