-- ==== Sys2Proof/Machine/Clocking.lean ====
section
/-!
DEFINITION. Station time and the grids of its ticks (01_the_w880_at_a_glance.md R27 to R33).
-/

namespace Sys2Proof.Machine

/-- The station tick period of a rate code (01_the_w880_at_a_glance.md R30; 09_capacitive_touch.md, STN_TICK_CTRL.rate). -/
def stationPeriod (rate : Nat) : Nat := if rate = 0 then 4000000 else if rate = 1 then 2000000 else 1000000

/-- The next instant of a grid: a multiple of the period, not before `now`, and after the last tick processed (log 4). -/
def nextGrid (period last now : Nat) : Nat := max (roundUp now period) (last / period * period + period)

/-- The next sample tick's number k, which falls at k × 62,500 / 3 ns (01_the_w880_at_a_glance.md R30). -/
def nextSample (last now : Nat) : Nat := max (ceilDiv (now * 3) 62500) (last + 1)

/-- The timestamp of sample tick k: its instant truncated to a multiple of 5 ns (01_the_w880_at_a_glance.md R30). -/
def sampleTime (k : Nat) : Nat := k * 62500 / 3 / 5 * 5

/-- A loop tick at an instant: the sample ticks up to it have been processed before it, or are no longer due
(01_the_w880_at_a_glance.md R31; log 4). -/
def State.passLoop (s : State) (t : Nat) : State :=
  { s with ticks := (s.ticks.1, t, s.ticks.2.2.1, max s.ticks.2.2.2 (t * 3 / 62500)) }

/-- A station tick at an instant: the sample, loop and stream-sample ticks up to it have been processed before it, or are no
longer due (R31; log 4). -/
def State.passStation (s : State) (t : Nat) : State :=
  { s with ticks := (t, max s.ticks.2.1 (t / 62500 * 62500), max s.ticks.2.2.1 (t / 125000 * 125000),
                     max s.ticks.2.2.2 (t * 3 / 62500)) }

/-- Station time moves on to an instant; it never decreases. -/
def State.at (s : State) (t : Nat) : State := { s with time := max s.time t }

/-- The station time counter runs: in Run and Dim it counts; in Retain and Standby it is advanced at the exit, in Off it
is lost (16_power_resets_and_start_up.md R453). -/
def State.counting (s : State) : Bool := s.fld R.pwrState F.pwrState_current ≤ 1

/-- PER, which clocks the station-time counter, runs on the coast clock (14_clock_generation.md R414). -/
def State.perCoasts (s : State) : Bool :=
  match Tab.get none s.clk.doms 2 with
  | some d => d.coasting
  | none => false

/-- The AUD PLL is locked. -/
def State.audRuns (s : State) : Bool := bitAt (s.num R.clkPllStatus) 2

/-- Station time without its clock becomes uncertain (14_clock_generation.md R414). -/
def State.timeUncertain (s : State) : State := s.setF R.clkRefStatus F.clkRefStatus_time_uncertain

/-- With no command waiting, station time goes on by one count of its counter (01_the_w880_at_a_glance.md R28; log 18). While PER
coasts, the counter waits for the sample ticks, or without them adds 40 a cycle (14_clock_generation.md R414). -/
def idleTick (s : State) : State :=
  if !s.counting then s.begin
  else if !s.perCoasts then { s.begin with time := s.time + 5 }
  else if s.audRuns then s.begin
  else { s.begin with time := s.time + 40 }

end Sys2Proof.Machine
end

