-- ==== Sys2Proof/Machine/Dram.lean ====
section
/-!
DEFINITION. DRAM as its requesters see it: blocks and channels, in-line ECC, poison, the write queues, the guard
(13_memory_controller.md R371 to R387; 11_control_cores_and_the_protected_world.md R338, R339).
-/

namespace Sys2Proof.Machine

/-- The first absent DRAM offset (13_memory_controller.md R371). -/
def dramEnd : Nat := 0x1E0000000

/-- The number of 64-byte blocks of DRAM. -/
def dramBlocks : Nat := dramEnd / 64

/-- The channel of a block: fixed by the die (13_memory_controller.md R372). -/
def blockChannel (d : Nat) : Nat := (Config.channelOf (d / 8) ⟨d % 8, Nat.mod_lt d (by decide)⟩).val

/-- The blocks that a range touches (13_memory_controller.md R372). -/
def blocksOf (a len : Nat) : List Nat :=
  if len = 0 then [] else (List.range ((a + len - 1) / 64 + 1 - a / 64)).map (a / 64 + ·)

/-! ### From block to cell (13_memory_controller.md R373, R374) -/

/-- The channel-local byte address of the first byte of a block. -/
def blockLocal (d : Nat) : Nat := d / 8 / 15 * 1024 + d / 8 % 15 * 64

/-- The channel-local byte address of a block's check word. -/
def checkLocal (d : Nat) : Nat := d / 8 / 15 * 1024 + 960 + 4 * (d / 8 % 15)

/-- The parity of the set bits of a number below `2 ^ n`. -/
def parity (n a : Nat) : Nat := ((List.range n).filter (bitAt a)).length % 2

/-- The bank-hash mask of bank bit `i`. -/
def State.hashMask (s : State) (i : Nat) : Nat := s.num (R.dmcHash0 + 4 * i) &&& 0x3FFF8000

/-- The bank, row and column byte of a channel-local address. -/
def State.bankOf (s : State) (a : Nat) : Nat :=
  (List.range 4).foldl (fun b i => b + (b2n (bitAt a (11 + i)) + parity 30 (a &&& s.hashMask i)) % 2 * 2 ^ i) 0
def rowOf (a : Nat) : Nat := bitsOf a 29 15
def columnOf (a : Nat) : Nat := bitsOf a 10 0

/-! ### Row activations (13_memory_controller.md R391) -/

/-- The requester that a code and a slice name (13_memory_controller.md, DMC_UE_INFO). -/
def dramReqOf (code sl : Nat) : DramReq :=
  match code / 16 with
  | 0 => .core (Fin.ofNat 4 code)
  | 1 => .slice (Fin.ofNat 4 code) (Fin.ofNat 256 sl)
  | 2 => .bar2
  | 3 => .realTime
  | 4 => .mirror
  | 5 => .touchRing
  | _ => .scrub (code % 16 == 1)

/-- One more activation of a row by a requester. -/
def countRow (ch bank row : Nat) (req : DramReq) : List RowActs → List RowActs
  | [] => [⟨ch, bank, row, req, 1⟩]
  | e :: l =>
    if e.ch == ch && e.bank == bank && e.row == row && e.req == req then { e with n := e.n + 1 } :: l
    else e :: countRow ch bank row req l

/-- An access of a block counts one activation of its row (13_memory_controller.md R391; log 62). -/
def State.activate (s : State) (d code sl : Nat) : State :=
  let a := blockLocal d
  { s with dmc := { s.dmc with
    acts := countRow (blockChannel d) (s.bankOf a) (rowOf a) (dramReqOf code sl) s.dmc.acts } }

/-- Log a corrected block (13_memory_controller.md R380). -/
def State.corrected (s : State) (d : Nat) : State :=
  let s := s.count (R.dmcChCe (blockChannel d)) F.dmcChCe_n
  let s := s.count R.dmcCeCount F.dmcCeCount_n
  let n := s.fld R.dmcCeCount F.dmcCeCount_n
  if n % 256 = 0 && 0 < n then s.event 0x90 0 1 else s

/-- Log an uncorrectable read with its requester code and slice (13_memory_controller.md R383). -/
def State.uncorrectable (s : State) (d req sl : Nat) (rmw : Bool) : State :=
  let s := s.count (R.dmcChUe (blockChannel d)) F.dmcChUe_n
  let s := s.count R.dmcUeCount F.dmcUeCount_n
  let s :=
    if s.flag R.dmcUeInfo F.dmcUeInfo_valid then s
    else
      let s := s.wrN R.dmcUeInfo (2 ^ 31 + b2n rmw * 2 ^ 30 + blockChannel d * 2 ^ 27 + req * 2 ^ 16 + sl * 2 ^ 8)
      s.wrN R.dmcUeBlock d
  s.event 0x90 0 0

/-- The mark of a block: 0 good, 1 one corrupted word, 2 uncorrectable or poisoned (13_memory_controller.md R379, R381). -/
def State.mark (s : State) (d : Nat) : Nat := Tab.get 0 s.dmc.bad d

/-- Set the mark of a block. -/
def State.setMark (s : State) (d m : Nat) : State := { s with dmc := { s.dmc with bad := Tab.set 0 s.dmc.bad d m } }

/-- The blocks in the write queue of a channel (13_memory_controller.md R386). -/
def State.wqFill (s : State) (ch : Nat) : Nat := (s.dmc.queue.filter fun e => blockChannel e.1 == ch).length

/-- Drop the oldest queued blocks of a channel until `k` are left (13_memory_controller.md R387). -/
def drainTo (ch k : Nat) (q : List (Nat × Nat)) : List (Nat × Nat) :=
  let n := (q.filter fun e => blockChannel e.1 == ch).length
  (q.foldl (fun (l, left) e =>
    if blockChannel e.1 == ch && 0 < left then (l, left - 1) else (l ++ [e], left)) (([] : List (Nat × Nat)), n - k)).1

/-- A block enters its channel's write queue; a full queue drains first (13_memory_controller.md R386, R387). -/
def State.enqueueBlock (s : State) (d : Nat) : State :=
  if s.dmc.queue.any fun e => e.1 == d then s
  else
    let ch := blockChannel d
    let q := if 64 ≤ s.wqFill ch then drainTo ch (s.fld R.dmcWq F.dmcWq_wq_low) s.dmc.queue else s.dmc.queue
    { s with dmc := { s.dmc with queue := q ++ [(d, s.time)] } }

/-- What a read finds in a block: an error confined to one word of its code word is corrected, one in two or more words is
uncorrectable, and so is a block that the array returns from another offset (13_memory_controller.md R379). -/
def eccFound (e : Ecc) (d : Nat) : EccRes :=
  if e.ue.contains d then .uncorrectable else if e.ce.contains d then .corrected else .clean

/-- What a read finds that no operand of its command describes: a free value (13_memory_controller.md R379; log 1). -/
def State.eccFree (s : State) : EccRes × State :=
  let (v, s) := s.free 3
  (if v = 0 then .clean else if v = 1 then .corrected else .uncorrectable, s)

/-- The read of one block: corrected, or uncorrectable; `res` is an error found now besides the block's mark
(13_memory_controller.md R380, R382, R383); a corrected block is written back. Answers whether the block is good. -/
def State.readBlock (s : State) (d req sl : Nat) (rmw : Bool) (res : EccRes) : Bool × State :=
  let s := s.activate d req sl
  if res = .uncorrectable || s.mark d = 2 then (false, (s.setMark d 2).uncorrectable d req sl rmw)
  else if res = .corrected || s.mark d = 1 then (true, ((s.corrected d).setMark d 0).enqueueBlock d)
  else (true, s)

/-- Read a list of blocks; answers the blocks that failed. -/
def State.readBlocks (s : State) (ds : List Nat) (req sl : Nat) (ecc : Ecc) : List Nat × State :=
  ds.foldl (fun (l, s) d =>
    let (ok, s) := s.readBlock d req sl false (eccFound ecc d)
    (if ok then l else l ++ [d], s)) ([], s)

/-- Read DRAM bytes: the bytes stored, the blocks that failed, and the state that has logged them. -/
def State.dramRead (s : State) (a len req sl : Nat) (ecc : Ecc) : List Byte × List Nat × State :=
  let (l, s) := s.readBlocks (blocksOf a len) req sl ecc
  (Mem.read 0 s.mem.dram a len, l, s)

/-- What a write does to a block's check word: a full block clears its mark, part of a block is a read-modify-write, and
an armed injection corrupts it (13_memory_controller.md R381, R383, DMC_ECC_INJECT). What the read of a read-modify-write finds
is a free value. -/
def State.writeBlock (s : State) (d : Nat) (full : Bool) (req sl : Nat) : State :=
  let s :=
    if full then (s.activate d req sl).setMark d 0
    else
      let (res, s) := s.eccFree
      (s.readBlock d req sl true res).2
  let s :=
    if s.flag R.dmcEccInject F.dmcEccInject_arm && s.fld R.dmcEccInject F.dmcEccInject_block == d then
      let two := s.flag R.dmcEccInject F.dmcEccInject_two_words
      (s.setMark d (max (s.mark d) (if two then 2 else 1))).clrF R.dmcEccInject F.dmcEccInject_arm
    else s
  s.enqueueBlock d

/-- Write DRAM bytes, with no mirroring. -/
def State.dramStore (s : State) (a : Nat) (data : List Byte) (req sl : Nat) : State :=
  let s := s.each (blocksOf a data.length) fun s d =>
    s.writeBlock d (a ≤ d * 64 && d * 64 + 64 ≤ a + data.length) req sl
  { s with mem := { s.mem with dram := Mem.write 0 s.mem.dram a data } }

/-- Forward a DRAM write to the secondary in messages of at most 4,064 bytes (15_pairs_and_live_insertion.md R428, R430). -/
def State.mirrorDram (a : Nat) (world1 : Bool) : Nat → List Byte → State → State
  | 0, _, s => s
  | _ + 1, [], s => s
  | fuel + 1, data, s =>
    State.mirrorDram (a + 4064) world1 fuel (data.drop 4064) (s.mirror (.writeDram a (data.take 4064) world1 false))

/-- Write DRAM bytes by a requester of a world, and forward the write (15_pairs_and_live_insertion.md R430). -/
def State.dramWrite (s : State) (a : Nat) (data : List Byte) (req sl : Nat) (world1 : Bool) : State :=
  let s := s.dramStore a data req sl
  if s.forwards then State.mirrorDram a world1 (data.length + 1) data s else s

/-- A world-0 request to a protected area of DRAM is denied and logged (11_control_cores_and_the_protected_world.md R339, R340). -/
def State.dramDenied (s : State) (a len : Nat) (write : Bool) (req : Nat) : Option State :=
  if s.dramProtected a len then some (s.denial write 0 req a) else none

/-- Count the real-time bytes that a channel serves, and its longest latency: a free value (13_memory_controller.md,
DMC_CH_RT_LO, DMC_CH_RT_MAXLAT; log 1). -/
def State.realTime (s : State) (ds : List Nat) : State :=
  s.each ds fun s d =>
    let ch := blockChannel d
    let n := s.num64 (R.dmcChRtLo ch) (R.dmcChRtHi ch) + 64
    let s := (s.wrN (R.dmcChRtLo ch) n).wrN (R.dmcChRtHi ch) (n / 2 ^ 32)
    let (v, s) := s.free (2 ^ 32)
    s.wrN (R.dmcChRtMaxlat ch) (max v (s.num (R.dmcChRtMaxlat ch)))

end Sys2Proof.Machine
end

