-- ==== Sys2Proof/Machine/Operands.lean ====
section
/-!
DEFINITION. The operand forms of the commands: who a requester is, the arguments of a command, and what a write or a
read does to the fields of a register by their access codes, locks and reserved values (00_scope.md R12 to R16).
-/

namespace Sys2Proof

/-- The requester is the host. -/
def Req.isHost : Req → Bool
  | .host _ => true
  | .core _ => false

/-- The requester's code in WLD_XW_INFO (11_control_cores_and_the_protected_world.md). -/
def Req.xwCode : Req → Nat
  | .host _ => 8
  | .core n => n.val

/-- The requester's latch of a 64-bit register: one for the host and one for each core (01_the_w880_at_a_glance.md R29). -/
def Req.latch : Req → Nat
  | .host _ => 0
  | .core n => n.val + 1

/-- A field value is not reserved (00_scope.md R16). -/
def FldDesc.ok (f : FldDesc) (v : Nat) : Bool := f.legal.isEmpty || f.legal.any fun e => e.1 ≤ v && v ≤ e.2

/-- The bits of `a` that are not in `b`. -/
def andNot (a b : Nat) : Nat := a - (a &&& b)

/-- A write to one field (00_scope.md R12, R14, R16). -/
def FldDesc.write (locked : Bool) (old v : Word) (f : FldDesc) : Word :=
  let x := f.fld.get v
  match f.acc with
  | .rw => if f.ok x then f.fld.put old x else old
  | .rwl => if f.ok x && !locked then f.fld.put old x else old
  | .w1c => f.fld.put old (andNot (f.fld.get old) x)
  | .w1s => f.fld.put old (f.fld.get old ||| x)
  | .ro => old
  | .wo => old
  | .rc => old

/-- A write to all fields of a register; reserved bits take no effect (00_scope.md R15). -/
def writeFields (fs : List FldDesc) (locked : Bool) (old v : Word) : Word :=
  fs.foldl (fun w f => f.write locked w v) old

/-- What a read returns of one field: write-only and reserved bits read 0 (00_scope.md R12). -/
def FldDesc.read (w : Word) (acc : Word) (f : FldDesc) : Word :=
  match f.acc with
  | .wo => acc
  | _ => f.fld.put acc (f.fld.get w)

/-- What a read returns of a register. -/
def readFields (fs : List FldDesc) (w : Word) : Word := fs.foldl (fun acc f => f.read w acc) 0#32

/-- What a read leaves of a register: read-clear fields are 0 (00_scope.md R12). -/
def clearRead (fs : List FldDesc) (w : Word) : Word :=
  fs.foldl (fun acc f => if f.acc == .rc then f.fld.put acc 0 else acc) w

end Sys2Proof

namespace Sys2Proof.Machine

/-! ### Requesters -/

/-- The world bit of a register access (11_control_cores_and_the_protected_world.md R337). -/
def State.reqWorld1 (s : State) : Req → Bool
  | .host _ => false
  | .core n => (s.core n).st != 0

/-- The requester is a core in PROTECTED (11_control_cores_and_the_protected_world.md R322). -/
def State.reqProtected (s : State) : Req → Bool
  | .host _ => false
  | .core n => (s.core n).st == 1

/-- A refused cross-world write is counted and captured (11_control_cores_and_the_protected_world.md R350). Kinds: 0 page,
1 clock gate, 2 clock domain, 3 core control, 4 interrupt source. -/
def State.xwDenied (s : State) (r : Req) (kind a : Nat) : State :=
  let s := s.count R.wldXwDenied F.wldXwDenied_n
  let s :=
    if s.flag R.wldXwInfo F.wldXwInfo_valid then s
    else s.wrN R.wldXwInfo (2 ^ 31 + kind * 2 ^ 28 + r.xwCode * 2 ^ 24 + a / 0x1000)
  s.event 0x80 3 0

/-! ### Command arguments -/

/-- Argument word `i` of a command as a number (02_host_interface.md R70). -/
def argOf (words : List Word) (i : Nat) : Nat := ((words[i]?).getD 0#32).toNat

/-- A 64-bit address in two argument words, low word first. -/
def argAddr (words : List Word) (i : Nat) : Nat := argOf words i + argOf words (i + 1) * 2 ^ 32

/-! ### Fields by access code -/

/-- The register of a page exists on this page: the capacity register is BPL_0's only, the effect-store registers are HAP_0's
only (05_bench_plan_and_fit_check.md R171; 10_haptic_and_acoustic_feedback.md R303). -/
def regHere (ty inst off : Nat) : Bool :=
  !(ty == 0x40 && inst != 0 && off == 0x080) && !(ty == 0x70 && inst != 0 && 0x0C0 ≤ off)

/-- The fields of the register at a page offset; none at a reserved offset (00_scope.md R15). -/
def fieldsAt (ty inst off : Nat) : List FldDesc :=
  if regHere ty inst off then
    match regAt ty inst off with
    | some (r, _) => r.flds
    | none => []
  else []

/-- The RWL fields of a register are locked: by the page's owner lock, or by the lock its chapter names
(02_host_interface.md R61; 11_control_cores_and_the_protected_world.md WLD_LOCK; 13_memory_controller.md R375;
16_power_resets_and_start_up.md PWR_WDOG_CTRL), by the enable of a panel or port, or by a channel that is not OFF
(09_capacitive_touch.md TCH_CTRL; 10_haptic_and_acoustic_feedback.md R296, AUD_TDM_CTRL). -/
def State.rwlLocked (s : State) (ty inst a : Nat) : Bool :=
  s.ownerLock (pageOf a) ||
    ((ty == 0x61 || ty == 0x72) && s.enabled (pageOf a)) || (ty == 0x70 && (s.chan inst).mode != .off) ||
    (ty == 0x90 && s.flag R.dmcCtrl F.dmcCtrl_cfg_lock) ||
    (a == R.pwrWdogCtrl && s.flag R.pwrWdogCtrl F.pwrWdogCtrl_enabled) ||
    ((a == R.wldCoreCtrl || a == R.wldBootGEntry || a == R.wldGuardBase || a == R.wldGuardSize) &&
      s.flag R.wldLock F.wldLock_guard_lock) ||
    (a == R.wldPwCtrl && s.flag R.wldLock F.wldLock_assign_lock) ||
    (a == R.wldCacheWays && s.flag R.wldLock F.wldLock_cache_lock)

/-- A write to a register that has no effect of its own: access codes, locks and reserved values (00_scope.md R12 to R16). -/
def State.plainWrite (s : State) (a : Nat) (v : Word) : State :=
  match pageAt a with
  | none => s
  | some (ty, inst) => s.wr a (writeFields (fieldsAt ty inst (a % 0x1000)) (s.rwlLocked ty inst a) (s.rd a) v)

/-- A read of a register that has no value of its own (00_scope.md R12). -/
def State.plainRead (s : State) (a : Nat) : Word × State :=
  match pageAt a with
  | none => (0#32, s)
  | some (ty, inst) =>
    let fs := fieldsAt ty inst (a % 0x1000)
    (readFields fs (s.rd a), s.wr a (clearRead fs (s.rd a)))

/-- What a plain read of a register clears. -/
def State.clearedByRead (s : State) (a : Nat) : State := (s.plainRead a).2

end Sys2Proof.Machine
end

