-- ==== Sys2Proof/Machine/Cvu.lean ====
section
/-!
DEFINITION. The check algorithm and the check-value units: their registers, what feeds them, and region use
(08_check_values_core_samples_and_floor_images.md R234 to R238, R241).
-/

namespace Sys2Proof.Machine

/-! ### The check algorithm -/

/-- The mask of a width (R234). -/
def cvMask (w : Nat) : Nat := 2 ^ min w 32 - 1

/-- Reverse the low `n` bits (R234). -/
def cvReflect (x n : Nat) : Nat :=
  (List.range n).foldl (fun y i => y + b2n (bitAt x i) * 2 ^ (n - 1 - i)) 0

/-- One bit of a byte into the running value (R234). -/
def cvBit (w poly : Nat) (r : Nat) (d : Bool) : Nat :=
  let fb := d != bitAt r (w - 1)
  let r := r * 2 % 2 ^ w
  if fb then r ^^^ (poly % 2 ^ w) else r

/-- One byte into the running value (R234). -/
def cvStep (c : CvCfg) (r : Nat) (b : Byte) : Nat :=
  let d := if c.refin then cvReflect b.toNat 8 else b.toNat
  [7, 6, 5, 4, 3, 2, 1, 0].foldl (fun r i => cvBit c.w c.poly r (bitAt d i)) r

/-- The final value of a running value (R234). -/
def cvFinal (c : CvCfg) (r : Nat) : Nat :=
  ((if c.refout then cvReflect r c.w else r) ^^^ c.xorout) % 2 ^ c.w

/-- Many bytes into the running value. -/
def cvFeedBytes (c : CvCfg) (r : Nat) (bs : List Byte) : Nat := bs.foldl (cvStep c) r

/-- The fixed CRC-32 of CVU_28 to CVU_31 (R235). -/
def crc32 (bs : List Byte) : Nat := cvFinal {} (cvFeedBytes {} 0xFFFFFFFF bs)

/-! ### Units -/

/-- The configuration of a unit as its registers give it (R236). -/
def State.cvCfg (s : State) (n : Nat) : CvCfg :=
  { w := s.fld (R.cvuCfg n) F.cvuCfg_width_m1 + 1, poly := s.num (R.cvuPoly n), init := s.num (R.cvuInit n),
    refin := s.flag (R.cvuCfg n) F.cvuCfg_refin, refout := s.flag (R.cvuCfg n) F.cvuCfg_refout,
    xorout := s.num (R.cvuXorout n) }

/-- Feed bytes to a unit: CVU_VALUE and CVU_BYTES (R234, R236). -/
def State.cvFeedUnit (s : State) (n : Nat) (bs : List Byte) : State :=
  if bs.isEmpty then s
  else
    let s := s.wrN (R.cvuValue n) (cvFeedBytes (s.cvCfg n) (s.num (R.cvuValue n)) bs)
    s.count (R.cvuBytes n) F.cvuBytes_bytes bs.length

/-- A feed starts: the running value is set and the count starts anew (R238). -/
def State.cvStart (s : State) (n : Nat) (f : Feed) (r : Nat) : State :=
  ((s.setCvFeed n f).wrN (R.cvuValue n) r).wrN (R.cvuBytes n) 0

/-- A feed ends; the running value stays at its last step (R238). -/
def State.cvEnd (s : State) (n : Nat) : State := s.setCvFeed n .idle

/-- The unit stops and returns to its reset values (03_slices.md R104, R107). -/
def State.cvReset (s : State) (n : Nat) : State :=
  (s.resetKeys fun a => pageOf a == pageBase 0x50 n && 0x40 ≤ a % 0x1000).setCvFeed n .idle

/-- Key of a block kind's ordinal in a slice (03_slices.md R98, R102). -/
def K.ord (kind ordinal : Nat) : Nat := kind * 256 + ordinal

/-- The global number behind a slice-local ordinal (03_slices.md R102). -/
def State.globalOf (s : State) (sl kind ordinal : Nat) : Option Nat :=
  Tab.get none (s.slice sl).ords (K.ord kind ordinal)

/-- The ordinal of a block in a slice. -/
def State.ordinalOf (s : State) (sl kind global : Nat) : Option Nat :=
  ((s.slice sl).ords.find? fun e => e.1 / 256 == kind && e.2 == some global).map fun e => e.1 % 256

/-- A block is granted or permitted to a slice. -/
def State.granted (s : State) (sl kind global : Nat) : Bool := (s.ordinalOf sl kind global).isSome

/-- The owner of a region: a slice, 256 for the protected world, none otherwise (R242). -/
def State.regionOwner (s : State) (n : Nat) : Option Nat :=
  let pg := pageBase 0x51 n
  if s.pageWorld1 pg then some 256
  else if s.ownerKind pg = 2 then some (s.ownerSlice pg) else none

/-- A region image is enabled. -/
def RegionImg.on (i : RegionImg) : Bool := bitAt i.ctrl.toNat 0

/-- The global number of the unit that a region image of an owner names (CSR_CTRL). -/
def State.imageUnit (s : State) (owner : Nat) (i : RegionImg) : Option Nat :=
  let u := bitsOf i.ctrl.toNat 20 16
  if owner = 256 then some u else s.globalOf owner 2 u

/-- The commits of an output that are in progress (05_bench_plan_and_fit_check.md R157 to R160). -/
def OutSt.commits (o : OutSt) : List Commit :=
  let ofEntry (e : Entry) : List Commit := match e with | .commit c => [c] | .share _ => []
  o.fenced ++ o.queue.flatMap ofEntry ++ (match o.check with | some e => ofEntry e | none => []) ++ o.accepted ++ o.deferred ++
    o.restored

/-- The enabled region images, latched or of commits in progress, that name a unit (R238, CVU_FEED.regions). -/
def State.unitImages (s : State) (n : Nat) : Nat :=
  (s.csr.filter fun e => e.2.latched.on &&
    (match s.regionOwner e.1 with | some ow => s.imageUnit ow e.2.latched == some n | none => false)).length +
  (s.outs.flatMap fun e => e.2.commits.flatMap fun c =>
    c.regions.filter fun r => r.2.on && s.imageUnit c.owner r.2 == some n).length

/-- The unit is in region use (R238). -/
def State.regionUse (s : State) (n : Nat) : Bool := s.unitImages n != 0

/-- The unit is fed or in region use (R238). -/
def State.cvBusy (s : State) (n : Nat) : Bool := s.cvFeed n != .idle || s.regionUse n

/-- CVU_FEED as read. -/
def State.cvFeedWord (s : State) (n : Nat) : Word :=
  let k := min 255 (s.unitImages n)
  match s.cvFeed n with
  | .haul sp _ => w32 (0x40000000 + (if sp < 256 then sp * 256 else 0) + k)
  | .seed sp _ => w32 (0x80000000 + (if sp < 256 then sp * 256 else 0) + k)
  | .idle => w32 ((if k = 0 then 0 else 0xC0000000) + k)

/-- CVU_FINAL as read. -/
def State.cvFinalWord (s : State) (n : Nat) : Word := w32 (cvFinal (s.cvCfg n) (s.num (R.cvuValue n)))

/-- Word `k` of a unit: CFG, POLY, INIT, XOROUT, VALUE, FINAL, FEED (R241). -/
def State.cvWord (s : State) (n k : Nat) : Word :=
  match k with
  | 0 => s.rd (R.cvuCfg n)
  | 1 => s.rd (R.cvuPoly n)
  | 2 => s.rd (R.cvuInit n)
  | 3 => s.rd (R.cvuXorout n)
  | 4 => s.rd (R.cvuValue n)
  | 5 => s.cvFinalWord n
  | 6 => s.cvFeedWord n
  | _ => 0#32

/-- A write of a unit's register `k` by its owner: refused while the unit is fed or in region use; CVU_28 to CVU_31
take CVU_VALUE alone (R236 to R238). The write-one-to-clear bit of CVU_CFG works at all times. -/
def doCvuReg (n k : Nat) (v : Word) (s : State) : State :=
  let s := if k = 0 && bitAt v.toNat 31 then s.clrF (R.cvuCfg n) F.cvuCfg_write_refused else s
  if 4 < k then s
  else if s.cvBusy n then s.setF (R.cvuCfg n) F.cvuCfg_write_refused
  else if 28 ≤ n && k != 4 then s
  else match k with
    | 0 =>
      let s := s.put (R.cvuCfg n) F.cvuCfg_width_m1 (bitsOf v.toNat 4 0)
      let s := s.put (R.cvuCfg n) F.cvuCfg_refin (bitsOf v.toNat 8 8)
      s.put (R.cvuCfg n) F.cvuCfg_refout (bitsOf v.toNat 9 9)
    | 1 => s.wr (R.cvuPoly n) v
    | 2 => s.wr (R.cvuInit n) v
    | 3 => s.wr (R.cvuXorout n) v
    | _ => (s.wr (R.cvuValue n) v).wrN (R.cvuBytes n) 0

/-- The requester may write a unit's registers through its station page (R237). -/
def State.cvStationWriter (s : State) (r : Req) (n : Nat) : Bool :=
  let pg := pageBase 0x50 n
  if s.pageWorld1 pg then s.reqProtected r else s.ownerKind pg == 1 && r.isHost

/-- A write to a unit's registers through its station page (R237). -/
def doCvuPage (r : Req) (n k : Nat) (v : Word) (s : State) : State :=
  if s.cvStationWriter r n then doCvuReg n k v s else s

end Sys2Proof.Machine
end

