-- ==== Sys2Proof/Machine/Layers.lean ====
section
/-!
DEFINITION. Layer images, the registers that reach them, and the assignment of slots
(06_layer_composition.md R179 to R184, R200 to R202).
-/

namespace Sys2Proof.Machine

/-! ### Images -/

/-- The reset value of an image word (R182, R183). -/
def imgReset (w : Nat) : Word :=
  w32 <|
    if w = 0 then 0xFF008
    else if w = 3 ∨ w = 5 then 0x10001
    else if w = 7 then 0xFFF000
    else if 16 ≤ w ∧ w < 144 then
      (let p := (w - 16) / 2
       if w % 2 = 0 then (256 - 4 * p) * 2 ^ 20 else 4 * p)
    else if 144 ≤ w ∧ w < 272 then
      (let p := (w - 144) / 2
       if w % 2 = 0 then (256 - 4 * p) * 2 ^ 10 + 4 * p * 2 ^ 20 else 0)
    else 0

/-- A word of an image; indices 272 to 511 read 0 (R182). -/
def imgGet (t : Tab Word) (w : Nat) : Word := if w < 272 then Tab.get (imgReset w) t w else 0#32

/-- The fields of an image word (R182, R183); words 8 to 10 hold fields in a capstone slot only (R202). -/
def imgFields (cap : Bool) (w : Nat) : List FldDesc :=
  match w with
  | 0 => [fd 19 12 .rw, fd 11 11 .rw, fdl 10 9 .rw [(0, 2)], fd 8 8 .rw, fd 7 7 .rw, fd 6 5 .rw, fdl 4 3 .rw [(0, 2)],
          fdl 2 1 .rw [(0, 1)], fd 0 0 .rw]
  | 1 => [fd 31 0 .rw]
  | 2 => [fd 28 16 .rw, fd 12 0 .rw]
  | 3 => [fd 29 16 .rw, fd 13 0 .rw]
  | 4 => [fd 31 0 .rw]
  | 5 => [fd 29 16 .rw, fd 13 0 .rw]
  | 6 => [fd 23 0 .rw]
  | 7 => [fd 23 0 .rw]
  | 8 => if cap then [fd 19 0 .rw] else []
  | 9 => if cap then [fd 31 16 .rw, fdl 7 0 .rw [(1, 7), (0x11, 0x13), (0x15, 0x15)]] else []
  | 10 => if cap then [fd 29 16 .rw, fd 13 0 .rw] else []
  | w => if w < 16 ∨ 272 ≤ w then [] else if 144 ≤ w ∧ w % 2 = 1 then [fd 9 0 .rw] else [fd 29 0 .rw]

/-- A write of an image word, field by field (R184). -/
def imgPut (cap : Bool) (t : Tab Word) (w : Nat) (v : Word) : Tab Word :=
  if w < 272 then Tab.set (imgReset w) t w (writeFields (imgFields cap w) false (imgGet t w) v) else t

/-- A field of LYR_CTRL and the other image words. -/
def imgFld (t : Tab Word) (w hi lo : Nat) : Nat := bitsOf (imgGet t w).toNat hi lo

/-- The image is enabled. -/
def imgOn (t : Tab Word) : Bool := imgFld t 0 0 0 == 1

/-- A solid-colour image. -/
def imgSolid (t : Tab Word) : Bool := imgFld t 0 2 1 == 1

/-! ### Slots -/

/-- The page of a slot. -/
def lyrPage (n : Nat) : Nat := pageBase 0x42 n

/-- The output that a slot feeds. -/
def State.slotOut (s : State) (n : Nat) : Nat := s.fld (R.lyrAssign n) F.lyrAssign_output

/-- The stack position of a slot. -/
def State.slotPos (s : State) (n : Nat) : Nat := s.fld (R.lyrAssign n) F.lyrAssign_position

/-- A capstone slot (R200). -/
def State.slotCap (s : State) (n : Nat) : Bool := s.flag (R.lyrAssign n) F.lyrAssign_capstone

/-- The owner of a slot: a slice, 256 for the protected world, none otherwise (R180). -/
def State.slotOwner (s : State) (n : Nat) : Option Nat :=
  if s.pageWorld1 (lyrPage n) then some 256
  else if s.ownerKind (lyrPage n) = 2 then some (s.ownerSlice (lyrPage n)) else none

/-- The slots of an output in ascending stack position. -/
def State.slotsOn (s : State) (o : Nat) : List Nat :=
  (List.range 8).flatMap fun p => below 64 fun n => s.slotOut n == o && s.slotPos n == p

/-- The slot's layer is composed, shed or absent in the plan in use of its output (LYR block_status). -/
def State.slotInPlan (s : State) (n : Nat) : Bool × Bool :=
  match (s.out (s.slotOut n)).plan with
  | none => (false, false)
  | some p =>
    let here := p.layers.any fun l => l.slot == n
    (here && !p.shed.contains n, here && p.shed.contains n)

/-- The output ordinal of an output in a slice, 0xF when not permitted (SLC_GRANT_QUERY.output). -/
def State.outOrdinal (s : State) (sl o : Nat) : Nat := (s.ordinalOf sl 0 o).getD 0xF

/-! ### LYR_ASSIGN -/

/-- A write of LYR_ASSIGN (R179). -/
def doLyrAssign (r : Req) (n : Nat) (v : Word) (s : State) : State :=
  let s := if bitAt v.toNat 31 then s.clrF (R.lyrAssign n) F.lyrAssign_refused else s
  let pg := lyrPage n
  if s.ownerKind pg != 0 || s.worldLock pg || s.ownerLock pg then s
  else
    let o := bitsOf v.toNat 3 0
    let o := if 8 ≤ o ∧ o < 15 then s.slotOut n else o
    let p := bitsOf v.toNat 10 8
    let cap := if s.reqProtected r then bitAt v.toNat 15 else s.slotCap n
    let others := below 64 fun m => m != n && s.slotOut m == o
    let capHere := o != 15 && ((List.range 64).any fun m => s.slotOut m == o && s.slotCap m)
    let refused :=
      (o != 15 && others.any fun m => s.slotPos m == p) ||
      (cap && ((o != 15 && others.any fun m => s.slotCap m) || p != 7)) ||
      (!cap && s.slotCap n && p == 7 && capHere)
    if refused then s.setF (R.lyrAssign n) F.lyrAssign_refused
    else ((s.put (R.lyrAssign n) F.lyrAssign_output o).put (R.lyrAssign n) F.lyrAssign_position p).put
      (R.lyrAssign n) F.lyrAssign_capstone (b2n cap)

/-! ### Page 3 of a slice window -/

/-- The slot behind the ordinal that SLC_LYR_SEL selects. -/
def State.lyrSelSlot (s : State) (sl : Nat) : Option Nat :=
  s.globalOf sl 1 (s.fld (R.slcLyrSel sl) F.slcLyrSel_ordinal)

/-- The next word index after an access (SLC_LYR_SEL.word). -/
def nextWord (w : Nat) : Nat := if w = 271 then 0 else (w + 1) % 512

/-- SLC_LYR_SEL.word advances. -/
def State.lyrAdvance (s : State) (sl : Nat) : State :=
  s.put (R.slcLyrSel sl) F.slcLyrSel_word (nextWord (s.fld (R.slcLyrSel sl) F.slcLyrSel_word))

/-- A write of SLC_LYR_SEL; with bank 1 it takes a snapshot of the latched image (R184). -/
def doLyrSel (sl : Nat) (v : Word) (s : State) : State :=
  let s := s.plainWrite (R.slcLyrSel sl) v
  if s.flag (R.slcLyrSel sl) F.slcLyrSel_bank then
    match s.lyrSelSlot sl with
    | some n => { s with lyrSnap := Tab.set [] s.lyrSnap sl (s.layer n).latched }
    | none => s
  else s

/-- A read of SLC_LYR_DATA (R184). -/
def readLyrData (sl : Nat) (s : State) : Word × State :=
  let w := s.fld (R.slcLyrSel sl) F.slcLyrSel_word
  let v := match s.lyrSelSlot sl with
    | none => 0#32
    | some n =>
      if s.flag (R.slcLyrSel sl) F.slcLyrSel_bank then imgGet (Tab.get [] s.lyrSnap sl) w
      else imgGet (s.layer n).shadow w
  (v, s.lyrAdvance sl)

/-- A write of SLC_LYR_DATA: the shadow bank of an ordinal in use (R184). -/
def doLyrData (sl : Nat) (v : Word) (s : State) : State :=
  let w := s.fld (R.slcLyrSel sl) F.slcLyrSel_word
  let s := match s.lyrSelSlot sl with
    | none => s
    | some n =>
      if s.flag (R.slcLyrSel sl) F.slcLyrSel_bank then s
      else s.updLayer n fun x => { x with shadow := imgPut false x.shadow w v }
  s.lyrAdvance sl

/-- SLC_LYR_CTRL.clear: the shadow image takes its reset values. -/
def doLayerClear (sl : Nat) (s : State) : State :=
  match s.lyrSelSlot sl with
  | none => s
  | some n => s.updLayer n fun x => { x with shadow := [] }

/-- SLC_LYR_CTRL.copy: the latched image is copied into the shadow image. -/
def doLayerCopy (sl : Nat) (s : State) : State :=
  match s.lyrSelSlot sl with
  | none => s
  | some n => s.updLayer n fun x => { x with shadow := x.latched }

/-- A write of SLC_LYR_CTRL; with both bits set the copy is made first (log 23). -/
def doLyrCtrl (sl : Nat) (v : Word) (s : State) : State :=
  let s := if bitAt v.toNat 0 then doLayerCopy sl s else s
  if bitAt v.toNat 1 then doLayerClear sl s else s

/-- SLC_LYR_INFO as read. -/
def State.lyrInfoWord (s : State) (sl : Nat) : Word :=
  match s.lyrSelSlot sl with
  | none => w32 0xF00000
  | some n => w32 (2 ^ 31 + b2n (s.slotInPlan n).2 * 2 ^ 30 + b2n (imgOn (s.layer n).latched) * 2 ^ 29 +
      s.outOrdinal sl (s.slotOut n) * 2 ^ 20 + s.slotPos n * 2 ^ 8)

/-! ### The station page of a slot -/

/-- LYR_IMG_SEL.word advances. -/
def State.imgAdvance (s : State) (n : Nat) : State :=
  s.put (R.lyrImgSel n) F.lyrImgSel_word (nextWord (s.fld (R.lyrImgSel n) F.lyrImgSel_word))

/-- A write of LYR_IMG_SEL (R184). -/
def doImgSel (n : Nat) (v : Word) (s : State) : State :=
  let s := s.plainWrite (R.lyrImgSel n) v
  if s.flag (R.lyrImgSel n) F.lyrImgSel_bank then s.updLayer n fun x => { x with snap := x.latched } else s

/-- A read of LYR_IMG_DATA (R184). -/
def readImgData (n : Nat) (s : State) : Word × State :=
  let w := s.fld (R.lyrImgSel n) F.lyrImgSel_word
  let x := s.layer n
  (imgGet (if s.flag (R.lyrImgSel n) F.lyrImgSel_bank then x.snap else x.shadow) w, s.imgAdvance n)

/-- A write of LYR_IMG_DATA: in a capstone slot, the protected world writes the shadow bank (R184). -/
def doImgData (r : Req) (n : Nat) (v : Word) (s : State) : State :=
  let w := s.fld (R.lyrImgSel n) F.lyrImgSel_word
  let s :=
    if s.slotCap n && s.reqProtected r && !s.flag (R.lyrImgSel n) F.lyrImgSel_bank then
      s.updLayer n fun x => { x with shadow := imgPut true x.shadow w v }
    else s
  s.imgAdvance n

/-- PAGE_STATUS.block_status of a LYR page, in place (06_layer_composition.md, text after R181). -/
def State.lyrStatus (s : State) (n : Nat) : Nat :=
  let (composing, shed) := s.slotInPlan n
  b2n composing * 2 ^ 18 + b2n shed * 2 ^ 17 + b2n (imgOn (s.layer n).latched) * 2 ^ 16

end Sys2Proof.Machine
end

