-- ==== Sys2Proof/Machine/Tiles.lean ====
section
/-!
DEFINITION. Surface formats, their layouts in module DRAM and in host memory, and the tile-compressed form
(04_surfaces_and_haul.md R126 to R134).
-/

namespace Sys2Proof.Machine

/-! ### Formats and layouts -/

/-- The surface format codes (04_surfaces_and_haul.md R126). -/
def fmtOk (f : Nat) : Bool := [1, 2, 3, 4, 5, 6, 7, 0x11, 0x12, 0x13, 0x15].contains f

/-- The tile-compressed form of a format. -/
def tiled (f : Nat) : Bool := bitAt f 4

/-- NV12: two planes. -/
def isNv12 (f : Nat) : Bool := f == 6

/-- The colour byte of a surface: 0 but for NV12 and YUY2 (R128). -/
def colourOf (f c : Nat) : Nat := if f = 6 ∨ f = 7 then c % 4 else 0

/-- Bytes per pixel of plane 0. -/
def pixBytes (f : Nat) : Nat := if f = 6 then 1 else if f = 4 ∨ f = 7 then 2 else 4

/-- The pixel bytes of one row of plane 0. -/
def rowBytes (f w : Nat) : Nat := w * pixBytes f

/-- The pitch P of a linear format (04_surfaces_and_haul.md R127). -/
def pitchOf (f w : Nat) : Nat := roundUp (rowBytes f w) 64

/-- Groups across and down (04_surfaces_and_haul.md R129). -/
def groupsW (w : Nat) : Nat := ceilDiv w 32
def groupsH (h : Nat) : Nat := ceilDiv h 32

/-- The length HA of the header array (04_surfaces_and_haul.md R129). -/
def headerLen (w h : Nat) : Nat := roundUp (groupsW w * groupsH h * 16) 4096

/-- Offset of plane 1 of NV12, or the header array's length, or 0 (04_surfaces_and_haul.md R128). -/
def auxOffset (f w h : Nat) : Nat :=
  if tiled f then headerLen w h else if isNv12 f then roundUp (pitchOf f w * h) 4096 else 0

/-- The stored length (04_surfaces_and_haul.md R127, R129). -/
def storedLen (f w h : Nat) : Nat :=
  if tiled f then headerLen w h + groupsW w * groupsH h * 4096
  else if isNv12 f then roundUp (pitchOf f w * h) 4096 + pitchOf f w * h / 2
  else pitchOf f w * h

/-- The constraints of the format table (04_surfaces_and_haul.md R126). -/
def fmtSizeOk (f w h : Nat) : Bool :=
  if isNv12 f then w % 2 == 0 && h % 2 == 0 else if f = 7 then w % 2 == 0 else true

/-- The slot of a group, by its number in row-major order (04_surfaces_and_haul.md R129). -/
def slotOf (w h g : Nat) : Nat := headerLen w h + g * 4096

/-! ### Tiles -/

/-- Byte `c` of a 32-bit pixel. -/
def chan8 (p c : Nat) : Nat := p / 256 ^ c % 256

/-- The four widths of a DELTA tile (04_surfaces_and_haul.md R131). -/
def deltaWidths (t : List Byte) : List Nat :=
  let a := ((t[4]?).getD 0).toNat
  let b := ((t[5]?).getD 0).toNat
  [a % 16, a / 16, b % 16, b / 16]

/-- The units that a tile of a mode uses: fixed for RAW and SOLID, from its widths for DELTA (04_surfaces_and_haul.md R130, R131). -/
def tileUnits (mode : Nat) (t : List Byte) : Nat :=
  if mode = 0 then 8 else if mode = 1 then 1 else ceilDiv (8 + 8 * (deltaWidths t).sum) 32

/-- A tile's header is right for its data: mode, reserved bits, units and widths (04_surfaces_and_haul.md R133). -/
def tileHeaderOk (hdr : Nat) (t : List Byte) : Bool :=
  let mode := bitsOf hdr 7 5
  mode ≤ 2 && bitsOf hdr 4 3 == 0 &&
    (mode != 2 || ((deltaWidths t).all (· ≤ 8) && (deltaWidths t).sum ≤ 31)) &&
    bitsOf hdr 2 0 + 1 == tileUnits mode t

/-- The bytes that a tile uses (04_surfaces_and_haul.md R130). -/
def tileUsed (hdr : Nat) : Nat := (bitsOf hdr 2 0 + 1) * 32

/-- A stored tile is valid: its header, and the bytes defined as 0 (04_surfaces_and_haul.md R133). -/
def tileOk (hdr : Nat) (t : List Byte) : Bool :=
  let mode := bitsOf hdr 7 5
  tileHeaderOk hdr t &&
    (if mode = 1 then ((t.take 32).drop 4).all (· == 0)
     else if mode = 2 then
       leNat ((t.take 8).drop 6) == 0 && ((t.take (tileUsed hdr)).drop (8 + 8 * (deltaWidths t).sum)).all (· == 0)
     else true)

/-- Pixel `i` of a DELTA tile (04_surfaces_and_haul.md R131). -/
def deltaPixel (t : List Byte) (stream i : Nat) : Nat :=
  let ws := deltaWidths t
  ((List.range 4).foldl (fun (acc, off) c =>
    let w := (ws[c]?).getD 0
    let r := stream / 2 ^ off % 2 ^ w
    (acc + (((t[c]?).getD 0).toNat + r) % 256 * 256 ^ c, off + w)) (0, i * ws.sum)).1

/-- The 64 pixels of a tile; one whose header is wrong decodes as opaque black (04_surfaces_and_haul.md R130, R131, R134). -/
def decodeTile (hdr : Nat) (t : List Byte) : List Nat :=
  if !tileHeaderOk hdr t then List.replicate 64 0xFF000000
  else
    let mode := bitsOf hdr 7 5
    if mode = 0 then (List.range 64).map fun i => leNat ((t.drop (4 * i)).take 4)
    else if mode = 1 then List.replicate 64 (leNat (t.take 4))
    else (List.range 64).map (deltaPixel t (leNat (t.drop 8)))

/-- The bit length of a number below 256. -/
def bitLen8 (n : Nat) : Nat := ((List.range 8).filter fun i => 2 ^ i ≤ n).length

/-- The encoder of a haul engine: the header byte and the used bytes of a tile (04_surfaces_and_haul.md R132). -/
def encodeTile (px : List Nat) : Nat × List Byte :=
  let lo := (List.range 4).map fun c => px.foldl (fun m p => min m (chan8 p c)) 255
  let hi := (List.range 4).map fun c => px.foldl (fun m p => max m (chan8 p c)) 0
  let ws := List.zipWith (fun l h => bitLen8 (h - l)) lo hi
  let sum := ws.sum
  if sum = 0 then (0x20, padTo 32 (leBytes 4 ((px.head?).getD 0)))
  else if sum ≤ 27 then
    let units := ceilDiv (8 + 8 * sum) 32
    let stream := (px.foldl (fun (acc, off) p =>
      (List.range 4).foldl (fun (acc, off) c =>
        (acc + (chan8 p c - (lo[c]?).getD 0) * 2 ^ off, off + (ws[c]?).getD 0)) (acc, off)) (0, 0)).1
    let head := lo.map (BitVec.ofNat 8) ++
      leBytes 2 ((ws[0]?).getD 0 + (ws[1]?).getD 0 * 16 + (ws[2]?).getD 0 * 256 + (ws[3]?).getD 0 * 4096) ++ leBytes 2 0
    (0x40 + (units - 1), padTo (units * 32) (head ++ leBytes (8 * sum) stream))
  else (7, px.flatMap (leBytes 4))

/-- The 64 pixels of tile `t` of group (gx, gy) of an image, its edges replicated (04_surfaces_and_haul.md R129, R132). -/
def tilePixels (w h gx gy t : Nat) (px : Nat → Nat → Nat) : List Nat :=
  (List.range 64).map fun i =>
    px (min (gx * 32 + t % 4 * 8 + i % 8) (w - 1)) (min (gy * 32 + t / 4 * 8 + i / 8) (h - 1))

/-- Pixel (x, y) of a tile-compressed version whose bytes a function reads: its tile, header and data (04_surfaces_and_haul.md R129). -/
def tiledPixel (rdb : Nat → Nat → List Byte) (w h x y : Nat) : Nat :=
  let g := y / 32 * groupsW w + x / 32
  let t := y / 8 % 4 * 4 + x / 8 % 4
  let hdr := leNat (rdb (g * 16 + t) 1)
  ((decodeTile hdr (rdb (slotOf w h g + t * 256) 256))[y % 8 * 8 + x % 8]?).getD 0

end Sys2Proof.Machine
end

