-- ==== Sys2Proof/Machine/Cost.lean ====
section
/-!
DEFINITION. Timings and the cost model of the fit check: quantities, costs, bands, the checks and their detail words
(05_bench_plan_and_fit_check.md R165 to R173; 07_scanout_and_display_links.md R206 to R209).
-/

namespace Sys2Proof.Machine

/-! ### Timings -/

/-- A timing: totals, active sizes, front porches and syncs, pixel clock and depth (07_scanout_and_display_links.md R206). -/
structure Timing where
  ht : Nat
  ha : Nat
  hs : Nat
  hf : Nat
  vt : Nat
  va : Nat
  vs : Nat
  vf : Nat
  khz : Nat
  d30 : Bool
deriving DecidableEq, Repr

/-- The normal timing of an output. -/
def State.normalTiming (s : State) (o : Nat) : Timing :=
  let w (a hi lo : Nat) : Nat := bitsOf (s.num a) hi lo
  { ht := w (R.outHtime o) 31 16, ha := w (R.outHtime o) 15 0, hs := w (R.outHsync o) 31 16, hf := w (R.outHsync o) 15 0,
    vt := w (R.outVtime o) 31 16, va := w (R.outVtime o) 15 0, vs := w (R.outVsync o) 31 16, vf := w (R.outVsync o) 15 0,
    khz := w (R.outPclk o) 19 0, d30 := bitAt (s.num (R.outCtrl o)) 7 }

/-- The fallback timing of an output, where it has one. -/
def State.fallbackTiming (s : State) (o : Nat) : Option Timing :=
  let w (a hi lo : Nat) : Nat := bitsOf (s.num a) hi lo
  if bitAt (s.num (R.outFbPclk o)) 31 then
    let n := s.normalTiming o
    some { n with ht := w (R.outFbHtime o) 31 16, hs := w (R.outFbHsync o) 31 16, hf := w (R.outFbHsync o) 15 0,
                  vt := w (R.outFbVtime o) 31 16, vs := w (R.outFbVsync o) 31 16, vf := w (R.outFbVsync o) 15 0,
                  khz := w (R.outFbPclk o) 19 0, d30 := bitAt (s.num (R.outFbPclk o)) 30 }
  else none

/-- The latch line of an output at a timing (OUT_LATCH). -/
def State.latchLine (s : State) (o : Nat) (t : Timing) : Nat :=
  let l := bitsOf (s.num (R.outLatch o)) 15 0
  if l = 0xFFFF then t.va else l

/-- OUT_LATCH.guard_lines; 0 acts as 1. -/
def State.guardLines (s : State) (o : Nat) : Nat := max 1 (bitsOf (s.num (R.outLatch o)) 21 16)

/-- A timing is valid (07_scanout_and_display_links.md R207). -/
def State.timingOk (s : State) (o : Nat) (t : Timing) : Bool :=
  let l := bitsOf (s.num (R.outLatch o)) 15 0
  64 ≤ t.ha && t.ha ≤ 3840 && 64 ≤ t.va && t.va ≤ 2160 && t.ha + 64 ≤ t.ht &&
    1 ≤ t.hf && 1 ≤ t.hs && t.ha + t.hf + t.hs + 1 ≤ t.ht && t.ht ≤ 8192 &&
    t.va + 3 ≤ t.vt && 1 ≤ t.vf && 1 ≤ t.vs && t.va + t.vf + t.vs + 1 ≤ t.vt && t.vt ≤ 4096 &&
    25000 ≤ t.khz && t.khz ≤ 600000 && 20 * t.ht * t.vt ≤ t.khz * 1000 && t.khz * 1000 ≤ 240 * t.ht * t.vt &&
    (l == 0xFFFF || (t.va ≤ l && l < t.vt))

/-- The timing that the output's timing generator uses. -/
def State.timing (s : State) (o : Nat) : Timing :=
  if (s.out o).fallback then (s.fallbackTiming o).getD (s.normalTiming o) else s.normalTiming o

/-- The output's checks and plans use its fallback timing: BPL_CAPACITY.fallback_outputs names it, until a training has
decided that the next tick changes the timing (07_scanout_and_display_links.md R229). -/
def State.onFallback (s : State) (o : Nat) : Bool :=
  (s.out o).fbNext.getD (bitAt (s.fld (R.bplCapacity 0) F.bplCapacity_fallback_outputs) o)

/-- The timing that the output's checks use (05_bench_plan_and_fit_check.md R170, R174). -/
def State.checkTiming (s : State) (o : Nat) : Timing :=
  if s.onFallback o then (s.fallbackTiming o).getD (s.normalTiming o) else s.normalTiming o

/-- Frame rate in mHz, rounded down (OUT_RATE). -/
def Timing.mHz (t : Timing) : Nat := t.khz * 1000000 / (t.ht * t.vt)

/-! ### Quantities of a layer (R165) -/

def CfgLayer.cap (l : CfgLayer) : Bool := l.owner == 256
def CfgLayer.solid (l : CfgLayer) : Bool := imgSolid l.image
/-- The class in force; a capstone layer is class C (06_layer_composition.md R201). -/
def CfgLayer.cls (l : CfgLayer) : Nat := if l.cap then 0 else imgFld l.image 0 4 3
def CfgLayer.rot (l : CfgLayer) : Nat := imgFld l.image 0 6 5
def CfgLayer.mirX (l : CfgLayer) : Bool := imgFld l.image 0 7 7 == 1
def CfgLayer.mirY (l : CfgLayer) : Bool := imgFld l.image 0 8 8 == 1
def CfgLayer.srcX (l : CfgLayer) : Nat := imgFld l.image 2 12 0
def CfgLayer.srcY (l : CfgLayer) : Nat := imgFld l.image 2 28 16
def CfgLayer.srcW (l : CfgLayer) : Nat := imgFld l.image 3 13 0
def CfgLayer.srcH (l : CfgLayer) : Nat := imgFld l.image 3 29 16
def CfgLayer.dstX (l : CfgLayer) : Int := signed 16 (imgFld l.image 4 15 0)
def CfgLayer.dstY (l : CfgLayer) : Int := signed 16 (imgFld l.image 4 31 16)
def CfgLayer.dstW (l : CfgLayer) : Nat := imgFld l.image 5 13 0
def CfgLayer.dstH (l : CfgLayer) : Nat := imgFld l.image 5 29 16
/-- Rotated by 90 or 270 degrees. -/
def CfgLayer.turned (l : CfgLayer) : Bool := l.rot % 2 == 1
/-- Source extents along screen X and Y. -/
def CfgLayer.ws (l : CfgLayer) : Nat := if l.solid then l.dstW else if l.turned then l.srcH else l.srcW
def CfgLayer.hs (l : CfgLayer) : Nat := if l.solid then l.dstH else if l.turned then l.srcW else l.srcH
/-- Source coordinate of the first pixel along the axis that maps to screen X. -/
def CfgLayer.xa (l : CfgLayer) : Nat := if l.turned then l.srcY else l.srcX

/-- The part of a span that lies on 0 to `n`: first and past-the-end coordinate. -/
def clipSpan (a : Int) (len n : Nat) : Nat × Nat :=
  let lo := (max 0 a).toNat
  let hi := min n (max 0 (a + len)).toNat
  (min lo hi, hi)

/-- The destination rectangle clipped to the active area: x, y, width, height. -/
def CfgLayer.clip (l : CfgLayer) (t : Timing) : Nat × Nat × Nat × Nat :=
  let (x0, x1) := clipSpan l.dstX l.dstW t.ha
  let (y0, y1) := clipSpan l.dstY l.dstH t.va
  (x0, y0, x1 - x0, y1 - y0)

/-- The layer covers some pixel of the active area (06_layer_composition.md R199). -/
def CfgLayer.covers (l : CfgLayer) (t : Timing) : Bool :=
  let (_, _, w, h) := l.clip t
  w != 0 && h != 0

def CfgLayer.scaledH (l : CfgLayer) : Bool := l.ws != l.dstW
def CfgLayer.scaledV (l : CfgLayer) : Bool := l.hs != l.dstH
def CfgLayer.nv (l : CfgLayer) : Nat := if l.dstH < l.hs then ceilDiv l.hs l.dstH else 1
def CfgLayer.yuv (l : CfgLayer) : Bool := !l.solid && (l.fmt == 6 || l.fmt == 7)
/-- The symbol e: bytes of a line-buffer sample. -/
def CfgLayer.e (l : CfgLayer) : Nat := if l.fmt = 4 ∨ l.fmt = 6 ∨ l.fmt = 7 then 2 else 4

/-- F, fetch bytes per covered line (R166). -/
def CfgLayer.costF (l : CfgLayer) : Nat :=
  if l.solid then 0
  else
    let b :=
      if tiled l.fmt then ceilDiv (((l.xa + l.ws - 1) / 32 - l.xa / 32 + 1) * 4112) 32
      else if isNv12 l.fmt then (roundUp l.ws 64 + 64) + (roundUp l.ws 64 + 64) / 2
      else roundUp (l.ws * pixBytes l.fmt) 64 + 64
    l.nv * b

/-- S, steps per covered line (R167). -/
def CfgLayer.costS (l : CfgLayer) (t : Timing) : Nat :=
  let (_, _, wd, _) := l.clip t
  64 + wd + b2n l.scaledH * max l.ws wd + b2n l.scaledV * wd + b2n l.yuv * l.ws

/-- k, the lines held (R168). -/
def CfgLayer.k (l : CfgLayer) : Nat :=
  let fetch := if tiled l.fmt then 64 else if l.turned then 2 * 64 / pixBytes l.fmt else 2
  let scale := if l.scaledV then 4 + l.nv else 2
  max fetch scale

/-- L, line-buffer bytes (R168); nothing for a solid colour or for a layer off the active area. -/
def CfgLayer.costL (l : CfgLayer) (t : Timing) : Nat :=
  if l.solid || !l.covers t then 0 else l.k * roundUp l.ws 32 * l.e

/-! ### Bands (R169) -/

/-- Put a number into an ascending list without repeats. -/
def insertNat (n : Nat) : List Nat → List Nat
  | [] => [n]
  | a :: t => if n < a then n :: a :: t else if n = a then a :: t else a :: insertNat n t

/-- A band: first line, line count, and the layers that cover it, bottom up. -/
structure Band where
  first : Nat
  count : Nat
  layers : List CfgLayer
deriving DecidableEq, Repr

/-- The layers that cover a line. -/
def coverLine (ls : List CfgLayer) (t : Timing) (y : Nat) : List CfgLayer :=
  ls.filter fun l => l.covers t && (let (_, y0, _, h) := l.clip t; y0 ≤ y && y < y0 + h)

/-- The bands of a configuration: maximal runs of active lines covered by the same layers. -/
def bandsOf (ls : List CfgLayer) (t : Timing) : List Band :=
  let cuts := (ls.filter fun l => l.covers t).foldl (fun c l =>
    let (_, y0, _, h) := l.clip t
    insertNat y0 (insertNat (y0 + h) c)) (insertNat 0 [t.va])
  let starts := cuts.filter (· < t.va)
  let raw := List.zipWith (fun a b => { first := a, count := b - a, layers := coverLine ls t a : Band }) starts (cuts.drop 1)
  raw.foldl (fun acc b => match acc.getLast? with
    | some p => if p.layers.map (·.slot) = b.layers.map (·.slot) then acc.dropLast ++ [{ p with count := p.count + b.count }]
                else acc ++ [b]
    | none => [b]) []

def Band.bytes (b : Band) : Nat := (b.layers.map CfgLayer.costF).sum
def Band.steps (b : Band) (t : Timing) : Nat := (b.layers.map fun l => l.costS t).sum

/-- Peak bytes and steps per line of a configuration. -/
def peakBytes (ls : List CfgLayer) (t : Timing) : Nat := (bandsOf ls t).foldl (fun m b => max m b.bytes) 0
def peakSteps (ls : List CfgLayer) (t : Timing) : Nat := (bandsOf ls t).foldl (fun m b => max m (b.steps t)) 0
def lineBytes (ls : List CfgLayer) (t : Timing) : Nat := (ls.map fun l => l.costL t).sum

/-- D_o, the peak fetch rate in bytes per second (R174). -/
def fetchRate (ls : List CfgLayer) (t : Timing) : Nat := ceilDiv (peakBytes ls t * t.khz * 1000) t.ht

/-! ### Shares and fitting -/

/-- The shares of an output: bandwidth, composition, line buffer (BPL_SHARE). -/
structure Shares where
  bw : Nat
  cmp : Nat
  lb : Nat
deriving DecidableEq, Repr

def sharesOf (w : Word) : Shares := { bw := bitsOf w.toNat 15 8, cmp := bitsOf w.toNat 23 16, lb := bitsOf w.toNat 31 24 }

/-- The shares in force. -/
def State.shares (s : State) (o : Nat) : Shares := sharesOf (s.rd (R.bplShare o))

/-- Bytes on a line exceed a bandwidth in 0.5 GB/s units. -/
def bytesOver (bytes : Nat) (t : Timing) (bw : Nat) : Bool := bw * 500000 * t.ht < bytes * t.khz

/-- Steps on a line exceed a composition share. -/
def stepsOver (steps : Nat) (t : Timing) (cmp : Nat) : Bool := cmp * 1000000 * t.ht < steps * t.khz

/-- Class C bytes exceed the guaranteed bandwidth (R172). -/
def guaranteedOver (bytes : Nat) (t : Timing) (bw rmin : Nat) : Bool := bw * rmin * 500000 * t.ht < bytes * t.khz * 192

/-- A plan fits: every band of the layers not shed, and the line buffer of all (R169). -/
def planFits (ls : List CfgLayer) (shed : List Nat) (t : Timing) (sh : Shares) : Bool :=
  ((bandsOf (ls.filter fun l => !shed.contains l.slot) t).all fun b =>
    !bytesOver b.bytes t sh.bw && !stepsOver (b.steps t) t sh.cmp) && lineBytes ls t ≤ sh.lb * 262144

/-! ### The checks (R172, R173) -/

/-- The layers in the order of R172: class C, then S, then B, bottom up within a class. -/
def inClassOrder (ls : List CfgLayer) : List CfgLayer :=
  (ls.filter fun l => l.cls == 0) ++ (ls.filter fun l => l.cls == 1) ++ (ls.filter fun l => 2 ≤ l.cls)

/-- The first layer whose cost, added in order, exceeds a limit. -/
def crossing (cost : CfgLayer → Nat) (past : Nat → Bool) : Nat → List CfgLayer → Option CfgLayer
  | _, [] => none
  | n, l :: t => if past (n + cost l) then some l else crossing cost past (n + cost l) t

/-- A refusal: reason, first line of the failing band, the layer named. -/
structure Refused where
  reason : Nat
  line : Nat
  layer : Option CfgLayer
deriving DecidableEq, Repr

/-- A check past the bands: the first band that fails, and the layer that crosses the limit. -/
def bandCheck (reason : Nat) (bands : List Band) (cost : CfgLayer → Nat) (past : Nat → Bool) : Option Refused :=
  (bands.find? fun b => past ((b.layers.map cost).sum)).map fun b =>
    { reason := reason, line := b.first, layer := crossing cost past 0 (inClassOrder b.layers) }

/-- A layer scales beyond the range (reason SCALE_RANGE). -/
def CfgLayer.offScale (l : CfgLayer) : Bool :=
  !l.solid && (8 * l.ws < l.dstW || 4 * l.dstW < l.ws || 8 * l.hs < l.dstH || 4 * l.dstH < l.hs)

/-- The checks of R172 from 0x06 on, in order: `t` the timing in force, `fb` the fallback timing, `n` the normal one. -/
def checkConfig (ls : List CfgLayer) (t n fb : Timing) (sh : Shares) (rmin : Nat) : Option Refused :=
  let cs := ls.filter fun l => l.cls == 0
  let cBands := bandsOf cs n
  let bands := bandsOf ls t
  ((inClassOrder ls).find? CfgLayer.offScale).map (fun l => { reason := 6, line := 0xFFFF, layer := some l })
  |>.or (bandCheck 4 cBands CfgLayer.costF fun x => guaranteedOver x n sh.bw rmin || guaranteedOver x fb sh.bw rmin)
  |>.or (bandCheck 5 cBands (fun l => l.costS fb) fun x => stepsOver x fb sh.cmp)
  |>.or (bandCheck 1 bands CfgLayer.costF fun x => bytesOver x t sh.bw)
  |>.or (bandCheck 2 bands (fun l => l.costS t) fun x => stepsOver x t sh.cmp)
  |>.or (if sh.lb * 262144 < lineBytes ls t then
      some { reason := 3, line := 0xFFFF,
             layer := crossing (fun l => l.costL t) (fun x => sh.lb * 262144 < x) 0 (inClassOrder ls) }
    else none)

end Sys2Proof.Machine
end

