-- ==== Sys2Proof/Machine/Rings.lean ====
section
/-!
DEFINITION. Requests to host memory, the dirty log, handles, submission and completion rings, completion and event
records (02_host_interface.md R69 to R86, R90; 03_slices.md R113 to R116).
-/

namespace Sys2Proof.Machine

/-! ### Requests to host memory -/

/-- The PASID of the requests of a command space: a slice's, or none for the station (02_host_interface.md R69). -/
def State.pasidOf (s : State) (sp : Nat) : Option (BitVec 20) :=
  if sp < 256 then some (s.slice sp).pasid else none

/-- The requests that `l` bytes from host address `a` on are cut into: at most `m` bytes each, none across a 4 KiB boundary, as
PCI Express requires; place among the bytes, address and length of each (02_host_interface.md R46; log 97). -/
def cutRequest (m : Nat) : Nat → Nat → Nat → Nat → List (Nat × Nat × Nat)
  | 0, _, _, _ => []
  | fuel + 1, p, a, l =>
    if l = 0 then []
    else
      let k := min l (min m (4096 - a % 4096))
      (p, a, k) :: cutRequest m fuel (p + k) (a + k) (l - k)

/-- The largest payload of a write, and the largest read request, as the host has programmed them (02_host_interface.md R46). -/
def State.payloadMax (s : State) : Nat := 128 * 2 ^ s.hif.maxPayload
def State.readMax (s : State) : Nat := 128 * 2 ^ s.hif.maxRead

/-- A posted write to host memory. None is issued while the link is down (02_host_interface.md R90) or by a secondary
(15_pairs_and_live_insertion.md R431). -/
def State.hostWrite (s : State) (pasid : Option (BitVec 20)) (addr : Nat) (data : List Byte) (relaxed : Bool) : State :=
  if s.hif.linkUp && !s.secondary then
    s.each (cutRequest s.payloadMax data.length 0 addr data.length) fun s (p, a, k) =>
      s.emit (.hostWrite pasid a ((data.drop p).take k) relaxed)
  else s

/-- Reads of host memory may be issued: the link is up and the module is no secondary (02_host_interface.md R90). -/
def State.canRead (s : State) : Bool := s.hif.linkUp && !s.secondary

/-- The first tag at or after `t` that no outstanding read carries; `fuel` bounds the search. -/
def freeTag (used : List Nat) : Nat → Nat → Nat
  | 0, t => t
  | fuel + 1, t => if used.contains t then freeTag used fuel ((t + 1) % 1024) else t

/-- Issue one read request of a gather. Which free tag it takes the spec leaves open: the next free one in turn
(DESIGN CHOICE, log 97). -/
def State.issueOne (s : State) (g : Gather) (r : Nat × Nat × Nat) : State :=
  let t := freeTag (s.hif.reads.map (·.tag)) 1024 s.hif.nextTag
  let q : HostRead := { tag := t, use := g.use, gid := g.gid, place := r.1, off := r.2.1 - g.first, len := r.2.2,
                        pasid := g.pasid, discard := false }
  let s := s.emit (.hostRead t g.pasid r.2.1 r.2.2)
  { s with hif := { s.hif with
      reads := s.hif.reads ++ [q], nextTag := (t + 1) % 1024,
      gathers := s.hif.gathers.map fun h => if h.gid = g.gid then { h with todo := h.todo.tail } else h } }

/-- Issue the requests that wait, oldest bytes first, while at most 511 reads are outstanding (02_host_interface.md R46). -/
def State.issueUpTo : Nat → State → State
  | 0, s => s
  | fuel + 1, s =>
    if !s.canRead || 512 ≤ s.hif.reads.length then s
    else match s.hif.gathers.find? fun g => !g.todo.isEmpty with
      | none => s
      | some g => match g.todo with
        | [] => s
        | r :: _ => State.issueUpTo fuel (s.issueOne g r)

/-- Issue every request that can be issued now. -/
def State.issueReads (s : State) : State := State.issueUpTo 512 s

/-- The requests of runs of host memory, in order. -/
def cutRuns (m : Nat) : Nat → List (Nat × Nat) → List (Nat × Nat × Nat)
  | _, [] => []
  | p, (a, l) :: t => cutRequest m l p a l ++ cutRuns m (p + l) t

/-- Read runs of host memory for a use: requests of at most Max Read Request Size bytes (02_host_interface.md R46). -/
def State.hostRead (s : State) (use : ReadFor) (pasid : Option (BitVec 20)) (runs : List (Nat × Nat)) : State :=
  let g : Gather := { gid := s.hif.nextGather, use := use, pasid := pasid, first := (runs.head?.map (·.1)).getD 0,
                      len := runs.foldl (fun n e => n + e.2) 0, todo := cutRuns s.readMax 0 runs }
  State.issueReads
    { s with hif := { s.hif with gathers := s.hif.gathers ++ [g], nextGather := s.hif.nextGather + 1 } }

/-- The reads of the uses that a test selects are no longer wanted: the data of those issued are discarded when they come, and
the others are not issued (03_slices.md R107). -/
def State.cancelReads (s : State) (p : ReadFor → Bool) : State :=
  { s with hif := { s.hif with
      reads := s.hif.reads.map fun r => if p r.use then { r with discard := true } else r,
      gathers := s.hif.gathers.filter fun g => !p g.use } }

/-! ### The dirty log -/

/-- The number of entries of a slice's dirty log (03_slices.md, SLC_ADM_DLOG_CTRL.log2_entries). -/
def State.dlogSize (s : State) (i : Nat) : Nat :=
  2 ^ (min 0xB (s.fld (R.slcAdmDlogCtrl i) F.slcAdmDlogCtrl_log2_entries) + 9)

/-- The dirty log of a slice is in use. -/
def State.dlogOn (s : State) (i : Nat) : Bool := s.flag (R.slcAdmDlogCtrl i) F.slcAdmDlogCtrl_enable

/-- The 4 KiB pages that a write touches (03_slices.md R114). -/
def pagesOf (addr len : Nat) : List Nat :=
  (List.range ((addr + len - 1) / 4096 + 1 - addr / 4096)).map (addr / 4096 + ·)

/-- The log has room for `k` more entries (03_slices.md R116). -/
def State.dlogRoom (s : State) (i k : Nat) : Bool :=
  (s.num (R.slcAdmDlogTail i) + 2 ^ 32 - s.num (R.slcAdmDlogHead i)) % 2 ^ 32 + k ≤ s.dlogSize i

/-- Write one dirty-log entry, without PASID (03_slices.md R113, R115). -/
def State.dlogEntry (s : State) (i page kind : Nat) : State :=
  let n := s.num (R.slcAdmDlogTail i)
  let base := s.num64 (R.slcAdmDlogBaseLo i) (R.slcAdmDlogBaseHi i)
  let owner := b2n (n / s.dlogSize i % 2 == 0)
  let s := s.hostWrite none (base + n % s.dlogSize i * 8) (leBytes 8 (page * 4096 + kind * 256 + owner)) false
  let s := s.wrN (R.slcAdmDlogTail i) (n + 1)
  if h : i < 256 then s.decide (.dirtyLog ⟨i, h⟩ (s.rd (R.slcAdmDlogTail i))) else s

/-- The dirty-log entries of a write (03_slices.md R114). -/
def State.dlogWrite (s : State) (i addr len kind : Nat) : State :=
  if s.dlogOn i then s.each (pagesOf addr len) fun s p => s.dlogEntry i p kind else s

/-- A write of `len` bytes to a slice's guest memory must wait for log space (03_slices.md R116). -/
def State.dlogBlocks (s : State) (i addr len : Nat) : Bool :=
  s.dlogOn i && (!(s.slice i).waiting.isEmpty || !s.dlogRoom i (pagesOf addr len).length)

/-- A guest write starts to wait: `stalled` sets and is counted (03_slices.md R116). -/
def State.dlogStall (s : State) (i : Nat) : State :=
  (s.setF (R.slcAdmDlogCtrl i) F.slcAdmDlogCtrl_stalled).count (R.slcAdmDlogStalls i) ⟨31, 0⟩

/-- A write to guest memory waits for log space (03_slices.md R116). -/
def State.guestWait (s : State) (i : Nat) (w : GuestWrite) : State :=
  (s.dlogStall i).updSlice i fun x => { x with waiting := x.waiting ++ [w] }

/-- A write to a slice's guest memory and its log entries (03_slices.md R114, R115). -/
def State.guestIssue (s : State) (i : Nat) (w : GuestWrite) : State :=
  (s.hostWrite (s.pasidOf i) w.addr w.data w.relaxed).dlogWrite i w.addr w.data.length w.kind

/-- A write to a slice's guest memory, under its PASID, with its log entries; it waits where the log has no room
(03_slices.md R114 to R116). -/
def State.guestWrite (s : State) (i : Nat) (w : GuestWrite) : State :=
  if s.dlogBlocks i w.addr w.data.length then s.guestWait i w else s.guestIssue i w

/-- A write under the slice's PASID waits for log space (03_slices.md, SLC_ADM_DLOG_CTRL.stalled). -/
def State.stalled (s : State) (i : Nat) : Bool := s.flag (R.slcAdmDlogCtrl i) F.slcAdmDlogCtrl_stalled

/-! ### Completion rings -/

/-- The number of records of a completion ring (02_host_interface.md, SLC_CQ_CTRL.log2_records). -/
def State.cqSize (s : State) (sp : Nat) : Nat := 2 ^ (min 0xA (s.fld (R.cqCtrl sp) F.cqCtrl_log2_records) + 6)

/-- The completion ring is in use. -/
def State.cqOn (s : State) (sp : Nat) : Bool := s.flag (R.cqCtrl sp) F.cqCtrl_enable

/-- Records written and not yet consumed (02_host_interface.md R84). -/
def State.cqUsed (s : State) (sp : Nat) : Nat :=
  (s.num (R.cqTail sp) + 2 ^ 32 - s.num (R.cqHead sp)) % 2 ^ 32

/-- The command's record has not been written. -/
def Cmd.unwritten (c : Cmd) : Bool := match c.phase with | .written _ => false | _ => true

/-- The command has not completed (02_host_interface.md, SLC_HANDLE_QUERY.state 0b01). -/
def Cmd.inProgress (c : Cmd) : Bool := match c.phase with | .waiting | .running => true | _ => false

/-- The committed count K of a ring (02_host_interface.md R84). -/
def State.committed (s : State) (sp : Nat) : Nat :=
  ((s.space sp).cmds.filter (·.unwritten)).length + ((s.space sp).heldRecs.filter (·.event)).length + s.cqUsed sp

/-- The bytes of a record with a flags byte (02_host_interface.md R81). -/
def recBytes (r : Rec) (owner : Nat) : List Byte :=
  leBytes 4 r.handle ++ leBytes 2 r.status ++ leBytes 1 r.opcode ++ leBytes 1 (owner + b2n r.event * 2) ++
    leBytes 8 r.time ++ padTo 16 (r.result.take 16)

/-- The line that follows a record (02_host_interface.md R83). -/
def State.signalRecord (s : State) (sp : Nat) (r : Rec) : State :=
  if r.event then s.signal (if sp < 256 then some sp else none) (if sp < 256 then 3 else 0)
  else if r.noInt then s else s.signal (if sp < 256 then some sp else none) 0

/-- Mark the record of a handle as written with number `n` of its ring. -/
def CmdSpace.markWritten (x : CmdSpace) (handle n : Nat) : CmdSpace :=
  { x with cmds := x.cmds.map fun c => if c.handle = handle then { c with phase := .written n } else c }

/-- Write a record: the two posted writes, its dirty-log entry, the tail, then its message (02_host_interface.md R81 to R83). -/
def State.writeRec (s : State) (sp : Nat) (r : Rec) : State :=
  let n := s.num (R.cqTail sp)
  let size := s.cqSize sp
  let addr := s.num64 (R.cqBaseLo sp) (R.cqBaseHi sp) + n % size * 32
  let owner := b2n (n / size % 2 == 0)
  let s := s.hostWrite (s.pasidOf sp) addr (recBytes r (1 - owner)) false
  let s := s.hostWrite (s.pasidOf sp) (addr + 4) (((recBytes r owner).drop 4).take 4) false
  let s := if sp < 256 then s.dlogWrite sp addr 32 1 else s
  let s := s.wrN (R.cqTail sp) (n + 1)
  let s := if r.event then s else s.setSpace sp ((s.space sp).markWritten r.handle n)
  let s := if h : sp < 257 then s.decide (.recordWritten ⟨sp, h⟩ (w32 n) r) else s
  s.signalRecord sp r

/-- The slice's record writes wait for dirty-log space: another write waits, or the log is full (03_slices.md R116). -/
def State.recordsBlocked (s : State) (sp : Nat) : Bool :=
  sp < 256 && s.dlogOn sp && (!(s.slice sp).waiting.isEmpty || !s.dlogRoom sp 1)

/-- Records of a space are held: during detachment, while the log has no room, and event records while the slice is
frozen; the station's while the link is down (02_host_interface.md R90; 03_slices.md R111, R116). -/
def State.holds (s : State) (sp : Nat) (event : Bool) : Bool :=
  if sp < 256 then
    match (s.slice sp).st with
    | .detached => true
    | .freezing => event || s.recordsBlocked sp
    | .frozen => event || s.recordsBlocked sp
    | _ => s.recordsBlocked sp
  else !s.hif.linkUp || !(s.space sp).heldRecs.isEmpty

/-- An event record is dropped (02_host_interface.md R84, R85, R90; log 44). -/
def State.loseEvent (s : State) (sp : Nat) : State :=
  (s.count (R.cqStatus sp) F.cqStatus_events_lost).updSpace sp fun x => { x with lost := x.lost + 1 }

/-- No further record is held: of a detached slice, and of the station with the link down, 64 records of either kind
(02_host_interface.md R90); else 64 event records, and every completion record is held (03_slices.md R111, R116;
02_host_interface.md R84). -/
def State.holdFull (s : State) (sp : Nat) (event : Bool) : Bool :=
  let held := (s.space sp).heldRecs
  if (sp < 256 && (s.slice sp).st == .detached) || (256 ≤ sp && !s.hif.linkUp) then 64 ≤ held.length
  else event && 64 ≤ (held.filter (·.event)).length

/-- Hold a record, or lose it (02_host_interface.md R90). -/
def State.holdRec (s : State) (sp : Nat) (r : Rec) : State :=
  if s.holdFull sp r.event then
    if r.event then s.loseEvent sp
    else s.setF (R.cqStatus sp) F.cqStatus_lost_completion
  else
    let s := if s.recordsBlocked sp && (s.slice sp).st != .detached then s.dlogStall sp else s
    s.updSpace sp fun x => { x with heldRecs := x.heldRecs ++ [r] }

/-- Hold a record or write it. -/
def State.putRec (s : State) (sp : Nat) (r : Rec) : State :=
  if s.holds sp r.event then s.holdRec sp r else s.writeRec sp r

/-- An event may take a slot (02_host_interface.md R84). -/
def State.eventRoom (s : State) (sp : Nat) : Bool := s.committed sp + 2 ≤ s.cqSize sp

/-- An event record. -/
def State.eventRec (s : State) (status : Nat) (result : List Byte) : Rec :=
  { handle := 0, status := status, opcode := 0, event := true, time := s.now, result := result, noInt := false }

/-- The EVENTS_LOST record, once room has returned after a loss: written, or held in its place before any further event
record (02_host_interface.md R84; log 44). -/
def State.tellLost (s : State) (sp : Nat) : State :=
  let x := s.space sp
  if 0 < x.lost && s.cqOn sp && s.eventRoom sp && !(s.holds sp true && s.holdFull sp true) then
    (s.setSpace sp { x with lost := 0 }).putRec sp (s.eventRec 0x80FF (leBytes 2 (min 0xFFFF x.lost)))
  else s

/-- Post an event record to a ring (02_host_interface.md R84, R85). A secondary writes no record of its own
(15_pairs_and_live_insertion.md R431). -/
def State.postEvent (s : State) (sp status : Nat) (result : List Byte) : State :=
  if s.secondary then s
  else if sp < 256 && (s.slice sp).st == .unbound then s
  else if !s.cqOn sp then s.loseEvent sp
  else
    let s := s.tellLost sp
    if s.eventRoom sp && (s.space sp).lost = 0 then s.putRec sp (s.eventRec status result)
    else s.loseEvent sp

/-- Complete a command: its record is written or held (02_host_interface.md R81, R83, R90). `time` is the flip timestamp
of a COMMIT, else the present instant. -/
def State.completeAt (s : State) (sp handle status : Nat) (result : List Byte) (time : Nat) : State :=
  match (s.space sp).cmds.find? fun c => c.handle == handle && c.inProgress with
  | none => s
  | some c =>
    if s.secondary then s
    else
      let r : Rec := { handle := handle, status := status, opcode := c.op, event := false, time := time,
                       result := result, noInt := c.noInt }
      let s := s.updSpace sp fun x =>
        { x with cmds := x.cmds.map fun d => if d.handle = handle then { d with phase := .held } else d }
      (s.putRec sp r).tellLost sp

/-- Complete a command now. -/
def State.complete (s : State) (sp handle status : Nat) (result : List Byte) : State :=
  s.completeAt sp handle status result s.now

/-- Complete a command with an error status and its detail word (02_host_interface.md R81). -/
def State.fail (s : State) (sp handle status detail : Nat) : State :=
  s.complete sp handle status (leBytes 4 detail)

/-- Write the held records of a space in order while they may be written. -/
def State.flushHeld (sp : Nat) : Nat → State → State
  | 0, s => s
  | fuel + 1, s =>
    match (s.space sp).heldRecs with
    | [] => s
    | r :: rest =>
      if s.recordsBlocked sp then s
      else State.flushHeld sp fuel ((s.setSpace sp { s.space sp with heldRecs := rest }).writeRec sp r)

/-- Write every held record of a space. -/
def State.flush (s : State) (sp : Nat) : State := State.flushHeld sp (s.space sp).heldRecs.length s

/-! ### Handles -/

/-- Fields of a handle (02_host_interface.md R76). -/
def handleIndex (h : Nat) : Nat := bitsOf h 19 8

/-- The first index at or after `i` that is not outstanding (02_host_interface.md R77). -/
def freeIndex (used : List Nat) : Nat → Nat → Option Nat
  | 0, _ => none
  | fuel + 1, i => if used.contains i then freeIndex used fuel ((i + 1) % 4096) else some i

/-- The outstanding indices of a space (02_host_interface.md R78). -/
def CmdSpace.outstanding (x : CmdSpace) : List Nat := x.cmds.map fun c => handleIndex c.handle

/-- Issue a handle: its value and the state that has issued it, none when all indices are outstanding
(02_host_interface.md R76, R77, R79). -/
def State.issueHandle (s : State) (sp low : Nat) : Option (Nat × State) :=
  let x := s.space sp
  (freeIndex x.outstanding 4096 x.cursor).map fun i =>
    let g := (Tab.get 0 x.gens i + 1) % 4096
    let g := if g = 0 ∧ i = 0 ∧ (sp = 0 ∨ sp = 256) then 1 else g
    (g * 2 ^ 20 + i * 256 + low,
      s.setSpace sp { x with gens := Tab.set 0 x.gens i g, cursor := (i + 1) % 4096 })

/-- Records `k` from the head on have been consumed: their handles are no longer outstanding (02_host_interface.md R78). -/
def CmdSpace.consume (x : CmdSpace) (head k : Nat) : CmdSpace :=
  { x with cmds := x.cmds.filter fun c =>
      match c.phase with
      | .written n => ¬ (n + 2 ^ 32 - head) % 2 ^ 32 < k
      | _ => true }

/-- The state of a handle (02_host_interface.md, SLC_HANDLE_QUERY as read). -/
def CmdSpace.handleState (x : CmdSpace) (h : Nat) : Nat :=
  match x.cmds.find? fun c => c.handle == h with
  | none => 0
  | some c => if c.inProgress then 1 else 2

/-! ### Submission rings -/

/-- The number of entries of a submission ring (02_host_interface.md, SLC_SQ_CTRL.log2_entries). -/
def State.sqSize (s : State) (sp : Nat) : Nat := 2 ^ (min 0x9 (s.fld (R.sqCtrl sp) F.sqCtrl_log2_entries) + 6)

/-- Entries written by software and not yet taken. -/
def State.sqAhead (s : State) (sp : Nat) : Nat :=
  (s.num (R.sqTail sp) + 2 ^ 32 - s.num (R.sqHead sp)) % 2 ^ 32

/-- The address of the submission entry at the head (02_host_interface.md R74). -/
def State.sqEntryAddr (s : State) (sp : Nat) : Nat :=
  s.num64 (R.sqBaseLo sp) (R.sqBaseHi sp) + s.num (R.sqHead sp) % s.sqSize sp * 64

/-- The space takes commands from its ring: enabled, no error, not stopped, its slice bound and running
(02_host_interface.md R75, R503; 03_slices.md R95, R111). -/
def State.takes (s : State) (sp : Nat) : Bool :=
  s.flag (R.sqCtrl sp) F.sqCtrl_enable && !s.flag (R.sqCtrl sp) F.sqCtrl_error && !(s.space sp).stopped &&
    (256 ≤ sp || (s.slice sp).st == .bound) && !s.secondary

/-- The entry at the head is to be read: entries wait, or the read of this one failed and the tail has been written since
(02_host_interface.md R74, R503). -/
def State.wantsEntry (s : State) (sp : Nat) : Bool :=
  s.takes sp && s.sqAhead sp != 0 ||
    (s.space sp).again && s.flag (R.sqCtrl sp) F.sqCtrl_enable && (256 ≤ sp || (s.slice sp).st == .bound) && !s.secondary

/-- Read the next submission entry if one is to be read (02_host_interface.md R74, R503). -/
def State.fetchEntry (s : State) (sp : Nat) : State :=
  let x := s.space sp
  if s.wantsEntry sp && !x.fetching && x.entry.isNone && s.canRead then
    (s.setSpace sp { x with fetching := true, again := false }).hostRead (.entry sp) (s.pasidOf sp) [(s.sqEntryAddr sp, 64)]
  else s

/-- A read of a submission entry failed (02_host_interface.md R503). -/
def State.entryFailed (s : State) (sp : Nat) : State :=
  let s := s.updSpace sp fun x => { x with fetching := false, stopped := true }
  let s := s.setF (R.sqCtrl sp) F.sqCtrl_fetch_error
  if sp < 256 then s.signal (some sp) 4 else s.signal none 1

end Sys2Proof.Machine
end

