-- ==== Sys2Proof/Machine/Surfaces.lean ====
section
/-!
DEFINITION. Surfaces, versions, the pool and the leases (04_surfaces_and_haul.md R123 to R128, R143, R151 to R154).
-/

namespace Sys2Proof.Machine

/-! ### Tables -/

/-- Rewrite the surface and haul part. -/
def State.updHaul (s : State) (f : Haul → Haul) : State := { s with haul := f s.haul }

/-- Key of a surface index of a slice. -/
def K.surf (sl idx : Nat) : Nat := sl * 4096 + idx

/-- A live surface of a slice by its identifier (R123): none when stale or never issued. -/
def State.surface (s : State) (sl ident : Nat) : Option Surface :=
  let idx := ident % 65536
  if 1 ≤ idx ∧ idx ≤ 4095 then
    (Tab.get none s.haul.surfaces (K.surf sl idx)).bind fun x => if x.ident = ident then some x else none
  else none

/-- Put or remove the surface at the index of an identifier. -/
def State.putSurface (s : State) (sl ident : Nat) (x : Option Surface) : State :=
  s.updHaul fun h => { h with surfaces := Tab.set none h.surfaces (K.surf sl (ident % 65536)) x }

/-- The live surfaces of a slice, in ascending index. -/
def State.surfacesOf (s : State) (sl : Nat) : List Surface :=
  s.haul.surfaces.filterMap fun e => if e.1 / 4096 = sl then e.2 else none

/-- A version. -/
def State.version (s : State) (vid : Nat) : Option Version := Tab.get none s.haul.versions vid

/-- Put or remove a version. -/
def State.putVersion (s : State) (vid : Nat) (v : Option Version) : State :=
  s.updHaul fun h => { h with versions := Tab.set none h.versions vid v }

/-- The live versions that pass a test. -/
def State.versionsWith (s : State) (p : Version → Bool) : List (Nat × Version) :=
  s.haul.versions.filterMap fun e => match e.2 with
    | some v => if p v then some (e.1, v) else none
    | none => none

/-- The versions of an identifier. -/
def State.versionsOf (s : State) (sl ident : Nat) : List (Nat × Version) :=
  s.versionsWith fun v => v.slice == sl && v.ident == ident

/-- A slice's use in units (R125). -/
def State.useOf (s : State) (sl : Nat) : Nat := ((s.versionsWith fun v => v.slice == sl).map fun e => e.2.units).sum

/-- Allocated units of the whole pool. -/
def State.poolUsed (s : State) : Nat := ((s.versionsWith fun _ => true).map fun e => e.2.units).sum

/-- The pool's base in units of 64 KiB (SRF_POOL). -/
def State.poolBase (s : State) : Nat := s.fld R.srfPool F.srfPool_base_mib * 16

/-- The pool's size in units of 64 KiB. -/
def State.poolUnits (s : State) : Nat := s.fld R.srfPool F.srfPool_size_mib * 16

/-- The DRAM offset of a version. -/
def Version.base (v : Version) : Nat := v.unit0 * 65536

/-- The DRAM offset of the version with a number. -/
def State.versionBase (s : State) (vid : Option Nat) : Nat :=
  match vid.bind s.version with
  | some v => v.base
  | none => 0

/-! ### Allocation -/

/-- A range of units overlaps no live version. -/
def State.unitsFree (s : State) (u n : Nat) : Bool :=
  (s.versionsWith fun v => u < v.unit0 + v.units && v.unit0 < u + n).isEmpty

/-- The places in the pool where `n` units fit. Which of them is taken the spec leaves open (log 1). -/
def State.places (s : State) (n : Nat) : List Nat :=
  ((List.range (s.poolUnits + 1 - n)).map (s.poolBase + ·)).filter fun u => s.unitsFree u n

/-- SLC_ADM_RES.mem_quota_mib: above 7,680 acts as 7,680 (03_slices.md, SLC_ADM_RES). -/
def State.quota (s : State) (sl : Nat) : Nat := min 7680 (s.fld (R.slcAdmRes sl) F.slcAdmRes_mem_quota_mib) * 16

/-- Why an allocation of `n` units fails: the detail word of NO_SURFACE_MEMORY (R125, R142). -/
def State.allocFails (s : State) (sl n : Nat) : Option Nat :=
  if s.quota sl < s.useOf sl + n then some 1
  else if 65536 ≤ (s.versionsWith fun _ => true).length || (s.places n).isEmpty then some 2
  else none

/-- Allocate a version of an identifier (R124, R125): its number. -/
def State.allocate (s : State) (sl ident len : Nat) : Nat × State :=
  let n := ceilDiv len 65536
  let l := s.places n
  let (k, s) := s.free (max 1 l.length)
  let u := (l[k]?).getD 0
  let vid := s.haul.nextVid
  let s := s.updHaul fun h => { h with nextVid := vid + 1 }
  let s := s.putVersion vid (some { slice := sl, ident := ident, unit0 := u, units := n })
  let s := if h : sl < 256 then s.decide (.versionAllocated ⟨sl, h⟩ ident vid u n) else s
  (vid, s)

/-- The lowest index that names no live surface of a slice; `fuel` bounds the search (R123). -/
def State.freeSurfIndex (s : State) (sl : Nat) : Nat → Nat → Option Nat
  | 0, _ => none
  | fuel + 1, i =>
    if (Tab.get none s.haul.surfaces (K.surf sl i)).isNone then some i else State.freeSurfIndex s sl fuel (i + 1)

/-- The identifier that the next creation takes, and the state that has taken it (R123). -/
def State.takeIdent (s : State) (sl w h fmt colour : Nat) : Option (Nat × State) :=
  (s.freeSurfIndex sl 4095 1).map fun i =>
    let g := (Tab.get 0 s.haul.idGens (K.surf sl i) + 1) % 65536
    let ident := g * 65536 + i
    let s := s.updHaul fun x => { x with idGens := Tab.set 0 x.idGens (K.surf sl i) g }
    let s := s.putSurface sl ident (some { ident := ident, w := w, h := h, fmt := fmt, colour := colour })
    (ident, if hs : sl < 256 then s.decide (.identifierIssued ⟨sl, hs⟩ ident w h fmt colour) else s)

/-! ### Leases -/

/-- Every version of a released identifier is freed: its release completes (R143). The result names the last frame that
read the version freed last (R141). -/
def State.releaseDone (s : State) (v : Version) : State :=
  if (s.versionsOf v.slice v.ident).isEmpty && (s.surface v.slice v.ident).isNone then
    match (s.space v.slice).cmds.find? fun c => c.op == 3 && c.phase == .running && argOf c.words 0 == v.ident with
    | none => s
    | some c => s.complete v.slice c.handle 0
        (leBytes 4 v.ident ++ leBytes 4 v.lastFrame ++ leBytes 4 v.lastOut)
  else s

/-- The version enters FREED: its allocation returns to the pool (R153). -/
def State.freeVersion (s : State) (vid : Nat) : State :=
  match s.version vid with
  | none => s
  | some v => (s.putVersion vid none).releaseDone v

/-- The version is no longer current: FREED without a holder, RETIRED with one (R154). -/
def State.retire (s : State) (vid : Nat) : State :=
  match s.version vid with
  | none => s
  | some v => if v.holders.isEmpty then s.freeVersion vid else s.putVersion vid (some { v with lease := .retired })

/-- One more holder (R151). -/
def State.hold (s : State) (vid : Nat) (p : Holder) : State :=
  match s.version vid with
  | none => s
  | some v => if v.holders.contains p then s else s.putVersion vid (some { v with holders := v.holders ++ [p] })

/-- A hold ends: a retired version without holders is freed (R154). -/
def State.endHold (s : State) (vid : Nat) (p : Holder) : State :=
  match s.version vid with
  | none => s
  | some v =>
    if v.holders.contains p then
      let v := { v with holders := v.holders.filter (· ≠ p) }
      let s := s.putVersion vid (some v)
      if v.holders.isEmpty && v.lease == .retired then s.freeVersion vid else s
    else s

/-- The output's hold ends at the tick that ends frame `n` (R141, R152). -/
def State.endOutputHold (s : State) (vid o n : Nat) : State :=
  match s.version vid with
  | none => s
  | some v => (s.putVersion vid (some { v with lastFrame := n, lastOut := o })).endHold vid (.output o)

/-- Every hold of a commit ends (R151, R154). -/
def State.endCommitHolds (s : State) (o sp handle : Nat) : State :=
  s.each ((s.versionsWith fun v => v.holders.contains (.commit o sp handle)).map (·.1)) fun s vid =>
    s.endHold vid (.commit o sp handle)

/-- Every hold of a command ends (R151). -/
def State.endCmdHolds (s : State) (sp handle : Nat) : State :=
  s.each ((s.versionsWith fun v => v.holders.contains (.cmd sp handle)).map (·.1)) fun s vid =>
    s.endHold vid (.cmd sp handle)

/-- The lease of every version of an identifier that is released or replaced: FILLING and IDLE go FREED, HELD goes RETIRED
(R154). -/
def State.retireAll (s : State) (sl ident : Nat) : State :=
  s.each (s.versionsOf sl ident) fun s e => if e.2.lease = .filling then s.freeVersion e.1 else s.retire e.1

/-- Note that an identifier was created or written since the last capture (03_slices.md R120). -/
def State.markDirty (s : State) (sl ident : Nat) : State :=
  s.updSlice sl fun x => { x with dirty := if x.dirty.contains ident then x.dirty else x.dirty ++ [ident] }

/-- Note that an identifier was freed since the last capture. -/
def State.markFreed (s : State) (sl ident : Nat) : State :=
  s.updSlice sl fun x => { x with dirty := x.dirty.filter (· ≠ ident), freed := x.freed ++ [ident] }

/-- The lease state of a version (R153). -/
def Version.state (v : Version) : Nat :=
  match v.lease with
  | .filling => 1
  | .current => if v.holders.isEmpty then 2 else 3
  | .retired => 4

/-! ### Descriptors and the query page -/

/-- A surface descriptor (R128). -/
def descriptor (x : Surface) : List Byte :=
  leBytes 4 x.ident ++ leBytes 2 x.w ++ leBytes 2 x.h ++ leBytes 1 x.fmt ++ leBytes 1 x.colour ++ leBytes 2 0 ++
    leBytes 4 (if tiled x.fmt then 0 else pitchOf x.fmt x.w) ++ leBytes 4 (auxOffset x.fmt x.w x.h) ++
    leBytes 4 (storedLen x.fmt x.w x.h) ++ leBytes 2 x.importCount ++ List.replicate 6 0#8

/-- A write of SRF_QUERY_ID runs the query (04_surfaces_and_haul.md, SRF_1). -/
def doSrfQuery (v : Word) (s : State) : State :=
  let s := s.wr R.srfQueryId v
  let sl := s.fld R.srfQuerySlice F.srfQuerySlice_slice
  let ident := v.toNat
  let x := s.surface sl ident
  let words := match x with | some x => wordsOf (descriptor x) | none => []
  let s := s.each (List.range 8) fun s i => s.wr (R.srfQueryDesc i) ((words[i]?).getD 0#32)
  let vs := s.versionsOf sl ident
  let newest := (vs.getLast?).map (·.2)
  let s := s.wrN R.srfQueryState (match newest with
    | some n => min 255 vs.length * 2 ^ 16 + min 255 n.holders.length * 2 ^ 8 + n.state
    | none => 0)
  s.wrN R.srfQueryDram (match (x.bind (·.cur)).bind s.version with | some n => n.unit0 | none => 0)

/-- SLC_SRF_COUNT: surfaces, and versions being filled or retired (R123, R125). -/
def State.srfCountWord (s : State) (sl : Nat) : Word :=
  w32 ((s.versionsWith fun v => v.slice == sl && v.lease != .current).length * 2 ^ 16 + (s.surfacesOf sl).length)

end Sys2Proof.Machine
end

