-- ==== Sys2Proof/Machine/Fit.lean ====
section
/-!
DEFINITION. Commits, the checker queues, verdicts, shares, capacity and the shed pass
(05_bench_plan_and_fit_check.md R155 to R177; 06_layer_composition.md R203).
-/

namespace Sys2Proof.Machine

/-! ### Capacity (R170, R171) -/

/-- The reserve of a set point in 0.5 GB/s units; codes as DMC_CTRL.sp_target. -/
def spReserve (sp : Nat) : Nat := if sp = 0 then 192 else if sp = 1 then 144 else 96

/-- A cause bit of BPL_CAPACITY. -/
def State.causeBit (s : State) (i : Nat) : Bool := bitAt (s.fld (R.bplCapacity 0) F.bplCapacity_causes) i

/-- Set or clear a cause bit; the change is forwarded to a secondary (15_pairs_and_live_insertion.md R430). -/
def State.setCause (s : State) (i : Nat) (b : Bool) : State :=
  if s.causeBit i = b then s
  else
    let s := s.put (R.bplCapacity 0) ⟨24 + i, 24 + i⟩ (b2n b)
    s.decide (.causes (BitVec.ofNat 5 (s.fld (R.bplCapacity 0) F.bplCapacity_causes)))

/-- R_eff for a set point and extended refresh. -/
def State.reffOf (s : State) (sp : Nat) (ext : Bool) : Nat :=
  spReserve sp - (if ext then 12 else 0) - (if s.causeBit 2 then 16 else 0)

/-- The set point in use, and extended refresh in force. -/
def State.spNow (s : State) : Nat := s.fld R.dmcStatus F.dmcStatus_sp_current
def State.extNow (s : State) : Bool := s.flag R.dmcStatus F.dmcStatus_extended

/-- The reserve that the shed pass plans for: reductions that wait for their plans count as made (R176). -/
def State.passReff (s : State) : Nat :=
  if !s.flag R.dmcStatus F.dmcStatus_ready then s.fld (R.bplCapacity 0) F.bplCapacity_r_eff
  else
    let sp := match s.reductions.find? fun e => e.cause == 0 with
      | some e => if spReserve e.value < spReserve s.spNow then e.value else s.spNow
      | none => s.spNow
    s.reffOf sp (s.extNow || s.reductions.any fun e => e.cause == 1)

/-- BPL_CAPACITY.r_eff follows the set point in use and the deductions once DRAM is ready; its changes are events
(R170, R171; 13_memory_controller.md R377). -/
def State.syncReff (s : State) : State :=
  if s.flag R.dmcStatus F.dmcStatus_ready then
    let old := s.fld (R.bplCapacity 0) F.bplCapacity_r_eff
    let new := s.reffOf s.spNow s.extNow
    let s := s.put (R.bplCapacity 0) F.bplCapacity_r_eff new
    if new < old then s.event 0x40 0 8 else if old < new then s.event 0x40 0 9 else s
  else s

/-- R_min in 0.5 GB/s units: the lowest set point permitted, extended refresh, and the pair deduction of an image that
configures pairs (R171; 13_memory_controller.md, DMC_CTRL.sp_min). -/
def State.rmin (s : State) : Nat :=
  spReserve (s.fld R.dmcCtrl F.dmcCtrl_sp_min) - 12 - (if s.pair.configured then 16 else 0)

/-- BPL_CAPACITY as read. -/
def State.capacityWord (s : State) : Word := F.bplCapacity_r_min.put (s.rd (R.bplCapacity 0)) s.rmin

/-! ### The grid of frame ticks (07_scanout_and_display_links.md R209, R214) -/

/-- The station time of a pixel clock of the present grid, counted from its last change of timing. -/
def State.gridTime (s : State) (o clocks : Nat) : Nat :=
  ((s.out o).t0 + ((s.out o).clk0 + clocks) * 1000000 / (s.timing o).khz) / 5 * 5

/-- The station time of tick `k` of the present grid. -/
def State.tickTime (s : State) (o k : Nat) : Nat :=
  let t := s.timing o
  s.gridTime o (k * t.ht * t.vt)

/-- The station time of the cut-off before the next tick (07_scanout_and_display_links.md R214). -/
def State.cutoffTime (s : State) (o : Nat) : Nat :=
  let t := s.timing o
  s.gridTime o (((s.out o).ticks + 1) * t.ht * t.vt - s.guardLines o * t.ht)

/-- The output stands between a cut-off and its tick: the time of the cut-off has passed, and what happens at it still comes
before it (07_scanout_and_display_links.md R215 to R218). A generator that halts for a new pixel clock has passed none. -/
def State.inFreeze (s : State) (o : Nat) : Bool :=
  let x := s.out o
  (x.gen == .running || x.gen == .stopping) && !x.retune && s.cutoffTime o < s.time

/-! ### Configurations (R159) -/

/-- The layer of a slot's latched image. -/
def State.latchedLayer (s : State) (n : Nat) : Option CfgLayer :=
  let x := s.layer n
  if imgOn x.latched then
    some { slot := n, owner := x.owner, image := x.latched, vid := x.vid, base := x.base, sw := x.sw, sh := x.sh,
           fmt := x.fmt, colour := x.colour }
  else none

/-- The newest of some commits by an owner. -/
def commitBy (cs : List Commit) (owner : Nat) : Option Commit := (cs.filter fun c => c.owner == owner).getLast?

/-- A commit covers a slot. -/
def Commit.coversSlot (c : Commit) (n : Nat) : Bool := c.layers.any fun e => e.1 == n

/-- The latched image of a slot waits for the tick that clears it (07_scanout_and_display_links.md R506). -/
def State.leaving (s : State) (o n : Nat) : Bool :=
  ((s.out o).removals ++ (s.out o).removalsLate).any fun r =>
    match r with
    | .layer m => m == n
    | .sliceLayers sl => sl == (s.layer n).owner
    | .region _ _ => false

/-- The latched layer of a slot, unless it waits to be cleared. -/
def State.stayingLayer (s : State) (o n : Nat) : Option CfgLayer := if s.leaving o n then none else s.latchedLayer n

/-- The layers that a rule gives for the slots of an output, overlaid with commits (R159). -/
def State.overlay (s : State) (o : Nat) (base : Nat → Option CfgLayer) (cs : List Commit) : List CfgLayer :=
  (s.slotsOn o).filterMap fun n =>
    match (s.slotOwner n).bind (commitBy cs) with
    | some c => if c.coversSlot n then c.bound.find? fun l => l.slot == n else base n
    | none => base n

/-- The commits that are to latch at the next tick: restored configurations that wait for a THAW, and accepted commits. -/
def OutSt.toLatch (x : OutSt) : List Commit := x.restored ++ x.accepted

/-- Every commit that a check has accepted, with those whose acceptance a frozen plan holds back (R159, R160;
07_scanout_and_display_links.md R216). -/
def OutSt.passed (x : OutSt) : List Commit := x.toLatch ++ x.deferred

/-- What a plan compiled now shows: the latched layers without those that wait to be cleared, overlaid with commits
(07_scanout_and_display_links.md R506). -/
def State.configWith (s : State) (o : Nat) (cs : List Commit) : List CfgLayer := s.overlay o (s.stayingLayer o) cs

/-- What is checked: every latched layer, one that waits to be cleared among them, overlaid with every commit that a check has
accepted and with `cs` (R159, R164). -/
def State.checked (s : State) (o : Nat) (cs : List Commit) : List CfgLayer :=
  s.overlay o s.latchedLayer ((s.out o).passed ++ cs)

/-- The configuration with every accepted commit. -/
def State.config (s : State) (o : Nat) : List CfgLayer := s.configWith o (s.out o).toLatch

/-- The slot's page is enabled: it takes part in the plan (06_layer_composition.md R180). -/
def State.takesPart (s : State) (l : CfgLayer) : Bool := s.enabled (lyrPage l.slot)

/-! ### The shed pass (R174, R175) -/

/-- The outputs whose timing generator is started. -/
def State.activeOutputs (s : State) : List Nat := below 8 fun o => (s.out o).gen != .stopped

/-- What the pass knows of an output. -/
structure PassOut where
  o : Nat
  layers : List CfgLayer
  t : Timing
  sh : Shares
deriving DecidableEq, Repr

/-- The outputs of a pass, one of them with an extra commit. -/
def State.passOuts (s : State) (extra : Option (Nat × Commit)) : List PassOut :=
  s.activeOutputs.map fun o =>
    { o := o, t := s.checkTiming o, sh := s.shares o,
      layers := match extra with
        | some (p, c) => if p = o then s.configWith o ((s.out o).toLatch ++ [c]) else s.config o
        | none => s.config o }

/-- Everything fits with some layers shed: every output, and the sum of the peak fetch rates (R174). -/
def passFits (outs : List PassOut) (reff : Nat) (shed : List (Nat × Nat)) : Bool :=
  let here (p : PassOut) : List Nat := (shed.filter fun e => e.1 == p.o).map (·.2)
  (outs.all fun p => planFits p.layers (here p) p.t p.sh) &&
    (outs.map fun p => fetchRate (p.layers.filter fun l => !(here p).contains l.slot) p.t).sum ≤ reff * 500000000

/-- The shed order: class B then class S, from OUT_7 down, bottom up (R175). -/
def shedOrder (outs : List PassOut) : List (Nat × Nat) :=
  let ofClass (k : Nat) : List (Nat × Nat) :=
    outs.reverse.flatMap fun p => (p.layers.filter fun l => l.cls == k).map fun l => (p.o, l.slot)
  ofClass 2 ++ ofClass 1

/-- The smallest prefix of the shed order whose removal makes everything fit (R174). -/
def shedPrefix (outs : List PassOut) (reff : Nat) : List (Nat × Nat) → List (Nat × Nat) → List (Nat × Nat)
  | acc, [] => acc
  | acc, e :: t => if passFits outs reff acc then acc else shedPrefix outs reff (acc ++ [e]) t

/-- The layers shed with an extra commit on an output. -/
def State.shedWith (s : State) (extra : Option (Nat × Commit)) : List (Nat × Nat) :=
  let outs := s.passOuts extra
  shedPrefix outs s.passReff [] (shedOrder outs)

/-- The time of the newest commit of a list of layers' owners. -/
def newestAcc (cs : List Commit) (old : Nat) : Nat := cs.foldl (fun m c => max m c.acc) old

/-- The plan that an output would take up now with some slots shed. -/
def State.compile (s : State) (o : Nat) (shed : List Nat) : Plan :=
  let layers := (s.config o).filter s.takesPart
  { layers := layers, shed := shed.filter fun n => layers.any fun l => l.slot == n, fallback := s.onFallback o,
    accTime := newestAcc (s.out o).accepted (match (s.out o).plan with | some p => p.accTime | none => 0) }

/-- A plan sheds a slot's layer. -/
def sheds (p : Option Plan) (n : Nat) : Bool := match p with | some q => q.shed.contains n | none => false

/-- The causes kept of a list for some slots, with a cause for those that it does not name. -/
def causesFor (slots : List Nat) (kept : List (Nat × Nat)) (cause : Nat) : List (Nat × Nat) :=
  slots.map fun n => (n, match kept.find? fun e => e.1 == n with | some e => e.2 | none => cause)

/-- The causes that a pass leaves on the plan `p` that it compiles, against the plan in use: a change that an earlier pass made
already, or made while the plan was frozen, keeps its own (R177). -/
def State.planCauses (s : State) (o : Nat) (p : Plan) (cause : Nat) : List (Nat × Nat) :=
  let x := s.out o
  let changed := (p.layers.map (·.slot)).filter fun n => p.shed.contains n != sheds x.plan n
  let before := match x.next with
    | some q => q.causes.filter fun e => q.shed.contains e.1 == p.shed.contains e.1 && q.shed.contains e.1 != sheds x.plan e.1
    | none => []
  causesFor changed (before ++ x.lateCauses) cause

/-- A pass in a frozen interval: the causes of what it changes are kept for the tick (R177; 07_scanout_and_display_links.md R217). -/
def State.lateCause (s : State) (o : Nat) (shed : List Nat) (cause : Nat) : State :=
  let x := s.out o
  let p := s.compile o shed
  let changed := (p.layers.map (·.slot)).filter fun n => p.shed.contains n != sheds (x.next.or x.plan) n
  s.setOut o { x with lateCauses := causesFor changed x.lateCauses cause }

/-- The plan in use shows what a compiled plan shows. -/
def Plan.same (p q : Plan) : Bool := p.layers = q.layers && p.shed = q.shed && p.fallback = q.fallback

/-- Recompile the next plan of an output; between a cut-off and its tick it is frozen (R162; 07_scanout_and_display_links.md R217). -/
def State.recompile (s : State) (o : Nat) (shed : List Nat) (cause : Nat) : State :=
  let x := s.out o
  if s.inFreeze o then s.lateCause o shed cause
  else
    let p := s.compile o shed
    let p := { p with causes := s.planCauses o p cause }
    let idle := match x.plan with | some q => q.same p && x.accepted.isEmpty | none => false
    let s := s.setOut o { x with next := if idle then none else some p }
    match x.next with
    | some q => if q.shed = p.shed then s else if h : o < 8 then s.decide (.shedSet ⟨o, h⟩ p.shed) else s
    | none => if p.shed.isEmpty then s else if h : o < 8 then s.decide (.shedSet ⟨o, h⟩ p.shed) else s

/-- The station-wide shed pass: every output's next plan is compiled with the layers it finds (R174). A secondary follows
the primary's decisions (15_pairs_and_live_insertion.md R430). -/
def State.shedPass (s : State) (accepted : Bool) : State :=
  if s.secondary then s
  else
    let shed := s.shedWith none
    let cause := s.fld (R.bplCapacity 0) F.bplCapacity_causes % 16 + (if accepted then 16 else 0)
    s.each s.activeOutputs fun s o => s.recompile o ((shed.filter fun e => e.1 == o).map (·.2)) cause

/-- The running outputs whose plans for a reduction that is asked for now are to come into use: at the next tick, or at the
one after it where the next plan is frozen (R176; 07_scanout_and_display_links.md R217). -/
def State.reductionWaits (s : State) : List (Nat × Nat) :=
  (below 8 fun o => (s.out o).gen == .running || (s.out o).gen == .stopping).map fun o => (o, if s.inFreeze o then 2 else 1)

/-- A frame tick of an output passes for the reductions that wait; one that stops delays none of them. A lost partner's allowance
is free once the plans for it are in use (R176). -/
def State.reductionTick (s : State) (o : Nat) (all : Bool) : State :=
  let next (w : Nat × Nat) : Option (Nat × Nat) :=
    if w.1 = o then (if all || w.2 ≤ 1 then none else some (o, w.2 - 1)) else some w
  let moved := s.reductions.map fun (e : Reduction) => { e with waits := e.waits.filterMap next }
  { s with reductions := moved.filter fun e => !(e.cause == 2 && e.waits.isEmpty) }

/-! ### Refusals and the ends of commits -/

/-- A FIT_REFUSED verdict on an output (R507). -/
def State.noteRefusal (s : State) (o reason : Nat) (probe : Bool) : State :=
  let s := s.put (R.bplCheck o) F.bplCheck_last_reason reason
  let s := if probe then s else s.count (R.bplRefused o) ⟨31, 0⟩
  s.event 0x40 o 0

/-- A capstone commit is refused by the fit check (06_layer_composition.md R203). -/
def State.capRefused (s : State) (slot reason : Nat) : State :=
  let s := (s.clrF (R.lyrCapCtrl slot) F.lyrCapCtrl_commit).setF (R.lyrCapCtrl slot) F.lyrCapCtrl_refused
  (s.put (R.lyrCapCtrl slot) F.lyrCapCtrl_last_reason reason).event 0x42 slot 1

/-- The slot of a capstone commit. -/
def Commit.capSlot (c : Commit) : Nat := match c.layers.head? with | some e => e.1 | none => 0

/-- A commit ends: its holds end and its record is written; a capstone commit has none (R161). -/
def State.endCommit (s : State) (o : Nat) (c : Commit) (status detail : Nat) : State :=
  if c.owner = 256 then s else (s.endCommitHolds o c.owner c.handle).fail c.owner c.handle status detail

/-- The layer that a detail word names (R173). -/
def State.namedLayer (s : State) (c : Commit) (l : Option CfgLayer) : Nat :=
  match l with
  | none => 0xFF
  | some x => if x.owner = c.owner ∧ c.owner ≠ 256 then (s.ordinalOf c.owner 1 x.slot).getD 0xFE else 0xFE

/-- A commit ends refused (R161, R172, R173, R507). -/
def State.refuse (s : State) (o : Nat) (c : Commit) (f : Refused) : State :=
  let s := s.noteRefusal o f.reason c.probe
  let s := if h : o < 8 then s.decide (.verdict ⟨o, h⟩ false f.reason) else s
  if c.owner = 256 then s.capRefused c.capSlot f.reason
  else s.endCommit o c (0x2000 + f.reason) (f.line * 256 + s.namedLayer c f.layer)

/-- The refusal of a commit that no checker takes: reasons OUTPUT_OFF and QUEUE_FULL. -/
def noLayer (reason : Nat) : Refused := { reason := reason, line := 0xFFFF, layer := none }

/-! ### Issue (R155 to R157) -/

/-- The enabled layers of a snapshot with their slot's ordinal. -/
def Commit.enabled (c : Commit) : List (Nat × Tab Word) := c.layers.filter fun e => imgOn e.2

/-- The regions of an output, by number. -/
def regionsOn (o : Nat) : List Nat := (List.range 16).map fun n => o * 16 + n

/-- The snapshot that COMMIT takes at issue (R156; 08_check_values_core_samples_and_floor_images.md R243). -/
def State.snapshot (s : State) (owner o handle : Nat) (probe : Bool) : Commit :=
  { owner := owner, handle := handle, probe := probe,
    layers := ((s.slotsOn o).filter fun n => s.slotOwner n == some owner && (owner != 256 || s.slotCap n)).map
      fun n => (n, (s.layer n).shadow),
    regions := ((regionsOn o).filter fun n => s.regionOwner n == some owner).map fun n => (n, (s.region n).shadow),
    bound := [], acc := 0, headroom := 0 }

/-- A commit enters its output's queue, or is refused with QUEUE_FULL (R157). -/
def State.enqueueCommit (s : State) (o : Nat) (c : Commit) : State :=
  if 32 ≤ (s.out o).queue.length then s.refuse o c (noLayer 8)
  else s.updOut o fun x => { x with queue := x.queue ++ [.commit c] }

/-- The output of a COMMIT's ordinal. -/
def State.commitOut (s : State) (sl : Nat) (ws : List Word) : Option Nat := s.globalOf sl 0 (argOf ws 0 % 16)

/-- COMMIT is issued: its snapshot is taken, to wait for the command's start (R156). -/
def State.commitIssued (s : State) (sl handle : Nat) (ws : List Word) : State :=
  match s.commitOut sl ws with
  | none => s
  | some o => s.updOut o fun x => { x with fenced := x.fenced ++ [s.snapshot sl o handle (bitAt (argOf ws 0) 8)] }

/-- COMMIT starts: it enters the queue (R157; 02_host_interface.md R72). An output permission withdrawn meanwhile has ended it. -/
def startCommit (sl : Nat) (c : Cmd) (s : State) : State :=
  s.each (List.range 8) fun s o =>
    let (mine, rest) := (s.out o).fenced.partition fun k => k.owner == sl && k.handle == c.handle
    let s := if mine.isEmpty then s else s.updOut o fun x => { x with fenced := rest }
    s.each mine fun s k => s.enqueueCommit o k

/-! ### Take-up (R157, R158) -/

/-- The source a slice's layer reads: version, DRAM offset, size, format, colour. -/
def State.bindSlice (s : State) (sl : Nat) (img : Tab Word) : Option (Option Nat × Nat × Surface) :=
  if imgSolid img then some (none, 0, {})
  else (s.surface sl (imgGet img 1).toNat).bind fun x => x.cur.map fun vid => (some vid, s.versionBase (some vid), x)

/-- The layer of a capstone image (06_layer_composition.md R202). -/
def capLayer (n : Nat) (img : Tab Word) : CfgLayer :=
  { slot := n, owner := 256, image := img, vid := none, base := imgFld img 8 19 0 * 65536, sw := imgFld img 10 13 0,
    sh := imgFld img 10 29 16, fmt := imgFld img 9 7 0, colour := 0 }

/-- Bind the enabled layers of a commit, bottom up: the layers, or the first slot whose identifier is stale (R158). -/
def State.bindLayers (s : State) (owner : Nat) : List (Nat × Tab Word) → Except Nat (List CfgLayer)
  | [] => .ok []
  | (n, img) :: t =>
    if owner = 256 then (State.bindLayers s owner t).map fun l => capLayer n img :: l
    else match s.bindSlice owner img with
      | none => .error n
      | some (vid, base, x) => (State.bindLayers s owner t).map fun l =>
          { slot := n, owner := owner, image := img, vid := vid, base := base, sw := x.w, sh := x.h, fmt := x.fmt,
            colour := x.colour } :: l

/-- Take-up of new entries is suspended: the ENG clock is lost, or the reference is in hold-over (R157;
14_clock_generation.md R410, R412). -/
def State.takeUpSuspended (s : State) : Bool :=
  s.flag R.clkRefStatus F.clkRefStatus_holdover || !bitAt (s.num R.clkPllStatus) 1

/-- The checker of an output takes up the entry at the head of its queue (R157, R158). A commit on an output that does not run,
or that stops, is taken up only to be refused (07_scanout_and_display_links.md R210, R211). -/
def doTakeUp (o : Nat) (s : State) : State :=
  let x := s.out o
  if x.check.isSome || s.takeUpSuspended || s.secondary || !s.clocked 0x40 o then s
  else match x.queue with
    | [] => s
    | .share w :: rest => s.setOut o { x with queue := rest, check := some (.share w) }
    | .commit c :: rest =>
      let s := s.setOut o { x with queue := rest }
      if x.gen != .running then s.refuse o c (noLayer 7)
      else match s.bindLayers c.owner c.enabled with
      | .error n => s.endCommit o c 0x1004 ((s.ordinalOf c.owner 1 n).getD 0xFF)
      | .ok ls =>
        let c := { c with bound := ls }
        let s := s.updOut o fun x => { x with check := some (.commit c) }
        if c.owner = 256 then s
        else s.each ls fun s l => match l.vid with
          | some vid => s.hold vid (.commit o c.owner c.handle)
          | none => s

/-! ### Verdicts (R159 to R164, R172) -/

/-- The candidate configuration of a commit (R159). -/
def State.candidate (s : State) (o : Nat) (c : Commit) : List CfgLayer := s.checked o [c]

/-- The checks of R172 on a configuration of an output under some shares. -/
def State.checkOut (s : State) (o : Nat) (ls : List CfgLayer) (sh : Shares) : Option Refused :=
  let n := s.normalTiming o
  checkConfig ls (s.checkTiming o) n ((s.fallbackTiming o).getD n) sh s.rmin

/-- Bandwidth headroom, in 10 MB/s units, of the plan that an output compiles with a commit (R162). -/
def State.headroomOf (s : State) (o : Nat) (c : Commit) (shed : List (Nat × Nat)) : Nat :=
  let kept := (s.configWith o ((s.out o).toLatch ++ [c])).filter fun l => !shed.contains (o, l.slot)
  min 0xFFFF (((s.shares o).bw * 500000000 - fetchRate kept (s.checkTiming o)) / 10000000)

/-- The mask of a slice's shed layer ordinals (R162). -/
def State.shedMask (s : State) (sl : Nat) (slots : List Nat) : Nat :=
  slots.foldl (fun m n => match s.ordinalOf sl 1 n with | some i => m ||| 2 ^ i | none => m) 0

/-- The result bytes of a commit's OK record (R162). -/
def State.commitResult (s : State) (o : Nat) (c : Commit) (frame headroom mask : Nat) : List Byte :=
  leBytes 4 frame ++ leBytes 1 (s.outOrdinal c.owner o) ++ leBytes 1 0 ++ leBytes 2 headroom ++ leBytes 8 mask

/-- An earlier accepted commit of the same owner is superseded (R160). -/
def State.supersede (s : State) (o owner : Nat) : State :=
  let (mine, rest) := (s.out o).accepted.partition fun c => c.owner == owner
  let s := if mine.isEmpty then s else s.updOut o fun x => { x with accepted := rest }
  s.each mine fun s c =>
    let s := if h : o < 8 then s.decide (.superseded ⟨o, h⟩ c.handle) else s
    s.endCommit o c 0x6003 0

/-- The acceptance of a commit takes effect (R160, R161, R174; 07_scanout_and_display_links.md R215). -/
def State.accept (s : State) (o : Nat) (c : Commit) : State :=
  let s := s.supersede o c.owner
  let shed := s.shedWith (some (o, c))
  let c := { c with acc := s.time, headroom := s.headroomOf o c shed }
  let s := s.updOut o fun x => { x with accepted := x.accepted ++ [c] }
  s.shedPass true

/-- A probe is accepted (R161, R162). -/
def State.probeOk (s : State) (o : Nat) (c : Commit) : State :=
  let shed := s.shedWith (some (o, c))
  let mask := s.shedMask c.owner ((shed.filter fun e => e.1 == o).map (·.2))
  let result := s.commitResult o c 0xFFFFFFFF (s.headroomOf o c shed) mask
  (s.endCommitHolds o c.owner c.handle).complete c.owner c.handle 0 result

/-- The verdict on a commit: OUTPUT_OFF, a refusal of the checks, or acceptance; between a cut-off and its tick an acceptance
is held (R172; 07_scanout_and_display_links.md R210, R211, R216). -/
def State.commitVerdict (s : State) (o : Nat) (c : Commit) : State :=
  if (s.out o).gen != .running then s.refuse o c (noLayer 7)
  else match s.checkOut o (s.candidate o c) (s.shares o) with
    | some f => s.refuse o c f
    | none =>
      if c.probe then s.probeOk o c
      else
        let s := s.count (R.bplAccepted o) ⟨31, 0⟩
        let s := if h : o < 8 then s.decide (.verdict ⟨o, h⟩ true 0) else s
        let s := if c.owner = 256 then s.clrF (R.lyrCapCtrl c.capSlot) F.lyrCapCtrl_commit else s
        if s.inFreeze o then s.updOut o fun x => { x with deferred := x.deferred ++ [c] }
        else s.accept o c

/-- The sums of the shares over all outputs, with one output's replaced (R163). -/
def State.sharesFit (s : State) (o : Nat) (sh : Shares) : Bool :=
  let all := (List.range 8).map fun p => if p = o then sh else s.shares p
  (all.map (·.lb)).sum ≤ 64 && (all.map (·.cmp)).sum ≤ 32 && (all.map (·.bw)).sum ≤ 192

/-- The verdict on a share write (R164): the sums of R163, and every check from SCALE_RANGE on. On an output that does not run,
OUTPUT_OFF is not among them, for it asks nothing of the shares (log 96). -/
def State.shareVerdict (s : State) (o : Nat) (w : Word) : State :=
  let ok := s.sharesFit o (sharesOf w) && (s.checkOut o (s.checked o []) (sharesOf w)).isNone
  let s := if h : o < 8 then s.decide (.verdict ⟨o, h⟩ ok 0) else s
  if ok then
    (s.wr (R.bplShare o) (w &&& 0xFFFFFF00#32)).shedPass false
  else s.setF (R.bplCheck o) F.bplCheck_share_refused

/-- The checker of an output reaches its verdict (R157, R172). -/
def doVerdict (o : Nat) (s : State) : State :=
  match (s.out o).check with
  | none => s
  | some e =>
    if s.secondary then s
    else
      let s := s.updOut o fun x => { x with check := none }
      match e with
      | .commit c => s.commitVerdict o c
      | .share w => s.shareVerdict o w

/-- A write of BPL_SHARE enters the queue (R164). -/
def doShareWrite (o : Nat) (v : Word) (s : State) : State :=
  if s.ownerLock (pageBase 0x40 o) then s
  else if 32 ≤ (s.out o).queue.length then s.setF (R.bplCheck o) F.bplCheck_share_refused
  else s.updOut o fun x => { x with queue := x.queue ++ [.share v] }

/-- Every commit queued or being checked on an output ends with OUTPUT_OFF (07_scanout_and_display_links.md R211). -/
def State.dropCommits (s : State) (o : Nat) : State :=
  let x := s.out o
  let isCommit (e : Entry) : Bool := match e with | .commit _ => true | .share _ => false
  let gone := ((match x.check with | some e => [e] | none => []) ++ x.queue).filterMap fun e =>
    match e with | .commit c => some c | .share _ => none
  let s := s.setOut o { x with queue := x.queue.filter fun e => !isCommit e,
                               check := x.check.filter fun e => !isCommit e }
  s.each gone fun s c => s.refuse o c (noLayer 7)

/-- Commits in progress that a test selects end with a status and leave every list (03_slices.md R104, R107). -/
def State.endCommits (s : State) (o : Nat) (p : Commit → Bool) (status detail : Nat) : State :=
  let x := s.out o
  let hit (e : Entry) : Bool := match e with | .commit c => p c | .share _ => false
  let gone := x.commits.filter p
  let s := s.setOut o { x with
    queue := x.queue.filter fun e => !hit e, check := x.check.filter fun e => !hit e,
    fenced := x.fenced.filter fun c => !p c, accepted := x.accepted.filter fun c => !p c,
    restored := x.restored.filter fun c => !p c,
    deferred := x.deferred.filter fun c => !p c }
  s.each gone fun s c => s.endCommit o c status detail

/-! ### Capstone commits (06_layer_composition.md R203) -/

/-- The source of a capstone image fails: not a format, not within protected DRAM, or a check of R186. -/
def State.capBadSource (s : State) (img : Tab Word) : Bool :=
  let l := capLayer 0 img
  if imgSolid img then imgOn img && (l.dstW == 0 || l.dstH == 0)
  else
    let pitch := if tiled l.fmt then 0 else imgFld img 9 31 16
    let rows (n row : Nat) : Nat := if n = 0 then 0 else pitch * (n - 1) + max pitch row
    let len := if tiled l.fmt then storedLen l.fmt l.sw l.sh
      else if isNv12 l.fmt then roundUp (pitch * l.sh) 4096 + rows (l.sh / 2) l.sw else rows l.sh (rowBytes l.fmt l.sw)
    !fmtOk l.fmt || dramEnd < l.base + len ||
      !((List.range (ceilDiv len 65536)).all fun i => s.dramProtected (l.base + i * 65536) 64) ||
      imgOn img && (l.srcW == 0 || l.srcH == 0 || l.dstW == 0 || l.dstH == 0 ||
      l.sw < l.srcX + l.srcW || l.sh < l.srcY + l.srcH ||
      (isNv12 l.fmt && !(l.srcX % 2 == 0 && l.srcY % 2 == 0 && l.srcW % 2 == 0 && l.srcH % 2 == 0)) ||
      (l.fmt == 7 && !(l.srcX % 2 == 0 && l.srcW % 2 == 0)))

/-- A region image's rectangle lies on the active area (08_check_values_core_samples_and_floor_images.md R244). -/
def RegionImg.inArea (i : RegionImg) (t : Timing) : Bool :=
  let (x, y) := (bitsOf i.pos.toNat 15 0, bitsOf i.pos.toNat 31 16)
  let (w, h) := (bitsOf i.size.toNat 15 0, bitsOf i.size.toNat 31 16)
  w != 0 && h != 0 && x + w ≤ t.ha && y + h ≤ t.va

/-- A region image of the protected world fails the checks (08_check_values_core_samples_and_floor_images.md R244). -/
def State.capBadRegion (s : State) (o : Nat) (e : Nat × RegionImg) : Bool :=
  e.2.on &&
    (let u := bitsOf e.2.ctrl.toNat 20 16
     !s.pageWorld1 (pageBase 0x50 u) || !e.2.inArea (s.normalTiming o) || s.cvFeed u != .idle || !s.clocked 0x51 e.1)

/-- The protected world was reset and does not run again yet (R204). -/
def State.worldDown (s : State) : Bool :=
  s.wld.resetting || (s.fld R.wldStatus F.wldStatus_restarts != 0 && !s.flag R.wldStatus F.wldStatus_running)

/-- A write of 1 to LYR_CAP_CTRL.commit (R203). -/
def doCapCommit (n : Nat) (s : State) : State :=
    let o := s.slotOut n
    let img := (s.layer n).shadow
    let regs := if o < 8 then (s.snapshot 256 o 0 false).regions else []
    if o = 15 then s.capRefused n 7
    else if s.capBadSource img || regs.any (s.capBadRegion o) then
      (s.setF (R.lyrCapCtrl n) F.lyrCapCtrl_bad_source).event 0x42 n 1
    else
      let s := s.setF (R.lyrCapCtrl n) F.lyrCapCtrl_commit
      s.enqueueCommit o { owner := 256, handle := 0, probe := false, layers := [(n, img)], regions := regs,
                          bound := [], acc := 0, headroom := 0 }

/-- A write of LYR_CAP_CTRL by the protected world (R202, R204). -/
def doCapCtrl (r : Req) (n : Nat) (v : Word) (s : State) : State :=
  if !s.slotCap n || s.worldDown || !s.reqProtected r then s
  else
    let s := if bitAt v.toNat 30 then s.clrF (R.lyrCapCtrl n) F.lyrCapCtrl_refused else s
    let s := if bitAt v.toNat 29 then s.clrF (R.lyrCapCtrl n) F.lyrCapCtrl_bad_source else s
    if bitAt v.toNat 0 then doCapCommit n s else s

/-- LYR_CAP_CTRL as read. -/
def State.capCtrlWord (s : State) (n : Nat) : Word :=
  if !s.slotCap n then 0#32
  else
    let o := s.slotOut n
    let pend := o < 8 && (s.out o).commits.any fun c => c.owner == 256 && c.capSlot == n
    Fld.put F.lyrCapCtrl_pending (s.rd (R.lyrCapCtrl n)) (b2n pend)

/-- BPL_CHECK as read. -/
def State.bplCheckWord (s : State) (o : Nat) : Word :=
  let x := s.out o
  let mask := match x.plan with
    | some p => p.shed.foldl (fun m n => m ||| 2 ^ s.slotPos n) 0
    | none => 0
  let w := Fld.put F.bplCheck_busy (s.rd (R.bplCheck o)) (b2n x.check.isSome)
  Fld.put F.bplCheck_shed_mask (Fld.put F.bplCheck_queued w x.queue.length) mask

/-- Peak bytes, peak steps and line-buffer bytes of the plan in use. -/
def State.planCosts (s : State) (o : Nat) : Nat × Nat × Nat :=
  match (s.out o).plan with
  | none => (0, 0, 0)
  | some p =>
    let t := s.checkTiming o
    let kept := p.layers.filter fun l => !p.shed.contains l.slot
    (peakBytes kept t, peakSteps kept t, lineBytes p.layers t)

end Sys2Proof.Machine
end

