-- ==== Sys2Proof/Machine/Dmc.lean ====
section
/-!
DEFINITION. The memory controller: where a block lies, set points and training, extended refresh and the reductions of
capacity, scrub, refresh, write-queue drains, row disturbance and injected errors (13_memory_controller.md R371 to R392;
05_bench_plan_and_fit_check.md R176).
-/

namespace Sys2Proof.Machine

/-! ### Set points and capacity (R376 to R378; 05_bench_plan_and_fit_check.md R170, R176) -/

/-- Every channel serves requests. -/
def State.dmcReady (s : State) : Bool := s.flag R.dmcStatus F.dmcStatus_ready

/-- The set point of a pending reduction. -/
def State.reducing (s : State) : Option Nat := (s.reductions.find? fun e => e.cause == 0).map (·.value)

/-- Cause bits 0 and 1 of BPL_CAPACITY follow the reductions under way and in force. -/
def State.syncCauses (s : State) : State :=
  let s := s.setCause 0 (s.spNow != 0 || s.reducing.isSome)
  s.setCause 1 (s.extNow || s.reductions.any fun e => e.cause == 1)

/-- A reduction is no longer under way. -/
def State.dropReduction (s : State) (cause : Nat) : State :=
  { s with reductions := s.reductions.filter fun e => e.cause ≠ cause }

/-- A reduction is asked for: the plans for it are computed first (05_bench_plan_and_fit_check.md R176). -/
def State.addReduction (s : State) (cause v : Nat) : State :=
  let s := s.dropReduction cause
  ({ s with reductions := s.reductions ++ [Reduction.mk cause v s.reductionWaits] } : State).syncCauses.shedPass false

/-- The channels start to switch. -/
def State.startSwitch (s : State) (sp : Nat) : State :=
  State.setF { s with dmc := { s.dmc with switching := some sp } } R.dmcStatus F.dmcStatus_switching

/-- The set point that DMC_CTRL.sp_target names is pursued: a lower rate after its plans, a higher rate at once, and during
a change when that change completes (R378). Before DRAM is ready, training ends at it (R377). -/
def State.pursue (s : State) (sp : Nat) : State :=
  if !s.dmcReady then s
  else if s.dmc.switching.isSome then { s with dmc := { s.dmc with target := some sp } }
  else if spReserve sp < spReserve s.spNow then s.addReduction 0 sp
  else
    let s := if s.reducing.isSome then (s.dropReduction 0).syncCauses.shedPass false else s
    if sp = s.spNow then s else s.startSwitch sp

/-- A new sp_target. -/
def State.setPoint (s : State) (sp : Nat) : State := (s.put R.dmcCtrl F.dmcCtrl_sp_target sp).pursue sp

/-- A write of DMC_CTRL: sp_target above sp_min is a reserved value; in Dim it changes the saved value only (R376, R378;
16_power_resets_and_start_up.md R457). -/
def doDmcCtrl (v : Word) (s : State) : State :=
  let old := s.fld R.dmcCtrl F.dmcCtrl_sp_target
  let s := (s.plainWrite R.dmcCtrl v).put R.dmcCtrl F.dmcCtrl_sp_target old
  let sp := F.dmcCtrl_sp_target.get v
  if s.fld R.dmcCtrl F.dmcCtrl_sp_min < sp then s
  else match s.pwr.saved with
    | some (_, rate, h) => { s with pwr := { s.pwr with saved := some (sp, rate, h) } }
    | none => s.setPoint sp

/-- The last channel has switched (R378). In hold-over a change waits (14_clock_generation.md R412). -/
def doSetPointDone (s : State) : State :=
  match s.dmc.switching with
  | none => s
  | some sp =>
    if s.flag R.clkRefStatus F.clkRefStatus_holdover then s
    else
    let raised := spReserve s.spNow < spReserve sp
    let next := s.dmc.target
    let s := { s with dmc := { s.dmc with switching := none, target := none } }
    let s := (s.clrF R.dmcStatus F.dmcStatus_switching).put R.dmcStatus F.dmcStatus_sp_current sp
    let s := (s.dropReduction 0).syncReff.syncCauses.event 0x90 0 3
    let s := if raised then s.shedPass false else s
    match next with
    | some sp => s.pursue sp
    | none => s

/-- Extended refresh is in force from now on, or no longer (R389). -/
def State.setExtended (s : State) (b : Bool) : State :=
  let s := ((s.put R.dmcStatus F.dmcStatus_extended (b2n b)).dropReduction 1).syncReff.syncCauses.event 0x90 0 4
  if b then s else s.shedPass false

/-- CAPACITY_REDUCTION_APPLY: the plans for the reduced capacity are in use on every running output
(05_bench_plan_and_fit_check.md R176). -/
def doCapacityApply (s : State) : State :=
  let ready := s.reductions.filter fun e => e.waits.isEmpty
  let s := if ready.any fun e => e.cause == 1 then s.setExtended true else s
  match ready.find? fun e => e.cause == 0 with
  | some e => if s.dmc.switching.isSome then s else s.startSwitch e.value
  | none => s

/-- Training of every permitted set point has ended: the channels switch to sp_target and serve requests (R377). -/
def State.trained (s : State) : State :=
  let m := s.fld R.dmcCtrl F.dmcCtrl_sp_min
  let s := s.each (List.range 8) fun s n =>
    (s.setF (R.dmcChStatus n) F.dmcChStatus_trained).put (R.dmcChStatus n) F.dmcChStatus_sp_trained (2 ^ (m + 1) - 1)
  let s := s.put R.dmcStatus F.dmcStatus_sp_current (s.fld R.dmcCtrl F.dmcCtrl_sp_target)
  (s.setF R.dmcStatus F.dmcStatus_ready).syncReff.syncCauses

/-! ### Settings -/

/-- A write of a bank-hash mask takes effect only while DRAM is not ready (R375). -/
def doDmcHash (i : Nat) (v : Word) (s : State) : State :=
  if s.dmcReady then s else s.plainWrite (R.dmcHash0 + 4 * i) v

/-- A write of DMC_WQ: a low mark not below the high mark, or a high mark above 64, is a reserved value (DMC_WQ). -/
def doDmcWq (v : Word) (s : State) : State :=
  if F.dmcWq_wq_low.get v < F.dmcWq_wq_high.get v && F.dmcWq_wq_high.get v ≤ 64 then s.plainWrite R.dmcWq v else s

/-- A write of DMC_ECC_INJECT: from the protected world, or by the host while the owner lock is clear (DMC_ECC_INJECT). -/
def doEccInject (r : Req) (v : Word) (s : State) : State :=
  if s.reqProtected r || (r.isHost && !s.ownerLock (pageBase 0x90 0)) then s.plainWrite R.dmcEccInject v else s

/-! ### Temperature, tracking, refresh -/

/-- TEMPERATURE_MEASUREMENT: the next whole multiple of 16,000,000 ns comes; entry n of the list is what the package of
channel n measures (R389). -/
def doTemperature (ts : List Int) (s : State) : State :=
  if !s.counting then s
  else
    let t := nextGrid 16000000 s.dmc.lastTemp s.time
    let s := s.at t
    let s := (List.range 8).foldl (fun s n =>
      match ts[n]? with
      | some x => s.put (R.dmcChTemp n) ⟨7, 0⟩ (unsigned 8 x)
      | none => s) s
    let cool := if ts.all (· ≤ 75) then s.dmc.cool + 1 else 0
    let s := { s with dmc := { s.dmc with lastTemp := t, cool := min cool 64 } }
    let asked := s.reductions.any fun e => e.cause == 1
    let s := if ts.any (80 ≤ ·) && !s.extNow && !asked then s.addReduction 1 1 else s
    let asked := s.reductions.any fun e => e.cause == 1
    if asked && ts.any (85 ≤ ·) then s.setExtended true
    else if 64 ≤ cool && asked then (s.dropReduction 1).syncCauses.shedPass false
    else if 64 ≤ cool && s.extNow then s.setExtended false
    else s

/-- TRACKING_STEP: the step stalls its channel and changes nothing else (R377). -/
def doTracking (_ch : Nat) (s : State) : State := s

/-- The refresh intervals postponed by a channel. -/
def State.postponed (s : State) (ch : Nat) : Nat := s.fld (R.dmcChStatus ch) F.dmcChStatus_postponed

/-- REFRESH: with 8 intervals postponed, the refresh of a further interval is forced (R388). -/
def doRefresh (ch : Nat) (act : RefreshAct) (s : State) : State :=
  if !s.dmcReady || s.dmc.selfRefresh then s
  else match act with
    | .due => s
    | .postpone =>
      if s.postponed ch < 8 then s.put (R.dmcChStatus ch) F.dmcChStatus_postponed (s.postponed ch + 1) else s
    | .pullIn => s.put (R.dmcChStatus ch) F.dmcChStatus_postponed (s.postponed ch - 1)

/-! ### Ports (R385) -/

/-- The port of a requester code: real-time 1, touch 2, cores 3, mirror 4, bulk 5, maintenance 6 (R385). The codes are those of
WLD_GUARD_LOG_INFO and DMC_UE_INFO, by which every access to DRAM of this model names its requester. -/
def dramPort (req : Nat) : Nat :=
  match req / 16 with
  | 0 => 3
  | 1 => 5
  | 2 => 5
  | 3 => 1
  | 4 => 4
  | 5 => 2
  | _ => 6

/-- Of two waiting requests, each a requester code and the station time at which it was made, `a` is served before `b`: the
real-time port first; then a request of 20 µs ahead of every younger one; then by port (R385). -/
def dramBefore (now : Nat) (a b : Nat × Nat) : Bool :=
  if dramPort a.1 == 1 || dramPort b.1 == 1 then dramPort a.1 == 1 && dramPort b.1 != 1
  else if a.2 + 20000 ≤ now || b.2 + 20000 ≤ now then a.2 < b.2
  else dramPort a.1 < dramPort b.1

/-- The waiting request that is served next, of those listed in the order made (R385; DESIGN CHOICE, log 112: of two that R385
does not order, the one made first). The accesses of a command run to their end, so that in a run no two requests wait
together. -/
def dramNext (now : Nat) : List (Nat × Nat) → Option (Nat × Nat)
  | [] => none
  | a :: l =>
    match dramNext now l with
    | none => some a
    | some b => if dramBefore now b a then some b else some a

/-! ### Scrub, drains -/

/-- PATROL_SCRUB_READ: `res` is what the read finds in a block without a mark (R384, R380, R382). -/
def doScrub (res : EccRes) (s : State) : State :=
  if !s.flag R.dmcCtrl F.dmcCtrl_scrub_en || !s.dmcReady || s.dmc.selfRefresh then s
  else
    let d := s.fld R.dmcScrubPos F.dmcScrubPos_block
    let s := (s.readBlock d 0x60 0 false res).2
    if d + 1 < dramBlocks then s.put R.dmcScrubPos F.dmcScrubPos_block (d + 1)
    else (s.put R.dmcScrubPos F.dmcScrubPos_block 0).event 0x90 0 5

/-- A channel's drain may start: the queue stands at its high mark, its oldest block has waited 10 µs, or no read is
pending (R387). -/
def State.drainDue (s : State) (ch : Nat) (readPending : Bool) : Bool :=
  s.fld R.dmcWq F.dmcWq_wq_high ≤ s.wqFill ch || !readPending ||
    s.dmc.queue.any fun (e : Nat × Nat) => blockChannel e.1 == ch && e.2 + 10000 ≤ s.time

/-- WRITE_QUEUE_DRAIN: one batch, to the low mark (R387). -/
def doDrain (ch : Nat) (readPending : Bool) (s : State) : State :=
  if s.drainDue ch readPending then
    { s with dmc := { s.dmc with queue := drainTo ch (s.fld R.dmcWq F.dmcWq_wq_low) s.dmc.queue } }
  else s

/-! ### Row disturbance (R391, R392) -/

/-- The requester that is throttled: a slice on every engine. -/
def throttleKey : DramReq → DramReq
  | .slice _ sl => .slice 0 sl
  | x => x

/-- The code of a requester, and its slice (DMC_HAMMER_INFO). -/
def dramReqCode : DramReq → Nat × Nat
  | .core n => (n.val, 0)
  | .slice e sl => (0x10 + e.val, sl.val)
  | .bar2 => (0x20, 0)
  | .realTime => (0x30, 0)
  | .mirror => (0x40, 0)
  | .touchRing => (0x50, 0)
  | .scrub demand => (0x60 + b2n demand, 0)

/-- The strike against a requester. -/
def State.strike (s : State) (ch bank row : Nat) (req : DramReq) : State :=
  let k := throttleKey req
  let recent : List (DramReq × Nat) := (s.dmc.strikes.filter fun e => s.time < e.2 + 64000000) ++ [(k, s.time)]
  let hit := max 1 (s.fld R.dmcHammer F.dmcHammer_strikes) ≤ (recent.filter fun (e : DramReq × Nat) => e.1 == k).length
  let s := { s with dmc := { s.dmc with
    strikes := recent,
    throttled := if hit then (s.dmc.throttled.filter fun (e : DramReq × Nat) => e.1 ≠ k) ++ [(k, s.time + 64000000)] else s.dmc.throttled } }
  let s := s.count R.dmcHammerCount F.dmcHammerCount_n
  let (code, sl) := dramReqCode req
  let s :=
    if s.flag R.dmcHammerInfo F.dmcHammerInfo_valid then s
    else
      let s := s.wrN R.dmcHammerInfo (2 ^ 31 + b2n hit * 2 ^ 30 + code * 2 ^ 16 + sl * 2 ^ 8 + ch * 16 + bank)
      s.wrN R.dmcHammerRow row
  s.event 0x90 0 2

/-- The activations of a row in the present window, by every requester (R391). -/
def State.rowCount (s : State) (ch bank row : Nat) : Nat :=
  s.dmc.acts.foldl (fun n e => if e.ch == ch && e.bank == bank && e.row == row then n + e.n else n) 0

/-- The row has reached the threshold, and the requester is one of those that activated it (R391). -/
def State.rowReached (s : State) (ch bank row : Nat) (req : DramReq) : Bool :=
  max 1 (s.fld R.dmcHammer F.dmcHammer_threshold) ≤ s.rowCount ch bank row &&
    s.dmc.acts.any fun e => e.ch == ch && e.bank == bank && e.row == row && e.req == req

/-- ROW_HAMMER_THRESHOLD: the row's count returns to 0, and the requester that issued most of its activations takes a strike;
real-time fetches are never struck (R391, R392; log 62). -/
def doHammer (ch bank row : Nat) (req : DramReq) (s : State) : State :=
  if !s.rowReached ch bank row req then s
  else
    let s := { s with dmc := { s.dmc with
      acts := s.dmc.acts.filter fun e => !(e.ch == ch && e.bank == bank && e.row == row) } }
    match req with
    | .realTime => s
    | _ => s.strike ch bank row req

/-- THROTTLE_END (R392). -/
def doThrottleEnd (req : DramReq) (s : State) : State :=
  match s.dmc.throttled.find? fun e => e.1 == throttleKey req with
  | none => s
  | some (k, t) =>
    let s := s.at t
    { s with dmc := { s.dmc with throttled := s.dmc.throttled.filter fun (e : DramReq × Nat) => e.1 ≠ k } }

/-- ROW_ACTIVATION_WINDOW: every count returns to 0 (R391). -/
def doActivationWindow (s : State) : State := { s with dmc := { s.dmc with acts := [] } }

end Sys2Proof.Machine
end

