-- ==== Sys2Proof/Machine/Cic.lean ====
section
/-!
DEFINITION. Interrupt delivery: the core interrupt controller, page events, and the messages to the host
(12_interrupt_delivery.md R357 to R370; 02_host_interface.md R59, R64).
-/

namespace Sys2Proof.Machine

/-! ### Page events -/

/-- The PAGE_EVENT bits defined for a page (02_host_interface.md R59); a layer slot's only while it is a capstone slot
(06_layer_composition.md, text before R182). -/
def State.definedEvents (s : State) (ty inst : Nat) : Nat :=
  match ty with
  | 0x02 => 0xF
  | 0x10 => if inst = 0 then 0xF else 0
  | 0x20 => 1
  | 0x40 => if inst = 0 then 0x303 else 3
  | 0x41 => 0x7FF
  | 0x42 => if s.flag (R.lyrAssign inst) F.lyrAssign_capstone then 3 else 0
  | 0x51 => 7
  | 0x60 => 1
  | 0x61 => 7
  | 0x70 => 0x3F
  | 0x80 => if inst = 0 then 0 else if inst = 3 then 3 else 1
  | 0x90 => 0x3F
  | 0xA0 => if inst = 0 then 1 else 0x7F
  | 0xA1 => if inst = 0 then 3 else 7
  | 0xB0 => if inst = 0 then 0x1F else if inst = 2 then 3 else 7
  | _ => 0

/-- A write of PAGE_EVENT_FORCE (02_host_interface.md R64). -/
def doEventForce (pg : Nat) (v : Word) (s : State) : State :=
  match pageAt pg with
  | none => s
  | some (ty, inst) => s.pageEvent pg (v.toNat &&& s.definedEvents ty inst)

/-- A W1C write of PAGE_EVENT (12_interrupt_delivery.md R368). -/
def doEventClear (pg : Nat) (v : Word) (s : State) : State :=
  let old := s.rd (pg + 0x10)
  let s := (s.wr (pg + 0x10) (old &&& ~~~ v)).syncSource pg
  if old &&& v != 0#32 && s.output pg then s.signalPage pg else s

/-- A write of PAGE_EVENT_EN; undefined bits stay 0 (02_host_interface.md R59). -/
def doEventEnable (pg : Nat) (v : Word) (s : State) : State :=
  match pageAt pg with
  | none => s
  | some (ty, inst) =>
    let old := s.output pg
    (s.wrN (pg + 0x14) (v.toNat &&& s.definedEvents ty inst)).afterOutput pg old

/-! ### Source configuration -/

/-- The source that CIC_SRC_SEL selects: above 447 acts as 447. -/
def State.srcSel (s : State) : Nat := min 447 (s.fld R.cicSrcSel F.cicSrcSel_source)

/-- CIC_SRC_SEL advances after an access to CIC_SRC_CFG and wraps from 447 to 0. -/
def State.srcAdvance (s : State) : State :=
  s.put R.cicSrcSel F.cicSrcSel_source (if s.srcSel = 447 then 0 else s.srcSel + 1)

/-- CIC_SRC_CFG of a source; a general-world requester sees of a world-1 source only its world bit
(12_interrupt_delivery.md R358). -/
def State.srcCfgWord (s : State) (r : Req) (n : Nat) : Word :=
  let x := s.src n
  let w1 := s.srcWorld1 n
  if w1 && !s.reqWorld1 r then w32 (2 ^ 27)
  else
    let edge := srcIsEdge n
    w32 (b2n (s.srcPending n) * 2 ^ 31 + b2n x.claimed * 2 ^ 30 + (if x.claimed then x.claimer * 2 ^ 28 else 0) +
      b2n w1 * 2 ^ 27 + b2n (!edge && 0 < n && n < 327) * 2 ^ 26 + b2n (!edge && x.input) * 2 ^ 25 +
      srcPriority x * 2 ^ 8 + srcTarget x * 2 ^ 4 + b2n (srcEnable x))

/-- A read of CIC_SRC_CFG. -/
def readSrcCfg (r : Req) (s : State) : Word × State := (s.srcCfgWord r s.srcSel, s.srcAdvance)

/-- A write of CIC_SRC_CFG (12_interrupt_delivery.md R358, R363; 11_control_cores_and_the_protected_world.md R346). -/
def doSrcCfg (r : Req) (v : Word) (s : State) : State :=
  let n := s.srcSel
  let s :=
    if s.srcWorld1 n && !s.reqProtected r then s.xwDenied r 4 R.cicSrcCfg
    else (s.setSrc n { s.src n with cfg := v &&& 0x731#32 }).wake
  s.srcAdvance

/-- CIC_PENDING_i: a general-world requester reads world-1 bits as 0. -/
def State.pendingWord (s : State) (r : Req) (i : Nat) : Word :=
  w32 ((List.range 32).foldl (fun n j =>
    n + b2n (s.srcPending (32 * i + j) && (!s.srcWorld1 (32 * i + j) || s.reqWorld1 r)) * 2 ^ j) 0)

/-! ### Claim and complete -/

/-- The delivered source of a world with the highest priority, lowest number first (12_interrupt_delivery.md R361). -/
def State.bestSource (s : State) (c : Nat) (w1 : Bool) : Nat :=
  (s.cic.srcs.foldl (fun best e =>
    if s.srcWorld1 e.1 == w1 && s.delivered c e.1 && best.2 < srcPriority e.2 then (e.1, srcPriority e.2) else best)
    (0, 0)).1

/-- A read of CIC_CLAIM (12_interrupt_delivery.md R361). -/
def readClaim (r : Req) (s : State) : Word × State :=
  match r with
  | .host _ => (0#32, s)
  | .core c =>
    let n := s.bestSource c (s.reqWorld1 r)
    if n = 0 then (0#32, s)
    else (w32 n, s.setSrc n { s.src n with pending := false, claimed := true, claimer := c })

/-- A write of CIC_CLAIM (12_interrupt_delivery.md R362). -/
def doComplete (r : Req) (v : Word) (s : State) : State :=
  match r with
  | .host _ => s
  | .core c =>
    let n := bitsOf v.toNat 8 0
    let x := s.src n
    if x.claimed && x.claimer == c.val then (s.setSrc n { x with claimed := false }).wake
    else s.count R.cicCompleteErr F.cicCompleteErr_n

/-! ### Thresholds, software interrupts, timers -/

/-- A write of CIC_THRESH_n: p_thresh from PROTECTED only. -/
def doThresh (r : Req) (n : Nat) (v : Word) (s : State) : State :=
  let s := s.put (R.cicThresh n) ⟨2, 0⟩ (bitsOf v.toNat 2 0)
  let s := if s.reqProtected r then s.put (R.cicThresh n) ⟨10, 8⟩ (bitsOf v.toNat 10 8) else s
  s.wake

/-- A write of CIC_SWI: an edge for each bit written as 1 (12_interrupt_delivery.md R357). -/
def doSwi (v : Word) (s : State) : State :=
  s.each [0, 1, 2, 3] fun s n => if bitAt v.toNat n then s.edge (319 + n) else s

/-- The compare value of a core's timer that is in force. -/
def State.compare (s : State) (n : Nat) : Nat := Tab.get (2 ^ 64 - 1) s.cic.tcmp n

/-- A core's timer source is asserted while station time is at or above its compare value (12_interrupt_delivery.md R357). -/
def State.syncTimer (s : State) (n : Nat) : State := s.setInput (323 + n) (s.compare n ≤ s.now)

/-- A write of CIC_TCMP_LO_n is held. -/
def doTimerLow (n : Nat) (v : Word) (s : State) : State := s.wr (R.cicTcmpLo n) v

/-- A write of CIC_TCMP_HI_n: the whole compare value takes effect. -/
def doTimerCompare (n : Nat) (v : Word) (s : State) : State :=
  let s := s.wr (R.cicTcmpHi n) v
  let c := s.num (R.cicTcmpLo n) + v.toNat * 2 ^ 32
  State.syncTimer { s with cic := { s.cic with tcmp := Tab.set (2 ^ 64 - 1) s.cic.tcmp n c } } n

/-- Station time reaches a core's compare value (12_interrupt_delivery.md R357). -/
def doTimerAssert (n : Nat) (s : State) : State := s.syncTimer n

/-! ### Messages to the host -/

/-- A pending message whose vector can send again is sent (12_interrupt_delivery.md R369, R370). -/
def doMsixPending (vec : Nat) (s : State) : State :=
  if (s.pba vec || s.lateMsix vec) && s.canSend vec then
    let s := if s.lateMsix vec then
      { s with hif := { s.hif with heldLines := s.hif.heldLines.filter (· ≠ vec - 0x7F8) } } else s
    (s.setPba vec false).dueMsix vec
  else s

/-- The end of a vector's moderation interval (12_interrupt_delivery.md R370). -/
def doModerationEnd (vec : Nat) (s : State) : State :=
  if s.hif.merged.contains vec && !s.moderated vec then
    if s.canSend vec then s.sendMsix vec
    else State.setPba { s with hif := { s.hif with merged := s.hif.merged.filter (· ≠ vec) } } vec true
  else s

end Sys2Proof.Machine
end

