-- ==== Sys2Proof/Machine/Cores.lean ====
section
/-!
DEFINITION. The control cores: the world token, entries into and exits from the protected world, the monitor and the
mailbox, the caches, assignments (11_control_cores_and_the_protected_world.md R320 to R347).
-/

namespace Sys2Proof.Machine

/-! ### Registers of a core -/

/-- A general register; x0 reads 0. -/
def CoreSt.reg (c : CoreSt) (n : Nat) : Word := if n = 0 then 0#32 else Tab.get 0#32 c.x n

/-- Write a general register; a write of x0 is discarded. -/
def CoreSt.setReg (c : CoreSt) (n : Nat) (v : Word) : CoreSt :=
  if n = 0 then c else { c with x := Tab.set 0#32 c.x n v }

/-- The core fetches and executes instructions: released, not halted, not in WFI. -/
def CoreSt.runs (c : CoreSt) : Bool := !c.held && !c.halted && !c.wfi

/-- CSR numbers of the banked registers (RISC-V privileged specification; log 9). -/
def csr.mstatus : Nat := 0x300
def csr.mie : Nat := 0x304
def csr.mtvec : Nat := 0x305
def csr.mepc : Nat := 0x341
def csr.mcause : Nat := 0x342
def csr.mtval : Nat := 0x343
def csr.pmpcfg (i : Nat) : Nat := 0x3A0 + i
def csr.pmpaddr (i : Nat) : Nat := 0x3B0 + i
def csr.wdwin : Nat := 0x7C2

/-- The bank of the core's current world (11_control_cores_and_the_protected_world.md R324). -/
def CoreSt.bank (c : CoreSt) : Tab Word := if c.st = 0 then c.g else c.p

/-- Write a register of the bank of the current world. -/
def CoreSt.setCsr (c : CoreSt) (n : Nat) (v : Word) : CoreSt :=
  if c.st = 0 then { c with g := Tab.set 0#32 c.g n v } else { c with p := Tab.set 0#32 c.p n v }

/-- Write a register of the protected bank. -/
def CoreSt.setP (c : CoreSt) (n : Nat) (v : Word) : CoreSt := { c with p := Tab.set 0#32 c.p n v }

/-- The next instruction of a 32-bit one. -/
def CoreSt.next (c : CoreSt) : CoreSt := { c with pc := c.pc + 4#32 }

/-- Take an exception or interrupt through the bank of the current world, as the privileged specification defines it
(11_control_cores_and_the_protected_world.md R320, R332): mepc, mcause and mtval, MPIE from MIE, MIE clear, MPP the mode left,
and the pc at the handler. -/
def CoreSt.trap (c : CoreSt) (interrupt : Bool) (cause : Nat) (epc tval : Word) : CoreSt :=
  let st := (Tab.get 0#32 c.bank csr.mstatus).toNat
  let tv := (Tab.get 0#32 c.bank csr.mtvec).toNat
  let st' := Fld.put ⟨7, 7⟩ (w32 st) (bitsOf st 3 3)
  let st' := Fld.put ⟨3, 3⟩ st' 0
  let st' := Fld.put ⟨12, 11⟩ st' (if c.user then 0 else 3)
  let base := tv / 4 * 4
  let c := ((c.setCsr csr.mepc epc).setCsr csr.mcause (w32 (b2n interrupt * 2 ^ 31 + cause))).setCsr csr.mtval tval
  let c := c.setCsr csr.mstatus st'
  { c with pc := w32 (if interrupt && tv % 4 = 1 then base + 4 * cause else base), user := false }

/-- An illegal-instruction exception; mtval is a free value, for no row gives the instruction's bits
(11_control_cores_and_the_protected_world.md R325; log 1). -/
def State.illegal (s : State) (c : Nat) : State :=
  let (v, s) := s.free (2 ^ 32)
  s.updCore c fun x => x.trap false 2 x.pc (w32 v)

/-! ### The save area -/

/-- Control-core memory offset of the save area of a core (11_control_cores_and_the_protected_world.md R329). -/
def saveArea (c : Nat) : Nat := 0x304000 + c * 0x100

/-- Registers that a gate call or a monitor call saves: ra, sp, gp, tp, s0 to s11 (11_control_cores_and_the_protected_world.md R326). -/
def calleeSaved (n : Nat) : Bool := n == 1 || n == 2 || n == 3 || n == 4 || n == 8 || n == 9 || (18 ≤ n && n ≤ 27)

/-- Save registers and the pc of a core; the other words become 0 (11_control_cores_and_the_protected_world.md R329). -/
def State.saveRegs (s : State) (c : Nat) (all : Bool) : State :=
  let x := s.core c
  let bytes := ((List.range 31).flatMap fun i =>
    leBytes 4 (if all || calleeSaved (i + 1) then (x.reg (i + 1)).toNat else 0)) ++ leBytes 4 x.pc.toNat
  { s with mem := { s.mem with ctl := Mem.write 0 s.mem.ctl (saveArea c) bytes } }

/-- Word `n` of the save area of a core. -/
def State.saved (s : State) (c n : Nat) : Word := w32 (Mem.le 0 s.mem.ctl (saveArea c + 4 * n) 4)

/-- The general registers restored from the save area: those that `keep` names; a0 and a1 as given; the rest 0. -/
def State.restored (s : State) (c : Nat) (all : Bool) (a0 a1 : Word) : Tab Word :=
  (List.range 31).foldl (fun t i =>
    let n := i + 1
    let v := if all || calleeSaved n then s.saved c i
             else if n = 10 then a0 else if n = 11 then a1 else 0#32
    Tab.set 0#32 t n v) []

/-! ### Entries -/

/-- The registers at the start of an entry: a0 to a7 kept or 0, the rest 0 (11_control_cores_and_the_protected_world.md R326). -/
def CoreSt.entryRegs (c : CoreSt) (keepArgs : Bool) : Tab Word :=
  c.x.filter fun e => keepArgs && 10 ≤ e.1 && e.1 ≤ 17

/-- The protected bank at an entry: MIE clear, MPP machine mode (11_control_cores_and_the_protected_world.md R324). -/
def CoreSt.entryBank (c : CoreSt) : CoreSt :=
  c.setP csr.mstatus (Fld.put ⟨12, 11⟩ (Fld.put ⟨3, 3⟩ (Tab.get 0#32 c.p csr.mstatus) 0) 3)

/-- Take the token (11_control_cores_and_the_protected_world.md R323). -/
def State.takeToken (s : State) (c : Nat) : State := { s with wld := { s.wld with token := some c } }

/-- Give the token back. -/
def State.freeToken (s : State) : State := { s with wld := { s.wld with token := none } }

/-- The gate is armed. -/
def State.armed (s : State) : Bool := s.flag R.wldGateCtrl F.wldGateCtrl_armed

/-- The protected world is parked: it stays down (11_control_cores_and_the_protected_world.md R356). -/
def State.parked (s : State) : Bool := s.flag R.wldStatus F.wldStatus_parked

/-- A forced entry is due on a core: a world-1 source is delivered to it in GENERAL; a halted core takes none, and a parked world
is not entered (11_control_cores_and_the_protected_world.md R328, R356; 16_power_resets_and_start_up.md R478). -/
def State.forcedDue (s : State) (c : Nat) : Bool :=
  (s.core c).st == 0 && !(s.core c).held && !(s.core c).halted && s.meip c true && !s.parked

/-- A forced entry is due on some core: it takes a free token before a restart entry or a gate call
(11_control_cores_and_the_protected_world.md R323). -/
def State.anyForced (s : State) : Bool := ([0, 1, 2, 3] : List Nat).any s.forcedDue

/-- A gate call does not get the token: it is held, or an entry that comes before a gate call is due
(11_control_cores_and_the_protected_world.md R323). -/
def State.tokenBusy (s : State) : Bool :=
  s.wld.token.isSome || s.anyForced || (s.wld.restartDue && s.restartCore.isSome)

/-- A service entry is valid (11_control_cores_and_the_protected_world.md R336). -/
def State.serviceValid (s : State) (svc : Nat) : Bool :=
  let e := s.num (K.gateEntry svc)
  let a := e / 4 * 4
  bitAt e 0 && 0x10308000 ≤ a && a ≤ 0x103FFFFC

/-- A gate call returns a status without entering (11_control_cores_and_the_protected_world.md, WLD_WGATE). -/
def State.gateRefuse (s : State) (c rd status : Nat) : State :=
  (s.updCore c fun x => (x.setReg rd (w32 status)).next).count R.wldGateRefused F.wldGateRefused_n

/-- A csrrw on WLD_WGATE (11_control_cores_and_the_protected_world.md R323, R325, R326, R327, R356). -/
def doGateCall (c rd : Nat) (rs1 : Word) (s : State) : State :=
  let x := s.core c
  let svc := rs1.toNat
  if !x.runs then s
  else if x.user || x.st != 0 then s.illegal c
  else if !s.armed || s.parked then s.gateRefuse c rd 2
  else if !(svc < 64 && s.serviceValid svc) then s.gateRefuse c rd 3
  else if s.tokenBusy then s.gateRefuse c rd 1
  else
    let s := (s.saveRegs c false).takeToken c
    let s := s.setCore c { (x.entryBank) with
      x := x.entryRegs true, st := 1, entry := some (.gate rd), pc := w32 (s.num (K.gateEntry svc) / 4 * 4) }
    s.count R.wldGateCalls F.wldGateCalls_n

/-- A world-1 source is delivered to a core in GENERAL and the token is free: the forced entry, on the lowest of the cores on
which one is due (11_control_cores_and_the_protected_world.md R323, R326, R328; 16_power_resets_and_start_up.md R478). -/
def doForcedEntry (c : Nat) (s : State) : State :=
  if s.forcedDue c && s.wld.token.isNone && !((List.range c).any s.forcedDue) then
    let x := s.core c
    let s := (s.saveRegs c true).takeToken c
    let y := { x.entryBank with x := [], st := 1, entry := some (.forced x.user), wfi := false, user := false }
    let y := (y.trap true 11 0#32 0#32).setP csr.mepc 0#32
    s.setCore c y.entryBank
  else s

/-- The restart entry on a core (11_control_cores_and_the_protected_world.md R326, R355). -/
def State.enterRestart (s : State) (c : Nat) : State :=
  let x := s.core c
  let s := (s.saveRegs c true).takeToken c
  let y := { x.entryBank with
    x := [], st := 1, entry := some (.restart x.user), pc := 0x100#32, wfi := false, user := false }
  { s.setCore c (y.setP csr.mepc 0#32) with wld := { (s.setCore c (y.setP csr.mepc 0#32)).wld with restartDue := false } }

/-! ### Exits -/

/-- The address of WLD_BOOT_G_ENTRY. -/
def State.generalEntry (s : State) : Word := s.rd R.wldBootGEntry

/-- Leave PROTECTED or MONITOR: the token goes back and the general state returns, with `rdStatus` in the csrrw's rd after a gate
call; a forced entry and a restart entry return to the mode they left (11_control_cores_and_the_protected_world.md R328, R330,
R352). -/
def State.leave (s : State) (c : Nat) (rdStatus : Nat) (a0 a1 : Word) : State :=
  let x := s.core c
  let y : CoreSt :=
    match x.entry with
    | some (.gate rd) =>
      ({ x with x := s.restored c false a0 a1, pc := s.saved c 31 + 4#32, user := false }).setReg rd (w32 rdStatus)
    | some .powerOn => { x with x := [], pc := s.generalEntry, user := false }
    | none => { x with x := [], pc := s.generalEntry, user := false }
    | some .monitor => { x with x := s.restored c false a0 a1, pc := s.saved c 31 + 4#32, user := false }
    | some (.forced u) => { x with x := s.restored c true a0 a1, pc := s.saved c 31, user := u }
    | some (.restart u) => { x with x := s.restored c true a0 a1, pc := s.saved c 31, user := u }
  let s := s.setCore c { y with st := 0, entry := none }
  if s.wld.token = some c then s.freeToken else s

/-- The three world locks are set (11_control_cores_and_the_protected_world.md R330). -/
def State.worldLocked (s : State) : Bool :=
  s.flag R.wldLock F.wldLock_guard_lock && s.flag R.wldLock F.wldLock_assign_lock && s.flag R.wldLock F.wldLock_cache_lock

/-- The state was entered with no saved general state. -/
def CoreSt.unsaved (x : CoreSt) : Bool :=
  match x.entry with
  | some .powerOn => true
  | none => true
  | _ => false

/-- A write of WLD_WEXIT (11_control_cores_and_the_protected_world.md R325, R330). -/
def doWorldExit (c : Nat) (s : State) : State :=
  let x := s.core c
  if !x.runs then s
  else if x.user || x.st = 0 then s.illegal c
  else if x.st = 2 then s.leave c 0 (x.reg 10) (x.reg 11)
  else if x.unsaved then
    if s.worldLocked then s.leave c 0 0#32 0#32 else s.updCore c CoreSt.next
  else s.leave c 0 (x.reg 10) (x.reg 11)

/-! ### The monitor and the mailbox -/

/-- WLD_WSTAT of a core (11_control_cores_and_the_protected_world.md). -/
def State.wstat (s : State) (c : Nat) : Word :=
  w32 ((s.core c).st * 2 ^ 30 + b2n s.armed * 2 ^ 29 + s.fld R.wldStatus F.wldStatus_running * 2 ^ 28 +
    s.fld R.wldStatus F.wldStatus_parked * 2 ^ 27 + b2n s.wld.token.isSome * 2 ^ 26 + (s.wld.token.getD 0) * 2 ^ 24 + c)

/-- A monitor call as a whole: its entry, the function `f` on the saved state, which answers a0 and a1, and its exit; an
ECALL that the monitor does not take traps to the general bank (11_control_cores_and_the_protected_world.md R326, R330, R333).
In MONITOR the state reads 0b10. -/
def State.monitorCall (s : State) (c : Nat) (f : State → Word × Word × State) : State :=
  let x := s.core c
  if !x.runs || x.st != 0 then s
  else if x.user then s.updCore c fun x => x.trap false 8 x.pc 0#32
  else if !bitAt (s.num R.wldCoreCtrl) c then s.updCore c fun x => x.trap false 11 x.pc 0#32
  else
    let s := s.saveRegs c false
    let s := s.setCore c { x with x := x.entryRegs true, st := 2, entry := some .monitor, pc := 0x200#32 }
    let (a0, a1, s) := f s
    s.leave c 0 a0 a1

/-- QUERY (11_control_cores_and_the_protected_world.md R333). -/
def monQuery (c : Nat) (s : State) : Word × Word × State := (s.wstat c, s.rd R.wldFwVersion, s)

/-- The state of a mailbox slot: 0 FREE, 1 PENDING, 2 DONE, 3 ABORTED. -/
def State.slotState (s : State) (k : Nat) : Nat := bitsOf (s.num (K.mailbox k 0)) 31 30

/-- Set the state of a mailbox slot. -/
def State.setSlot (s : State) (k v : Nat) : State := s.put (K.mailbox k 0) ⟨31, 30⟩ v

/-- The lowest free mailbox slot (11_control_cores_and_the_protected_world.md R334). -/
def State.freeSlot (s : State) : Option Nat := (List.range 16).find? fun k => s.slotState k == 0

/-- POST (11_control_cores_and_the_protected_world.md R333, R334, R335). -/
def monPost (c : Nat) (s : State) : Word × Word × State :=
  let x := s.core c
  let svc := (x.reg 10).toNat
  if 63 < svc then (3#32, 0#32, s)
  else if s.parked then (2#32, 0#32, s)
  else match s.freeSlot with
    | none => (1#32, 0#32, s)
    | some k =>
      let g := (bitsOf (s.num (K.mailbox k 0)) 23 16 + 1) % 256
      let s := s.wrN (K.mailbox k 0) (2 ^ 30 + g * 2 ^ 16 + c * 2 ^ 8 + svc)
      let s := s.each [1, 2, 3, 4, 5] fun s i => s.wr (K.mailbox k i) (x.reg (10 + i))
      (0#32, w32 (g * 256 + k), s.event 0x80 2 0)

/-- POLL (11_control_cores_and_the_protected_world.md R333, R334). -/
def monPoll (c : Nat) (s : State) : Word × Word × State :=
  let t := ((s.core c).reg 10).toNat
  let k := t % 16
  if t / 256 != bitsOf (s.num (K.mailbox k 0)) 23 16 || t / 16 % 16 != 0 then (3#32, 0#32, s)
  else match s.slotState k with
    | 0 => (3#32, 0#32, s)
    | 1 => (0#32, 0#32, s)
    | 2 => (1#32, s.rd (K.mailbox k 6), s.setSlot k 0)
    | _ => (2#32, 0#32, s.setSlot k 0)

/-- A reserved function (11_control_cores_and_the_protected_world.md R333). -/
def monReserved (s : State) : Word × Word × State := (0xFF#32, 0#32, s)

/-- The slot and the word that WLD_MBOX_SEL selects. -/
def State.mboxSel (s : State) : Nat × Nat := (s.fld R.wldMboxSel ⟨7, 4⟩, s.fld R.wldMboxSel ⟨2, 0⟩)

/-- The word of WLD_MBOX_SEL advances and wraps from 7 to 0. -/
def State.mboxAdvance (s : State) : State := s.put R.wldMboxSel ⟨2, 0⟩ ((s.mboxSel.2 + 1) % 8)

/-- A read of WLD_MBOX_DATA; word 7 is reserved. -/
def readMbox (s : State) : Word × State :=
  let (k, w) := s.mboxSel
  (if w = 7 then 0#32 else s.rd (K.mailbox k w), s.mboxAdvance)

/-- A write of WLD_MBOX_DATA: the state only from PENDING to DONE, and the result word (11_control_cores_and_the_protected_world.md R335). -/
def doMboxWrite (v : Word) (s : State) : State :=
  let (k, w) := s.mboxSel
  let s :=
    if w = 0 then
      if bitsOf v.toNat 31 30 = 2 && s.slotState k = 1 then (s.setSlot k 2).edge 318 else s
    else if w = 6 then s.wr (K.mailbox k 6) v
    else s
  s.mboxAdvance

/-- A read of WLD_GATE_ENTRY: the selected service, which advances. -/
def readGateEntry (s : State) : Word × State :=
  let k := s.fld R.wldGateSel F.wldGateSel_service
  (s.rd (K.gateEntry k), s.put R.wldGateSel F.wldGateSel_service ((k + 1) % 64))

/-- A write of WLD_GATE_ENTRY: bit 1 is reserved. -/
def doGateEntry (v : Word) (s : State) : State :=
  let k := s.fld R.wldGateSel F.wldGateSel_service
  (s.wr (K.gateEntry k) (v &&& 0xFFFFFFFD#32)).put R.wldGateSel F.wldGateSel_service ((k + 1) % 64)

/-! ### Exceptions -/

/-- An exception is taken through the current world's bank, or ends a monitor call (11_control_cores_and_the_protected_world.md R332). -/
def State.takeException (s : State) (c cause : Nat) (tval : Word) : State :=
  let x := s.core c
  if x.st = 2 then s.leave c 0 0xFF#32 0#32
  else s.setCore c (x.trap false cause x.pc tval)

/-- A core's access to a station page is a bus error: the access fault of a load or of a store with the core address
(14_clock_generation.md R405; R321). A core that does not run makes none. -/
def State.busFault (s : State) (r : Req) (write : Bool) (off : Nat) : State :=
  match r with
  | .host _ => s
  | .core c =>
    if (s.core c.val).runs then s.takeException c.val (if write then 7 else 5) (w32 (0x20000000 + off)) else s

/-! ### Caches -/

/-- A way of a cache serves the protected world (11_control_cores_and_the_protected_world.md R342). -/
def State.wayProtected (s : State) (l : Line) : Bool :=
  if l.core = 4 then l.way < 4
  else bitAt (s.fld R.wldCacheWays (if l.instr then ⟨7, 0⟩ else ⟨15, 8⟩)) l.way

/-- A DRAM write of a core; a secondary discards those of its own cores (15_pairs_and_live_insertion.md R431). -/
def State.coreDramWrite (s : State) (c a : Nat) (data : List Byte) (world1 : Bool) : State :=
  if s.secondary then s else s.dramWrite a data c 0 world1

/-- Write a dirty line back: an L1 line to the L2 where the L2 holds it, else to DRAM (log 21). -/
def State.writeBack (s : State) (l : Line) : State :=
  if !l.dirty then s
  else
    let inL2 := l.core != 4 && s.wld.lines.any fun m => m.core == 4 && m.addr == l.addr
    let s :=
      if inL2 then
        { s with wld := { s.wld with lines := s.wld.lines.map fun m =>
            if m.core == 4 && m.addr == l.addr then { m with data := l.data, dirty := true } else m } }
      else s.coreDramWrite (min l.core 3) l.addr l.data (s.wayProtected l)
    { s with wld := { s.wld with lines := s.wld.lines.map fun m => if m = l then { m with dirty := false } else m } }

/-- Write back the dirty lines that a test selects. -/
def State.cleanLines (s : State) (p : Line → Bool) : State := s.each (s.wld.lines.filter p) State.writeBack

/-- Drop the lines that a test selects. -/
def State.dropLines (s : State) (p : Line → Bool) : State :=
  { s with wld := { s.wld with lines := s.wld.lines.filter fun l => !p l } }

/-- The lines that a maintenance write selects: the protected ways only from PROTECTED (11_control_cores_and_the_protected_world.md,
WLD_WCACHE.pw_ways; R343). -/
def State.selects (s : State) (c cache : Nat) (instr pw : Bool) (l : Line) : Bool :=
  l.core == cache && l.instr == instr && s.wayProtected l == (pw && (s.core c).st == 1)

/-- A maintenance write by a core: machine mode only; the write retires when it is complete (11_control_cores_and_the_protected_world.md
R325, WLD_WCACHE). -/
def State.maintain (s : State) (c : Nat) (f : State → State) : State :=
  let x := s.core c
  if !x.runs then s
  else if x.user then s.illegal c
  else (f s).updCore c CoreSt.next

/-- The operations of WLD_WCACHE on the ways selected: each a clean or an invalidation of one cache
(11_control_cores_and_the_protected_world.md, WLD_WCACHE). -/
def State.cleanL1d (s : State) (c : Nat) (pw : Bool) : State := s.cleanLines (s.selects c c false pw)
def State.invL1d (s : State) (c : Nat) (pw : Bool) : State := s.dropLines (s.selects c c false pw)
def State.invL1i (s : State) (c : Nat) (pw : Bool) : State := s.dropLines (s.selects c c true pw)
def State.cleanL2 (s : State) (c : Nat) (pw : Bool) : State := s.cleanLines (s.selects c 4 false pw)
def State.invL2 (s : State) (c : Nat) (pw : Bool) : State := s.dropLines (s.selects c 4 false pw)

def doCleanL1d (c : Nat) (pw : Bool) (s : State) : State := s.maintain c fun s => s.cleanL1d c pw
def doInvL1d (c : Nat) (pw : Bool) (s : State) : State := s.maintain c fun s => s.invL1d c pw
def doInvL1i (c : Nat) (pw : Bool) (s : State) : State := s.maintain c fun s => s.invL1i c pw
def doCleanL2 (c : Nat) (pw : Bool) (s : State) : State := s.maintain c fun s => s.cleanL2 c pw
def doInvL2 (c : Nat) (pw : Bool) (s : State) : State := s.maintain c fun s => s.invL2 c pw

/-- A write of WLD_WCACHE with any of its bits: a cache is cleaned before it is invalidated, the L1 before the L2
(11_control_cores_and_the_protected_world.md, WLD_WCACHE; log 21). -/
def State.wcache (s : State) (c : Nat) (v : Word) : State :=
  let pw := bitAt v.toNat 31
  let s := if bitAt v.toNat 0 then s.cleanL1d c pw else s
  let s := if bitAt v.toNat 1 then s.invL1d c pw else s
  let s := if bitAt v.toNat 2 then s.invL1i c pw else s
  let s := if bitAt v.toNat 3 then s.cleanL2 c pw else s
  if bitAt v.toNat 4 then s.invL2 c pw else s

/-- A write of WLD_CACHE_WAYS: ways that move between the worlds are cleaned and invalidated in every core first
(11_control_cores_and_the_protected_world.md R342). -/
def doCacheWays (v : Word) (s : State) : State :=
  let old := s.rd R.wldCacheWays
  let new := writeFields (fieldsAt 0x80 0 0x064) (s.rwlLocked 0x80 0 R.wldCacheWays) old v
  let moved (l : Line) : Bool :=
    l.core != 4 && bitAt (Fld.get (if l.instr then ⟨7, 0⟩ else ⟨15, 8⟩) (old ^^^ new)) l.way
  ((s.cleanLines moved).dropLines moved).wr R.wldCacheWays new

/-! ### Assignment -/

/-- The types that can be assigned, with their number of instances and whether owner_kind 0b01 is required
(11_control_cores_and_the_protected_world.md R344). -/
def assignable : List (Nat × Nat × Bool) :=
  [(0x42, 64, false), (0x41, 8, true), (0x43, 8, true), (0x50, 28, false), (0x51, 128, false), (0x61, 8, true), (0x70, 8, true)]

/-- Open a clock gate; an open cancels a close in progress (14_clock_generation.md R403, R406). -/
def State.openGate (s : State) (g : Nat) : State :=
  let s := s.put (R.clkGate (g / 32)) ⟨g % 32, g % 32⟩ 1
  State.syncSource { s with clk := { s.clk with closing := s.clk.closing.filter (· ≠ g) } } (gatePage g)

/-- Assign a block to the protected world (11_control_cores_and_the_protected_world.md R344). -/
def State.assign (s : State) (ty inst : Nat) : State :=
  let pg := pageBase ty inst
  let s := (s.wrN (pg + 0x1C) 0x80000100).put (pg + 0x20) ⟨1, 1⟩ 1
  match sourceOf ty inst with
  | none => s
  | some n => (s.openGate n).put (R.wldSrcWorld (n / 32)) ⟨n % 32, n % 32⟩ 1

/-- A write of WLD_ASSIGN from PROTECTED (11_control_cores_and_the_protected_world.md R344). -/
def doAssign (v : Word) (s : State) : State :=
  let ty := bitsOf v.toNat 23 8
  let inst := bitsOf v.toNat 7 0
  let s := if bitAt v.toNat 31 then s.clrF R.wldAssign F.wldAssign_refused else s
  if v.toNat % 2 ^ 24 = 0 then s
  else
    let ok := !s.flag R.wldLock F.wldLock_assign_lock &&
      assignable.any fun (t, n, permitted) =>
        t == ty && inst < n && s.ownerKind (pageBase ty inst) == b2n permitted
    if ok then s.assign ty inst else s.setF R.wldAssign F.wldAssign_refused

/-- A write of WLD_SRC_WORLD_i from PROTECTED: bits set only, locked by assign_lock (11_control_cores_and_the_protected_world.md). -/
def doSrcWorld (i : Nat) (v : Word) (s : State) : State :=
  if s.flag R.wldLock F.wldLock_assign_lock then s
  else (s.wr (R.wldSrcWorld i) (s.rd (R.wldSrcWorld i) ||| v)).wake

/-- A read of WLD_GUARD_BASE or WLD_GUARD_SIZE (11_control_cores_and_the_protected_world.md R338). -/
def State.guardWord (s : State) (size : Bool) : Word :=
  let g := s.fld R.wldGuardSel ⟨31, 30⟩
  let r := s.fld R.wldGuardSel ⟨3, 0⟩
  if r < guardCount g then s.rd (if size then K.guardSize g r else K.guardBase g r) else 0#32

/-- A write of WLD_GUARD_BASE or WLD_GUARD_SIZE from PROTECTED, until guard_lock is set (11_control_cores_and_the_protected_world.md R338). -/
def doGuardWrite (size : Bool) (v : Word) (s : State) : State :=
  let g := s.fld R.wldGuardSel ⟨31, 30⟩
  let r := s.fld R.wldGuardSel ⟨3, 0⟩
  if r < guardCount g && !s.flag R.wldLock F.wldLock_guard_lock then
    if size then s.wr (K.guardSize g r) (v &&& 0x800FFFFF#32) else s.wr (K.guardBase g r) (v &&& 0xFFFFF#32)
  else s

end Sys2Proof.Machine
end

