-- ==== Sys2Proof/Machine/Clk.lean ====
section
/-!
DEFINITION. Clock domains, their ratios, ramps and source switches, the clock-out pin and the reference monitor
(14_clock_generation.md R393 to R408, R412 to R416). What the loss of a PLL does to the blocks it clocks stands in Plls.lean.
-/

namespace Sys2Proof.Machine

/-! ### Domains -/

/-- The PLL that feeds a domain; AON has none (14_clock_generation.md R394, R395). -/
def domPll (d : Nat) : Option Nat :=
  match d with
  | 0 | 1 | 2 => some 0
  | 3 | 4 | 5 => some 1
  | 6 => some 3
  | 7 => some 2
  | 8 => some 4
  | 9 => some 5
  | 18 => none
  | _ => if d < 18 then some (d - 4) else none

/-- The ratio of a domain at reset; 0 in a direct domain (14_clock_generation.md R395). -/
def domRatio (d : Nat) : Nat :=
  match d with
  | 0 | 3 => 8
  | 1 | 4 => 4
  | 2 | 5 => 2
  | 6 => 16
  | _ => 0

/-- A domain at reset (14_clock_generation.md, CLK_DOM_CFG). -/
def domReset (d : Nat) : Dom := { src := 1, now := domRatio d, target := domRatio d }

/-- The domains that a PLL feeds. -/
def pllDoms (i : Nat) : List Nat := (List.range 18).filter fun d => domPll d == some i

/-- A domain. -/
def State.dom (s : State) (d : Nat) : Dom := (Tab.get none s.clk.doms d).getD (domReset d)

/-- Replace a domain. -/
def State.setDom (s : State) (d : Nat) (x : Dom) : State :=
  { s with clk := { s.clk with doms := Tab.set none s.clk.doms d (if x = domReset d then none else some x) } }

/-- A domain has a ratio path (14_clock_generation.md R395). -/
def hasRatio (d : Nat) : Bool := d < 7

/-- A domain clocks a world-1 block (14_clock_generation.md, text after R395). -/
def State.domWorld1 (s : State) (d : Nat) : Bool :=
  d == 0 || d == 3 ||
    (d == 5 && (List.range 8).any fun n => s.pageWorld1 (pageBase 0x61 n)) ||
    (d == 7 && (List.range 8).any fun n => s.pageWorld1 (pageBase 0x70 n)) ||
    (10 ≤ d && d < 18 && s.pageWorld1 (pageBase 0x41 (d - 10)))

/-- The domain that CLK_DOM_SEL names. -/
def State.domSel (s : State) : Nat := s.fld R.clkDomSel F.clkDomSel_domain

/-- CLK_DOM_CFG of the selected domain. -/
def State.domWord (s : State) : Word :=
  let x := s.dom s.domSel
  w32 (b2n x.switching * 2 ^ 31 + b2n x.coasting * 2 ^ 30 + b2n x.escaped * 2 ^ 29 + b2n x.refused * 2 ^ 28 +
    x.now * 2 ^ 16 + x.src * 2 ^ 8 + x.target)

/-- The writers of a domain's ratio and its largest value (14_clock_generation.md R395). -/
def State.ratioWriter (s : State) (r : Req) (d : Nat) : Bool :=
  (d == 0 && s.reqProtected r) || (d == 4 && (r.isHost || s.reqProtected r))

/-- The largest ratio that a write may set. -/
def ratioMax (d : Nat) : Nat := if d = 0 then 8 else 4

/-- A new target ratio: a ramp starts, or goes on from the current n; a coasting domain keeps it for its return
(14_clock_generation.md R398, CLK_DOM_CFG). -/
def State.setRatio (s : State) (d n : Nat) : State :=
  let x := s.dom d
  s.setDom d { x with target := n, switching := if x.coasting then x.switching else x.toSrc.isSome || x.now != n }

/-- A write of CLK_DOM_CFG. A write that leaves the ratio at its value is no ratio write (log 22). In Dim a write of the HAUL
ratio changes the saved value only (16_power_resets_and_start_up.md R457). -/
def doRatioWrite (r : Req) (v : Word) (s : State) : State :=
  let d := s.domSel
  let x := s.dom d
  let s := s.setDom d { x with escaped := x.escaped && !bitAt v.toNat 29, refused := x.refused && !bitAt v.toNat 28 }
  let n := bitsOf v.toNat 4 0
  let saved := if d = 4 then s.pwr.saved else none
  let present := match saved with | some (_, _, h) => h | none => x.target
  if n = present then s
  else if s.ratioWriter r d then
    if 1 ≤ n ∧ n ≤ ratioMax d then
      match saved with
      | some (sp, rate, _) => { s with pwr := { s.pwr with saved := some (sp, rate, n) } }
      | none => s.setRatio d n
    else s
  else
    let s := s.setDom d { s.dom d with refused := true }
    if s.domWorld1 d && !s.reqProtected r then s.xwDenied r 2 R.clkDomCfg else s

/-- One step of a ramp (14_clock_generation.md R398, R399). -/
def Dom.step (x : Dom) : Dom :=
  if !x.switching then x
  else match x.toSrc with
    | some t =>
      let n := x.now - 1
      if 1 < n then { x with now := n }
      else { x with now := 1, src := t, toSrc := none, switching := t == 0 && x.target != 1, coasting := t == 1 }
    | none =>
      let n := if x.now < x.target then x.now + 1 else if x.target < x.now then x.now - 1 else x.now
      { x with now := n, switching := n != x.target }

/-- RATIO_RAMP_STEP. -/
def doRampStep (d : Nat) (s : State) : State :=
  if hasRatio d then s.setDom d (s.dom d).step else s

/-- A domain starts to move to its PLL: a ratio-path domain ramps down to n = 1 first, a direct domain starts
(14_clock_generation.md R399). -/
def State.toPrimary (s : State) (d : Nat) : State :=
  let x := s.dom d
  if !hasRatio d then s.setDom d { x with src := 0, coasting := false }
  else if x.src = 0 then s
  else if 1 < x.now then s.setDom d { x with toSrc := some 0, switching := true }
  else s.setDom d { x with src := 0, toSrc := none, coasting := false, switching := x.target != 1 }

/-- A domain moves to FRO at n = 1 without the down-ramp, or stops where it is direct (14_clock_generation.md R399, R409). The
switch is over at the next RATIO_RAMP_STEP, or at a CLOCK_ESCAPE where the old clock has stopped dead. -/
def State.toCoast (s : State) (d : Nat) : State :=
  let x := s.dom d
  if hasRatio d then s.setDom d { x with src := 1, now := 1, toSrc := some 1, switching := true, coasting := true }
  else s.setDom d { x with src := 2, coasting := true }

/-- The old clock of a switch gives no falling edge: it is dropped at once (14_clock_generation.md R399). -/
def doEscape (d : Nat) (s : State) : State :=
  let x := s.dom d
  match x.toSrc with
  | none => s
  | some t =>
    let s := s.setDom d { x with
      src := t, toSrc := none, now := 1, switching := t == 0 && x.target != 1, coasting := t == 1, escaped := true }
    s.event 0xA0 1 5

/-! ### The clock-out pin -/

/-- The nominal rate in kHz of the clock that CLK_OUT_CTRL.source names (14_clock_generation.md R393, R395, R407). -/
def State.clkoutRate (s : State) : Nat :=
  match s.fld R.clkOutCtrl ⟨27, 24⟩ with
  | 0 => 25000
  | 1 => 33
  | 2 => 400000
  | 3 => 800000
  | 4 => 200000
  | 5 => 1000000
  | 6 => 24576
  | _ => s.fld (R.outPclk (s.fld R.clkOutCtrl ⟨22, 20⟩)) ⟨19, 0⟩

/-- The divider in use: the one written, or the smallest that keeps the pin at or below 100 MHz (14_clock_generation.md R407). -/
def State.clkoutDiv (s : State) : Nat := max (s.fld R.clkOutCtrl ⟨9, 0⟩ + 1) (ceilDiv s.clkoutRate 100000)

/-- A write of CLK_OUT_CTRL (14_clock_generation.md R407). -/
def doClkOut (v : Word) (s : State) : State := s.plainWrite R.clkOutCtrl v

/-! ### The reference monitor -/

/-- The reference is valid. -/
def State.refOk (s : State) : Bool := s.flag R.clkRefStatus F.clkRefStatus_ref_ok

/-- XO32 is present. -/
def State.xoOk (s : State) : Bool := s.flag R.clkRefStatus F.clkRefStatus_xo_ok

/-- The PLLs are in hold-over. -/
def State.holdover (s : State) : Bool := s.flag R.clkRefStatus F.clkRefStatus_holdover

/-- The module coasts. -/
def State.coast (s : State) : Bool := s.flag R.clkRefStatus F.clkRefStatus_coast

/-- A PLL is locked. -/
def State.pllOk (s : State) (i : Nat) : Bool := bitAt (s.num R.clkPllStatus) i

/-- Set the locked bit of a PLL. -/
def State.setLocked (s : State) (i : Nat) (b : Bool) : State := s.put R.clkPllStatus ⟨i, i⟩ (b2n b)

/-- Start a PLL: it locks at a PLL_LOCKED. -/
def State.startPll (s : State) (i : Nat) : State :=
  { s with clk := { s.clk with started := if s.clk.started.contains i then s.clk.started else s.clk.started ++ [i] } }

/-- The coast ends when every direct domain has restarted (14_clock_generation.md R415). -/
def State.coastEnds (s : State) : State :=
  if s.coast && !((List.range 18).any fun d => !hasRatio d && (s.dom d).coasting) then
    s.clrF R.clkRefStatus F.clkRefStatus_coast
  else s

/-- Stop a PLL: its direct domains stop with it. -/
def State.stopPll (s : State) (i : Nat) : State :=
  let s := s.setLocked i false
  let s := s.each (pllDoms i) fun s d =>
    if hasRatio d then s else s.setDom d { s.dom d with src := 2, coasting := false }
  State.coastEnds { s with clk := { s.clk with started := s.clk.started.filter (· ≠ i) } }

/-- A reference failure: hold-over starts, and a relock in progress is abandoned (14_clock_generation.md R408, R412, R416).
A further missing edge starts the recovery count anew. -/
def doRefFailure (s : State) : State :=
  let s := { s with clk := { s.clk with windowsOk := 0, missed := true } }
  if s.refOk then
    let s := (s.clrF R.clkRefStatus F.clkRefStatus_ref_ok).count R.clkRefStatus F.clkRefStatus_failures
    let s := s.setF R.clkRefStatus F.clkRefStatus_holdover
    let s := { s with clk := { s.clk with holdStart := s.time, started := [] } }
    s.event 0xA0 1 0
  else s

/-- A window of XO32 ends: out of range it is a failure; after one, a window counts for the recovery only if it is in range and REF
has missed no edge in it (14_clock_generation.md R408, R415). -/
def doXoWindow (edges : Nat) (s : State) : State :=
  if s.xoOk then
    let s := s.wrN R.clkRefCount edges
    let ok := 780469 ≤ edges && edges ≤ 782031
    let s :=
      if s.refOk then (if ok then s else doRefFailure s)
      else { s with clk := { s.clk with windowsOk := if ok && !s.clk.missed then s.clk.windowsOk + 1 else 0 } }
    { s with clk := { s.clk with missed := false } }
  else s

/-- XO32 gives no edge for 1 ms (14_clock_generation.md R408). -/
def doXoLost (s : State) : State :=
  if s.xoOk then
    (State.clrF { s with clk := { s.clk with windowsOk := 0 } } R.clkRefStatus F.clkRefStatus_xo_ok).event 0xA0 1 6
  else s

/-- XO32 gives edges again (14_clock_generation.md R408). -/
def doXoPresent (s : State) : State :=
  State.setF { s with clk := { s.clk with windowsOk := 0 } } R.clkRefStatus F.clkRefStatus_xo_ok

/-- REF has recovered: two windows in range, or without XO32 (14_clock_generation.md R415). -/
def State.recovered (s : State) : Bool := !s.refOk && (!s.xoOk || 2 ≤ s.clk.windowsOk)

end Sys2Proof.Machine
end

