-- ==== Sys2Proof/Machine/PlanRb.lean ====
section
/-!
DEFINITION. The read-back form of a bench plan and its registers (05_bench_plan_and_fit_check.md R178; 01_the_w880_at_a_glance.md R25).
-/

namespace Sys2Proof.Machine

/-- The timing that a plan is checked against. -/
def State.planTiming (s : State) (o : Nat) (p : Plan) : Timing :=
  if p.fallback then (s.fallbackTiming o).getD (s.normalTiming o) else s.normalTiming o

/-- The phase increment of an axis as R178 shows it. -/
def shownInc (ns nd : Nat) : Nat := if nd = 0 then 0 else (ns * 65536 + nd / 2) / nd

/-- A layer entry of the read-back form; its rectangle is the clipped one of R165. -/
def State.layerEntry (s : State) (p : Plan) (t : Timing) (l : CfgLayer) : List Byte :=
  let ident := if l.solid || l.cap then 0 else (imgGet l.image 1).toNat
  let (x, y, w, h) := l.clip t
  leBytes 1 l.slot ++ leBytes 1 (if l.cap then 0xFF else l.owner) ++
    leBytes 1 (l.cls + b2n (p.shed.contains l.slot) * 4 + b2n l.cap * 8 + b2n l.solid * 16) ++
    leBytes 1 (l.rot + b2n l.mirX * 4 + b2n l.mirY * 8) ++ leBytes 4 ident ++
    leBytes 4 (if ident = 0 then 0 else l.base / 65536 - s.poolBase) ++
    leBytes 2 x ++ leBytes 2 y ++ leBytes 2 w ++ leBytes 2 h ++ leBytes 2 l.ws ++ leBytes 2 l.hs ++
    leBytes 4 (shownInc l.ws l.dstW) ++ leBytes 4 (shownInc l.hs l.dstH) ++
    leBytes 4 l.costF ++ leBytes 4 (l.costL t) ++ leBytes 4 (l.costS t) ++
    leBytes 1 (if l.solid then 0 else l.fmt) ++ leBytes 1 l.nv ++ leBytes 1 l.k ++ leBytes 1 0

/-- A band entry of the read-back form: costs without the shed layers. -/
def bandEntry (p : Plan) (t : Timing) (b : Band) : List Byte :=
  let kept : Band := { b with layers := b.layers.filter fun l => !p.shed.contains l.slot }
  let mask := (List.range p.layers.length).foldl (fun m i =>
    match p.layers[i]? with
    | some l => if b.layers.any fun k => k.slot == l.slot then m + 2 ^ i else m
    | none => m) 0
  leBytes 2 b.first ++ leBytes 2 b.count ++ leBytes 4 kept.bytes ++ leBytes 4 (kept.steps t) ++ leBytes 1 mask ++
    [0#8, 0#8, 0#8]

/-- The header of the read-back form. -/
def State.planHeader (s : State) (o : Nat) (p : Plan) (t : Timing) (bands : Nat) : List Byte :=
  let kept := p.layers.filter fun l => !p.shed.contains l.slot
  let crit := p.layers.filter fun l => l.cls == 0
  leBytes 4 0x4E4C5042 ++ leBytes 2 1 ++ leBytes 1 o ++ leBytes 1 p.layers.length ++ leBytes 4 p.frame ++
    leBytes 2 t.ha ++ leBytes 2 t.va ++ leBytes 2 t.ht ++ leBytes 2 0 ++ leBytes 4 t.khz ++ leBytes 2 bands ++
    leBytes 1 (b2n (!p.shed.isEmpty) + b2n (s.fld (R.bplCapacity 0) F.bplCapacity_r_eff < 192) * 2 + b2n p.fallback * 4) ++
    leBytes 1 0 ++ leBytes 4 (peakBytes kept t) ++ leBytes 4 (peakSteps kept t) ++ leBytes 4 (lineBytes p.layers t) ++
    leBytes 4 (peakBytes crit t) ++ leBytes 4 (peakSteps crit t) ++ leBytes 8 p.accTime ++ List.replicate 8 0#8

/-- The read-back form of a plan, or of an absent plan. -/
def State.planBytes (s : State) (o : Nat) (p : Option Plan) : List Byte :=
  match p with
  | none => s.planHeader o { fallback := s.onFallback o } (s.checkTiming o) 0
  | some p =>
    let t := s.planTiming o p
    let bands := bandsOf p.layers t
    s.planHeader o p t bands.length ++ p.layers.flatMap (s.layerEntry p t) ++ bands.flatMap (bandEntry p t)

/-- A write of BPL_RB_CTRL: with snap, the snapshot is taken, complete before another can be asked for. -/
def doPlanSnap (o : Nat) (v : Word) (s : State) : State :=
  let s := s.put (R.bplRbCtrl o) F.bplRbCtrl_which (bitsOf v.toNat 1 1)
  if bitAt v.toNat 0 then
    let p := if bitAt v.toNat 1 then (s.out o).next else (s.out o).plan
    let s := s.setF (R.bplRbCtrl o) F.bplRbCtrl_valid
    let s := s.wrN (R.bplRbFrame o) (match p with | some q => q.frame | none => 0xFFFFFFFF)
    let bytes := s.planBytes o p
    s.updOut o fun x => { x with rb := wordsOf bytes }
  else s

/-- A read of BPL_RB_DATA: the index stops at 179. -/
def readPlanData (o : Nat) (s : State) : Word × State :=
  let i := min 179 (s.fld (R.bplRbIndex o) F.bplRbIndex_index)
  (((s.out o).rb[i]?).getD 0#32, s.put (R.bplRbIndex o) F.bplRbIndex_index (min 179 (i + 1)))

end Sys2Proof.Machine
end

