-- ==== Sys2Proof/Machine/Compose.lean ====
section
/-!
DEFINITION. The pixels of an output line: fetch, widening, colour conversion, scaler and blend
(06_layer_composition.md R181, R189 to R201; 07_scanout_and_display_links.md R224; 04_surfaces_and_haul.md R134).
-/

namespace Sys2Proof.Machine

/-- A pixel of four 12-bit channels (R190). -/
structure Px where
  a : Nat
  r : Nat
  g : Nat
  b : Nat
deriving DecidableEq, Repr

/-! ### Widening and conversion (R190, R191) -/

def widen8 (v : Nat) : Nat := v * 16 + v / 16
def widen10 (v : Nat) : Nat := v * 4 + v / 256
def widen6 (v : Nat) : Nat := v * 64 + v
def widen5 (v : Nat) : Nat := v * 128 + v * 4 + v / 8
def widen2 (v : Nat) : Nat := v * 0x555

/-- mul12 (R197). -/
def mul12 (a b : Nat) : Nat :=
  let t := a * b + 2048
  (t + t / 4096) / 4096

/-- The row of the conversion table that a colour byte selects: y0, my, mrr, mgb, mgr, mbb (R191). -/
def yuvRow (colour : Nat) : Int × Int × Int × Int × Int × Int :=
  match colour % 4 with
  | 0 => (16, 19147, 26245, -6442, -13369, 33172)
  | 2 => (0, 16444, 23055, -5659, -11743, 29139)
  | 1 => (16, 19147, 29480, -3507, -8763, 34737)
  | _ => (0, 16444, 25896, -3080, -7698, 30514)

/-- A YUV pixel as RGB (R191). -/
def yuvPixel (colour y cb cr : Nat) : Px :=
  let (y0, my, mrr, mgb, mgr, mbb) := yuvRow colour
  let l := my * ((y : Int) - y0)
  let u := (cb : Int) - 128
  let v := (cr : Int) - 128
  let c (x : Int) : Nat := (clampI 0 4095 (sar (x + 512) 10)).toNat
  { a := 4095, r := c (l + mrr * v), g := c (l + mgb * u + mgr * v), b := c (l + mbb * u) }

/-- A 32-bit pixel of a format in its linear layout (R189, R190). -/
def pixel32 (fmt p : Nat) : Px :=
  if fmt % 16 = 5 then
    { a := widen2 (bitsOf p 31 30), r := widen10 (bitsOf p 29 20), g := widen10 (bitsOf p 19 10), b := widen10 (bitsOf p 9 0) }
  else if fmt % 16 = 3 then
    { a := widen8 (bitsOf p 31 24), r := widen8 (bitsOf p 7 0), g := widen8 (bitsOf p 15 8), b := widen8 (bitsOf p 23 16) }
  else
    { a := if fmt % 16 = 2 then 4095 else widen8 (bitsOf p 31 24),
      r := widen8 (bitsOf p 23 16), g := widen8 (bitsOf p 15 8), b := widen8 (bitsOf p 7 0) }

/-- An RGB565 pixel (R189, R190). -/
def pixel565 (p : Nat) : Px :=
  { a := 4095, r := widen5 (bitsOf p 15 11), g := widen6 (bitsOf p 10 5), b := widen5 (bitsOf p 4 0) }

/-! ### Fetch geometry (R192, R193) -/

/-- The source pixel fetched for a scaler position (R192). -/
def CfgLayer.fetchAt (l : CfgLayer) (u v : Nat) : Nat × Nat :=
  let a := l.srcW - 1
  let b := l.srcH - 1
  let (p, q) := match l.rot with
    | 0 => (u, v)
    | 1 => (v, b - u)
    | 2 => (a - u, b - v)
    | _ => (a - v, u)
  let p := if l.mirX then a - p else p
  let q := if l.mirY then b - q else q
  (l.srcX + p, l.srcY + q)

/-- The pitch of a layer's source (R127; 06_layer_composition.md R202). -/
def CfgLayer.pitch (l : CfgLayer) : Nat := if l.cap then imgFld l.image 9 31 16 else pitchOf l.fmt l.sw

/-- The offset of plane 1 of a layer's source. -/
def CfgLayer.aux (l : CfgLayer) : Nat := roundUp (l.pitch * l.sh) 4096

/-- The number and place of the tile of a source pixel: group number and tile number (04_surfaces_and_haul.md R129). -/
def CfgLayer.tileOf (l : CfgLayer) (x y : Nat) : Nat × Nat := (y / 32 * groupsW l.sw + x / 32, y / 8 % 4 * 4 + x / 8 % 4)

/-- The DRAM offset of a tile's header byte, and of its data. -/
def CfgLayer.tileAt (l : CfgLayer) (x y : Nat) : Nat × Nat :=
  let (g, t) := l.tileOf x y
  (l.base + g * 16 + t, l.base + slotOf l.sw l.sh g + t * 256)

/-- The DRAM bytes that a source pixel is made of (R193, R224). -/
def State.sampleBytes (s : State) (l : CfgLayer) (x y : Nat) : List (Nat × Nat) :=
  if tiled l.fmt then
    let (h, d) := l.tileAt x y
    [(h, 1), (d, tileUsed (Mem.le 0 s.mem.dram h 1))]
  else if isNv12 l.fmt then
    [(l.base + y * l.pitch + x, 1), (l.base + l.aux + y / 2 * l.pitch + x / 2 * 2, 2)]
  else if l.fmt = 7 then [(l.base + y * l.pitch + x / 2 * 4, 4)]
  else [(l.base + y * l.pitch + x * pixBytes l.fmt, pixBytes l.fmt)]

/-- A source pixel, widened and converted (R189 to R193). -/
def State.samplePixel (s : State) (l : CfgLayer) (x y : Nat) : Px :=
  let m (a n : Nat) : Nat := Mem.le 0 s.mem.dram a n
  if tiled l.fmt then
    let (h, d) := l.tileAt x y
    pixel32 l.fmt (((decodeTile (m h 1) (Mem.read 0 s.mem.dram d 256))[y % 8 * 8 + x % 8]?).getD 0)
  else if isNv12 l.fmt then
    let c := l.base + l.aux + y / 2 * l.pitch + x / 2 * 2
    yuvPixel l.colour (m (l.base + y * l.pitch + x) 1) (m c 1) (m (c + 1) 1)
  else if l.fmt = 7 then
    let g := l.base + y * l.pitch + x / 2 * 4
    yuvPixel l.colour (m (g + x % 2 * 2) 1) (m (g + 1) 1) (m (g + 3) 1)
  else if l.fmt = 4 then pixel565 (m (l.base + y * l.pitch + x * 2) 2)
  else pixel32 l.fmt (m (l.base + y * l.pitch + x * 4) 4)

/-! ### The scaler (R194, R195) -/

/-- The phase increment, unsigned 16.16 (R194). -/
def phaseInc (ns nd : Nat) : Nat := (ns * 65536 + nd / 2) / nd

/-- Base sample and phase of destination index `j` (R194). -/
def scalePos (ns nd j : Nat) : Int × Nat :=
  let inc := phaseInc ns nd
  let pos : Int := (j * inc : Nat) + sar ((inc : Int) - 65536) 1
  (sar pos 16, (sar pos 10 % 64).toNat)

/-- A sample index replaced by the nearest index inside the source extent (R195). -/
def edgeIndex (n : Int) (ns : Nat) : Nat := (clampI 0 ((ns : Int) - 1) n).toNat

/-- The source indices that destination index `j` needs on an axis, with their coefficients; none scaled when bypassed:
`taps` is 6 horizontally and 4 vertically, `w0` the first coefficient word (R183, R194, R195). -/
def axisTaps (img : Tab Word) (ns nd j taps w0 : Nat) : List (Nat × Int) :=
  if ns = nd then [(j, 256)]
  else
    let (n, p) := scalePos ns nd j
    let back : Int := if taps = 6 then 2 else 1
    (List.range taps).map fun (i : Nat) =>
      (edgeIndex (n - back + (i : Int)) ns, signed 10 (bitsOf (imgGet img (w0 + 2 * p + i / 3)).toNat (i % 3 * 10 + 9) (i % 3 * 10)))

/-- One filter on a channel: rounded sum, clamped (R195). -/
def filterSum (l : List (Int × Nat)) : Nat :=
  (clampI 0 4095 (sar ((l.map fun e => e.1 * (e.2 : Int)).sum + 128) 8)).toNat

/-- One filter on the four channels; a single tap passes unchanged (R195). -/
def filterPx (taps : List (Int × Px)) : Px :=
  match taps with
  | [(_, p)] => p
  | _ =>
    let ch (f : Px → Nat) : Nat := filterSum (taps.map fun e => (e.1, f e.2))
    { a := ch (·.a), r := ch (·.r), g := ch (·.g), b := ch (·.b) }

/-! ### A layer's contribution (R196, R199, R201) -/

/-- alpha_mode in force: a capstone layer is OPAQUE. -/
def CfgLayer.alphaMode (l : CfgLayer) : Nat := if l.cap then 2 else imgFld l.image 0 10 9

/-- plane_alpha in force. -/
def CfgLayer.planeAlpha (l : CfgLayer) : Nat := if l.cap then 0xFF else imgFld l.image 0 19 12

/-- Step 3: the alpha mode (R196). -/
def applyAlpha (mode : Nat) (p : Px) : Px :=
  match mode with
  | 2 => { p with a := 4095 }
  | 0 => { p with r := mul12 p.r p.a, g := mul12 p.g p.a, b := mul12 p.b p.a }
  | _ => p

/-- Steps 5 and 6: clamp to alpha, then plane alpha (R196). -/
def applyPlane (plane : Nat) (p : Px) : Px :=
  let q := widen8 plane
  { a := mul12 p.a q, r := mul12 (min p.r p.a) q, g := mul12 (min p.g p.a) q, b := mul12 (min p.b p.a) q }

/-- Step 7: blend a contribution over what lies below (R196). -/
def blend (c d : Px) : Px :=
  let f (x y : Nat) : Nat := min 4095 (x + mul12 y (4095 - c.a))
  { a := 4095, r := f c.r d.r, g := f c.g d.g, b := f c.b d.b }

/-- The solid colour of an image (R199). -/
def solidPx (img : Tab Word) : Px :=
  { a := imgFld img 7 23 12, r := imgFld img 7 11 0, g := imgFld img 6 23 12, b := imgFld img 6 11 0 }

/-- A source sample after steps 1 to 3: replaced by opaque black where a block of it failed or was denied (R196; 07 R224;
11_control_cores_and_the_protected_world.md R339). -/
def State.sample (s : State) (l : CfgLayer) (failed : List Nat) (u v : Nat) : Px :=
  let (x, y) := l.fetchAt u v
  let lost := !failed.isEmpty && (s.sampleBytes l x y).any fun (a, n) => (blocksOf a n).any failed.contains
  applyAlpha l.alphaMode (if lost then { a := 4095, r := 0, g := 0, b := 0 } else s.samplePixel l x y)

/-- The destination index of an output coordinate, from the unclipped origin (R194). -/
def destIndex (x : Nat) (origin : Int) : Nat := ((x : Int) - origin).toNat

/-- The contribution of a layer to output pixel (x, y) that it covers (R195, R196). -/
def State.layerPx (s : State) (l : CfgLayer) (failed : List Nat) (x y : Nat) : Px :=
  applyPlane l.planeAlpha <|
    if l.solid then applyAlpha l.alphaMode (solidPx l.image)
    else
      let vs := axisTaps l.image l.hs l.dstH (destIndex y l.dstY) 4 144
      let us := axisTaps l.image l.ws l.dstW (destIndex x l.dstX) 6 16
      filterPx (us.map fun (u, cu) => (cu, filterPx (vs.map fun (v, cv) => (cv, s.sample l failed u v))))

/-- A layer covers an output pixel. -/
def CfgLayer.at_ (l : CfgLayer) (t : Timing) (x y : Nat) : Bool :=
  let (x0, y0, w, h) := l.clip t
  x0 ≤ x && x < x0 + w && y0 ≤ y && y < y0 + h

/-- The composed pixel of an output: the layers bottom up, from opaque black (R181, R196). -/
def State.composePx (s : State) (ls : List CfgLayer) (t : Timing) (failed : List Nat) (x y : Nat) : Px :=
  ls.foldl (fun d l => if l.at_ t x y then blend (s.layerPx l failed x y) d else d) { a := 4095, r := 0, g := 0, b := 0 }

/-! ### The blocks that a line fetches -/

/-- The source pixels that a layer needs for an output line. -/
def CfgLayer.lineSources (l : CfgLayer) (t : Timing) (y : Nat) : List (Nat × Nat) :=
  let (x0, y0, w, h) := l.clip t
  if l.solid || !(y0 ≤ y && y < y0 + h) then []
  else
    let vs := (axisTaps l.image l.hs l.dstH (destIndex y l.dstY) 4 144).foldl (fun c e => insertNat e.1 c) []
    let us := (List.range w).foldl (fun c i =>
      (axisTaps l.image l.ws l.dstW (destIndex (x0 + i) l.dstX) 6 16).foldl (fun c e => insertNat e.1 c) c) []
    vs.flatMap fun v => us.map fun u => l.fetchAt u v

/-- The blocks that a layer fetches for an output line. -/
def State.lineBlocks (s : State) (l : CfgLayer) (t : Timing) (y : Nat) : List Nat :=
  (l.lineSources t y).foldl (fun c (x, yy) =>
    (s.sampleBytes l x yy).foldl (fun c (a, n) => (blocksOf a n).foldl (fun c d => insertNat d c) c) c) []

/-- The tiles of a line whose header does not fit their data, by header address (04_surfaces_and_haul.md R134). -/
def State.lineBadTiles (s : State) (l : CfgLayer) (t : Timing) (y : Nat) : List Nat :=
  if !tiled l.fmt then []
  else (l.lineSources t y).foldl (fun c (x, yy) =>
    let (h, d) := l.tileAt x yy
    if tileHeaderOk (Mem.le 0 s.mem.dram h 1) (Mem.read 0 s.mem.dram d 256) then c else insertNat h c) []

end Sys2Proof.Machine
end

