-- ==== Sys2Proof/Machine/Haul.lean ====
section
/-!
DEFINITION. Transfers of the haul engines: how they are cut into segments, what a segment does, how a transfer ends
(04_surfaces_and_haul.md R135 to R145; 08_check_values_core_samples_and_floor_images.md R239, R240). The arbiter stands in Engines.lean.
-/

namespace Sys2Proof.Machine

/-! ### Arguments -/

/-- An outstanding command by its handle. -/
def State.cmdOf (s : State) (sp handle : Nat) : Option Cmd :=
  (s.space sp).cmds.find? fun c => c.handle == handle && c.inProgress

/-- The argument words of a transfer's command. -/
def State.xferWords (s : State) (x : Xfer) : List Word :=
  match s.cmdOf x.sp x.handle with
  | some c => c.words
  | none => []

/-- The row range of an import or export: first row and number of rows (R135). -/
def rowRange (arg h : Nat) : Nat × Nat :=
  (arg % 65536, if arg / 65536 = 0 then h - arg % 65536 else arg / 65536)

/-- The row-range argument of a surface command. -/
def rowArg (op : Nat) (ws : List Word) : Nat := argOf ws (if op = 1 then 6 else 5)

/-- The stored flag of a surface command. -/
def storedArg (op : Nat) (ws : List Word) : Bool := bitAt (argOf ws 1) (if op = 1 then 10 else 0)

/-! ### Segments -/

/-- Pieces of a transfer: host address, version offset, length. -/
abbrev Piece := Nat × Nat × Nat

/-- The rows of a linear transfer, Y rows then CbCr rows (R127, R135, R140). -/
def linearPieces (base hp f w h first n : Nat) : List Piece :=
  (List.range n).map (fun i => (base + (first + i) * hp, (first + i) * pitchOf f w, rowBytes f w)) ++
    (if isNv12 f then
      (List.range ((first + n) / 2 - first / 2)).map fun i =>
        (base + hp * h + (first / 2 + i) * hp, auxOffset f w h + (first / 2 + i) * pitchOf f w, w)
     else [])

/-- Contiguous runs of at most 64 KiB of host bytes (R145): host address, length and version runs of each. -/
def cutPieces : Nat → Option (Nat × Nat × List (Nat × Nat)) → List Piece → List (Nat × Nat × List (Nat × Nat))
  | 0, _, _ => []
  | _ + 1, none, [] => []
  | _ + 1, some c, [] => [c]
  | fuel + 1, none, (h, d, l) :: t =>
    let k := min l 65536
    cutPieces fuel (some (h, k, [(d, k)])) (if k < l then (h + k, d + k, l - k) :: t else t)
  | fuel + 1, some (h0, n, ds), (h, d, l) :: t =>
    if h = h0 + n ∧ n < 65536 then
      let k := min l (65536 - n)
      cutPieces fuel (some (h0, n + k, ds ++ [(d, k)])) (if k < l then (h + k, d + k, l - k) :: t else t)
    else (h0, n, ds) :: cutPieces fuel none ((h, d, l) :: t)

/-- Steps that cutting a list of pieces takes at most. -/
def cutFuel (ps : List Piece) : Nat := 3 * ps.length + (ps.map fun p => p.2.2).sum / 16384 + 16

/-- Segments of host runs (R145); offsets count from host address `start` (R142). -/
def hostSegs (start : Nat) (ps : List Piece) : List Seg :=
  (cutPieces (cutFuel ps) none ps).map fun (h, n, ds) =>
    { kind := .host, runs := [(h, n)], dram := ds, groups := [], off := h - start, size := n }

/-- Segments within module DRAM: the copy or the zero fill of R137 (R145). -/
def dramSegs (kind : SegKind) (rs : List (Nat × Nat)) : List Seg :=
  let ps := (rs.filter fun r => r.2 != 0).map fun (a, l) => (a, a, l)
  (cutPieces (cutFuel ps) none ps).map fun (_, n, ds) =>
    { kind := kind, runs := [], dram := ds, groups := [], off := 0, size := n }

/-- The columns of a group that lie within the surface. -/
def groupCols (w gx : Nat) : Nat := min 32 (w - gx * 32)

/-- The groups of one group row in runs of at most 64 KiB of host-side bytes (R145). -/
def groupRuns (w rows : Nat) : List (List Nat) :=
  ((List.range (groupsW w)).foldl (fun (done, cur, n) gx =>
    let b := groupCols w gx * 4 * rows
    if cur.isEmpty || n + b ≤ 65536 then (done, cur ++ [gx], n + b) else (done ++ [cur], [gx], b))
    (([] : List (List Nat)), ([] : List Nat), 0)) |> fun (done, cur, _) => done ++ [cur]

/-- Segments of a tile-compressed transfer with stored clear (R145). -/
def groupSegs (base hp w first n : Nat) : List Seg :=
  (List.range (ceilDiv (first + n) 32 - first / 32)).flatMap fun i =>
    let gy := first / 32 + i
    let rows := min 32 (first + n - gy * 32)
    (groupRuns w rows).map fun gs =>
      let gx0 := (gs.head?).getD 0
      let len := (gs.map fun gx => groupCols w gx * 4).sum
      { kind := .host,
        runs := (List.range rows).map fun r => (base + (gy * 32 + r) * hp + gx0 * 128, len),
        dram := [], groups := gs.map fun gx => (gx, gy),
        off := (gy * 32 - first) * hp + gx0 * 128, size := len * rows }

/-- The version-relative bytes of the rows outside a range (R137). -/
def outsideRows (f w h first n : Nat) : List (Nat × Nat) :=
  if tiled f then
    let g0 := first / 32
    let g1 := ceilDiv (first + n) 32
    let gw := groupsW w
    [(0, g0 * gw * 16), (g1 * gw * 16, (groupsH h - g1) * gw * 16),
     (headerLen w h, g0 * gw * 4096), (headerLen w h + g1 * gw * 4096, (groupsH h - g1) * gw * 4096)]
  else
    let p := pitchOf f w
    let aux := auxOffset f w h
    [(0, first * p), ((first + n) * p, (h - (first + n)) * p)] ++
      (if isNv12 f then [(aux, first / 2 * p), (aux + (first + n) / 2 * p, (h / 2 - (first + n) / 2) * p)] else [])

/-- The segments that move the range of an import or export. -/
def rangeSegs (stored : Bool) (base hp f w h first n : Nat) : List Seg :=
  if stored then hostSegs base [(base, 0, storedLen f w h)]
  else if tiled f then groupSegs base hp w first n
  else hostSegs (base + first * hp) (linearPieces base hp f w h first n)

/-- The segments of a host buffer that is read or written whole. -/
def bufferSegs (base len : Nat) : List Seg := if len = 0 then [] else hostSegs base [(base, 0, len)]

/-! ### The ends of a transfer -/

/-- Replace a transfer. -/
def State.putXfer (s : State) (x : Xfer) : State :=
  s.updHaul fun h => { h with xfers := h.xfers.map fun y => if y.sp = x.sp ∧ y.handle = x.handle then x else y }

/-- A transfer by its command. -/
def State.xfer (s : State) (sp handle : Nat) : Option Xfer :=
  s.haul.xfers.find? fun x => x.sp == sp && x.handle == handle

/-- A transfer starts: it takes its place in the order of starting (R146). -/
def State.addXfer (s : State) (x : Xfer) : State :=
  s.updHaul fun h => { h with xfers := h.xfers ++ [{ x with order := h.nextOrder }], nextOrder := h.nextOrder + 1 }

/-- A read is for a transfer. -/
def ReadFor.isOf (sp handle : Nat) : ReadFor → Bool
  | .segment a b _ => a == sp && b == handle
  | _ => false

/-- The engine that runs a segment of a transfer stops; data of its outstanding reads are discarded, and it issues no write
that still waits (03_slices.md R107). -/
def State.stopXfer (s : State) (sp handle : Nat) : State :=
  let s := s.updHaul fun h => { h with
    xfers := h.xfers.filter fun x => !(x.sp == sp && x.handle == handle),
    engines := h.engines.map fun e => (e.1, if e.2.run = some (sp, handle) then { e.2 with run := none } else e.2) }
  let s := if sp < 256 && (s.slice sp).waiting.any (fun w => w.kind == 4 && w.handle == handle) then
      s.updSlice sp fun x => { x with waiting := x.waiting.filter fun w => !(w.kind == 4 && w.handle == handle) }
    else s
  s.cancelReads (ReadFor.isOf sp handle)

/-- Canonical engines: an engine that never moved a byte and is idle is not listed. -/
def State.tidyEngines (s : State) : State :=
  s.updHaul fun h => { h with engines := h.engines.filter fun e => e.2 ≠ {} }

/-- A capture that ends early leaves the surfaces that it carried for a later round (03_slices.md R120). -/
def State.captureLost (s : State) (x : Xfer) : State :=
  if x.op = 0x10 then
    s.each (s.versionsWith fun v => v.holders.contains (.cmd x.sp x.handle)) fun s e => s.markDirty e.2.slice e.2.ident
  else s

/-- A transfer is over: its unit idles, its holds end, a version being filled is discarded, and an identifier that it
created is stale (R142). -/
def State.dropXfer (s : State) (x : Xfer) : State :=
  let s := s.captureLost x
  let s := (s.stopXfer x.sp x.handle).tidyEngines
  let s := match x.snoop with | some (u, _) => s.cvEnd u | none => s
  let s := s.endCmdHolds x.sp x.handle
  match x.vid with
  | none => s
  | some vid =>
    let created := match s.surface x.slice x.ident with | some f => f.cur.isNone | none => false
    let s := if created then s.putSurface x.slice x.ident none else s
    s.freeVersion vid

/-- A transfer ends in error (R142). -/
def State.failXfer (s : State) (x : Xfer) (status detail : Nat) : State :=
  (s.dropXfer x).fail x.sp x.handle status detail

/-- A transfer ends with its result; its version is no longer being filled. -/
def State.endXfer (s : State) (x : Xfer) (result : List Byte) : State :=
  let s := (s.stopXfer x.sp x.handle).tidyEngines
  let s := match x.snoop with | some (u, _) => s.cvEnd u | none => s
  (s.complete x.sp x.handle 0 result).endCmdHolds x.sp x.handle

/-- The offset behind the last host byte of a segment. -/
def Seg.hostEnd (g : Seg) : Nat :=
  match g.runs.head?, g.runs.getLast? with
  | some a, some b => g.off + (b.1 + b.2 - a.1)
  | _, _ => 0

/-- The offset of the first byte of a segment's reads that has not come: requests not issued or not completed (R142). -/
def State.readLostAt (s : State) (x : Xfer) (g : Seg) : Nat :=
  let open_ := (s.hif.reads.filter fun r => ReadFor.isOf x.sp x.handle r.use && !r.discard).map (·.off)
  let todo := (s.hif.gathers.filter fun h => ReadFor.isOf x.sp x.handle h.use).flatMap fun h => h.todo.map fun r => r.2.1 - h.first
  match open_ ++ todo with
  | [] => g.off
  | a :: t => g.off + t.foldl min a

/-- The host address of offset 0 of a transfer's range. -/
def Xfer.hostStart (x : Xfer) : Nat :=
  match x.segs.find? fun g => g.kind == .host with
  | some g => (g.runs.head?.map (·.1)).getD 0 - g.off
  | none => 0

/-- The offset of the first host byte not yet requested or read, for LINK_LOST (R142). Where every host byte has been moved and
only a copy or zero fill is left, it is the offset behind the last one (DESIGN CHOICE, log 34). -/
def State.lostAt (s : State) (x : Xfer) : Nat :=
  match (if x.op = 2 then (s.slice x.sp).waiting.find? fun w => w.kind == 4 && w.handle == x.handle else none) with
  | some w => w.addr - x.hostStart
  | none =>
  let i := if x.data.isSome then x.idx + 1 else x.idx
  let rest := (x.segs.drop i).filter fun g => g.kind == .host
  match rest with
  | g :: _ => if (x.segs[x.idx]?) == some g then s.readLostAt x g else g.off
  | [] => (x.segs.filter fun g => g.kind == .host).foldl (fun n g => max n g.hostEnd) 0

/-- The running value of the snooped unit, or 0 (R141). -/
def State.snoopValue (s : State) (x : Xfer) : Nat :=
  match x.snoop with
  | some (u, _) => s.num (R.cvuValue u)
  | none => 0

/-! ### Starting -/

/-- The snooped unit of a command: not asked for, or a unit with its point, or an error (R140). -/
def State.snoopStart (s : State) (sl : Nat) (ws : List Word) : Except (Nat × Nat) (Option (Nat × Bool)) :=
  let a := argOf ws 7
  if !bitAt a 7 then .ok none
  else match s.globalOf sl 2 (a % 32) with
    | none => .error (0x1003, 0x22)
    | some u => if s.cvBusy u then .error (0x1002, 0x21) else .ok (some (u, bitAt a 6))

/-- The snooped unit starts from CVU_INIT (R140; 08_check_values_core_samples_and_floor_images.md R238). -/
def State.snoopOn (s : State) (sp handle : Nat) (u : Option (Nat × Bool)) : State :=
  match u with
  | none => s
  | some (n, _) => s.cvStart n (.haul sp handle) (s.num (R.cvuInit n))

/-- The version and identifier of an import that starts: an existing surface takes a new version, a creating import also
takes an identifier (R137, R142). -/
def State.importTarget (s : State) (sl : Nat) (ws : List Word) : Except (Nat × Nat) (Nat × Nat × State) :=
  let a0 := argOf ws 0
  let (w, h, f) := (a0 % 65536, a0 / 65536, argOf ws 1 % 256)
  let len := storedLen f w h
  let target := argOf ws 5
  match s.allocFails sl (ceilDiv len 65536) with
    | some d => .error (0x3001, d)
    | none =>
      if target ≠ 0 then
        let (vid, s) := s.allocate sl target len
        .ok (target, vid, s)
      else match s.takeIdent sl w h f (colourOf f (bitsOf (argOf ws 1) 9 8)) with
        | none => .error (0x3001, 3)
        | some (ident, s) =>
          let (vid, s) := s.allocate sl ident len
          .ok (ident, vid, s)

/-- SURF_IMPORT starts (R137, R140). A surface released since is reported first (R143), then the snooped unit, then the
allocation: the order of the last two the spec leaves open (DESIGN CHOICE, log 98). -/
def startImport (sl : Nat) (c : Cmd) (s : State) : State :=
  let ws := c.words
  let a0 := argOf ws 0
  let (w, h, f) := (a0 % 65536, a0 / 65536, argOf ws 1 % 256)
  if argOf ws 5 ≠ 0 ∧ (s.surface sl (argOf ws 5)).isNone then s.fail sl c.handle 0x1004 5
  else match s.snoopStart sl ws with
  | .error (st, d) => s.fail sl c.handle st d
  | .ok u => match s.importTarget sl ws with
    | .error (st, d) => s.fail sl c.handle st d
    | .ok (ident, vid, s) =>
      let (first, n) := rowRange (argOf ws 6) h
      let cur := (s.surface sl ident).bind (·.cur)
      let rest := outsideRows f w h first n
      let segs := rangeSegs (bitAt (argOf ws 1) 10) (argAddr ws 2) (argOf ws 4) f w h first n ++
        dramSegs (if cur.isSome then .copy else .zero) rest
      let s := s.addXfer { sp := sl, handle := c.handle, op := 1, slice := sl, segs := segs, idx := 0, done := 0,
                           ident := ident, w := w, h := h, fmt := f, vid := some vid, src := cur, snoop := u,
                           buf := [], data := none, order := 0 }
      s.snoopOn sl c.handle u

/-- SURF_EXPORT starts: it reads the current version as it is now, and holds it (R139, R151). An identifier whose first
version is still being filled has none: it ends as one that does not exist (DESIGN CHOICE, log 98). -/
def startExport (sl : Nat) (c : Cmd) (s : State) : State :=
  let ws := c.words
  match s.surface sl (argOf ws 0) with
  | none => s.fail sl c.handle 0x1004 5
  | some x => match s.snoopStart sl ws with
    | .error (st, d) => s.fail sl c.handle st d
    | .ok u => match x.cur with
      | none => s.fail sl c.handle 0x1004 5
      | some vid =>
        let (first, n) := rowRange (argOf ws 5) x.h
        let segs := rangeSegs (bitAt (argOf ws 1) 0) (argAddr ws 2) (argOf ws 4) x.fmt x.w x.h first n
        let s := s.hold vid (.cmd sl c.handle)
        let s := s.addXfer { sp := sl, handle := c.handle, op := 2, slice := sl, segs := segs, idx := 0, done := 0,
                             ident := x.ident, w := x.w, h := x.h, fmt := x.fmt, vid := none, src := some vid,
                             snoop := u, buf := [], data := none, order := 0 }
        s.snoopOn sl c.handle u

/-- The unit of a CV_SEED: a slice's by its ordinal, or a station unit (08_check_values_core_samples_and_floor_images.md R239, R240). -/
def State.seedUnit (s : State) (sp : Nat) (ws : List Word) : Option Nat :=
  let u := argOf ws 0 % 32
  if sp < 256 then s.globalOf sp 2 u
  else if s.ownerKind (pageBase 0x50 u) = 1 && !s.pageWorld1 (pageBase 0x50 u) then some u else none

/-- The results of a CV_SEED (08_check_values_core_samples_and_floor_images.md R239). -/
def State.seedResult (s : State) (u fed : Nat) : List Byte :=
  let r := s.num (R.cvuValue u)
  leBytes 4 r ++ leBytes 4 (cvFinal (s.cvCfg u) r) ++ leBytes 4 fed

/-- CV_SEED starts (08_check_values_core_samples_and_floor_images.md R238 to R240). -/
def startSeed (sp : Nat) (c : Cmd) (s : State) : State :=
  let ws := c.words
  match s.seedUnit sp ws with
  | none => s.fail sp c.handle 0x1003 0x22
  | some u =>
    if s.cvBusy u then s.fail sp c.handle 0x1002 0x21
    else
      let r := match bitsOf (argOf ws 0) 9 8 with
        | 0 => s.num (R.cvuInit u)
        | 1 => argOf ws 1
        | _ => s.num (R.cvuValue u)
      let s := s.cvStart u (.seed sp c.handle) r
      let segs := bufferSegs (argAddr ws 2) (argOf ws 4)
      if segs.isEmpty then (s.cvEnd u).complete sp c.handle 0 (s.seedResult u 0)
      else s.addXfer { sp := sp, handle := c.handle, op := 5, slice := if sp < 256 then sp else 0, segs := segs, idx := 0,
                       done := 0, vid := none, src := none, snoop := some (u, false), buf := [], data := none, order := 0 }

/-- A transfer into a released surface ends (R143). -/
def State.endImportsInto (s : State) (sl ident : Nat) : State :=
  s.each (s.haul.xfers.filter fun x => x.op == 1 && x.slice == sl && x.ident == ident) fun s x => s.failXfer x 0x1004 4

/-- SURF_RELEASE takes effect (R143). -/
def startRelease (sl : Nat) (c : Cmd) (s : State) : State :=
  let ident := argOf c.words 0
  match s.surface sl ident with
  | none => s.fail sl c.handle 0x1004 5
  | some _ =>
    let s := (s.putSurface sl ident none).markFreed sl ident
    let s := s.endImportsInto sl ident
    let vs := s.versionsOf sl ident
    if vs.isEmpty then s.complete sl c.handle 0 (leBytes 4 ident ++ leBytes 4 0xFFFFFFFF ++ leBytes 4 0xFF)
    else s.retireAll sl ident

/-! ### What a segment moves -/

/-- Split bytes over runs: each run with its bytes. -/
def splitRuns : List (Nat × Nat) → List Byte → List (Nat × List Byte)
  | [], _ => []
  | (a, l) :: t, bs => (a, bs.take l) :: splitRuns t (bs.drop l)

/-- The bytes of version-relative runs, as DRAM holds them. -/
def State.runBytes (s : State) (base : Nat) (rs : List (Nat × Nat)) : List Byte :=
  rs.flatMap fun (a, l) => Mem.read 0 s.mem.dram (base + a) l

/-- Read version bytes of an engine, and log what fails; the first uncorrectable block's offset (R142;
13_memory_controller.md R382). -/
def State.haulReads (s : State) (e sl base : Nat) (rs : List (Nat × Nat)) (ecc : Ecc) : Option Nat × State :=
  rs.foldl (fun (f, s) (a, l) =>
    let (_, fails, s) := s.dramRead (base + a) l (0x10 + e) sl ecc
    (f.or ((fails.head?).map fun d => d * 64 - base), s)) (none, s)

/-- Version-relative runs of a group: its header and its slot (R129). -/
def groupRanges (w h : Nat) (g : Nat × Nat) : List (Nat × Nat) :=
  let k := g.2 * groupsW w + g.1
  [(k * 16, 16), (slotOf w h k, 4096)]

/-- The version-relative bytes that a segment reads or writes. -/
def Xfer.ranges (x : Xfer) (g : Seg) : List (Nat × Nat) :=
  if g.groups.isEmpty then g.dram else g.groups.flatMap (groupRanges x.w x.h)

/-- Write version bytes of an engine; the writes are mirrored (R144). -/
def State.haulWrites (s : State) (e sl base : Nat) (ws : List (Nat × List Byte)) : State :=
  s.each ws fun s (a, bs) => if bs.isEmpty then s else s.dramWrite (base + a) bs (0x10 + e) sl false

/-- A tile's kind is counted (04_surfaces_and_haul.md, SRF_TILES). -/
def State.countTile (s : State) (hdr : Nat) : State :=
  match bitsOf hdr 7 5 with
  | 0 => s.count R.srfTilesRaw F.srfTilesRaw_count
  | 1 => s.count R.srfTilesSolid F.srfTilesSolid_count
  | _ => s.count R.srfTilesDelta F.srfTilesDelta_count

/-- Pixel (x, y) in the host bytes of a group segment. -/
def segPixel (g : Seg) (data : List Byte) (x y : Nat) : Nat :=
  let rowLen := match g.runs.head? with | some r => r.2 | none => 0
  let (gx0, gy) := (g.groups.head?).getD (0, 0)
  leNat ((data.drop ((y - gy * 32) * rowLen + (x - gx0 * 32) * 4)).take 4)

/-- The 16 encoded tiles of a group (R132). -/
def encodeGroup (w h : Nat) (grp : Nat × Nat) (px : Nat → Nat → Nat) : List (Nat × List Byte) :=
  (List.range 16).map fun t => encodeTile (tilePixels w h grp.1 grp.2 t px)

/-- The stream of a group at a snoop point: its header bytes and the used bytes of its tiles (R140). -/
def groupStream (tiles : List (Nat × List Byte)) : List Byte :=
  tiles.map (fun t => BitVec.ofNat 8 t.1) ++ tiles.flatMap (·.2)

/-- The stored tiles of a group of a version: header byte and used bytes. -/
def State.storedGroup (s : State) (base w h k : Nat) : List (Nat × List Byte) :=
  (List.range 16).map fun t =>
    let hdr := Mem.le 0 s.mem.dram (base + k * 16 + t) 1
    (hdr, Mem.read 0 s.mem.dram (base + slotOf w h k + t * 256) (tileUsed hdr))

/-- Every tile of a group of a version is valid (R133, R138). -/
def State.groupValid (s : State) (base w h k : Nat) : Bool :=
  (List.range 16).all fun t =>
    tileOk (Mem.le 0 s.mem.dram (base + k * 16 + t) 1) (Mem.read 0 s.mem.dram (base + slotOf w h k + t * 256) 256)

/-- The groups whose slots lie in the version-relative bytes from `a` on (R145: segments of a stored form hold whole slots). -/
def slotsIn (w h a len : Nat) : List Nat :=
  let ha := headerLen w h
  (List.range (len / 4096)).filterMap fun i => if ha ≤ a + i * 4096 then some ((a + i * 4096 - ha) / 4096) else none

/-- The stored form of a version as the module writes it to the host: undefined bytes are 0 (R133). -/
def State.storedOut (s : State) (base f w h a len : Nat) : List Byte :=
  if !tiled f then Mem.read 0 s.mem.dram (base + a) len
  else
    let ha := headerLen w h
    let n := groupsW w * groupsH h * 16
    (List.range (len / 256)).flatMap fun i =>
      let o := a + i * 256
      if o < ha then (Mem.read 0 s.mem.dram (base + o) 256).take (n - o) |> padTo 256
      else
        let k := (o - ha) / 256
        padTo 256 (Mem.read 0 s.mem.dram (base + o) (tileUsed (Mem.le 0 s.mem.dram (base + k) 1)))

/-- The pixel bytes of the rows of a group row within a range, in ascending address order (R140). -/
def State.rowStream (s : State) (base w h first n gy : Nat) : List Byte :=
  let rdb := fun a l => Mem.read 0 s.mem.dram (base + a) l
  (List.range 32).flatMap fun r =>
    let y := gy * 32 + r
    if first ≤ y ∧ y < first + n then (List.range w).flatMap fun x => leBytes 4 (tiledPixel rdb w h x y) else []

/-- The next host segment belongs to another group row: this one ends its row. -/
def Xfer.endsRow (x : Xfer) (g : Seg) : Bool :=
  match x.segs[x.idx + 1]? with
  | some n => n.kind != .host || (n.groups.head?.map (·.2)) != (g.groups.head?.map (·.2))
  | none => true

/-- Feed a snooped unit. -/
def State.feedSnoop (s : State) (x : Xfer) (bs : List Byte) : State :=
  match x.snoop with
  | some (u, _) => s.cvFeedUnit u bs
  | none => s

/-- The snoop is at the target point. -/
def Xfer.atTarget (x : Xfer) : Bool := match x.snoop with | some (_, t) => t | none => false

/-- What a segment's end tells the transfer: go on, or end with a status and a detail word. -/
abbrev SegOut := Option (Nat × Nat) × State

/-- A host segment of an import (R138, R140). -/
def importSegment (e : Nat) (x : Xfer) (g : Seg) (data : List Byte) (s : State) : SegOut :=
  let ws := s.xferWords x
  let stored := bitAt (argOf ws 1) 10
  let base := s.versionBase x.vid
  let (first, n) := rowRange (argOf ws 6) x.h
  if !tiled x.fmt then
    let s := s.haulWrites e x.slice base (splitRuns g.dram data)
    (none, s.feedSnoop x data)
  else if stored then
    let s := s.haulWrites e x.slice base (splitRuns g.dram data)
    let ks := slotsIn x.w x.h g.off g.size
    if ks.all (s.groupValid base x.w x.h) then
      (none, s.feedSnoop x (if x.atTarget then ks.flatMap fun k => groupStream (s.storedGroup base x.w x.h k) else data))
    else (some (0x1002, 0x31), s)
  else
    let groups := g.groups.map fun grp => (grp, encodeGroup x.w x.h grp (segPixel g data))
    let s := s.each groups fun s (grp, tiles) =>
      let k := grp.2 * groupsW x.w + grp.1
      let s := s.haulWrites e x.slice base ((k * 16, tiles.map fun t => BitVec.ofNat 8 t.1) ::
        (List.range 16).map fun t => (slotOf x.w x.h k + t * 256, ((tiles[t]?).getD (0, [])).2))
      s.each tiles fun s t => s.countTile t.1
    if x.atTarget then (none, s.feedSnoop x (groups.flatMap fun p => groupStream p.2))
    else if x.endsRow g then
      (none, s.feedSnoop x (s.rowStream base x.w x.h first n ((g.groups.head?.map (·.2)).getD 0)))
    else (none, s)

/-- Data writes of the haul engines to host memory: Relaxed Ordering as the host allows (02_host_interface.md R47). -/
def State.exportWrites (s : State) (sl handle : Nat) (ws : List (Nat × List Byte)) : State :=
  s.each ws fun s (a, bs) =>
    s.guestWrite sl { addr := a, data := bs, kind := 4, relaxed := s.hif.relaxedOrdering, handle := handle }

/-- A segment of an export (R139, R140, R149). -/
def exportSegment (x : Xfer) (g : Seg) (s : State) : SegOut :=
  let ws := s.xferWords x
  let stored := bitAt (argOf ws 1) 0
  let base := s.versionBase x.src
  let (first, n) := rowRange (argOf ws 5) x.h
  if stored then
    let bytes := s.storedOut base x.fmt x.w x.h g.off g.size
    (none, (s.exportWrites x.slice x.handle (splitRuns g.runs bytes)).feedSnoop x bytes)
  else if !tiled x.fmt then
    let bytes := s.runBytes base g.dram
    (none, (s.exportWrites x.slice x.handle (splitRuns g.runs bytes)).feedSnoop x bytes)
  else
    let rdb := fun a l => Mem.read 0 s.mem.dram (base + a) l
    let (gx0, gy) := (g.groups.head?).getD (0, 0)
    let rows := (List.range g.runs.length).map fun r =>
      (List.range (((g.runs[r]?).getD (0, 0)).2 / 4)).flatMap fun i =>
        leBytes 4 (tiledPixel rdb x.w x.h (gx0 * 32 + i) (gy * 32 + r))
    let s := s.exportWrites x.slice x.handle (List.zipWith (fun r bs => (r.1, bs)) g.runs rows)
    if !x.atTarget then
      (none, s.feedSnoop x (g.groups.flatMap fun grp =>
        groupStream (s.storedGroup base x.w x.h (grp.2 * groupsW x.w + grp.1))))
    else if x.endsRow g then (none, s.feedSnoop x (s.rowStream base x.w x.h first n gy))
    else (none, s)

/-- The copy of R137: rows outside the range, from the current version. -/
def copySegment (e : Nat) (x : Xfer) (g : Seg) (s : State) : SegOut :=
  (none, s.haulWrites e x.slice (s.versionBase x.vid) (splitRuns g.dram (s.runBytes (s.versionBase x.src) g.dram)))

/-- The zero fill of R137: zero rows, and SOLID tiles of value 0. -/
def zeroSegment (e : Nat) (x : Xfer) (g : Seg) (s : State) : SegOut :=
  let ha := if tiled x.fmt then headerLen x.w x.h else 0
  (none, s.haulWrites e x.slice (s.versionBase x.vid) (g.dram.map fun (a, l) =>
    (a, List.replicate l (if a < ha then 0x20#8 else 0#8))))

/-- The version-relative bytes that a segment reads: of a group, its header and the used bytes of its tiles (R130). -/
def State.readRanges (s : State) (x : Xfer) (g : Seg) : List (Nat × Nat) :=
  if g.groups.isEmpty then g.dram
  else g.groups.flatMap fun grp =>
    let k := grp.2 * groupsW x.w + grp.1
    (k * 16, 16) :: (List.range 16).map fun t =>
      (slotOf x.w x.h k + t * 256, tileUsed (Mem.le 0 s.mem.dram (s.versionBase x.src + k * 16 + t) 1))

/-- The DRAM ranges that a segment of an import or export touches, absolute, with whether it writes them: those it reads come
first. -/
def State.segRanges (s : State) (x : Xfer) (g : Seg) : List (Nat × Nat × Bool) :=
  let rel := x.ranges g
  let at_ (v : Option Nat) (w : Bool) : List (Nat × Nat × Bool) :=
    match v with
    | none => []
    | some _ => rel.map fun (a, l) => (s.versionBase v + a, l, w)
  (if g.kind == .copy || x.op == 2 then at_ x.src false else []) ++ at_ x.vid true

/-- The end of a segment of an import or an export: denied, uncorrectable, or moved (R138 to R142;
11_control_cores_and_the_protected_world.md R339). -/
def surfaceSegment (e : Nat) (x : Xfer) (g : Seg) (ecc : Ecc) (s : State) : SegOut :=
  match (s.segRanges x g).find? fun (a, l, _) => s.dramProtected a l with
  | some (a, _, w) => (some (0x5002, 0x310000 + e * 256 + 1), s.denial w 0 (0x10 + e) a)
  | none =>
    let reads := x.op == 2 || g.kind == .copy
    let (f, s) := if reads then s.haulReads e x.slice (s.versionBase x.src) (s.readRanges x g) ecc else (none, s)
    match f with
    | some off => (some (0x5001, off), s)
    | none => match g.kind with
      | .copy => copySegment e x g s
      | .zero => zeroSegment e x g s
      | .host => if x.op = 2 then exportSegment x g s else importSegment e x g (x.data.getD []) s

/-- An import completes: the new version becomes current, the one before it is freed or retired, and the record is
written (R137, R141, R154). -/
def finishImport (x : Xfer) (s : State) : State :=
  match s.surface x.slice x.ident, x.vid with
  | some f, some vid =>
    let ic := (f.importCount + 1) % 65536
    let s := s.putSurface x.slice x.ident (some { f with cur := some vid, importCount := ic })
    let s := match s.version vid with
      | some v => s.putVersion vid (some { v with lease := .current, importCount := ic })
      | none => s
    let s := match f.cur with | some old => s.retire old | none => s
    let s := s.markDirty x.slice x.ident
    s.endXfer x (leBytes 4 x.ident ++ leBytes 4 (storedLen x.fmt x.w x.h) ++ leBytes 4 ic ++ leBytes 4 (s.snoopValue x))
  | _, _ => s.failXfer x 0x1004 4

/-- The sequence number that the next bulk frame will carry, those queued before it counted. -/
def State.nextBulkSeq (s : State) : Nat :=
  (s.pair.seqB + (s.pair.queued.filter Msg.bulk).length) % 2 ^ 24

/-- Every byte of an import is written: with a secondary, its version becomes current once the secondary holds it (R144;
15_pairs_and_live_insertion.md R433). -/
def importFilled (x : Xfer) (s : State) : State :=
  if s.forwards then
    let seq := s.nextBulkSeq
    let s := if h : x.slice < 256 then s.decide (.versionCurrent ⟨x.slice, h⟩ x.ident (x.vid.getD 0)) else s
    s.updHaul fun h => { h with mirrorWait := h.mirrorWait ++ [(x.sp, x.handle, seq)] }
  else finishImport x s

/-- An export completes once every write of it has been issued, those that waited for the dirty log too (R141;
03_slices.md R116). -/
def finishExport (x : Xfer) (s : State) : State :=
  if (s.slice x.sp).waiting.any fun w => w.kind == 4 && w.handle == x.handle then s
  else
  let ic := match x.src.bind s.version with | some v => v.importCount | none => 0
  s.endXfer x (leBytes 4 x.done ++ leBytes 4 ic ++ leBytes 4 0 ++ leBytes 4 (s.snoopValue x))

/-- A segment of a CV_SEED: its bytes are fed (08_check_values_core_samples_and_floor_images.md R239). -/
def seedSegment (x : Xfer) (s : State) : SegOut := (none, s.feedSnoop x (x.data.getD []))

/-- A CV_SEED completes. -/
def finishSeed (x : Xfer) (s : State) : State :=
  match x.snoop with
  | some (u, _) => s.endXfer x (s.seedResult u x.done)
  | none => s.endXfer x []

end Sys2Proof.Machine
end

