-- ==== Sys2Proof/Machine/Floor.lean ====
section
/-!
DEFINITION. Floor images: the blob format and its checks, the loads, the registers of a floor page, and the pixel that
substitution shows (08_check_values_core_samples_and_floor_images.md R251 to R255).
-/

namespace Sys2Proof.Machine

/-! ### The blob (R252, R253) -/

/-- The slot of an output in on-die memory, and its length. -/
def floorBase (o : Nat) : Nat := o * 0x100000
def floorSlotLen : Nat := 0x100000

/-- A little-endian field of a blob. -/
def blobNum (b : List Byte) (a n : Nat) : Nat := leNat ((b.drop a).take n)

/-- The header fields lie in their ranges, agree with one another and with the length loaded; the reserved bytes are 0 (log 57). -/
def blobHeaderOk (b : List Byte) (len : Nat) : Bool :=
  let w := blobNum b 6 2
  let h := blobNum b 8 2
  let total := blobNum b 16 4
  blobNum b 0 4 == 0x524F4C46 && blobNum b 4 2 == 1 && 1 ≤ w && w ≤ 3840 && 1 ≤ h && h ≤ 2160 &&
    [1, 2, 4].contains (blobNum b 10 1) && [2, 5].contains (blobNum b 11 1) &&
    total % 16 == 0 && total == len && total ≤ floorSlotLen && 64 ≤ total &&
    blobNum b 20 2 == groupsW w && blobNum b 22 2 == groupsH h && ((b.take 60).drop 24).all (· == 0)

/-- The CRC-32 of a blob, its own field taken as 0 (R252). -/
def blobCrc (b : List Byte) : Nat := crc32 (b.take 60 ++ [0#8, 0#8, 0#8, 0#8] ++ b.drop 64)

/-- The number of groups of a blob. -/
def blobGroups (b : List Byte) : Nat := blobNum b 20 2 * blobNum b 22 2

/-- The record offset of group `g`. -/
def blobRecord (b : List Byte) (g : Nat) : Nat := blobNum b (64 + 4 * g) 4

/-- The header byte of tile `t` of a record, and the offset of its data. -/
def blobTile (b : List Byte) (rec_ t : Nat) : Nat × Nat :=
  let hdr (i : Nat) : Nat := blobNum b (rec_ + i) 1
  (hdr t, rec_ + 16 + ((List.range t).map fun i => tileUsed (hdr i)).sum)

/-- The length of a record. -/
def blobRecordLen (b : List Byte) (rec_ : Nat) : Nat :=
  16 + ((List.range 16).map fun i => tileUsed (blobNum b (rec_ + i) 1)).sum

/-- The directory and every record lie within the blob and after the directory (R253). -/
def blobOffsetsOk (b : List Byte) : Bool :=
  let dirEnd := 64 + 4 * blobGroups b
  dirEnd ≤ b.length && (List.range (blobGroups b)).all fun g =>
    let r := blobRecord b g
    r % 16 == 0 && dirEnd ≤ r && r + 16 ≤ b.length && r + blobRecordLen b r ≤ b.length

/-- Every tile meets R133 (R253). -/
def blobTilesOk (b : List Byte) : Bool :=
  (List.range (blobGroups b)).all fun g => (List.range 16).all fun t =>
    let (hdr, a) := blobTile b (blobRecord b g) t
    tileOk hdr (padTo 256 ((b.drop a).take (tileUsed hdr)))

/-- Why a blob is invalid: the detail word of R255, none for a valid blob. -/
def blobFault (b : List Byte) (len : Nat) : Option Nat :=
  if !blobHeaderOk b len then some 0x41
  else if blobCrc b != blobNum b 60 4 then some 0x42
  else if !blobOffsetsOk b then some 0x43
  else if !blobTilesOk b then some 0x44
  else none

/-! ### Loads (R255) -/

/-- The output runs: its frame ticks occur. -/
def State.outRuns (s : State) (o : Nat) : Bool := (s.out o).gen == .running || (s.out o).gen == .stopping

/-- The handle of a FLOOR_LOAD is 256's; its transfer reads the blob. -/
def State.floorXfer (s : State) (handle len addr : Nat) : State :=
  s.addXfer { sp := 256, handle := handle, op := 0x12, slice := 0, segs := bufferSegs addr len, idx := 0, done := 0,
              vid := none, src := none, snoop := none, buf := [], data := none, order := 0 }

/-- Step 1 of R255: the image in use stops being valid and the copy starts. With no image in use, its length and CRC read
as after reset (log 45). -/
def State.floorBegin (s : State) (o : Nat) (src : FloorSrc) : State :=
  let s := (s.wrN (R.outFloorStatus o) 0).wrN (R.outFloorCrc o) 0
  let s := s.setF (R.outFloorStatus o) F.outFloorStatus_loading
  let s := s.updFloor o fun x => { x with load := some (src, .copying) }
  match src with
  | .dram _ => s
  | .host handle len =>
    match s.cmdOf 256 handle with
    | some c => s.floorXfer handle len (argAddr c.words 2)
    | none => s

/-- A load is next for an output: it waits for a frame tick, or takes the step of that tick at once where the output does
not run. -/
def State.floorArm (s : State) (o : Nat) (src : FloorSrc) : State :=
  if s.outRuns o then s.updFloor o fun x => { x with load := some (src, .awaitTick) } else s.floorBegin o src

/-- A load is asked for; a second one waits until the first ends. -/
def State.floorAsk (s : State) (o : Nat) (src : FloorSrc) : State :=
  if (s.floorSt o).load.isSome then s.updFloor o fun x => { x with waiting := x.waiting ++ [src] } else s.floorArm o src

/-- The present load is over; the next one waiting takes its place. -/
def State.floorNext (s : State) (o : Nat) : State :=
  let s := s.updFloor o fun x => { x with load := none }
  match (s.floorSt o).waiting with
  | [] => s
  | src :: rest => (s.updFloor o fun x => { x with waiting := rest }).floorArm o src

/-- A load ends without an image (step 4 of R255): the slot stays invalid. -/
def State.floorFailed (s : State) (o status detail : Nat) : State :=
  match (s.floorSt o).load with
  | none => s
  | some (src, _) =>
    let s := s.clrF (R.outFloorStatus o) F.outFloorStatus_loading
    let s := match src with
      | .host handle _ =>
        (match s.xfer 256 handle with
         | some x => s.failXfer x status detail
         | none => s.fail 256 handle status detail)
      | .dram _ => (s.setF (R.outFloorSrc o) F.outFloorSrc_failed).clrF (R.outFloorSrc o) F.outFloorSrc_start
    s.floorNext o

/-- The new image becomes valid (step 3 of R255). -/
def State.floorValid (s : State) (o len : Nat) : State :=
  match (s.floorSt o).load with
  | none => s
  | some (src, _) =>
    let crc := Mem.le 0 s.mem.floor (floorBase o + 60) 4
    let s := s.wrN (R.outFloorStatus o) (2 ^ 31 + len % 2 ^ 21)
    let s := (s.wrN (R.outFloorCrc o) crc).wr (R.outFloorFrame o) (s.rd (R.outFrame o))
    let result := leBytes 4 len ++ leBytes 4 crc ++ leBytes 4 (s.num (R.outFloorFrame o))
    let s := match src with
      | .host handle _ =>
        (match s.xfer 256 handle with
         | some x => s.endXfer x result
         | none => s.complete 256 handle 0 result)
      | .dram _ => s.clrF (R.outFloorSrc o) F.outFloorSrc_start
    s.floorNext o

/-- The steps of a load that a frame tick of its output takes (R255). -/
def State.floorTick (s : State) (o : Nat) : State :=
  match (s.floorSt o).load with
  | some (src, .awaitTick) => s.floorBegin o src
  | some (_, .awaitValid len) => s.floorValid o len
  | _ => s

/-- Write a piece of a blob into the slot of an output. A load is forwarded as WRITE_DRAM at an offset beyond the DRAM
(15_pairs_and_live_insertion.md R430; log 41). -/
def State.floorStore (s : State) (o off : Nat) (data : List Byte) : State :=
  State.mirror { s with mem := { s.mem with floor := Mem.write 0 s.mem.floor (floorBase o + off) data } }
    (.writeDram (dramEnd + floorBase o + off) data false false)

/-- The blob in the slot is complete: it is checked, and waits for its tick (steps 2 to 4 of R255). -/
def State.floorChecked (s : State) (o len : Nat) : State :=
  match blobFault (Mem.read 0 s.mem.floor (floorBase o) len) len with
  | some d => s.floorFailed o 0x1002 d
  | none =>
    match (s.floorSt o).load with
    | none => s
    | some (src, _) =>
      if s.outRuns o then s.updFloor o fun x => { x with load := some (src, .awaitValid len) } else s.floorValid o len

/-- Every 64 KiB of a DRAM range is reserved to the protected world. -/
def State.dramReserved (s : State) (a len : Nat) : Bool :=
  a + len ≤ dramEnd && (List.range (ceilDiv len 65536)).all fun i => s.dramProtected (a + i * 65536) 1

/-- The copy of a load from protected DRAM (R253, R255): the header first, then the length that it names; an uncorrectable
block fails the load, and so does DRAM in self-refresh (13_memory_controller.md R382; 14_clock_generation.md R410, R413). -/
def State.floorCopyDram (s : State) (o base : Nat) (ecc : Ecc) : State :=
  let len := Mem.le 0 s.mem.dram (base + 16) 4
  if s.dmc.selfRefresh ∨ len < 64 ∨ floorSlotLen < len ∨ !s.dramReserved base len then s.floorFailed o 0 0
  else
    let (data, fails, s) := s.dramRead base len (0x30 + o) 0 ecc
    if fails.isEmpty then (s.floorStore o 0 data).floorChecked o len else s.floorFailed o 0 0

/-- FLOOR_COPY_DONE: the last byte of a load is in the slot (R255). -/
def doFloorCopyDone (o : Nat) (ecc : Ecc) (s : State) : State :=
  match (s.floorSt o).load with
  | some (.dram b, .copying) => s.floorCopyDram o b ecc
  | some (.host handle len, .copying) =>
    match s.xfer 256 handle with
    | some x => if x.idx = x.segs.length then s.floorChecked o len else s
    | none => s
  | _ => s

/-- FLOOR_LOAD starts (R255). -/
def startFloorLoad (c : Cmd) (s : State) : State :=
  s.floorAsk (argOf c.words 0 % 8) (.host c.handle (argOf c.words 4))

/-- The output whose present load a FLOOR_LOAD transfer serves. -/
def State.floorOf (s : State) (handle : Nat) : Option Nat :=
  (List.range 8).find? fun o => match (s.floorSt o).load with
    | some (.host h _, _) => h == handle
    | _ => false

/-! ### Registers of a floor page -/

/-- A write of OUT_FLOOR_SRC, in a page of the protected world by the protected world. -/
def doFloorSrc (r : Req) (o : Nat) (v : Word) (s : State) : State :=
  if !(s.pageWorld1 (pageBase 0x43 o) && s.reqProtected r) then s
  else
    let s := s.put (R.outFloorSrc o) F.outFloorSrc_base (bitsOf v.toNat 19 0)
    let s := if bitAt v.toNat 30 then s.clrF (R.outFloorSrc o) F.outFloorSrc_failed else s
    let base := s.fld (R.outFloorSrc o) F.outFloorSrc_base * 65536
    if !bitAt v.toNat 31 || s.flag (R.outFloorSrc o) F.outFloorSrc_start then s
    else if !s.dramReserved base 64 then s.setF (R.outFloorSrc o) F.outFloorSrc_failed
    else (s.setF (R.outFloorSrc o) F.outFloorSrc_start).floorAsk o (.dram base)

/-- OUT_FLOOR_SRC as read: 0 in a page of the general world. -/
def State.floorSrcWord (s : State) (o : Nat) : Word :=
  if s.pageWorld1 (pageBase 0x43 o) then s.rd (R.outFloorSrc o) else 0#32

/-- A write of OUT_FLOOR_COLOUR: the host's, or the protected world's in its own page (R253, text). -/
def doFloorColour (r : Req) (o : Nat) (v : Word) (s : State) : State :=
  if s.pageWorld1 (pageBase 0x43 o) then (if s.reqProtected r then s.plainWrite (R.outFloorColour o) v else s)
  else if r.isHost then s.plainWrite (R.outFloorColour o) v else s

/-! ### The pixel that substitution shows (R251) -/

/-- A floor pixel of a blob in a slot. -/
def State.floorAt (s : State) (o x y : Nat) : Nat :=
  let b := floorBase o
  let m (a n : Nat) : Nat := Mem.le 0 s.mem.floor (b + a) n
  let g := y / 32 * m 20 2 + x / 32
  let t := y / 8 % 4 * 4 + x / 8 % 4
  let rec_ := m (64 + 4 * g) 4
  let a := rec_ + 16 + ((List.range t).map fun i => tileUsed (m (rec_ + i) 1)).sum
  ((decodeTile (m (rec_ + t) 1) (Mem.read 0 s.mem.floor (b + a) 256))[y % 8 * 8 + x % 8]?).getD 0

/-- The floor pixel at an output coordinate: of the image, its background colour, or OUT_FLOOR_COLOUR. -/
def State.floorPx (s : State) (o x y : Nat) : Px :=
  if s.flag (R.outFloorStatus o) F.outFloorStatus_valid then
    let m (a n : Nat) : Nat := Mem.le 0 s.mem.floor (floorBase o + a) n
    let k := max 1 (m 10 1)
    let fmt := m 11 1
    pixel32 fmt (if x / k < m 6 2 && y / k < m 8 2 then s.floorAt o (x / k) (y / k) else m 12 4)
  else pixel32 2 (s.num (R.outFloorColour o))

end Sys2Proof.Machine
end

