-- ==== Sys2Proof/Machine/Regions.lean ====
section
/-!
DEFINITION. Core-sample regions: their images and registers, the check-value window of a slice, what the tap feeds,
verdicts and substitution (08_check_values_core_samples_and_floor_images.md R241 to R250).
-/

namespace Sys2Proof.Machine

/-! ### Images and registers -/

/-- The bits of an image word that hold fields (CSR_CTRL and after). -/
def regionMask (k : Nat) : Word := if k = 0 then 0x1F3F01#32 else 0xFFFFFFFF#32

/-- A word of a region image. -/
def RegionImg.word (i : RegionImg) (k : Nat) : Word :=
  match k with
  | 0 => i.ctrl
  | 1 => i.pos
  | 2 => i.size
  | 3 => i.expect
  | _ => 0#32

/-- A region image with a word written. -/
def RegionImg.put (i : RegionImg) (k : Nat) (v : Word) : RegionImg :=
  match k with
  | 0 => { i with ctrl := v &&& regionMask 0 }
  | 1 => { i with pos := v }
  | 2 => { i with size := v }
  | 3 => { i with expect := v }
  | _ => i

def RegionImg.x (i : RegionImg) : Nat := bitsOf i.pos.toNat 15 0
def RegionImg.y (i : RegionImg) : Nat := bitsOf i.pos.toNat 31 16
def RegionImg.w (i : RegionImg) : Nat := bitsOf i.size.toNat 15 0
def RegionImg.h (i : RegionImg) : Nat := bitsOf i.size.toNat 31 16

/-- The output of a region, and its page. -/
def regionOut (n : Nat) : Nat := n / 16
def regionPage (n : Nat) : Nat := pageBase 0x51 n

/-- The global unit that the latched image names. -/
def State.regionUnit (s : State) (n : Nat) : Option Nat :=
  (s.regionOwner n).bind fun ow => s.imageUnit ow (s.region n).latched

/-- CSR_STATE as read. -/
def State.regionStateWord (s : State) (n : Nat) : Word :=
  w32 ((s.regionUnit n).getD 0 * 65536 + (s.region n).st)

/-- The floor image replaces the region's rectangle: SUBSTITUTED or SKIPPED_SUBST. -/
def CsrSt.subst (x : CsrSt) : Bool := x.st == 2 || x.st == 4

/-- OUT_FLOOR_SUBST as read. -/
def State.floorSubstWord (s : State) (o : Nat) : Word :=
  w32 ((List.range 16).foldl (fun m i => if (s.region (o * 16 + i)).subst then m + 2 ^ i else m) 0)

/-- A write to the shadow image through the station page: the protected world's own regions (CSR_CTRL and after). -/
def doRegionShadow (r : Req) (n k : Nat) (v : Word) (s : State) : State :=
  if s.pageWorld1 (regionPage n) && s.reqProtected r then
    s.updRegion n fun x => { x with shadow := x.shadow.put k v }
  else s

/-! ### The check-value window of a slice (R241) -/

/-- The number of words of a kind. -/
def cvWords (kind : Nat) : Nat := if kind = 0 then 4 else if kind = 1 then 3 else 7

/-- The selected kind, bank, word and ordinal. -/
def State.cvSel (s : State) (sl : Nat) : Nat × Bool × Nat × Nat :=
  (s.fld (R.slcCvSel sl) F.slcCvSel_kind, s.flag (R.slcCvSel sl) F.slcCvSel_bank,
   s.fld (R.slcCvSel sl) F.slcCvSel_word, s.fld (R.slcCvSel sl) F.slcCvSel_ordinal)

/-- The word index advances. -/
def State.cvAdvance (s : State) (sl : Nat) : State :=
  let (kind, _, w, _) := s.cvSel sl
  s.put (R.slcCvSel sl) F.slcCvSel_word (if w + 1 = cvWords kind then 0 else (w + 1) % 16)

/-- A write of SLC_CV_SEL: it takes a snapshot of a latched image or of the result words. -/
def doCvSel (sl : Nat) (v : Word) (s : State) : State :=
  let s := s.plainWrite (R.slcCvSel sl) v
  let (kind, bank, _, ord) := s.cvSel sl
  match s.globalOf sl 3 ord with
  | none => s
  | some n =>
    if kind = 0 && bank then
      { s with cvSnap := Tab.set [] s.cvSnap sl ([0, 1, 2, 3].map (s.region n).latched.word) }
    else if kind = 1 then
      { s with cvSnap := Tab.set [] s.cvSnap sl [s.rd (R.csrResult n), s.rd (R.csrResultFrame n), s.regionStateWord n] }
    else s

/-- The word that SLC_CV_DATA reads; an ordinal not in use reads 0. -/
def State.cvDataWord (s : State) (sl : Nat) : Word :=
  let (kind, bank, w, ord) := s.cvSel sl
  if kind = 2 then
    match s.globalOf sl 2 ord with
    | some u => s.cvWord u w
    | none => 0#32
  else match s.globalOf sl 3 ord with
    | none => 0#32
    | some n =>
      if kind = 0 && !bank then (s.region n).shadow.word w
      else ((Tab.get [] s.cvSnap sl)[w]?).getD 0#32

/-- A read of SLC_CV_DATA. -/
def readCvData (sl : Nat) (s : State) : Word × State := (s.cvDataWord sl, s.cvAdvance sl)

/-- A write of SLC_CV_DATA: the shadow bank of a region image, and the writable unit registers. -/
def doCvData (sl : Nat) (v : Word) (s : State) : State :=
  let (kind, bank, w, ord) := s.cvSel sl
  let s :=
    if kind = 2 then
      match s.globalOf sl 2 ord with
      | some u => doCvuReg u w v s
      | none => s
    else match s.globalOf sl 3 ord with
      | none => s
      | some n => if kind = 0 && !bank then s.updRegion n fun x => { x with shadow := x.shadow.put w v } else s
  s.cvAdvance sl

/-- SLC_CV_SUMMARY.substituted of a slice (state SUBSTITUTED). -/
def State.substitutedOf (s : State) (sl : Nat) : Nat :=
  ((s.csr.filter fun e => s.ownedBy (regionPage e.1) sl && e.2.st == 2)).length

/-! ### The tap (R245, R246) -/

/-- The 6 bytes of a pixel at the tap. -/
def tapBytes (p : Nat × Nat × Nat) : List Byte := leBytes 2 p.1 ++ leBytes 2 p.2.1 ++ leBytes 2 p.2.2

/-- The verdict of a region whose last pixel has passed the tap: CSR_RESULT, its frame, the mismatch count (R246, R249). -/
def State.regionVerdict (s : State) (n : Nat) : State :=
  let x := s.region n
  let final := cvFinal x.cfg x.acc
  let ok := final == x.image.expect.toNat % 2 ^ x.cfg.w
  let s := s.setRegion n { x with verdict := some (ok, final), checking := false }
  let s := (s.wrN (R.csrResult n) final).wr (R.csrResultFrame n) (s.rd (R.outFrame (regionOut n)))
  if ok then s else s.count (R.csrMismatches n) F.csrMismatches_n

/-- The tap feeds line `y` of an output to its regions; the last row of a region gives its verdict. -/
def State.feedRegions (s : State) (o y : Nat) (px : List (Nat × Nat × Nat)) : State :=
  s.each (regionsOn o) fun s n =>
    let x := s.region n
    let i := x.image
    if x.checking && i.y ≤ y && y < i.y + i.h then
      let bytes := ((px.drop i.x).take i.w).flatMap tapBytes
      let s := s.setRegion n { x with acc := cvFeedBytes x.cfg x.acc bytes }
      if y + 1 = i.y + i.h then s.regionVerdict n else s
    else s

/-! ### At a frame tick (R247 to R250) -/

/-- A change of substitution, or a mismatch without one: 1 begins, 2 ends, 3 mismatch (R250). -/
def State.sampleEvent (s : State) (n what frame final expect : Nat) : State :=
  match s.regionOwner n with
  | none => s
  | some 256 => s.event 0x51 n (if what = 1 then 0 else if what = 2 then 1 else 2)
  | some sl =>
    let o := regionOut n
    s.postEvent sl 0x8001 (leBytes 1 (s.outOrdinal sl o) ++ leBytes 1 ((s.ordinalOf sl 3 n).getD 0) ++ leBytes 1 what ++
      leBytes 1 0 ++ leBytes 4 frame ++ leBytes 4 final ++ leBytes 4 expect)

/-- A substitution begins (R248): the count of onsets is the slice's. -/
def State.countOnset (s : State) (n : Nat) : State :=
  match s.regionOwner n with
  | some sl => if sl < 256 then s.count (R.slcCvSummary sl) F.slcCvSummary_onsets else s
  | none => s

/-- The frame that begins is not checked in a region (R247): its anchor is shed or takes no part, or its unit is gone. -/
def State.regionSkips (s : State) (n : Nat) (p : Plan) : Bool :=
  match s.regionOwner n with
  | none => true
  | some ow =>
    (s.regionUnit n).isNone ||
      (ow != 256 &&
        match s.globalOf ow 1 (bitsOf (s.region n).latched.ctrl.toNat 13 8) with
        | none => true
        | some slot => !(p.layers.any fun l => l.slot == slot) || p.shed.contains slot)

/-- The region's state at a tick, from the verdict of the frame that ends, `frame`: `latched` says that a commit has latched
its image at this tick (R248 to R250). -/
def State.regionTurn (s : State) (n frame : Nat) (latched : Bool) : State :=
  let x := s.region n
  let silent := x.silent
  let expect := x.image.expect.toNat
  let (mism, ok, final) := match x.verdict with
    | some (ok, f) => (!ok, ok, f)
    | none => (false, false, 0)
  let ends := x.subst && ok && x.relatched
  let pw := s.pageWorld1 (regionPage n)
  let (bf, bv, be) := x.began
  if !x.latched.on then
    let s := s.setRegion n { x with st := 0, verdict := none, checking := false, relatched := false, silent := false }
    if x.subst then
      if ends then s.sampleEvent n 2 frame final expect
      else if silent && !pw then s
      else s.sampleEvent n 2 bf bv be
    else if mism && !(silent && !pw) then s.sampleEvent n 3 frame final expect
    else s
  else if x.subst then
    if ends then (s.setRegion n { x with st := 1, verdict := none, relatched := false }).sampleEvent n 2 frame final expect
    else s.setRegion n { x with verdict := none, relatched := x.relatched || latched }
  else if mism then
    let s := s.setRegion n { x with st := 2, verdict := none, relatched := latched, began := (frame, final, expect) }
    (s.countOnset n).sampleEvent n 1 frame final expect
  else s.setRegion n { x with st := if x.st = 0 then 1 else x.st, verdict := none }

/-- The frame that begins is checked or skipped in a region (R246, R247). -/
def State.regionBegin (s : State) (n : Nat) (p : Plan) : State :=
  let x := s.region n
  if !x.latched.on then s
  else if s.regionSkips n p then
    s.setRegion n { x with checking := false, st := if x.subst then 4 else 3 }
  else
    let cfg := s.cvCfg ((s.regionUnit n).getD 0)
    s.setRegion n { x with checking := true, image := x.latched, cfg := cfg, acc := cfg.init,
                           st := if x.subst then 2 else 1 }

/-- A verdict is no longer reached in the frame that runs (14_clock_generation.md R410). -/
def State.stopChecks (s : State) : State :=
  s.each (below 128 fun n => (s.region n).checking) fun s n => s.updRegion n fun x => { x with checking := false }

/-- The latched image of a region goes; `silent` says that a withdrawal or a slice reset clears it (R243, R250). -/
def State.clearRegion (s : State) (n : Nat) (silent : Bool) : State :=
  s.updRegion n fun x => { x with latched := {}, silent := silent }

/-- A commit latches an image of a region that its owner still holds; a restored region starts in MATCH (R243, R257). -/
def State.latchRegion (s : State) (owner : Nat) (restored : Bool) (n : Nat) (img : RegionImg) : State :=
  if s.regionOwner n != some owner then s
  else if restored then
    s.updRegion n fun x => { x with latched := img, st := b2n img.on, verdict := none, checking := false, relatched := false }
  else s.updRegion n fun x => { x with latched := img, silent := false }

/-- The images of a region take their reset values (R243). -/
def State.clearRegionShadow (s : State) (n : Nat) : State := s.updRegion n fun x => { x with shadow := {} }

end Sys2Proof.Machine
end

