-- ==== Sys2Proof/Machine/Scanout.lean ====
section
/-!
DEFINITION. The start of a line: the cut-off, the line that is composed and sent, underrun, failed and denied blocks, the
tap and substitution (07_scanout_and_display_links.md R206, R214, R219 to R224; 08_check_values_core_samples_and_floor_images.md
R245, R251; 15_pairs_and_live_insertion.md R439).
-/

namespace Sys2Proof.Machine

/-- A pixel's colour. -/
abbrev Rgb := Nat × Nat × Nat

def Px.rgb (p : Px) : Rgb := (p.r, p.g, p.b)

/-- The timing generator counts: started, and not halted for a new pixel clock (R206, R211; 14_clock_generation.md R411). -/
def OutSt.counts (x : OutSt) : Bool := (x.gen == .running || x.gen == .stopping) && !x.retune

/-- The station time of the start of a line of the present frame (R209, R213). -/
def State.lineTime (s : State) (o y : Nat) : Nat :=
  let t := s.timing o
  let d := (y + t.vt - s.latchLine o t) % t.vt
  s.gridTime o (((s.out o).ticks * t.vt + d) * t.ht)

/-- The layers that give pixels now: in the plan in use, not shed, their clocks running (06_layer_composition.md R180). -/
def State.shownLayers (s : State) (o : Nat) : List CfgLayer :=
  match (s.out o).plan with
  | none => []
  | some p => p.layers.filter fun l => !p.shed.contains l.slot && s.clocked 0x42 l.slot

/-- A block that a layer may not read: protected DRAM, for all but the capstone layer (11_control_cores_and_the_protected_world.md
R337, R339). -/
def State.blockDenied (s : State) (l : CfgLayer) (d : Nat) : Bool := !l.cap && s.dramProtected (d * 64) 64

/-- The fetches of a layer for a line: the blocks that fail or are denied, and the state that has logged them, a failed block once
in the frame, a denied one at every fetch (R224;
11_control_cores_and_the_protected_world.md R339, R340; 13_memory_controller.md R382). -/
def State.fetchLine (s : State) (o y : Nat) (t : Timing) (l : CfgLayer) (ecc : Ecc) : List Nat × List Nat × State :=
  let blocks := s.lineBlocks l t y
  let (gone, open_) := blocks.partition (s.blockDenied l)
  let s := s.each gone fun s d => (s.denial false 0 (0x30 + o) (d * 64)).updOut o fun x => { x with denied := insertNat d x.denied }
  let (fails, s) := s.readBlocks open_ (0x30 + o) 0 ecc
  let fresh := fails.filter fun d => !(s.out o).eccSeen.contains d
  let s := s.each fresh fun s d =>
    ((s.count (R.outEccBlocks o) F.outEccBlocks_n).event 0x41 o 8).updOut o fun x => { x with eccSeen := x.eccSeen ++ [d] }
  let s := s.each ((s.lineBadTiles l t y).filter fun a => !(s.out o).tileSeen.contains a) fun s a =>
    (s.count R.srfDecodeErr F.srfDecodeErr_count).updOut o fun x => { x with tileSeen := x.tileSeen ++ [a] }
  (fails, gone, s.realTime open_)

/-- The composed pixels of a line, its failed and denied blocks (R224; 06_layer_composition.md R181, R196). -/
def State.composeLine (s : State) (o y : Nat) (ecc : Ecc) : List Rgb × List Nat × List Nat × State :=
  let t := s.timing o
  let ls := s.shownLayers o
  let (fails, gone, s) := ls.foldl (fun (f, g, s) l =>
    let (f', g', s) := s.fetchLine o y t l ecc
    (f ++ f', g ++ g', s)) (([] : List Nat), ([] : List Nat), s)
  ((List.range t.ha).map fun x => (s.composePx ls t (fails ++ gone) x y).rgb, fails, gone, s)

/-- What an underrun from pixel `k` on makes of a line (R220). -/
def underrun (k : Nat) (px : List Rgb) : List Rgb :=
  let last : Rgb := if k = 0 then (0, 0, 0) else (px[k - 1]?).getD (0, 0, 0)
  px.take k ++ List.replicate (px.length - k) last

/-- An underrun is counted and captured (R221). -/
def State.noteUnderrun (s : State) (o y : Nat) : State :=
  let s := s.count (R.outUrLines o) F.outUrLines_n
  let s :=
    if s.flag (R.outUrInfo o) F.outUrInfo_valid then s
    else (s.wrN (R.outUrInfo o) (2 ^ 31 + y)).wr (R.outUrFrame o) (s.rd (R.outFrame o))
  s.updOut o fun x => { x with urLines := x.urLines + 1, urFirst := if x.urLines = 0 then y else x.urFirst }

/-- An output pixel shows the floor image: the whole area, a capstone rectangle, or a substituted region (R251;
06_layer_composition.md R204; 14_clock_generation.md R410). -/
def State.showsFloor (s : State) (o : Nat) (t : Timing) (x y : Nat) : Bool :=
  let u := s.out o
  u.allFloor ||
    (u.capFloor && (match u.plan with | some p => p.layers.any fun l => l.cap && l.at_ t x y | none => false)) ||
    (regionsOn o).any fun n =>
      let r := s.region n
      let i := r.latched
      r.subst && i.x ≤ x && x < i.x + i.w && i.y ≤ y && y < i.y + i.h

/-- The 12-bit pixels that leave for a line. -/
def State.substitute (s : State) (o y : Nat) (t : Timing) (px : List Rgb) : List Rgb :=
  List.zipWith (fun x p => if s.showsFloor o t x y then (s.floorPx o x y).rgb else p) (List.range px.length) px

/-- A channel at the output's depth (06_layer_composition.md R198). -/
def atDepth (d30 : Bool) (p : Rgb) : Rgb :=
  let k := if d30 then 4 else 16
  (p.1 / k, p.2.1 / k, p.2.2 / k)

/-- The link state of an output, and whether video is sent (R219, OUT_LINK_STATUS). -/
def State.linkState (s : State) (o : Nat) : Nat := s.fld (R.outLinkStatus o) F.outLinkStatus_state
def State.sendsVideo (s : State) (o : Nat) : Bool :=
  let st := s.linkState o
  (st == 3 || st == 4 || st == 8) && !(s.out o).videoDue && (s.out o).counts

/-- A clock domain of an output's path coasts or is stopped (15_pairs_and_live_insertion.md R439). -/
def State.pathLost (s : State) (o : Nat) : Bool := !bitAt (s.num R.clkPllStatus) 1 || !bitAt (s.num R.clkPllStatus) 3 ||
  !bitAt (s.num R.clkPllStatus) (6 + o)

/-- Each module of a pair sends the check value of each active line (15_pairs_and_live_insertion.md R439). -/
def State.sendLineCv (s : State) (o y flags : Nat) (px : List Rgb) : State :=
  if s.forwards || s.secondary then
    let cv := crc32 (px.flatMap tapBytes)
    let frame := s.num (R.outFrame o)
    let own := s.pair.own.filter fun e => !(e.o = o ∧ e.line = y)
    let s := { s with pair := { s.pair with own := own ++ [({ o := o, line := y, frame := frame, flags := flags, cv := cv } : LineCv)] } }
    s.send (.lineCv o flags y frame cv)
  else s

/-- An active line: composed, underrun, tapped and substituted; the pixels that will leave (R219, R220, R224). -/
def State.activeLine (s : State) (o y : Nat) (late : Option Nat) (ecc : Ecc) : List Rgb × State :=
  let t := s.timing o
  if (s.out o).allFloor then
    let out := s.substitute o y t (List.replicate t.ha (0, 0, 0))
    (out.map (atDepth t.d30), s.sendLineCv o y (b2n (s.pathLost o) * 4) out)
  else
    let (px, fails, gone, s) := s.composeLine o y ecc
    let (px, late, s) := match late with
      | some k => if k < t.ha then (underrun k px, true, s.noteUnderrun o y) else (px, false, s)
      | none => (px, false, s)
    let s := s.feedRegions o y px
    let out := s.substitute o y t px
    let s := s.sendLineCv o y (b2n (!fails.isEmpty) + b2n late * 2 + b2n (s.pathLost o) * 4 + b2n (!gone.isEmpty) * 16) out
    (out.map (atDepth t.d30), s)

/-- The feed moves of an output that are due take place: the line that starts comes from the new feeder
(15_pairs_and_live_insertion.md R440, R441). -/
def State.moveFeeds (s : State) (o : Nat) : State :=
  let due (m : FeedMove) : Bool := m.o == o && m.t ≤ s.time
  let s := s.each (s.pair.moves.filter due) fun s m =>
    { s with pair := { s.pair with
        feedSel := if m.mine then insertNat o s.pair.feedSel else s.pair.feedSel.filter (· ≠ o) } }
  let s := if s.pair.moves.any due then s.event 0xB0 2 0 else s
  { s with pair := { s.pair with moves := s.pair.moves.filter fun m => !due m } }

/-- Both modules of a pair compose a frame ahead of its sending, where the frame's latch line allows it
(15_pairs_and_live_insertion.md R437, R438). -/
def State.leads (s : State) (o : Nat) : Bool :=
  let t := s.timing o
  (s.forwards || s.secondary) && s.latchLine o t + 3 ≤ t.vt

/-- The pixels that line `y` sends now: composed now, or two line starts ago when the frame is composed ahead. -/
def State.runLine (s : State) (o y : Nat) (late : Option Nat) (ecc : Ecc) : List Rgb × State :=
  let t := s.timing o
  if (s.out o).lead then
    let z := (y + 2) % t.vt
    let s := if z < t.va then
        let (px, s) := s.activeLine o z late ecc
        s.updOut o fun x => { x with hold := x.hold ++ [(z, px)] }
      else s
    let px := match (s.out o).hold.find? fun e => e.1 == y with | some e => e.2 | none => []
    (px, s.updOut o fun x => { x with hold := x.hold.filter fun e => e.1 != y })
  else if y < t.va then s.activeLine o y late ecc
  else ([], s)

/-- LINE_START: the next line of an output, but for its latch line, which its frame tick starts (R206, R214). -/
def doLineStart (o : Nat) (late : Option Nat) (ecc : Ecc) (s : State) : State :=
  let x := s.out o
  let t := s.timing o
  let y := (x.line + 1) % max 1 t.vt
  let l := s.latchLine o t
  if !x.counts || y = l then s
  else
    let s := s.at (s.lineTime o y)
    let s := (s.setOut o { x with line := y, pixels := [] }).moveFeeds o
    let (px, s) := s.runLine o y late ecc
    s.updOut o fun x => { x with pixels := if s.sendsVideo o then px else [] }

end Sys2Proof.Machine
end

