-- ==== Sys2Proof/Machine/Frames.lean ====
section
/-!
DEFINITION. Frame ticks: what latches, the plan that comes into use, leases, records, substitution, floor loads, the
change of timing; and the starts and stops of an output (01_the_w880_at_a_glance.md R32; 05_bench_plan_and_fit_check.md
R159 to R177; 07_scanout_and_display_links.md R206 to R217, R222, R229, R506; 08_check_values_core_samples_and_floor_images.md
R246 to R250, R255; 15_pairs_and_live_insertion.md R434).
-/

namespace Sys2Proof.Machine

/-! ### Removals (R506; 06_layer_composition.md R187) -/

/-- The latched image of a slot takes its reset values. -/
def State.clearLatched (s : State) (n : Nat) : State :=
  s.updLayer n fun x => { x with latched := [], owner := 257, vid := none, base := 0, sw := 0, sh := 0, fmt := 0, colour := 0 }

/-- Carry out a removal at the tick that it falls to. -/
def State.remove (s : State) (o : Nat) : Removal → State
  | .layer n => s.clearLatched n
  | .sliceLayers sl =>
    let s := s.each ((s.slotsOn o).filter fun n => (s.layer n).owner == sl) State.clearLatched
    s.updSlice sl fun x => { x with awaits := x.awaits.filter (· ≠ o) }
  | .region n silent => s.clearRegion n silent

/-- The output's ticks carry removals out: its timing generator counts or is about to. -/
def State.tickServes (s : State) (o : Nat) : Bool := o < 8 && ((s.out o).gen == .running || (s.out o).gen == .stopping)

/-- A removal where no tick comes: at once, with what the tick would do to a region (log 58). -/
def State.removeNow (s : State) (o : Nat) (r : Removal) : State :=
  let s := s.remove o r
  match r with
  | .region n _ => s.regionTurn n (s.num (R.outFrame o)) false
  | _ => s

/-- Ask for a removal: at the first tick whose cut-off is at or after now; where no tick comes, at once (R506; log 58). -/
def State.askRemoval (s : State) (o : Nat) (r : Removal) : State :=
  if s.tickServes o then
    if s.inFreeze o then s.updOut o fun x => { x with removalsLate := x.removalsLate ++ [r] }
    else s.updOut o fun x => { x with removals := x.removals ++ [r] }
  else s.removeNow o r

/-- The removal after a soft reset of a slot: one tick later where an accepted commit latches the slot first
(06_layer_composition.md R187). -/
def State.askResetRemoval (s : State) (o : Nat) (r : Removal) (covers : Commit → Bool) : State :=
  let x := s.out o
  if s.tickServes o && (x.accepted ++ x.deferred).any covers then
    s.updOut o fun x => { x with removalsLate := x.removalsLate ++ [r] }
  else s.askRemoval o r

/-! ### The ends of a frame and the latch -/

/-- The slices that a plan composes layers of. -/
def Plan.slices (p : Plan) : List Nat :=
  (p.layers.filter fun l => !l.cap && !p.shed.contains l.slot).foldl (fun c l => insertNat l.owner c) []

/-- The frame that ends had underruns (R221, R222). -/
def State.endUnderrun (s : State) (o frame : Nat) (old : Option Plan) : State :=
  let x := s.out o
  if x.urLines = 0 then s
  else
    let s := (s.count (R.outUrFrames o) F.outUrFrames_n).event 0x41 o 0
    let s := s.each (match old with | some p => p.slices | none => []) fun s sl =>
      s.postEvent sl 0x8004 (leBytes 1 (s.outOrdinal sl o) ++ leBytes 1 0 ++ leBytes 2 (min 0xFFFF x.urLines) ++
        leBytes 4 frame ++ leBytes 2 x.urFirst)
    s.updOut o fun x => { x with urLines := 0, urFirst := 0 }

/-- The frame counter and the station time of the tick (R209, R212). -/
def State.tickStamp (s : State) (o : Nat) : State :=
  let s := s.wr (R.outFrame o) (s.rd (R.outFrame o) + 1#32)
  (s.wrN (R.outTickLo o) s.now).wrN (R.outTickHi o) (s.now / 2 ^ 32)

/-- A commit latches: images, bindings and regions (R215; 06_layer_composition.md R185, R203; 08 R243). -/
def State.latchCommit (s : State) (o frame : Nat) (c : Commit) : State :=
  let s := s.each c.layers fun s (n, img) =>
    let s := match c.bound.find? fun l => l.slot == n with
      | some l => s.updLayer n fun x =>
          { x with latched := img, owner := c.owner, vid := l.vid, base := l.base, sw := l.sw, sh := l.sh, fmt := l.fmt,
                   colour := l.colour }
      | none => s.updLayer n fun x =>
          { x with latched := img, owner := c.owner, vid := none, base := 0, sw := 0, sh := 0, fmt := 0, colour := 0 }
    let s := s.wrN (R.lyrLatchFrame n) frame
    if c.owner = 256 then s.event 0x42 n 0 else s
  let s := s.each c.regions fun s (n, img) => s.latchRegion c.owner (c.owner != 256 && (s.slice c.owner).restored) n img
  if c.owner = 256 then s.updOut o fun x => { x with capFloor := false, capFloorNext := false } else s

/-- In a pair, commits latch at a tick that both modules have agreed on (15_pairs_and_live_insertion.md R434). -/
def State.mayLatch (s : State) (o frame : Nat) : Bool :=
  if s.secondary || s.forwards then s.pair.latches.any fun (p, f, _, ack) => p == o && f == frame && ack else true

/-- The LATCH of the next tick of an output with accepted commits, sent again when the plan has changed
(15_pairs_and_live_insertion.md R429, R434). -/
def State.announce (s : State) (o : Nat) : State :=
  let x := s.out o
  let frame := (s.num (R.outFrame o) + 1) % 2 ^ 32
  let crc := crc32 (s.planBytes o x.next)
  if !s.forwards || x.accepted.isEmpty || s.inFreeze o ||
      s.pair.latches.any (fun (p, f, c, _) => p == o && f == frame && c == crc) then s
  else
    let rest := s.pair.latches.filter fun (p, f, _, _) => !(p == o && f == frame)
    let s := { s with pair := { s.pair with latches := rest ++ [(o, frame, crc, false)] } }
    s.send (.latch o frame ((s.nextBulkSeq + 2 ^ 24 - 1) % 2 ^ 24) (w32 crc))

/-! ### The plan in use -/

/-- The layers latched at a tick, once its removals and commits have been made; one that waits for the tick after this one
is among them (R506). -/
def State.layersAtTick (s : State) (o : Nat) : List CfgLayer := (s.slotsOn o).filterMap s.latchedLayer

/-- The plan that comes into use at a tick: the layers latched now, with the shed set and the timing of the next plan. -/
def State.planAtTick (s : State) (o frame : Nat) (latched : List Commit) : Plan :=
  let x := s.out o
  let prev := x.next.or x.plan
  let layers := (s.layersAtTick o).filter s.takesPart
  let shed := (match prev with | some p => p.shed | none => []).filter fun n => layers.any fun l => l.slot == n
  let fb := match x.next with | some p => p.fallback | none => x.fallback
  { frame := frame, layers := layers, shed := shed, fallback := if s.holdover then x.fallback else fb,
    accTime := newestAcc latched (match x.plan with | some p => p.accTime | none => 0),
    causes := match x.next with | some p => p.causes | none => [] }

/-- The versions that a plan reads. -/
def planVids (p : Option Plan) : List Nat :=
  match p with
  | some p => p.layers.foldl (fun c l => match l.vid with | some v => insertNat v c | none => c) []
  | none => []

/-- The output holds the versions of the plan in use; the holds of the plan before it end (04_surfaces_and_haul.md R151, R152). -/
def State.turnHolds (s : State) (o ended : Nat) (old new : Option Plan) : State :=
  let s := s.each (planVids new) fun s v => s.hold v (.output o)
  s.each ((planVids old).filter fun v => !(planVids new).contains v) fun s v => s.endOutputHold v o ended

/-- The record of a commit that latches (05_bench_plan_and_fit_check.md R161, R162). -/
def State.latchRecord (s : State) (o frame : Nat) (p : Plan) (c : Commit) : State :=
  if c.owner = 256 then s
  else
    let s := s.endCommitHolds o c.owner c.handle
    let mask := s.shedMask c.owner p.shed
    s.complete c.owner c.handle (if mask = 0 then 0 else 1) (s.commitResult o c frame c.headroom mask)

/-- A shed or restored layer is told to its slice (05_bench_plan_and_fit_check.md R177). -/
def State.shedEvent (s : State) (o status : Nat) (p : Plan) (l : CfgLayer) : State :=
  let cause := match p.causes.find? fun e => e.1 == l.slot with
    | some e => e.2
    | none => s.fld (R.bplCapacity 0) F.bplCapacity_causes % 16
  if l.cap then s
  else s.postEvent l.owner status (leBytes 1 (s.outOrdinal l.owner o) ++ leBytes 1 ((s.ordinalOf l.owner 1 l.slot).getD 0xFF) ++
    leBytes 1 l.cls ++ leBytes 1 cause ++ leBytes 4 p.frame)

/-- BPL_n PAGE_EVENT bit 1: the shed set in use changes (05_bench_plan_and_fit_check.md R176, R507). -/
def State.shedChange (s : State) (o : Nat) (old : Option Plan) (new : Plan) : State :=
  let was := match old with | some p => p.shed | none => []
  if was.all new.shed.contains && new.shed.all was.contains then s else s.event 0x40 o 1

/-- The changes of the shed set at a tick (05_bench_plan_and_fit_check.md R177). -/
def State.shedEvents (s : State) (o : Nat) (old : Option Plan) (new : Plan) (latched : List Commit) : State :=
  let was (n : Nat) : Bool := match old with | some p => p.shed.contains n | none => false
  s.each new.layers fun s l =>
    if new.shed.contains l.slot then
      if was l.slot || latched.any fun c => c.coversSlot l.slot then s else s.shedEvent o 0x8002 new l
    else if was l.slot then s.shedEvent o 0x8003 new l else s

/-! ### The change of timing (R229; 14_clock_generation.md R411) -/

/-- BPL_CAPACITY.fallback_outputs and cause bit 3 follow the timing of an output. -/
def State.noteFallback (s : State) (o : Nat) (fb : Bool) : State :=
  let m := s.fld (R.bplCapacity 0) F.bplCapacity_fallback_outputs
  let m := if fb then m ||| 2 ^ o else andNot m (2 ^ o)
  (s.put (R.bplCapacity 0) F.bplCapacity_fallback_outputs m).setCause 3 (m != 0)

/-- The link reaches video at the timing in use; video starts at the next tick (R219, R229). -/
def State.linkVideo (s : State) (o : Nat) (due : Bool) : State :=
  let st := if (s.out o).fallback then 4 else 3
  (s.put (R.outLinkStatus o) F.outLinkStatus_state st).updOut o fun x => { x with videoDue := due }

/-- The output changes to its other timing at a tick. With the pixel clock unchanged the generator goes on along the exact grid;
for another one it halts (R229; 14_clock_generation.md R411). -/
def State.changeTiming (s : State) (o : Nat) (fb : Bool) : State :=
  let x := s.out o
  let old := s.timing o
  let s := (s.setOut o { x with fallback := fb }).event 0x41 o 6
  if (s.timing o).khz = old.khz then
    s.updOut o fun x => { x with clk0 := x.clk0 + x.ticks * old.ht * old.vt, ticks := 0 }
  else s.updOut o fun x => { x with retune := true, t0 := s.time, clk0 := 0, ticks := 0 }

/-- The tick at which a plan compiled for another timing comes into use (R229). A training begun since then decides anew. -/
def State.turnTiming (s : State) (o : Nat) (p : Plan) : State :=
  let x := s.out o
  let s := if p.fallback = x.fallback then s else s.changeTiming o p.fallback
  match x.fbNext with
  | none => s
  | some b =>
    if p.fallback = b then
      let s := (s.updOut o fun x => { x with fbNext := none }).noteFallback o b
      if s.linkState o = 2 && !x.auxOwn then s.linkVideo o false else s
    else s

/-- The timing that an output is to have (R229): it has it, with a plan that can still be compiled for it, or changes to it at
a tick. Whether it has it now. -/
def State.wantTiming (s : State) (o : Nat) (fb : Bool) : Bool × State :=
  let x := s.out o
  let next := match x.next with | some p => p.fallback | none => x.fallback
  let here := x.fallback == fb && (next == fb || !s.inFreeze o)
  let s := s.updOut o fun x => { x with fbNext := if here then none else some fb }
  (here, s)

/-! ### AUX transactions that wait (R231) -/

/-- A request writes: native write, or an I2C write. -/
def auxWrites (req : Nat) : Bool := req == 8 || req == 0 || req == 4

/-- A transaction of software ends. -/
def State.endAux (s : State) (o result n : Nat) : State :=
  let s := s.updOut o fun x => { x with auxReq := none, auxWait := false }
  let s := (s.clrF (R.outAuxCmd o) F.outAuxCmd_start).put (R.outAuxCmd o) F.outAuxCmd_result result
  (s.put (R.outAuxCmd o) F.outAuxCmd_done n).event 0x41 o 7

/-- A software write to the link-configuration field of the DPCD that is not sent. -/
def State.auxBlocked (s : State) (o : Nat) (q : AuxReq) : Bool :=
  let st := s.linkState o
  q.request == 8 && q.addr < 0x110 && 0x100 < q.addr + q.len && (st == 2 || st == 3 || st == 4)

/-- A transaction of software goes out, again after each DEFER, or ends with NACK where it is not sent. -/
def State.sendAux (s : State) (o : Nat) (q : AuxReq) : State :=
  if s.auxBlocked o q then s.endAux o 1 0
  else (s.updOut o fun x => { x with auxReq := some q, auxWait := false }).emit (.aux o q.request q.addr q.len q.data)

/-- The module's own transactions end: one of software that waits is sent. -/
def State.auxIdle (s : State) (o : Nat) : State :=
  let s := s.updOut o fun x => { x with auxOwn := false }
  match (s.out o).auxReq with
  | some q => if (s.out o).auxWait then s.sendAux o q else s
  | none => s

/-- The module reads the DPCD by a transaction of its own (R227, R230). -/
def State.readDpcd (s : State) (o addr len : Nat) : State := s.emit (.aux o 9 addr len [])

/-! ### A slice that thaws after a restore (03_slices.md R122) -/

/-- Every restored configuration has latched: the slice runs, its held records are written, the guest learns of it. -/
def State.finishThaw (s : State) (sl : Nat) : State :=
  let x := s.slice sl
  let s := s.setSlice sl { x with st := .bound, relatch := [], restored := false, latchedAll := true, captured := false,
                                  firstDone := false, nextRound := 0, round := 0 }
  let s := ((s.flush sl).tellLost sl).postEvent sl 0x8005 (leBytes 1 3 ++ leBytes 1 0xF ++ leBytes 1 (b2n x.latchedAll) ++ leBytes 1 0 ++
    leBytes 2 (s.fld (R.slcGrantSeq sl) F.slcGrantSeq_grant_seq))
  s.put (R.slcGrantSeq sl) F.slcGrantSeq_migration_count (s.fld (R.slcGrantSeq sl) F.slcGrantSeq_migration_count + 1)

/-- A tick of an output passes for the slices that thaw: what they had restored there has latched, unless a frozen plan still
holds it back. -/
def State.thawTick (s : State) (o : Nat) : State :=
  s.each ((s.slices.filter fun e => e.2.relatch.contains o && !(s.out o).passed.any fun c => c.owner == e.1).map (·.1)) fun s sl =>
    let s := s.updSlice sl fun x => { x with relatch := x.relatch.filter (· ≠ o) }
    if (s.slice sl).relatch.isEmpty then s.finishThaw sl else s

/-! ### The tick -/

/-- The removals that wait on an output are made where no tick of it comes (log 58). -/
def State.removeAll (s : State) (o : Nat) : State :=
  let l := (s.out o).removals ++ (s.out o).removalsLate
  let s := s.updOut o fun x => { x with removals := [], removalsLate := [] }
  s.each l fun s r => s.removeNow o r

/-- The stop of an output at its last tick (R211). -/
def State.stopOutput (s : State) (o : Nat) : State :=
  let s := (s.setOut o { s.out o with gen := .stopped, plan := none, next := none, videoDue := false,
                                      capFloor := (s.out o).capFloorNext, pixels := [] }).event 0x41 o 10
  let s := s.removeAll o
  let s := ((s.put (R.outLinkStatus o) F.outLinkStatus_state 0).auxIdle o).stopPll (6 + o)
  (s.floorTick o).shedPass false

/-- What happens at a frame tick once the frame number has advanced: `ended` is the frame that ended, `old` its plan. -/
def State.turnFrame (s : State) (o ended : Nat) (old : Option Plan) (last : Bool) : State :=
  let frame := s.num (R.outFrame o)
  let x := s.out o
  let commits := if s.mayLatch o frame then x.accepted else []
  let s := s.each x.removals fun s r => s.remove o r
  let s := s.updOut o fun y => { y with
    removals := y.removalsLate, removalsLate := [], accepted := if commits.isEmpty then y.accepted else [] }
  let s := s.each commits fun s c => s.latchCommit o frame c
  let latched := commits.flatMap fun c => c.regions.map (·.1)
  let p := s.planAtTick o frame commits
  let s := s.updOut o fun y => { y with
    plan := some p, next := none, line := s.latchLine o (s.timing o), ticks := y.ticks + 1,
    tickTime := s.now, videoDue := false, eccSeen := [], denied := [], tileSeen := [],
    allFloor := y.allFloorNext, capFloor := y.capFloorNext, lead := s.leads o, hold := [] }
  let s := s.turnHolds o ended old (if last then none else some p)
  let s := s.each commits fun s c => s.latchRecord o frame p c
  let s := s.each (regionsOn o) fun s n => s.regionTurn n ended (latched.contains n)
  let s := (((s.shedEvents o old p commits).shedChange o old p).reductionTick o last).floorTick o
  let s := { s with pair := { s.pair with latches := s.pair.latches.filter fun (q, f, _, _) => !(q == o && f == frame) } }
  if last then s.stopOutput o
  else
    let s := s.turnTiming o p
    let s := s.wrN (R.outRate o) (s.timing o).mHz
    let s := s.thawTick o
    let late := (s.out o).deferred
    let s := s.updOut o fun y => { y with deferred := [] }
    let s := s.each late fun s c => s.accept o c
    let s := if (s.out o).allFloor then s else s.each (regionsOn o) fun s n => s.regionBegin n p
    ((s.shedPass false).updOut o fun y => { y with lateCauses := [] }).announce o

/-- The frame tick of an output: `last` is the tick of an accepted stop (R32, R211, R212, R215, R506). -/
def State.frameTick (s : State) (o : Nat) (last : Bool) : State :=
  ((s.endUnderrun o (s.num (R.outFrame o)) (s.out o).plan).tickStamp o).turnFrame o (s.num (R.outFrame o)) (s.out o).plan last

/-- FRAME_TICK (R32, R209). -/
def doFrameTick (o : Nat) (s : State) : State :=
  let x := s.out o
  if !x.counts then s
  else (s.at (s.tickTime o (x.ticks + 1))).frameTick o (x.gen == .stopping)

/-- A frame tick that falls at the present instant or earlier occurs before what is commanded at that instant
(03_slices.md R106; 09_capacitive_touch.md R284). -/
def State.dueFrames (s : State) : State :=
  s.each (List.range 8) fun s o =>
    if (s.out o).counts && s.tickTime o ((s.out o).ticks + 1) ≤ s.time then doFrameTick o s else s

/-- The first frame tick of an output that starts: its grid starts at it. -/
def State.firstTick (s : State) (o : Nat) : State :=
  ((s.frameTick o false).updOut o fun y => { y with t0 := s.time, clk0 := 0, ticks := 0 }).event 0x41 o 9

/-- OUTPUT_START: the PLL of a started output is locked, and its first frame tick occurs (R210; 14_clock_generation.md R410). -/
def doOutputStart (o : Nat) (s : State) : State :=
  let x := s.out o
  if x.gen != .locking || !s.pllOk (6 + o) then s
  else
    ((s.reductionTick o true).setOut o
      { x with gen := .running, t0 := s.time, clk0 := 0, ticks := 0, retune := false, allFloor := x.allFloorNext }).firstTick o

/-! ### OUT_CTRL.run (R208, R210, R211; 15_pairs_and_live_insertion.md R437; 16_power_resets_and_start_up.md R476) -/

/-- A timing meets what a pair asks for. -/
def State.pairTiming (s : State) (o : Nat) (t : Timing) : Bool :=
  2000 * t.khz ≤ t.ht * 1000000 && 250 * t.khz ≤ (t.ht - t.ha) * 1000000 && s.latchLine o t + 3 ≤ t.vt

/-- In a pair, an output that runs with tx meets R437. -/
def State.pairOk (s : State) (o : Nat) : Bool :=
  s.fld R.pairStatus F.pairStatus_state ≤ 1 ||
    (s.fld (R.outLinkCtrl o) F.outLinkCtrl_mode == 2 && s.pairTiming o (s.normalTiming o) &&
      match s.fallbackTiming o with | some t => s.pairTiming o t | none => true)

/-- A write of run = 1 is refused (R208). -/
def State.runRefused (s : State) (o : Nat) (tx : Bool) : Bool :=
  let caps := (s.configWith o []).filter CfgLayer.cap
  !s.flag R.bootStatus F.bootStatus_station_ok || !s.timingOk o (s.normalTiming o) ||
    (match s.fallbackTiming o with | some t => !s.timingOk o t | none => false) ||
    (s.checkOut o caps (s.shares o)).isSome || (tx && !s.pairOk o)

/-- An accepted write of run = 1 (R210). -/
def State.runOn (s : State) (o : Nat) : State :=
  let s := s.setF (R.outCtrl o) F.outCtrl_run
  match (s.out o).gen with
  | .stopped => ((s.updOut o fun x => { x with gen := .locking }).startPll (6 + o)).shedPass false
  | .stopping => s.updOut o fun x => { x with gen := .running }
  | _ => s

/-- A write of run = 0 is refused (R211). -/
def State.stopRefused (s : State) (o : Nat) : Bool :=
  let x := s.out o
  ((s.slotsOn o).any fun n => (match s.slotOwner n with | some w => w < 256 | none => false) && imgOn (s.layer n).latched) ||
    !(x.accepted ++ x.deferred).isEmpty

/-- An accepted write of run = 0 (R210, R211). -/
def State.runOff (s : State) (o : Nat) : State :=
  let s := s.clrF (R.outCtrl o) F.outCtrl_run
  match (s.out o).gen with
  | .running => (s.updOut o fun x => { x with gen := .stopping }).dropCommits o
  | .locking =>
    let old := (s.out o).plan
    let s := s.updOut o fun x => { x with gen := .stopped, plan := none, next := none }
    let s := (s.turnHolds o (s.num (R.outFrame o)) old none).removeAll o
    ((((s.stopPll (6 + o)).put (R.outLinkStatus o) F.outLinkStatus_state 0).auxIdle o).floorTick o).dropCommits o
  | _ => s

/-- The timing registers of an output are locked (R208). -/
def State.timingLocked (s : State) (o : Nat) : Bool :=
  s.flag (R.outCtrl o) F.outCtrl_run || (s.out o).gen != .stopped

/-- A write of a timing register (R208). -/
def doOutTiming (o a : Nat) (v : Word) (s : State) : State := if s.timingLocked o then s else s.plainWrite a v

/-- The run bit of a write of OUT_CTRL. -/
def State.runWrite (s : State) (o : Nat) (v : Word) : State :=
  let run := s.flag (R.outCtrl o) F.outCtrl_run
  if bitAt v.toNat 0 && !run then
    if (s.out o).gen != .stopping && s.runRefused o (bitAt v.toNat 1) then s.setF (R.outCtrl o) F.outCtrl_bad_timing
    else s.runOn o
  else if !bitAt v.toNat 0 && run then
    if s.stopRefused o then s.setF (R.outCtrl o) F.outCtrl_stop_refused else s.runOff o
  else s

/-- The plain fields of a write of OUT_CTRL. -/
def State.outCtrlPlain (s : State) (o : Nat) (v : Word) : State :=
  let s := if bitAt v.toNat 31 then s.clrF (R.outCtrl o) F.outCtrl_bad_timing else s
  let s := if bitAt v.toNat 30 then s.clrF (R.outCtrl o) F.outCtrl_stop_refused else s
  let s := if s.timingLocked o then s else s.put (R.outCtrl o) F.outCtrl_depth30 (bitsOf v.toNat 7 7)
  (s.put (R.outCtrl o) F.outCtrl_hsync_pos (bitsOf v.toNat 6 6)).put (R.outCtrl o) F.outCtrl_vsync_pos (bitsOf v.toNat 5 5)

/-- PIXEL_CLOCK_RETUNE_DONE: the generator goes on at the start of the latch line (14_clock_generation.md R411, R412). -/
def doRetuneDone (o : Nat) (s : State) : State :=
  let x := s.out o
  if x.retune && s.pllOk (6 + o) && !s.holdover then s.setOut o { x with retune := false, t0 := s.time, clk0 := 0, ticks := 0 } else s

end Sys2Proof.Machine
end

