-- ==== Sys2Proof/Machine/Links.lean ====
section
/-!
DEFINITION. Display links: tx, hot-plug detect, training, the fixed sequence and AUX
(07_scanout_and_display_links.md R219, R225 to R233).
-/

namespace Sys2Proof.Machine

/-! ### Link registers -/

/-- The mode of an output: 0 DP, 1 eDP, 2 eDP fixed. -/
def State.linkMode (s : State) (o : Nat) : Nat := s.fld (R.outLinkCtrl o) F.outLinkCtrl_mode

/-- The debounced level of HPD, a bit of the page's block status. -/
def State.hpd (s : State) (o : Nat) : Bool := bitAt (s.num (pageBase 0x41 o + 0x0C)) 17

/-- Record the debounced level of HPD. -/
def State.setHpd (s : State) (o : Nat) (b : Bool) : State := s.put (pageBase 0x41 o + 0x0C) ⟨17, 17⟩ (b2n b)

/-- Set the state of a link; outside training and video no rate and no lanes are in use. -/
def State.setLink (s : State) (o st : Nat) : State :=
  let s := s.put (R.outLinkStatus o) F.outLinkStatus_state st
  if st ≤ 2 || st = 6 then
    (s.put (R.outLinkStatus o) F.outLinkStatus_rate 0).put (R.outLinkStatus o) F.outLinkStatus_lanes 0
  else s

/-- The rate codes of DP (R226). -/
def dpRates : List Nat := [0x1E, 0x14, 0x0A, 0x06]

/-- The rate codes that a write may set (R226). -/
def linkRates (mode : Nat) : List Nat := if mode = 0 then dpRates else dpRates ++ [0x08, 0x09, 0x0C, 0x10]

/-- A write of OUT_LINK_CTRL: only while tx is 0 (R226; 15_pairs_and_live_insertion.md R437). -/
def doLinkCtrl (o : Nat) (v : Word) (s : State) : State :=
  if s.flag (R.outCtrl o) F.outCtrl_tx then s
  else
    let m := bitsOf v.toNat 1 0
    let pair := 1 < s.fld R.pairStatus F.pairStatus_state
    let s := if m = 3 || (pair && m != 2) then s else s.put (R.outLinkCtrl o) F.outLinkCtrl_mode m
    let rate := bitsOf v.toNat 23 16
    let s := if (linkRates (s.linkMode o)).contains rate then s.put (R.outLinkCtrl o) F.outLinkCtrl_rate rate else s
    let lanes := bitsOf v.toNat 11 8
    let s := if [1, 2, 4].contains lanes then s.put (R.outLinkCtrl o) F.outLinkCtrl_lanes lanes else s
    s.put (R.outLinkCtrl o) F.outLinkCtrl_ssc (bitsOf v.toNat 7 7)

/-- The link carries a timing (R228). -/
def linkCarries (t : Timing) (lanes rate : Nat) : Bool :=
  t.khz * (if t.d30 then 30 else 24) * 80 ≤ lanes * rate * 17010000

/-! ### AUX (R231) -/

/-- The transaction that the AUX registers name. -/
def State.auxRequest (s : State) (o : Nat) : AuxReq :=
  let req := s.fld (R.outAuxCmd o) F.outAuxCmd_request
  let len := s.fld (R.outAuxCmd o) F.outAuxCmd_len_m1 + 1
  let data := ([0, 1, 2, 3].flatMap fun i => leBytes 4 (s.num (R.outAuxData o i))).take len
  { request := req, addr := s.fld (R.outAuxAddr o) F.outAuxAddr_addr, len := len, data := if auxWrites req then data else [] }

/-- A write of OUT_AUX_CMD. -/
def doAuxCmd (o : Nat) (v : Word) (s : State) : State :=
  if bitAt v.toNat 31 && s.flag (R.outAuxCmd o) F.outAuxCmd_start then s
  else
    let s := s.put (R.outAuxCmd o) F.outAuxCmd_request (bitsOf v.toNat 27 24)
    let s := s.put (R.outAuxCmd o) F.outAuxCmd_len_m1 (bitsOf v.toNat 3 0)
    if !bitAt v.toNat 31 then s
    else
      let q := s.auxRequest o
      let s := s.setF (R.outAuxCmd o) F.outAuxCmd_start
      if (s.out o).auxOwn && !s.auxBlocked o q then s.updOut o fun x => { x with auxReq := some q, auxWait := true }
      else s.sendAux o q

/-- The code of OUT_AUX_CMD.result. -/
def auxCode : AuxResult → Nat
  | .ack => 0
  | .nack => 1
  | .defer => 2
  | .deferLimit => 2
  | .timeout => 3
  | .hpdLow => 4
  | .i2cNack => 5

/-- A request reads: native read, or an I2C read. -/
def auxReads (req : Nat) : Bool := req == 9 || req == 1 || req == 5

/-- AUX_TRANSACTION_DONE: a DEFER is retried up to 7 times (R231). -/
def doAuxDone (o : Nat) (result : AuxResult) (data : List Byte) (s : State) : State :=
  match (s.out o).auxReq with
  | none => s
  | some q =>
    if (s.out o).auxWait then s
    else if result == .defer && q.defers < 7 then
      if (s.out o).auxOwn then s.updOut o fun x => { x with auxReq := some { q with defers := q.defers + 1 }, auxWait := true }
      else s.sendAux o { q with defers := q.defers + 1 }
    else
    let reads := auxReads q.request
    let len := q.len
    let data := data.take len
    let bytes := [0, 1, 2, 3].flatMap fun i => leBytes 4 (s.num (R.outAuxData o i))
    let words := wordsOf (data ++ bytes.drop data.length)
    let s := if reads then s.each [0, 1, 2, 3] fun s i => s.wr (R.outAuxData o i) ((words[i]?).getD 0#32) else s
    s.endAux o (auxCode result) (if reads then data.length else if auxCode result = 0 then len else data.length)

/-! ### Training (R227, R229) -/

/-- A training starts with the reads of the sink's capabilities (R227, step 1). -/
def State.trainStart (s : State) (o : Nat) : State :=
  let s := if (s.out o).trained then s.count (R.outLinkRetrains o) F.outLinkRetrains_n else s
  let s := (s.setLink o 2).updOut o fun x =>
    { x with trained := true, auxOwn := true, tryRate := 0, tryLanes := 0, videoDue := false }
  let s := s.readDpcd o 0 16
  if s.linkMode o = 1 then s.readDpcd o 0x10 16 else s

/-- The equalisation pattern of a rate code: TPS2 to HBR, TPS3 at HBR2, TPS4 at HBR3, and for an intermediate rate that of the
nearest standard rate above it (R227). -/
def eqPattern (rate : Nat) : Nat := if rate ≤ 0x0A then 2 else if rate ≤ 0x14 then 3 else 4

/-- A training at a rate and lane count sends TPS1, then the equalisation pattern (R227, R232). -/
def State.sendPatterns (s : State) (o rate lanes : Nat) : State :=
  let ssc := s.flag (R.outLinkCtrl o) F.outLinkCtrl_ssc
  (s.emit (.linkPattern o 1 rate lanes ssc)).emit (.linkPattern o (eqPattern rate) rate lanes ssc)

/-- The link starts from its first step: tx and run are 1 (R227, R232). -/
def State.linkStart (s : State) (o : Nat) : State :=
  let s := s.updOut o fun x => { x with videoDue := false }
  if !(s.flag (R.outCtrl o) F.outCtrl_tx && s.flag (R.outCtrl o) F.outCtrl_run) then s.setLink o 0
  else if s.linkMode o = 2 then
    let rate := s.fld (R.outLinkCtrl o) F.outLinkCtrl_rate
    let lanes := s.fld (R.outLinkCtrl o) F.outLinkCtrl_lanes
    if linkCarries (s.timing o) lanes rate then
      let s := s.put (R.outLinkDrive o) F.outLinkDrive_levels (s.fld (R.outLinkDrive o) F.outLinkDrive_fixed)
      let s := s.sendPatterns o rate lanes
      ((s.setLink o 7).put (R.outLinkStatus o) F.outLinkStatus_rate rate).put (R.outLinkStatus o) F.outLinkStatus_lanes lanes
    else s.setLink o 0
  else if s.hpd o then s.trainStart o
  else s.setLink o 1

/-- The rates that a training tries, highest first (R227). -/
def State.tryRates (s : State) (o : Nat) (sink : SinkCaps) : List Nat :=
  let top := min (s.fld (R.outLinkCtrl o) F.outLinkCtrl_rate) sink.maxRate
  (if s.linkMode o = 1 then sink.rates else dpRates).filter (· ≤ top)

/-- The rate and lane count of the present attempt. -/
def State.attempt (s : State) (o : Nat) (sink : SinkCaps) : Nat × Nat :=
  let x := s.out o
  if x.tryRate = 0 then
    (((s.tryRates o sink).head?).getD 0, max 1 (min (s.fld (R.outLinkCtrl o) F.outLinkCtrl_lanes) sink.maxLanes))
  else (x.tryRate, x.tryLanes)

/-- The attempt after a failed one: the next lower rate, else half the lanes at the highest rate; none is left after one lane
at the lowest rate (R227). -/
def nextAttempt (rates : List Nat) (rate lanes : Nat) : Option (Nat × Nat) :=
  match rates.filter (· < rate) with
  | r :: _ => some (r, lanes)
  | [] => if lanes ≤ 1 then none else (rates.head?).map fun r => (r, lanes / 2)

/-- The link is trained for a timing: video at the next tick where the output has it, else once it has changed to it (R229). -/
def State.linkTiming (s : State) (o : Nat) (fb : Bool) : State :=
  let s := if fb then s.noteFallback o true else s
  let (here, s) := s.wantTiming o fb
  let s := if here then (if fb then s else s.noteFallback o false).linkVideo o true else s
  s.shedPass false

/-- The trained link carries neither timing: the timing stays as it was (R229). -/
def State.linkNoFit (s : State) (o : Nat) : State :=
  let fb := (s.out o).fallback
  let (_, s) := s.wantTiming o fb
  ((((s.noteFallback o fb).setLink o 5).event 0x41 o 5)).shedPass false

/-- The timing that a trained link carries (R229). -/
def State.linkFits (s : State) (o lanes rate : Nat) : State :=
  if linkCarries (s.normalTiming o) lanes rate then (s.event 0x41 o 4).linkTiming o false
  else match s.fallbackTiming o with
    | some t =>
      if s.timingOk o t && linkCarries t lanes rate then (s.event 0x41 o 4).linkTiming o true else s.linkNoFit o
    | none => s.linkNoFit o

/-- TRAINING_ATTEMPT_DONE (R227, R229). -/
def doTrainingDone (o : Nat) (ok : Bool) (drive : BitVec 16) (sink : SinkCaps) (s : State) : State :=
  if !((s.out o).auxOwn && s.linkState o == 2) then s
  else
    let (rate, lanes) := s.attempt o sink
    let s := (s.count (R.outLinkStatus o) F.outLinkStatus_tries).sendPatterns o rate lanes
    if ok then
      let s := (s.put (R.outLinkStatus o) F.outLinkStatus_rate rate).put (R.outLinkStatus o) F.outLinkStatus_lanes lanes
      let s := s.put (R.outLinkDrive o) F.outLinkDrive_levels drive.toNat
      (s.auxIdle o).linkFits o lanes rate
    else match nextAttempt (s.tryRates o sink) rate lanes with
      | some (r, n) => s.updOut o fun x => { x with tryRate := r, tryLanes := n }
      | none => ((s.setLink o 6).auxIdle o).event 0x41 o 5

/-- FIXED_SEQUENCE_DONE (R232). -/
def doFixedDone (o : Nat) (s : State) : State :=
  if s.linkState o = 7 then
    ((s.put (R.outLinkStatus o) F.outLinkStatus_state 8).updOut o fun x => { x with videoDue := true }).event 0x41 o 4
  else s

/-! ### HPD (R230) -/

/-- HPD_PLUG. In eDP fixed mode HPD is ignored. -/
def doPlug (o : Nat) (s : State) : State :=
  let s := s.setHpd o true
  if s.linkMode o = 2 then s
  else
    let s := (s.event 0x41 o 1).put (R.outLinkStatus o) F.outLinkStatus_tries 0
    if s.linkState o = 0 then s else s.linkStart o

/-- HPD_UNPLUG: video stops. -/
def doUnplug (o : Nat) (s : State) : State :=
  let s := s.setHpd o false
  if s.linkMode o = 2 then s
  else
    let s := s.event 0x41 o 2
    if s.linkState o = 0 then s else ((s.setLink o 1).updOut o fun x => { x with videoDue := false }).auxIdle o

/-- IRQ_HPD: a lost link, and one whose training had failed, is trained again (R227, R230). -/
def doIrqHpd (o : Nat) (lost : Bool) (s : State) : State :=
  if s.linkMode o = 2 || !s.hpd o then s
  else
    let s := (s.event 0x41 o 3).readDpcd o 0x200 6
    let st := s.linkState o
    if st = 6 || (lost && (3 ≤ st && st ≤ 5 || st == 2 && !(s.out o).auxOwn)) then s.trainStart o else s

/-! ### OUT_CTRL (R208, R210, R211, R232, R233) -/

/-- A write of tx = 1 is refused: a pair's rule, or a fixed link that does not carry the timing (R232;
15_pairs_and_live_insertion.md R437). -/
def State.txRefused (s : State) (o : Nat) : Bool × Bool :=
  (s.flag (R.outCtrl o) F.outCtrl_run && !s.pairOk o,
   s.linkMode o == 2 && !linkCarries (s.timing o) (s.fld (R.outLinkCtrl o) F.outLinkCtrl_lanes)
     (s.fld (R.outLinkCtrl o) F.outLinkCtrl_rate))

/-- The tx bit of a write of OUT_CTRL. -/
def State.txWrite (s : State) (o : Nat) (v : Word) : State :=
  let tx := s.flag (R.outCtrl o) F.outCtrl_tx
  if bitAt v.toNat 1 && !tx then
    let (pair, fixed) := s.txRefused o
    if pair then s.setF (R.outCtrl o) F.outCtrl_bad_timing
    else if fixed then s
    else ((s.setF (R.outCtrl o) F.outCtrl_tx).put (R.outLinkStatus o) F.outLinkStatus_tries 0).linkStart o
  else if !bitAt v.toNat 1 && tx then
    let s := (s.clrF (R.outCtrl o) F.outCtrl_tx).put (R.outLinkStatus o) F.outLinkStatus_tries 0
    ((s.setLink o 0).updOut o fun x => { x with videoDue := false }).auxIdle o
  else s

/-- A write of OUT_CTRL: its plain fields, then run, then tx; a start with tx already 1 starts the link. -/
def doOutCtrl (o : Nat) (v : Word) (s : State) : State :=
  let s := s.outCtrlPlain o v
  let was := s.flag (R.outCtrl o) F.outCtrl_run
  let s := s.runWrite o v
  let s := if !was && s.flag (R.outCtrl o) F.outCtrl_run && s.flag (R.outCtrl o) F.outCtrl_tx && s.linkState o == 0
    then s.linkStart o else s
  s.txWrite o v

/-- OUTPUT_START, with the link of an output that its PLL had stopped (R210; 14_clock_generation.md R410). -/
def doStart (o : Nat) (s : State) : State :=
  let was := (s.out o).gen
  let s := doOutputStart o s
  if was != (s.out o).gen && s.linkState o == 0 && s.flag (R.outCtrl o) F.outCtrl_tx then s.linkStart o else s

/-- OUT_POS as read: the current line, and the pixel that its time gives (R206, OUT_POS). -/
def State.outPosWord (s : State) (o : Nat) : Word :=
  let x := s.out o
  if !(x.gen == .running || x.gen == .stopping) then 0#32
  else
    let t := s.timing o
    w32 (x.line * 65536 + min (t.ht - 1) ((s.time - s.lineTime o x.line) * t.khz / 1000000))

/-- PAGE_STATUS.block_status of an OUT page, in place. -/
def State.outStatus (s : State) (o : Nat) : Nat :=
  let x := s.out o
  let st := s.linkState o
  b2n x.fallback * 2 ^ 20 + b2n (s.sendsVideo o) * 2 ^ 19 + b2n (3 ≤ st && st ≤ 5 || st == 8) * 2 ^ 18 +
    b2n (s.hpd o) * 2 ^ 17 + b2n (x.gen == .running || x.gen == .stopping) * 2 ^ 16

end Sys2Proof.Machine
end

