-- ==== Sys2Proof/Machine/Demod.lean ====
section
/-!
DEFINITION. The demodulation of the receive electrodes of a panel (09_capacitive_touch.md R262, R263, R268): cosines and sines
of whole steps of a turn, the sums I and Q, and amplitudes. The spec's sums are of real numbers; the model computes cosines to
64 fractional bits (log 105).
-/

namespace Sys2Proof.Machine

/-- One, and π, with 64 fractional bits. -/
def fixOne : Nat := 2 ^ 64
def fixPi : Nat := 0x3243F6A8885A308D3

/-- A series 1 − y/c₁ (1 − y/c₂ (1 − …)) of its coefficients, the last first. -/
def altSeries (y : Nat) (cs : List Nat) : Nat := cs.foldl (fun a c => fixOne - y * a / fixOne / c) fixOne

/-- The cosine and the sine of an angle of at most π/4. -/
def cosSmall (x : Nat) : Nat := altSeries (x * x / fixOne) [380, 306, 240, 182, 132, 90, 56, 30, 12, 2]
def sinSmall (x : Nat) : Nat := x * altSeries (x * x / fixOne) [420, 342, 272, 210, 156, 110, 72, 42, 20, 6] / fixOne

/-- The cosine of `q` steps of the 625 of a quarter turn. -/
def cosQuarter (q : Nat) : Nat :=
  if q ≤ 312 then cosSmall (fixPi * q / 1250) else sinSmall (fixPi * (625 - q) / 1250)

/-- The cosine and the sine of `q` steps of the 2,500 of a turn. -/
def cosStep (q : Nat) : Int :=
  let r := q % 2500
  if r < 625 then (cosQuarter r : Nat)
  else if r < 1250 then -(cosQuarter (1250 - r) : Nat)
  else if r < 1875 then -(cosQuarter (r - 1250) : Nat)
  else (cosQuarter (2500 - r) : Nat)
def sinStep (q : Nat) : Int := cosStep (q + 1875)

/-- The samples of a window, N (R263). -/
def windowSamples (window : Nat) : Nat := if window = 0 then 625 else if window = 2 then 2500 else 1250

/-- The steps of a turn, of 2,500, that bin `k` makes between two samples: f_k / 2.5 MHz (R262). -/
def binStep (window k : Nat) : Nat :=
  if window = 0 then 4 * (24 + k) else if window = 2 then 96 + k else 2 * (48 + k)

/-- I and Q of the samples of an electrode, sample `j` first, with 64 fractional bits (R263). -/
def sumIQ (step : Nat) : Nat → List (BitVec 16) → Int × Int
  | _, [] => (0, 0)
  | j, x :: t =>
    let (i, q) := sumIQ step (j + 1) t
    (i + x.toInt * cosStep (step * j), q + x.toInt * sinStep (step * j))

/-- I and Q of an electrode in bin `k`. -/
def demodIQ (window k : Nat) (xs : List (BitVec 16)) : Int × Int :=
  sumIQ (binStep window k) 0 (xs.take (windowSamples window))

/-- min(65,535, floor(4 sqrt(I² + Q²) / n)), bit by bit (R263). -/
def amplitude (n : Nat) (v : Int × Int) : Nat :=
  let z := 16 * (v.1 * v.1 + v.2 * v.2).toNat
  (List.range 16).foldl (fun a i =>
    let b := a + 2 ^ (15 - i)
    if (b * n * fixOne) * (b * n * fixOne) ≤ z then b else a) 0

/-- The sum of I and of Q over electrodes. -/
def totalIQ (vs : List (Int × Int)) : Int × Int := vs.foldl (fun a v => (a.1 + v.1, a.2 + v.2)) (0, 0)

/-- The amplitude of the mean of `nr` electrodes: I and Q averaged over them (R268). -/
def meanAmplitude (n nr : Nat) (vs : List (Int × Int)) : Nat := if nr = 0 then 0 else amplitude (n * nr) (totalIQ vs)

end Sys2Proof.Machine
end

