-- ==== Sys2Proof/Machine/Touch.lean ====
section
/-!
DEFINITION. Touch panels: the electrode pool, scan plans, baselines, peaks, contacts, noise and hopping, read-back
(09_capacitive_touch.md R258 to R283). Hit-testing, records and reflexes stand in Routing.lean.
-/

namespace Sys2Proof.Machine

/-! ### Lists -/

/-- An element of a list of numbers; past the end 0. -/
def natAt (l : List Nat) (i : Nat) : Nat := l.getD i 0

/-- An element of a list of integers; past the end 0. -/
def intAt (l : List Int) (i : Nat) : Int := l.getD i 0

/-- Put an element into a sorted list, after its equals. -/
def insertBy {α : Type} (lt : α → α → Bool) (a : α) : List α → List α
  | [] => [a]
  | b :: t => if lt a b then a :: b :: t else b :: insertBy lt a t

/-- A sorted list; equals keep their order. -/
def sortBy {α : Type} (lt : α → α → Bool) (l : List α) : List α := l.foldl (fun acc a => insertBy lt a acc) []

/-! ### The electrode pool (R258, R259) -/

/-- The page of a panel. -/
def tchPage (n : Nat) : Nat := pageBase 0x61 n

/-- TCP_PIN_SEL advances by 1 and wraps from 511 to 0. -/
def State.pinAdvance (s : State) : State := s.put R.tcpPinSel F.tcpPinSel_pin (s.fld R.tcpPinSel F.tcpPinSel_pin + 1)

/-- The allotment of the selected pin. -/
def State.pinWord (s : State) : Word := s.rd (K.pin (s.fld R.tcpPinSel F.tcpPinSel_pin))

/-- A read of TCP_PIN_CFG. -/
def readPinCfg (s : State) : Word × State := (s.pinWord, s.pinAdvance)

/-- A write of TCP_PIN_CFG (R258). A pin that is unallotted has no panel now. -/
def doPinCfg (v : Word) (s : State) : State :=
  let p := s.fld R.tcpPinSel F.tcpPinSel_pin
  let old := s.pinWord
  let new := writeFields [fdl 11 10 .rw [(0, 2)], fd 9 7 .rw, fd 6 0 .rw] false old v
  let busy := (bitsOf old.toNat 11 10 != 0 && s.enabled (tchPage (bitsOf old.toNat 9 7))) ||
    s.enabled (tchPage (bitsOf v.toNat 9 7))
  State.pinAdvance <|
    if busy then (s.setF R.tcpAllotErr F.tcpAllotErr_refused).put R.tcpAllotErr F.tcpAllotErr_pin p
    else s.wr (K.pin p) new

/-- The pins of a panel with a role: electrode index and pin number. -/
def State.panelPins (s : State) (n role : Nat) : List (Nat × Nat) :=
  (List.range 512).filterMap fun p =>
    let w := s.num (K.pin p)
    if bitsOf w 11 10 == role && bitsOf w 9 7 == n then some (bitsOf w 6 0, p) else none

/-- The indices of a list of pins are 0 up, each once. -/
def pinsOk (l : List (Nat × Nat)) : Bool :=
  (List.range l.length).all fun (i : Nat) => (l.filter fun e => e.1 == i).length == 1

/-- Pin numbers in index order. -/
def pinList (l : List (Nat × Nat)) : List Nat :=
  (List.range l.length).map fun (i : Nat) => ((l.find? fun e => e.1 == i).map (·.2)).getD 0

/-! ### Frequencies and plans (R262, R264, R266) -/

/-- The number of bins of a window code (R262). -/
def binCount (window : Nat) : Nat := if window = 0 then 97 else if window = 2 then 385 else 193

/-- Bin spacing in units of 100 Hz (R267). -/
def binSpacing (window : Nat) : Nat := if window = 0 then 40 else if window = 2 then 10 else 20

/-- The bins that a hop-set word drives for `nt` transmit indices. -/
def setBins (w nt : Nat) : List Nat := (List.range nt).map fun t => bitsOf w 8 0 + t * (bitsOf w 11 9 + 1)

/-- A hop-set word is usable (R264). -/
def setUsable (w nt window : Nat) : Bool :=
  bitAt w 31 && bitsOf w 8 0 + (nt - 1) * (bitsOf w 11 9 + 1) < binCount window

/-- The panel's hop set `h`. -/
def State.hopSet (s : State) (n h : Nat) : Nat := s.num (K.hop n h)

/-- A panel may be enabled (R259). -/
def State.panelOk (s : State) (n : Nat) : Bool :=
  let tx := s.panelPins n 1
  let rx := s.panelPins n 2
  1 ≤ tx.length && tx.length ≤ 64 && pinsOk tx && 1 ≤ rx.length && tx.length + rx.length ≤ 128 && pinsOk rx &&
    setUsable (s.hopSet n 0) tx.length (s.fld (R.tchCtrl n) F.tchCtrl_window)

/-- Compile a panel's scan plan for a hop set (R266). -/
def State.compileScan (s : State) (n h : Nat) (bridge : Bool) : ScanPlan :=
  let w := s.hopSet n h
  { txPins := pinList (s.panelPins n 1), rxPins := pinList (s.panelPins n 2), set := h, base := bitsOf w 8 0,
    stride := bitsOf w 11 9 + 1, window := s.fld (R.tchCtrl n) F.tchCtrl_window,
    level := s.fld (R.tchCtrl n) F.tchCtrl_tx_level, period := stationPeriod (s.fld (R.tchCtrl n) F.tchCtrl_rate),
    bridge := bridge }

/-- The number of transmit and of receive electrodes of a plan. -/
def ScanPlan.nt (p : ScanPlan) : Nat := p.txPins.length
def ScanPlan.nr (p : ScanPlan) : Nat := p.rxPins.length

/-- The bins that a plan drives. -/
def ScanPlan.bins (p : ScanPlan) : List Nat := (List.range p.nt).map fun t => p.base + t * p.stride

/-- A frequency of a bin in units of 100 Hz (R262). -/
def binFreq (window k : Nat) : Nat := 960 + k * binSpacing window

/-- What an electrode pin does: at ground through its idle impedance; at high impedance; driving a sine of a frequency in
units of 100 Hz with the amplitude of a level code; sensing (R260, R263; 15_pairs_and_live_insertion.md R418). -/
inductive PinDrive where
  | ground | highZ | sense
  | drive (freq level : Nat)
deriving DecidableEq, Repr

/-- What a plan does with a pin of its panel. -/
def ScanPlan.pinDrive (p : ScanPlan) (pin : Nat) : Option PinDrive :=
  if p.rxPins.contains pin then some .sense
  else ((List.range p.nt).find? fun t => natAt p.txPins t == pin).map fun t =>
    .drive (binFreq p.window (p.base + t * p.stride)) p.level

/-- What an electrode pin does now: a pin that no plan in use drives or senses is held at ground, every pin of a pair's
secondary is at high impedance (R260, R266; 15_pairs_and_live_insertion.md R418). -/
def State.pinDrive (s : State) (pin : Nat) : PinDrive :=
  if s.secondary then .highZ
  else ((List.range 8).findSome? fun n => (s.panel n).plan.bind fun p => p.pinDrive pin).getD .ground

/-- The scan period of a plan under the station tick rate in force (R261). -/
def State.planPeriod (s : State) (p : ScanPlan) : Nat := max (stationPeriod s.rate) p.period

/-! ### Panel registers -/

/-- A write of PAGE_CTRL.enable of a panel (R259, R266). -/
def doPanelEnable (n : Nat) (on : Bool) (s : State) : State :=
  let pg := tchPage n
  if on == s.enabled pg then s
  else if on then
    if !s.panelOk n then s.setF (R.tchCtrl n) F.tchCtrl_bad_config
    else (s.put (pg + 0x08) ⟨0, 0⟩ 1).updPanel n fun x =>
      { x with next := some (s.compileScan n 0 false), mode := if x.plan.isNone then 1 else x.mode }
  else (s.put (pg + 0x08) ⟨0, 0⟩ 0).updPanel n fun x => { x with next := none, stopDue := true }

/-- A write of TCH_CTRL; a capture is refused at once on a panel that makes no scan (R273). -/
def doTchCtrl (n : Nat) (v : Word) (s : State) : State :=
  let s := s.plainWrite (R.tchCtrl n) v
  if s.flag (R.tchCtrl n) F.tchCtrl_capture_ref && (s.panel n).mode == 0 then
    (s.clrF (R.tchCtrl n) F.tchCtrl_capture_ref).setF (R.tchCtrl n) F.tchCtrl_ref_refused
  else s

/-- TCH_HOPSET_SEL advances and wraps from 31 to 0. -/
def State.hopAdvance (s : State) (n : Nat) : State :=
  s.put (R.tchHopsetSel n) F.tchHopsetSel_set (s.fld (R.tchHopsetSel n) F.tchHopsetSel_set + 1)

/-- A read of TCH_HOPSET_DATA. -/
def readHopset (n : Nat) (s : State) : Word × State :=
  (s.rd (K.hop n (s.fld (R.tchHopsetSel n) F.tchHopsetSel_set)), s.hopAdvance n)

/-- A write of TCH_HOPSET_DATA, discarded while the panel is enabled. -/
def doHopset (n : Nat) (v : Word) (s : State) : State :=
  let k := K.hop n (s.fld (R.tchHopsetSel n) F.tchHopsetSel_set)
  (if s.enabled (tchPage n) then s else s.wr k (v &&& 0x80000FFF#32)).hopAdvance n

/-- TCH_REF_SEL advances. -/
def State.refAdvance (s : State) (n : Nat) : State :=
  s.put (R.tchRefSel n) F.tchRefSel_node (s.fld (R.tchRefSel n) F.tchRefSel_node + 1)

/-- A read of TCH_REF_DATA. -/
def readRef (n : Nat) (s : State) : Word × State :=
  (s.rd (K.ref n (s.fld (R.tchRefSel n) F.tchRefSel_node)), s.refAdvance n)

/-- A write of TCH_REF_DATA clears valid (R273). -/
def doRef (n : Nat) (v : Word) (s : State) : State :=
  let s := s.wr (K.ref n (s.fld (R.tchRefSel n) F.tchRefSel_node)) (v &&& 0xFFFF#32)
  (s.clrF (R.tchRefInfo n) F.tchRefInfo_valid).refAdvance n

/-- TCH_STATE. -/
def State.tchStateWord (s : State) (n : Nat) : Word :=
  let x := s.panel n
  let set := match x.plan with | some p => p.set | none => 0
  let limited := stationPeriod (s.fld (R.tchCtrl n) F.tchCtrl_rate) < stationPeriod s.rate
  w32 (x.scans * 2 ^ 16 + set * 2 ^ 11 + b2n x.charger * 2 ^ 10 +
    b2n (s.flag (R.tchRefInfo n) F.tchRefInfo_valid) * 2 ^ 9 + b2n limited * 2 ^ 8 + x.mode * 2 ^ 6 +
    (x.contacts.filter fun e => e.2.isSome).length)

/-! ### Read-back of a scan plan (R267) -/

/-- The rate code of a period. -/
def rateCode (period : Nat) : Nat := if period = 4000000 then 0 else if period = 2000000 then 1 else 2

/-- The bytes of a scan-plan snapshot (R267); without a plan only magic, version, panel and the next-plan bit. -/
def State.scanBytes (s : State) (n : Nat) (next : Bool) (p : Option ScanPlan) : List Byte :=
  let x := s.panel n
  let front := leBytes 4 0x4E4C5053 ++ leBytes 2 1 ++ leBytes 1 n
  match p with
  | none => front ++ leBytes 7 0 ++ leBytes 1 (b2n next * 8) ++ leBytes 17 0
  | some p =>
    let bridge := if next then p.bridge else x.mode == 3
    let acquire := if next then !p.bridge else x.mode == 1
    front ++ leBytes 1 p.nt ++ leBytes 1 p.nr ++ leBytes 1 p.set ++ leBytes 1 p.window ++
      leBytes 1 (rateCode (s.planPeriod p)) ++ leBytes 2 (if next then 0 else p.firstScan) ++
      leBytes 1 (b2n x.charger + b2n bridge * 2 + b2n acquire * 4 + b2n next * 8) ++ leBytes 1 p.level ++
      leBytes 2 (binCount p.window) ++ leBytes 2 (binSpacing p.window) ++ leBytes 8 (if next then 0 else p.firstEnd) ++
      leBytes 4 0 ++
      ((List.range p.nt).flatMap fun t => leBytes 2 (natAt p.txPins t) ++
        leBytes 2 (binFreq p.window (p.base + t * p.stride))) ++
      p.rxPins.flatMap fun q => leBytes 2 q

/-- A write of TCH_RB_CTRL; a snapshot is taken at once. -/
def doTchRb (n : Nat) (v : Word) (s : State) : State :=
  let s := s.plainWrite (R.tchRbCtrl n) v
  if s.flag (R.tchRbCtrl n) F.tchRbCtrl_snap then
    let next := s.flag (R.tchRbCtrl n) F.tchRbCtrl_which
    let p := if next then (s.panel n).next else (s.panel n).plan
    let ws := wordsOf (s.scanBytes n next p)
    let scan := match p with | some q => (if next then 0 else q.firstScan) | none => 0
    ((s.clrF (R.tchRbCtrl n) F.tchRbCtrl_snap).setF (R.tchRbCtrl n) F.tchRbCtrl_valid).updPanel n fun x =>
      { x with rb := ws, rbScan := scan, rbNext := next }
  else s

/-- A read of TCH_RB_DATA; the index stops at 103. -/
def readTchRb (n : Nat) (s : State) : Word × State :=
  let i := s.fld (R.tchRbIndex n) F.tchRbIndex_index
  ((s.panel n).rb.getD i 0#32, s.put (R.tchRbIndex n) F.tchRbIndex_index (min 103 (i + 1)))

/-- TCH_RB_SCAN. -/
def State.tchRbScanWord (s : State) (n : Nat) : Word := w32 (b2n (s.panel n).rbNext * 2 ^ 16 + (s.panel n).rbScan)

/-! ### Diagnostics -/

/-- The diagnostic words of the last completed scan (TCH_DIAG_SEL.kind). -/
def TchSt.diagWords (x : TchSt) (kind : Nat) : List Word :=
  match kind with
  | 0 => x.value.map w32
  | 1 => x.base.map fun b => w32 (unsigned 32 b)
  | 2 => x.delta.map fun d => w32 (unsigned 32 d)
  | _ => (List.range 385).map fun k =>
      match Tab.get none x.noise k with
      | some v => w32 v
      | none => 0xFFFF#32

/-- A write of TCH_DIAG_SEL takes a snapshot (06_layer_composition.md R184). -/
def doDiagSel (n : Nat) (v : Word) (s : State) : State :=
  let s := s.plainWrite (R.tchDiagSel n) v
  s.updPanel n fun x => { x with diag := x.diagWords (s.fld (R.tchDiagSel n) F.tchDiagSel_kind) }

/-- A read of TCH_DIAG_DATA. -/
def readDiag (n : Nat) (s : State) : Word × State :=
  let i := s.fld (R.tchDiagSel n) F.tchDiagSel_index
  ((s.panel n).diag.getD i 0#32, s.put (R.tchDiagSel n) F.tchDiagSel_index (i + 1))

/-! ### Nodes, peaks and positions (R279, R281, R282) -/

/-- The neighbours of a node within the panel. -/
def nodesAround (nt nr i : Nat) : List Nat :=
  let t := i / nr
  let r := i % nr
  (List.range 9).filterMap fun k =>
    let tt := t + k / 3
    let rr := r + k % 3
    if k != 4 && 1 ≤ tt && tt ≤ nt && 1 ≤ rr && rr ≤ nr then some ((tt - 1) * nr + (rr - 1)) else none

/-- The map of deltas with the plan's extents. -/
structure DeltaMap where
  nt : Nat
  nr : Nat
  d : List Int

/-- The delta of a node. -/
def DeltaMap.at_ (m : DeltaMap) (i : Nat) : Int := intAt m.d i

/-- The positive delta of node (t − 1, r − 1) counted from 1; 0 outside the panel. -/
def DeltaMap.pos1 (m : DeltaMap) (t r : Nat) : Int :=
  if 1 ≤ t ∧ t ≤ m.nt ∧ 1 ≤ r ∧ r ≤ m.nr then max 0 (m.at_ ((t - 1) * m.nr + (r - 1))) else 0

/-- A peak: its node, position and delta. -/
structure Peak where
  node : Nat
  pos : Int × Int
  d : Int
deriving DecidableEq, Repr

/-- The position of a peak (R281). -/
def DeltaMap.position (m : DeltaMap) (i : Nat) : Int × Int :=
  let t := i / m.nr + 1
  let r := i % m.nr + 1
  let c (k : Nat) : Int := m.pos1 (t + k - 1) (r - 1) + m.pos1 (t + k - 1) r + m.pos1 (t + k - 1) (r + 1)
  let w (k : Nat) : Int := m.pos1 (t - 1) (r + k - 1) + m.pos1 t (r + k - 1) + m.pos1 (t + 1) (r + k - 1)
  (256 * ((i / m.nr : Nat) : Int) + 256 * (c 2 - c 0) / (c 0 + c 1 + c 2),
   256 * ((i % m.nr : Nat) : Int) + 256 * (w 2 - w 0) / (w 0 + w 1 + w 2))

/-- The peaks of a map, in descending delta, equal ones by node (R279). -/
def DeltaMap.peaks (m : DeltaMap) (rel : Nat) : List Peak :=
  let ok (i : Nat) : Bool := (rel : Int) ≤ m.at_ i && 1 ≤ m.at_ i &&
    (nodesAround m.nt m.nr i).all fun j => if j < i then m.at_ j < m.at_ i else m.at_ j ≤ m.at_ i
  sortBy (fun a b => b.d < a.d) ((below (m.nt * m.nr) ok).map fun i => { node := i, pos := m.position i, d := m.at_ i })

/-- Nodes reached from a list of nodes through nodes that pass a test; `fuel` bounds the steps. -/
def growFrom (ok : Nat → Bool) (around : Nat → List Nat) : Nat → List Nat → List Nat → List Nat
  | 0, seen, _ => seen
  | _ + 1, seen, [] => seen
  | fuel + 1, seen, i :: todo =>
    let new := (around i).filter fun j => ok j && !seen.contains j
    growFrom ok around fuel (seen ++ new) (todo ++ new)

/-- A peak node and the nodes at or above the release threshold that are 8-connected to it (R278, R289). -/
def DeltaMap.patch (m : DeltaMap) (rel i : Nat) : List Nat :=
  growFrom (fun j => (rel : Int) ≤ m.at_ j) (nodesAround m.nt m.nr) (m.nt * m.nr + 1) [i] [i]

/-- The output position of a sensor position, in 1/16 pixel (R282). -/
def TchSet.mapPos (g : TchSet) (nt nr : Nat) (pos : Int × Int) : Int × Int :=
  let m := g.map.toNat
  let swap := bitAt m 4
  let (xs, nx) := if swap then (pos.2, nr) else (pos.1, nt)
  let (ys, ny) := if swap then (pos.1, nt) else (pos.2, nr)
  let xs := if bitAt m 5 then 256 * ((nx : Int) - 1) - xs else xs
  let ys := if bitAt m 6 then 256 * ((ny : Int) - 1) - ys else ys
  (sar (xs * (bitsOf g.scale.toNat 15 0 : Nat)) 12 + 16 * signed 16 (bitsOf g.off.toNat 15 0),
   sar (ys * (bitsOf g.scale.toNat 31 16 : Nat)) 12 + 16 * signed 16 (bitsOf g.off.toNat 31 16))

/-! ### One scan (R272) -/

/-- Events of a scan: slot and event code of R289. -/
abbrev ScanEvents := List (Nat × Nat)

/-- The thresholds in force: touch and release (R269; TCH_THRESH). -/
def TchSt.thresholds (x : TchSt) : Nat × Nat :=
  let add := if x.charger then bitsOf x.set.noise.toNat 31 24 * 16 else 0
  let touch := bitsOf x.set.thresh.toNat 11 0 + add
  (touch, min touch (bitsOf x.set.thresh.toNat 23 12 + add))

/-- What demodulation gives in a scan: a(k, r), row k for bin k and entry r for receive index r, and the common-mode level
(R263, R268). -/
structure Demod where
  amp : List (List Nat)
  cm : Nat
deriving DecidableEq, Repr

/-- The amplitude of a bin at a receive index. -/
def Demod.bin (f : Demod) (k r : Nat) : Nat := natAt (f.amp.getD k []) r

/-- The idle bins of a plan: those no transmit index drives (R268). -/
def ScanPlan.idle (p : ScanPlan) : List Nat := below (binCount p.window) fun k => !p.bins.contains k

/-- Demodulation: every bin at every receive electrode (R263, R265), and the largest amplitude of the mean of the electrodes over
the idle bins (R268). -/
def ScanPlan.demod (p : ScanPlan) (f : TouchFrame) : Demod :=
  let n := windowSamples p.window
  let iq := (List.range (binCount p.window)).map fun k =>
    (List.range p.nr).map fun r => demodIQ p.window k (f.samples.getD r [])
  { amp := iq.map fun row => row.map (amplitude n),
    cm := p.idle.foldl (fun a k => max a (meanAmplitude n p.nr (iq.getD k []))) 0 }

/-- Step 1: the node values (R263). -/
def ScanPlan.values (p : ScanPlan) (f : Demod) : List Nat :=
  p.bins.flatMap fun k => (List.range p.nr).map fun r => f.bin k r

/-- Deltas of baselines and values. -/
def deltas (base : List Int) (value : List Nat) : List Int :=
  (List.range value.length).map fun i => sar (intAt base i) 4 - (natAt value i : Nat)

/-- The ACQUIRE scan: the baselines, from the values or the reference (R273). -/
def State.acquire (s : State) (n : Nat) (p : ScanPlan) (touch : Nat) (v : List Nat) : List Int :=
  let ref (i : Nat) : Nat := s.num (K.ref n i)
  let down (i : Nat) : Bool := natAt v i + touch ≤ ref i
  let usable := s.flag (R.tchRefInfo n) F.tchRefInfo_valid && s.fld (R.tchRefInfo n) F.tchRefInfo_hopset == p.set &&
    s.fld (R.tchRefInfo n) F.tchRefInfo_window == p.window && 4 * (below v.length down).length < v.length
  (List.range v.length).map fun i => 16 * ((if usable && down i then ref i else natAt v i : Nat) : Int)

/-- Step 4: baselines, deltas, counts and whether a whole-panel rebase is due (R275, R276). -/
def negatives (x : TchSt) (value : List Nat) (d : List Int) : List Int × List Int × List Nat × Bool :=
  let th : Int := 16 * (bitsOf x.set.base.toNat 31 24 : Nat)
  let need := max 1 (bitsOf x.set.base.toNat 23 16)
  let idx := List.range value.length
  let cnt := idx.map fun i => if intAt d i ≤ -th then natAt x.neg i + 1 else 0
  let hit (i : Nat) : Bool := need ≤ natAt cnt i
  (idx.map fun i => if hit i then 16 * (natAt value i : Int) else intAt x.base i,
   idx.map fun i => if hit i then 0 else intAt d i,
   idx.map fun i => if hit i then 0 else natAt cnt i,
   value.length < 4 * (below value.length hit).length)

/-- A contact takes the place of a peak. -/
def TchSt.place (x : TchSt) (m : DeltaMap) (c : Contact) (k : Peak) : Contact :=
  { c with node := k.node, pos := k.pos, out := x.set.mapPos m.nt m.nr k.pos, miss := 0 }

/-- What the records of a scan say of every contact: the delta of its peak node and the connected nodes at or above the release
threshold, in that scan (R289). -/
def TchSt.measure (x : TchSt) (m : DeltaMap) (rel : Nat) : TchSt :=
  { x with contacts := x.contacts.map fun e => (e.1, e.2.map fun (c : Contact) =>
      { c with d := clampI 0 65535 (m.at_ c.node),
               nodes := ((m.patch rel c.node).filter fun i => (rel : Int) ≤ m.at_ i).length }) }

/-- The squared distance of two positions. -/
def dist2 (a b : Int × Int) : Int := (a.1 - b.1) * (a.1 - b.1) + (a.2 - b.2) * (a.2 - b.2)

/-- The contacts and candidates of a panel by slot. -/
def TchSt.tracked (x : TchSt) : List (Nat × Contact) := x.contacts.filterMap fun e => e.2.map fun c => (e.1, c)

/-- Step 1 of R280: pairs in ascending squared distance, then slot, then node; each member once. -/
def TchSt.matches (x : TchSt) (ks : List Peak) : List (Nat × Peak) :=
  let jump : Int := (bitsOf x.set.track.toNat 15 0 : Nat)
  let pairs := x.tracked.flatMap fun (slot, c) =>
    (ks.filter fun k => dist2 c.pos k.pos ≤ jump * jump).map fun k => (dist2 c.pos k.pos, slot, k)
  let sorted := sortBy (fun a b => a.1 < b.1 || (a.1 == b.1 && (a.2.1 < b.2.1 || (a.2.1 == b.2.1 && a.2.2.node < b.2.2.node)))) pairs
  sorted.foldl (fun acc (_, slot, k) =>
    if acc.any fun e => e.1 == slot || e.2.node == k.node then acc else acc ++ [(slot, k)]) []

/-- Steps 2 to 4 of R280 for one slot. -/
def TchSt.trackSlot (m : DeltaMap) (ms : List (Nat × Peak)) (a : TchSt × ScanEvents) (e : Nat × Contact) :
    TchSt × ScanEvents :=
  let (x, evs) := a
  let (slot, c) := e
  let put (c : Option Contact) : TchSt := { x with contacts := Tab.set none x.contacts slot c }
  match ms.find? fun k => k.1 == slot with
  | some (_, k) =>
    let c := x.place m c k
    if c.confirmed then (put (some c), evs)
    else if c.count + 1 < (if x.charger then 4 else 2) then (put (some { c with count := c.count + 1 }), evs)
    else
      let q := (x.seq + 1) % 65536
      ({ put (some { c with confirmed := true, count := 0, seq := q, anchor := c.pos, rest := 0 }) with seq := q },
        evs ++ [(slot, 1)])
  | none =>
    if !c.confirmed then (put none, evs)
    else
      let x' := put (some { c with miss := c.miss + 1 })
      if (if x.charger then 3 else 1) ≤ c.miss + 1 then (x', evs ++ [(slot, 3)]) else (x', evs)

/-- Step 5 of R280: new candidates; answers also the peaks dropped for want of a slot. -/
def TchSt.newCandidates (x : TchSt) (m : DeltaMap) (ks : List Peak) : TchSt × Nat :=
  ks.foldl (fun (x, lost) k =>
    match (List.range 16).find? fun i => (Tab.get none x.contacts i).isNone with
    | none => (x, lost + 1)
    | some i =>
      let c : Contact := { confirmed := false, node := 0, pos := (0, 0), count := 1, miss := 0, owner := 257, layer := 0,
                           seq := 0, anchor := (0, 0), rest := 0, last := none, downDropped := false, out := (0, 0),
                           d := 0, nodes := 0 }
      ({ x with contacts := Tab.set none x.contacts i (some (x.place m c k)) }, lost)) (x, 0)

/-- Step 5: peaks, tracking and debounce (R279, R280). -/
def TchSt.track (x : TchSt) (m : DeltaMap) : TchSt × ScanEvents × Nat :=
  let (touch, rel) := x.thresholds
  let ks := m.peaks rel
  let ms := x.matches ks
  let (y, evs) := x.tracked.foldl (TchSt.trackSlot m ms) (x, [])
  let fresh := ks.filter fun k => (touch : Int) ≤ k.d && !(ms.any fun e => e.2.node == k.node)
  let (y, lost) := y.newCandidates m fresh
  (y, evs, lost)

/-- Step 6 for one slot: the rest count, and absorption (R278). `limit` is rest_s × f, 0 for never. -/
def TchSt.restSlot (limit rel : Nat) (value : List Nat) (a : TchSt × DeltaMap × ScanEvents) (e : Nat × Contact) :
    TchSt × DeltaMap × ScanEvents :=
  let (x, m, evs) := a
  let (slot, c) := e
  if !c.confirmed || evs.any (fun v => v.1 == slot) then (x, m, evs)
  else
    let r : Int := (bitsOf x.set.track.toNat 23 16 : Nat)
    let moved := r < (c.pos.1 - c.anchor.1).natAbs || r < (c.pos.2 - c.anchor.2).natAbs
    let c := if moved then { c with anchor := c.pos, rest := 0 } else { c with rest := c.rest + 1 }
    let x := { x with contacts := Tab.set none x.contacts slot (some c) }
    if limit != 0 && limit ≤ c.rest then
      let gone := m.patch rel c.node
      ({ x with base := (List.range value.length).map fun i => if gone.contains i then 16 * (natAt value i : Int) else intAt x.base i },
       { m with d := (List.range value.length).map fun i => if gone.contains i then 0 else m.at_ i }, evs ++ [(slot, 5)])
    else (x, m, evs)

/-- A node is quiet: no contact or candidate has its peak within one node of it (R274). -/
def TchSt.quiet (x : TchSt) (m : DeltaMap) (i : Nat) : Bool :=
  x.tracked.all fun e => e.2.node != i && !(nodesAround m.nt m.nr e.2.node).contains i

/-- Step 7: quiet nodes below the touch threshold track (R274). -/
def TchSt.trackBase (x : TchSt) (m : DeltaMap) (value : List Nat) : TchSt :=
  let k := max 1 (bitsOf x.set.base.toNat 3 0)
  let touch := x.thresholds.1
  { x with base := (List.range value.length).map fun i =>
      let b := intAt x.base i
      if x.quiet m i && m.at_ i < (touch : Int) then b + sar (16 * (natAt value i : Int) - b) k else b }

/-! ### Noise and hopping (R268 to R270) -/

/-- Bin noise of the idle bins (R268). -/
def TchSt.binNoise (x : TchSt) (p : ScanPlan) (f : Demod) : TchSt :=
  { x with noise := p.idle.foldl (fun t k =>
      let n := (List.range p.nr).foldl (fun a r => max a (f.bin k r)) 0
      Tab.set none t k (some (match Tab.get none t k with
        | none => n
        | some v => ((v : Int) + sar ((n : Int) - v) 3).toNat))) x.noise }

/-- Charger-noise mode after a scan with common-mode level `cm`; answers whether it was entered or left (R269). -/
def TchSt.chargerStep (x : TchSt) (cm : Nat) : TchSt × Bool :=
  let w := x.set.noise.toNat
  if x.charger then
    let n := if cm < bitsOf w 23 12 then x.cmLow + 1 else 0
    if 256 ≤ n then ({ x with charger := false, cmLow := 0, cmHigh := 0 }, true) else ({ x with cmLow := n }, false)
  else
    let n := if bitsOf w 11 0 ≤ cm then x.cmHigh + 1 else 0
    if 2 ≤ n then ({ x with charger := true, cmHigh := 0, cmLow := 0 }, true) else ({ x with cmHigh := n }, false)

/-- The estimate of a hop-set word: its largest bin noise, none where a bin has no estimate (R268). -/
def TchSt.setNoise (x : TchSt) (w nt : Nat) : Option Nat :=
  (setBins w nt).foldl (fun a k =>
    match a, Tab.get none x.noise k with
    | some m, some v => some (max m v)
    | _, _ => none) (some 0)

/-- The hop set to select at the end of a scan, if any (R270). -/
def State.hopTarget (s : State) (n : Nat) (x : TchSt) (p : ScanPlan) : Option Nat :=
  let hop := x.set.hop.toNat
  let usable (h : Nat) : Bool := h != p.set && setUsable (s.hopSet n h) p.nt p.window
  if x.next.isSome || x.stopDue then none
  else if bitAt hop 31 then (if usable (bitsOf hop 28 24) then some (bitsOf hop 28 24) else none)
  else if max 1 (bitsOf hop 23 16) ≤ x.noisy && 32 ≤ x.sinceHop then
    (((List.range 32).filter usable).foldl (fun (best : Option (Nat × Nat)) h =>
      match x.setNoise (s.hopSet n h) p.nt with
      | none => best
      | some v =>
        if ((v * 2 : Nat) : Int) ≤ x.ncur && (match best with | some (_, b) => v < b | none => true) then some (h, v) else best) none).map (·.1)
  else none

/-- A hop is decided (R270). A set selected by lock may have no estimate: the current-set noise is then free (log 1). -/
def State.hop (s : State) (n : Nat) (x : TchSt) (p : ScanPlan) (h : Nat) : TchSt × State :=
  let (v, s) := match x.setNoise (s.hopSet n h) p.nt with
    | some v => (v, s)
    | none => s.free 65536
  ({ x with noisy := 0, sinceHop := 0, ncur := v, next := some (s.compileScan n h true) },
   (s.count (R.tchHops n) F.tchHops_n).event 0x61 n 1)

/-- Step 9: noise estimates, charger-noise mode and the hop decision (R268 to R270). -/
def State.noiseStep (s : State) (n : Nat) (x : TchSt) (p : ScanPlan) (f : Demod) (m : DeltaMap) : TchSt × State :=
  let x := x.binNoise p f
  let quiet := below m.d.length (x.quiet m)
  let (q, s) := if quiet.isEmpty then s.free 65536
    else (quiet.foldl (fun a i => max a (m.at_ i).natAbs) 0, s)
  let ncur := x.ncur + sar ((q : Int) - x.ncur) 3
  let noisy := if ((bitsOf x.set.hop.toNat 11 0 : Nat) : Int) ≤ ncur then x.noisy + 1 else 0
  let (x, flip) := ({ x with ncur := ncur, noisy := noisy, sinceHop := x.sinceHop + 1 } : TchSt).chargerStep f.cm
  let s := if flip then s.event 0x61 n 0 else s
  match s.hopTarget n x p with
  | some h => s.hop n x p h
  | none => (x, s)

/-! ### Starting, capturing and rebasing -/

/-- The panel's settings as its registers hold them; a write takes effect at the next scan tick. -/
def State.tchSettings (s : State) (n : Nat) : TchSet :=
  { thresh := s.rd (R.tchThresh n), noise := s.rd (R.tchNoise n), hop := s.rd (R.tchHop n), base := s.rd (R.tchBase n),
    track := s.rd (R.tchTrack n), map := s.rd (R.tchMap n), scale := s.rd (R.tchScale n), off := s.rd (R.tchOffset n) }

/-- A plan compiled for an enable comes into use: its first scan is an ACQUIRE scan (R266, R271). -/
def State.panelStart (s : State) (n : Nat) (p : ScanPlan) : State :=
  s.updPanel n fun x => { x with
    plan := some { p with firstScan := (x.scans + 1) % 65536, firstEnd := s.time + s.planPeriod p }, next := none,
    mode := 1, charger := false, base := [], delta := [], value := [], neg := [], noise := [], ncur := 0, noisy := 0,
    sinceHop := 0, cmHigh := 0, cmLow := 0, contacts := [] }

/-- A plan compiled for a hop comes into use: its first scan is a bridge scan, unless an ACQUIRE scan is due (R270, R277). -/
def State.panelHop (s : State) (n : Nat) : State :=
  let x := s.panel n
  match x.next with
  | none => s
  | some p => s.setPanel n { x with
      plan := some { p with firstScan := (x.scans + 1) % 65536, firstEnd := s.time + s.planPeriod p }, next := none,
      mode := if x.mode == 1 then 1 else 3 }

/-- The capture of the reference image at the end of a scan: `run` says the scan was in RUN without contact or candidate (R273). -/
def State.captureRef (s : State) (n : Nat) (p : ScanPlan) (run : Bool) : State :=
  if !s.flag (R.tchCtrl n) F.tchCtrl_capture_ref then s
  else
    let s := s.clrF (R.tchCtrl n) F.tchCtrl_capture_ref
    if run then
      let b := (s.panel n).base
      let s := s.each (List.range b.length) fun s i => s.wrN (K.ref n i) (unsigned 16 (sar (intAt b i) 4))
      s.wrN (R.tchRefInfo n) (2 ^ 31 + p.window * 2 ^ 5 + p.set)
    else s.setF (R.tchCtrl n) F.tchCtrl_ref_refused

/-- A whole-panel rebase: every contact ends, every candidate is discarded, and an ACQUIRE scan follows (R276). -/
def TchSt.rebase (x : TchSt) (evs : ScanEvents) : TchSt × ScanEvents :=
  let down := x.tracked.filter fun e => e.2.confirmed
  let live := down.filter fun e => !evs.any fun v => v.1 == e.1 && v.2 != 1
  ({ x with contacts := down.foldl (fun t e => Tab.set none t e.1 (some e.2)) [], mode := 1 },
   (evs.filter fun v => v.2 != 1) ++ live.map fun e => (e.1, 6))

end Sys2Proof.Machine
end

