-- ==== Sys2Proof/Machine/Routing.lean ====
section
/-!
DEFINITION. Where contacts go: hit-testing, capstone confinement, report rings, reflex bindings, and the station tick
that drives the scans (09_capacitive_touch.md R266, R272, R284 to R295).
-/

namespace Sys2Proof.Machine

/-! ### Hit-testing (R284, R285) -/

/-- The output that a panel maps to, if it runs. -/
def State.panelOut (s : State) (g : TchSet) : Option Nat :=
  let o := bitsOf g.map.toNat 3 0
  if o < 8 && ((s.out o).gen == .running || (s.out o).gen == .stopping) then some o else none

/-- The pixel of a contact (R282). -/
def contactPixel (c : Contact) : Int × Int := (sar c.out.1 4, sar c.out.2 4)

/-- A layer may receive touch (R284). -/
def CfgLayer.touchable (l : CfgLayer) : Bool := l.cap || imgFld l.image 0 11 11 == 1

/-- The owner and layer ordinal of a contact at its confirmation: 256 the protected world, 257 nobody (R284, R285). -/
def State.hitTest (s : State) (n : Nat) (g : TchSet) (c : Contact) : Nat × Nat :=
  match s.panelOut g with
  | none => (257, 0)
  | some o =>
    let t := s.timing o
    let (x, y) := contactPixel c
    if x < 0 ∨ y < 0 ∨ (t.ha : Int) ≤ x ∨ (t.va : Int) ≤ y then (257, 0)
    else
      match ((s.shownLayers o).filter fun l => l.touchable && l.at_ t x.toNat y.toNat).getLast? with
      | none => (257, 0)
      | some l =>
        if l.cap then (if s.worldDown then (257, 0) else (256, 0xFF))
        else
          let st := (s.slice l.owner).st
          if s.granted l.owner 4 n && st != .unbound && st != .resetting then
            (l.owner, (s.ordinalOf l.owner 1 l.slot).getD 0xFF)
          else (257, 0)

/-- The pixel of a contact lies inside a capstone layer of the plan in use (R286). -/
def State.inCapstone (s : State) (g : TchSet) (c : Contact) : Bool :=
  match s.panelOut g with
  | none => false
  | some o =>
    let (x, y) := contactPixel c
    match (s.out o).plan with
    | none => false
    | some p => p.layers.any fun l => l.cap && l.dstX ≤ x && x < l.dstX + l.dstW && l.dstY ≤ y && y < l.dstY + l.dstH

/-- A contact of a panel's slot. -/
def State.contact (s : State) (n slot : Nat) : Option Contact := Tab.get none (s.panel n).contacts slot

/-- Rewrite a contact. -/
def State.updContact (s : State) (n slot : Nat) (f : Contact → Contact) : State :=
  s.updPanel n fun x => { x with contacts := Tab.upd none x.contacts slot fun c => c.map f }

/-- Step 8 for the contacts confirmed in this scan; those routed to nobody are counted (R284, R285). -/
def State.hitTests (s : State) (n : Nat) (evs : ScanEvents) : State :=
  s.each (evs.filter fun e => e.2 == 1) fun s e =>
    match s.contact n e.1 with
    | none => s
    | some c =>
      let (ow, ly) := s.hitTest n (s.panel n).set c
      let s := s.updContact n e.1 fun c => { c with owner := ow, layer := ly }
      if ow = 257 then s.count (R.tchNobody n) F.tchNobody_n else s

/-- Slice contacts inside a capstone end with CANCEL, whatever else ends them (R286). -/
def State.confine (s : State) (n : Nat) (evs : ScanEvents) : ScanEvents :=
  let x := s.panel n
  let gone := (x.tracked.filter fun e => e.2.confirmed && e.2.owner < 256 && s.inCapstone x.set e.2).map (·.1)
  (evs.filter fun e => !gone.contains e.1) ++ gone.map fun i => (i, 4)

/-! ### Reflexes (R293, R294) -/

/-- A word of a binding in force; owner 256 is the protected world. -/
def State.binding (s : State) (ow b w : Nat) : Nat := s.num (K.reflexLive ow b w)

/-- The layer that a binding's rectangle is placed on, while it gives pixels. -/
def State.bindingLayer (s : State) (o ow : Nat) (c : Contact) : Option CfgLayer :=
  (s.shownLayers o).find? fun l =>
    if ow = 256 then l.cap else !l.cap && l.owner == ow && s.ordinalOf ow 1 l.slot == some c.layer

/-- A binding matches an event, 1 DOWN or 3 UP, of a contact (R293). -/
def State.bindingMatches (s : State) (o ow ev : Nat) (c : Contact) (b : Nat) : Bool :=
  let w := s.binding ow b 0
  let trigger := bitsOf w 2 1
  bitAt w 0 && (if ev = 1 then bitAt trigger 0 else bitAt trigger 1) &&
    (if ow = 256 then bitsOf w 19 16 < 8 else bitsOf w 13 8 == c.layer && !(s.slice ow).restored) &&
    match s.bindingLayer o ow c with
    | none => false
    | some l =>
      let (x, y) := contactPixel c
      let x0 := l.dstX + (bitsOf (s.binding ow b 1) 15 0 : Nat)
      let y0 := l.dstY + (bitsOf (s.binding ow b 1) 31 16 : Nat)
      x0 ≤ x && x < x0 + (bitsOf (s.binding ow b 2) 15 0 : Nat) && y0 ≤ y && y < y0 + (bitsOf (s.binding ow b 2) 31 16 : Nat)

/-- The number of the next loop tick strictly after an instant (01_the_w880_at_a_glance.md R30). -/
def loopAfter (t : Nat) : Nat := t / 62500 + 1

/-- A little-endian field of an entry of the active directory (10_haptic_and_acoustic_feedback.md R303). -/
def State.activeLe (s : State) (e off n : Nat) : Nat := Mem.le 0 s.hapShared.active (e * 16 + off) n

/-- The priority of an entry. -/
def State.effectPrio (s : State) (e : Nat) : Nat := s.activeLe e 7 1 % 4

/-- The priority of a start, fixed when it is made (10_haptic_and_acoustic_feedback.md R305). -/
def State.startPrio (s : State) (n : Nat) (r : HapStart) : Nat :=
  let cap := s.fld (R.hapCfg n) F.hapCfg_slice_prio_max
  match r.src with
  | .stream => min r.prio cap
  | .station => s.effectPrio r.effect
  | .protectedWorld => 4
  | .reflex => if r.ownerSlice then min (s.effectPrio r.effect) cap else 4
  | .trigger => min (s.effectPrio r.effect) cap

/-- A start is made on a channel, with the priority it then has. -/
def State.makeStart (s : State) (n : Nat) (r : HapStart) : State :=
  let p := s.startPrio n r
  s.updChan n fun x => { x with starts := x.starts ++ [{ r with prio := p }] }

/-- A binding fires: its start waits for the first loop tick after the scan's processing, `delay` ticks later than the next (R294). -/
def State.fireReflex (s : State) (n ow b delay : Nat) : State :=
  let w := s.binding ow b 0
  let ch := if ow = 256 then some (bitsOf w 19 16) else s.globalOf ow 5 (bitsOf w 19 16)
  match ch with
  | none => s
  | some ch =>
    let e := s.binding ow b 3
    let r : HapStart := { src := .reflex, owner := if ow = 256 then 0xFF else ow, ownerSlice := ow < 256, prio := 0,
                          level := bitsOf e 23 16, effect := bitsOf e 15 0, ord := n, due := loopAfter s.time + delay }
    s.makeStart ch r

/-- The reflexes of a scan: the first matching binding of each contact's DOWN or UP fires. The time that the processing
takes, at most 437,500 ns, is a free value (R283; log 1). -/
def State.reflexes (s : State) (n : Nat) (evs : ScanEvents) : State :=
  match s.panelOut (s.panel n).set with
  | none => s
  | some o =>
    let hits := (evs.filter fun e => e.2 == 1 || e.2 == 3).filterMap fun e =>
      match s.contact n e.1 with
      | none => none
      | some c =>
        if c.owner = 257 then none
        else ((List.range 16).find? (s.bindingMatches o c.owner e.2 c)).map fun b => (c.owner, b)
    if hits.isEmpty then s
    else
      let (d, s) := s.free 8
      s.each hits fun s (ow, b) => s.fireReflex n ow b d

/-- The bindings in force become those written (R293). -/
def State.takeBindings (s : State) : State :=
  if !s.reflexDirty then s
  else
    let written := s.cells.filter fun e => 0x10050000 ≤ e.1 && e.1 < 0x10060000
    let s := s.resetKeys fun k => 0x10060000 ≤ k && k < 0x10070000
    { s.each written fun s e => s.wr (e.1 + 0x10000) e.2 with reflexDirty := false }

/-- The fields of a binding word. -/
def bindingMask (w : Nat) : Word :=
  match w with
  | 0 => 0x000F3F07#32
  | 3 => 0x00FFFFFF#32
  | _ => 0xFFFFFFFF#32

/-- A write of a binding word takes effect at the next station tick (R293). -/
def State.putBinding (s : State) (ow sel : Nat) (v : Word) : State :=
  { s.wr (K.reflex ow (sel / 4) (sel % 4)) (v &&& bindingMask (sel % 4)) with reflexDirty := true }

/-- SLC_RFX_SEL as a number: binding × 4 + word. -/
def State.rfxSel (s : State) (sl : Nat) : Nat := bitsOf (s.num (R.slcRfxSel sl)) 5 0

/-- A write of SLC_RFX_DATA. -/
def doRfxData (sl : Nat) (v : Word) (s : State) : State :=
  (s.putBinding sl (s.rfxSel sl) v).put (R.slcRfxSel sl) ⟨5, 0⟩ (s.rfxSel sl + 1)

/-- A read of SLC_RFX_DATA. -/
def readRfxData (sl : Nat) (s : State) : Word × State :=
  (s.rd (K.reflex sl (s.rfxSel sl / 4) (s.rfxSel sl % 4)), s.put (R.slcRfxSel sl) ⟨5, 0⟩ (s.rfxSel sl + 1))

/-- TCP_PW_RFX_SEL as a number. -/
def State.pwRfxSel (s : State) : Nat := bitsOf (s.num R.tcpPwRfxSel) 5 0

/-- A write of TCP_PW_RFX_DATA. -/
def doPwRfxData (v : Word) (s : State) : State :=
  (s.putBinding 256 s.pwRfxSel v).put R.tcpPwRfxSel ⟨5, 0⟩ (s.pwRfxSel + 1)

/-- A read of TCP_PW_RFX_DATA. -/
def readPwRfxData (s : State) : Word × State :=
  (s.rd (K.reflex 256 (s.pwRfxSel / 4) (s.pwRfxSel % 4)), s.put R.tcpPwRfxSel ⟨5, 0⟩ (s.pwRfxSel + 1))

/-- A slice's bindings go, all of them or those on a panel, whose layer is assigned to the panel's output; they leave at the
next station tick (03_slices.md R104, R107). -/
def State.removeBindings (s : State) (sl : Nat) (panel : Option Nat) : State :=
  let here (b : Nat) : Bool :=
    match panel with
    | none => true
    | some n =>
      match s.globalOf sl 1 (bitsOf (s.num (K.reflex sl b 0)) 13 8) with
      | some slot => s.slotOut slot == bitsOf (s.num (R.tchMap n)) 3 0
      | none => false
  { s.resetKeys fun k => K.reflex sl 0 0 ≤ k && k < K.reflex sl 16 0 && here ((k - K.reflex sl 0 0) / 4) with reflexDirty := true }

/-! ### Report rings (R289 to R292) -/

/-- A record to write: panel, slot, contact, event, resync. -/
abbrev Report := Nat × Nat × Contact × Nat × Bool

/-- Positions clamped to the active area of the mapped output (R289). -/
def State.reportPos (s : State) (n : Nat) (c : Contact) : Int × Int :=
  let o := bitsOf (s.panel n).set.map.toNat 3 0
  let t := s.timing o
  if o < 8 then (clampI 0 (16 * (t.ha : Int) - 1) c.out.1, clampI 0 (16 * (t.va : Int) - 1) c.out.2) else (0, 0)

/-- A contact has moved since its last record; one without a record has (R290). -/
def State.movedSince (s : State) (n : Nat) (c : Contact) : Bool :=
  match c.last with
  | none => true
  | some (x, y, _, _) => s.reportPos n c != (x, y)

/-- The event of a contact in this scan: an event of the scan, or a move. -/
def State.scanEvent (s : State) (n : Nat) (evs : ScanEvents) (run : Bool) (slot : Nat) (c : Contact) : Option Nat :=
  match (evs.filter fun e => e.1 == slot).getLast? with
  | some e => some e.2
  | none => if run && c.confirmed && c.miss == 0 && s.movedSince n c then some 2 else none

/-- The records of a scan for one receiver, 0 to 255 a slice and 256 the protected world (R290). -/
def State.ownReports (s : State) (n rcv : Nat) (evs : ScanEvents) (run : Bool) : List Report :=
  (s.panel n).tracked.filterMap fun (slot, c) =>
    if c.confirmed && c.owner == rcv then (s.scanEvent n evs run slot c).map fun e => (n, slot, c, e, false) else none

/-- The records of a scan in which a resync is owed: those of the scan, then one with resync for every contact of any panel that
the receiver still owns (R291). Their order the spec leaves open (log 96). -/
def State.resyncReports (s : State) (n rcv : Nat) (evs : ScanEvents) (run : Bool) : List Report :=
  let ended (p slot : Nat) : Bool := p == n && evs.any fun e => e.1 == slot && 3 ≤ e.2
  s.ownReports n rcv evs run ++ (List.range 8).flatMap fun p =>
    (s.panel p).tracked.filterMap fun (slot, c) =>
      if c.confirmed && c.owner == rcv && !ended p slot then some (p, slot, c, if c.downDropped then 1 else 2, true) else none

/-- The 32 bytes of a record (R289), with what its contact keeps of it. The bytes that a CANCEL repeats where no record was
written are a free value (R286; log 1). -/
def State.reportBytes (s : State) (rcv : Nat) (r : Report) (last : Bool) (owner : Nat) :
    List Byte × (Int × Int × Nat × Nat) × State :=
  let (p, slot, c, ev, resync) := r
  let x := s.panel p
  let (px, py) := s.reportPos p c
  let (body, s) :=
    if ev = 4 then
      match c.last with
      | some l => (l, s)
      | none =>
        let (v, s) := s.free (2 ^ 64)
        (((bitsOf v 15 0 : Nat), (bitsOf v 31 16 : Nat), bitsOf v 47 32, bitsOf v 63 48), s)
    else (((px, py, (clampI 0 65535 c.d).toNat, min 65535 c.nodes) : Int × Int × Nat × Nat), s)
  let (bx, byy, bd, bn) := body
  let ord := if rcv = 256 then p else (s.ordinalOf rcv 4 p).getD 0xFF
  (leBytes 2 x.scans ++ leBytes 1 ord ++ leBytes 1 (owner + b2n last * 2 + b2n x.charger * 4 + b2n resync * 8) ++
    leBytes 1 slot ++ leBytes 1 ev ++ leBytes 1 c.layer ++ leBytes 1 0 ++ leBytes 8 x.lastEnd ++
    leBytes 2 bx.toNat ++ leBytes 2 byy.toNat ++ leBytes 2 bd ++ leBytes 2 bn ++ leBytes 2 c.seq ++ leBytes 6 0,
   body, s)

/-- The address of the position register of a receiver's ring. -/
def trPos (rcv : Nat) : Nat := if rcv = 256 then R.tcpPwPos else R.slcTrPos rcv

/-- Ring size in records (SLC_TR_BASE_LO.log2_records). -/
def State.trSize (s : State) (rcv : Nat) : Nat :=
  2 ^ (min 9 (if rcv = 256 then s.fld R.tcpPwCtrl F.tcpPwCtrl_log2_records
              else s.fld (R.slcTrBaseLo rcv) F.slcTrBaseLo_log2_records) + 6)

/-- The ring is in use. -/
def State.trOn (s : State) (rcv : Nat) : Bool :=
  if rcv = 256 then s.flag R.tcpPwCtrl F.tcpPwCtrl_enable else s.flag (R.slcTrBaseLo rcv) F.slcTrBaseLo_enable

/-- The address of record 0. -/
def State.trBase (s : State) (rcv : Nat) : Nat :=
  if rcv = 256 then s.num R.tcpPwBase % 2 ^ 20 * 65536
  else s.num (R.slcTrBaseHi rcv) * 2 ^ 32 + s.num (R.slcTrBaseLo rcv) / 4096 * 4096

/-- A resync is owed to a receiver. -/
def State.resyncOwed (s : State) (rcv : Nat) : Bool :=
  if rcv = 256 then s.pwResync else s.flag (R.slcTrStatus rcv) F.slcTrStatus_resync_pending

/-- Set or clear the debt. -/
def State.setResync (s : State) (rcv : Nat) (b : Bool) : State :=
  if rcv = 256 then { s with pwResync := b } else s.put (R.slcTrStatus rcv) F.slcTrStatus_resync_pending (b2n b)

/-- Records are dropped and counted; a contact whose DOWN goes keeps that in mind (R291). -/
def State.dropReports (s : State) (rcv : Nat) (rs : List Report) : State :=
  let s := if rcv = 256 then s.count R.tcpPwDrops F.tcpPwDrops_dropped rs.length
    else s.count (R.slcTrStatus rcv) F.slcTrStatus_dropped rs.length
  s.each (rs.filter fun r => r.2.2.2.1 == 1) fun s r => s.updContact r.1 r.2.1 fun c => { c with downDropped := true }

/-- The place of the next record of a receiver's ring, and its owner bit (02_host_interface.md R82). -/
def State.trPlace (s : State) (rcv : Nat) : Nat × Nat :=
  let size := s.trSize rcv
  let tail := bitsOf (s.num (trPos rcv)) 31 16
  (s.trBase rcv + tail % size * 32, b2n (tail / size % 2 == 0))

/-- One more record has been written. -/
def State.trAdvance (s : State) (rcv : Nat) : State :=
  s.put (trPos rcv) ⟨31, 16⟩ (bitsOf (s.num (trPos rcv)) 31 16 + 1)

/-- Write the bytes of a record at the tail of a slice's ring, in two writes with the owner bit in the second; after the last
record of a scan its message follows (R289, R291; 02_host_interface.md R82, R83). -/
def State.writeReportBytes (s : State) (rcv : Nat) (bytes : List Byte) : State :=
  let (addr, owner) := s.trPlace rcv
  let flags := (bytes.getD 3 0).toNat
  let with_ (o : Nat) : List Byte := bytes.take 3 ++ [BitVec.ofNat 8 (flags / 2 * 2 + o)] ++ bytes.drop 4
  let s := s.hostWrite (s.pasidOf rcv) addr (with_ (1 - owner)) false
  let s := s.hostWrite (s.pasidOf rcv) addr ((with_ owner).take 4) false
  let s := (s.dlogWrite rcv addr 32 3).trAdvance rcv
  if bitAt flags 1 then
    let s := if h : rcv < 256 then s.decide (.touchReport ⟨rcv, h⟩ (BitVec.ofNat 16 (bitsOf (s.num (trPos rcv)) 31 16))) else s
    s.signal (some rcv) 1
  else s

/-- A record of a slice's ring: written, or waiting for the dirty log (R291; 03_slices.md R116). -/
def State.putReport (s : State) (rcv : Nat) (bytes : List Byte) : State :=
  let (addr, _) := s.trPlace rcv
  if s.dlogBlocks rcv addr 32 then s.guestWait rcv { addr := addr, data := bytes, kind := 3 }
  else s.writeReportBytes rcv bytes

/-- One record of a scan for a receiver (R289 to R292). -/
def State.writeReport (s : State) (rcv : Nat) (r : Report) (last : Bool) : State :=
  let (addr, owner) := s.trPlace rcv
  let (bytes, body, s) := s.reportBytes rcv r last owner
  let s :=
    if rcv = 256 then (if addr + 32 ≤ dramEnd then s.dramWrite addr bytes 0x50 0 true else s).trAdvance rcv
    else s.putReport rcv bytes
  s.updContact r.1 r.2.1 fun c => { c with last := some body, downDropped := if r.2.2.2.1 = 1 then false else c.downDropped }

/-- The slice's reports are dropped without a resync: its ring is off, its state, or a write that waits for the dirty log
(R291). -/
def State.reportsBarred (s : State) (rcv : Nat) : Bool :=
  !s.trOn rcv || (rcv < 256 && ((s.slice rcv).st != .bound || s.stalled rcv))

/-- Deliver the records of a scan of panel `n` to one receiver (R290 to R292). -/
def State.deliver (s : State) (n : Nat) (evs : ScanEvents) (run : Bool) (rcv : Nat) : State :=
  let own := s.ownReports n rcv evs run
  let owed := s.resyncOwed rcv
  let rs := if owed then s.resyncReports n rcv evs run else own
  if rcv < 256 && ((s.slice rcv).st == .unbound || (s.slice rcv).st == .resetting) then s
  else if s.reportsBarred rcv then s.dropReports rcv own
  else
    let pos := s.num (trPos rcv)
    let used := (bitsOf pos 31 16 + 65536 - bitsOf pos 15 0) % 65536
    if s.trSize rcv < used + rs.length then (s.dropReports rcv own).setResync rcv true
    else
      let s := if owed then s.setResync rcv false else s
      if rs.isEmpty then s
      else
        let s := s.each (List.range rs.length) fun s i =>
          match rs[i]? with
          | some r => s.writeReport rcv r (i + 1 == rs.length)
          | none => s
        if rcv = 256 then s.event 0x60 0 0 else s

/-- The receivers of a scan of panel `n`: owners of its contacts, and those to whom a resync is owed; the protected world
last. -/
def State.receivers (s : State) (n : Nat) : List Nat :=
  below 257 fun r => ((s.panel n).tracked.any fun e => e.2.owner == r) || s.resyncOwed r

/-- Step 10: the records of a scan; then ended contacts leave their slots, and cancelled ones are orphaned (R286, R288). A
secondary writes none (15_pairs_and_live_insertion.md R431). -/
def State.report (s : State) (n : Nat) (evs : ScanEvents) (run : Bool) : State :=
  let s := if s.secondary then s else s.each (s.receivers n) fun s r => s.deliver n evs run r
  let cancelled := (evs.filter fun e => e.2 == 4).map (·.1)
  let s := s.each cancelled fun s i => s.updContact n i fun c => { c with owner := 257 }
  s

/-- The slots of ended contacts are free (R288). -/
def State.freeSlots (s : State) (n : Nat) (slots : List Nat) : State :=
  s.updPanel n fun x => { x with contacts := slots.foldl (fun t i => Tab.set none t i none) x.contacts }

/-! ### The scan (R272) -/

/-- One scan of a panel in use whose window ends now (R272). -/
def State.scanPanel (s : State) (n : Nat) (p : ScanPlan) (f : TouchFrame) : State :=
  let x := s.panel n
  let scans := (x.scans + 1) % 65536
  let p := if scans = p.firstScan then { p with firstEnd := s.time } else p
  let x := { x with plan := some p, scans := scans, lastEnd := s.time }
  let f := p.demod f
  let v := p.values f
  let was := x.mode
  let asked := s.flag (R.tchCtrl n) F.tchCtrl_rebase
  let (x, evs, ended, lost, due) : TchSt × ScanEvents × List Nat × Nat × Bool :=
    if was = 2 then
      let (base, d, neg, due) := negatives x v (deltas x.base v)
      let (x, evs, lost) := TchSt.track { x with base := base, neg := neg, value := v } { nt := p.nt, nr := p.nr, d := d }
      let limit := bitsOf x.set.base.toNat 15 4 * (1000000000 / s.planPeriod p)
      let (x, m, evs) := x.tracked.foldl (TchSt.restSlot limit x.thresholds.2 v) (x, { nt := p.nt, nr := p.nr, d := d }, evs)
      let x := x.trackBase m v
      ({ x with delta := m.d }, evs, (evs.filter fun e => 3 ≤ e.2).map (·.1), lost, due)
    else
      let base := if was = 3 then (List.range v.length).map fun i => 16 * ((natAt v i : Int) + intAt x.delta i)
        else s.acquire n p x.thresholds.1 v
      ({ x with base := base, value := v, delta := deltas base v, mode := 2,
                neg := if was = 3 then x.neg else v.map fun _ => 0 }, [], [], 0, false)
  let clear := was == 2 && x.tracked.isEmpty
  let m : DeltaMap := { nt := p.nt, nr := p.nr, d := x.delta }
  let x := x.measure m x.thresholds.2
  let s := (s.setPanel n x).count (R.tchOverflow n) F.tchOverflow_n lost
  let s := s.hitTests n evs
  let evs := if was = 2 then s.confine n evs else evs
  let s := s.reflexes n evs
  let (x, s) := s.noiseStep n (s.panel n) p f m
  let again := due || asked
  let (x, evs) := if again then x.rebase evs else (x, evs)
  let s := (s.setPanel n x).captureRef n p clear
  let s := if again then (s.clrF (R.tchCtrl n) F.tchCtrl_rebase).event 0x61 n 2 else s
  let s := s.report n evs (was == 2)
  let gone := if again then List.range 16 else ended
  let s := s.freeSlots n gone
  let x := s.panel n
  s.mirror (.touchState n x.scans { base := x.base, delta := x.delta, contacts := x.tracked })

/-- A panel stops: its contacts end with records of the last scan, and a plan compiled since comes into use (R266, R288). -/
def State.panelStop (s : State) (n : Nat) : State :=
  let x := s.panel n
  let evs := (x.tracked.filter fun e => e.2.confirmed).map fun e => (e.1, 6)
  let s := s.report n evs false
  let s := if s.flag (R.tchCtrl n) F.tchCtrl_capture_ref then
    (s.clrF (R.tchCtrl n) F.tchCtrl_capture_ref).setF (R.tchCtrl n) F.tchCtrl_ref_refused else s
  let s := s.updPanel n fun x => { x with contacts := [], plan := none, stopDue := false, mode := 0 }
  match (s.panel n).next with
  | some p => s.panelStart n p
  | none => s

/-- A panel restarts as after a whole-panel rebase (14_clock_generation.md R410). -/
def State.panelRestart (s : State) (n : Nat) : State :=
  if (s.panel n).plan.isNone then s
  else
    let (x, evs) := (s.panel n).rebase []
    (((s.setPanel n x).event 0x61 n 2).report n evs false).freeSlots n (List.range 16)

/-- The clock of the touch array runs (14_clock_generation.md R410). -/
def State.senses (s : State) : Bool := s.pllOk 1

/-- The scan tick of a panel (R261, R266): settings take effect, the window that ends is scanned, a compiled plan comes into
use. A secondary senses nothing (15_pairs_and_live_insertion.md R417). -/
def State.scanTick (s : State) (n : Nat) (frames : List TouchFrame) : State :=
  let x := s.panel n
  match (match x.plan with | some p => some p | none => x.next) with
  | none => if x.stopDue then s.panelStop n else s
  | some q =>
    if s.time % s.planPeriod q ≠ 0 then s
    else
      let s := s.updPanel n fun x => { x with set := s.tchSettings n }
      if x.stopDue then s.panelStop n
      else
        match x.plan with
        | none => if q.bridge then s.panelHop n else s.panelStart n q
        | some p =>
          let f := (frames.find? fun f => f.panel.val == n).getD { panel := ⟨n % 8, Nat.mod_lt _ (by decide)⟩, samples := [] }
          let s := if s.secondary || !s.senses then s else s.scanPanel n p f
          if x.next.isSome then s.panelHop n else s

/-! ### The station tick -/

/-- The rate change that is pending takes effect (01_the_w880_at_a_glance.md R33). -/
def State.takeRate (s : State) : State :=
  if s.flag R.stnTickCtrl F.stnTickCtrl_pending then
    { s.clrF R.stnTickCtrl F.stnTickCtrl_pending with rate := s.fld R.stnTickCtrl F.stnTickCtrl_rate }
  else s

/-- STATION_TICK_RATE_CHANGE: the next multiple of 4,000,000 ns comes (01_the_w880_at_a_glance.md R33). A change asked for at such a
multiple takes effect at it: the spec does not say which is then the next (DESIGN CHOICE, log 99). -/
def doRateChange (s : State) : State :=
  if s.flag R.stnTickCtrl F.stnTickCtrl_pending then (s.at (roundUp s.time 4000000)).takeRate else s

/-- A write of STN_TICK_CTRL: the change waits for the instant of R33. In Dim the write changes the saved rate only
(16_power_resets_and_start_up.md R457). -/
def doTickCtrl (v : Word) (s : State) : State :=
  match s.pwr.saved with
  | some (sp, _, h) =>
    let rate := F.stnTickCtrl_rate.get ((s.plainWrite R.stnTickCtrl v).rd R.stnTickCtrl)
    { s with pwr := { s.pwr with saved := some (sp, rate, h) } }
  | none =>
  let s := s.plainWrite R.stnTickCtrl v
  s.put R.stnTickCtrl F.stnTickCtrl_pending (b2n (s.fld R.stnTickCtrl F.stnTickCtrl_rate != s.rate))

/-- Ticks of the audio clock occur (14_clock_generation.md R410). -/
def State.audTicks (s : State) : Bool := s.pllOk 2 && s.counting

/-- STATION_TICK: the next station tick (01_the_w880_at_a_glance.md R27, R30). -/
def doStationTick (frames : List TouchFrame) (s : State) : State :=
  if !s.audTicks then s
  else
    let t := nextGrid (stationPeriod s.rate) s.ticks.1 s.time
    let s := ((s.at t).passStation t).dueFrames
    let s := if t % 4000000 = 0 then s.takeRate else s
    s.takeBindings.each (List.range 8) fun s n => s.scanTick n frames

end Sys2Proof.Machine
end

