-- ==== Sys2Proof/Machine/Haptics.lean ====
section
/-!
DEFINITION. Haptic channels: states, the accelerometer port, the control loop, effects and the effect store, starts and
stops, braking, the rail and its budget, read-back (10_haptic_and_acoustic_feedback.md R296 to R312).
-/

namespace Sys2Proof.Machine

/-- The page of a channel. -/
def hapPage (n : Nat) : Nat := pageBase 0x70 n

/-- The number of the present loop tick. -/
def State.loopTick (s : State) : Nat := s.time / 62500

/-! ### The effect store (R303, R304) -/

/-- The size of the effect store's address space. -/
def storeEnd : Nat := 0x3B0000

/-- An effect number names a valid entry of the active directory (R303, R306). -/
def State.effectOk (s : State) (e : Nat) : Bool :=
  let addr := s.activeLe e 0 4
  let len := s.activeLe e 4 2
  e < 4096 && len != 0 && addr % 2 == 0 && 0x10000 ≤ addr && addr + 2 * len ≤ storeEnd

/-- A play that started under the previous directory still runs (HAP_STORE_CTRL.old_busy). -/
def State.oldBusy (s : State) : Bool :=
  s.hap.any fun e => e.2.mode == .playing && (match e.2.play with | some p => !p.fresh && p.req.src != .stream | none => false)

/-- The shadow directory becomes active, and stays as the new shadow (R304). -/
def State.publish (s : State) : State :=
  if !s.hapShared.publish then s
  else
    let s := { s with hapShared := { s.hapShared with publish := false, active := s.mem.store.filter fun e => e.1 < 0x10000 } }
    let s := s.each (List.range 8) fun s n =>
      s.updChan n fun x => { x with play := x.play.map fun p => { p with fresh := false } }
    s.clrF (R.hapStoreCtrl 0) F.hapStoreCtrl_publish

/-- A write of HAP_STORE_CTRL. -/
def doStoreCtrl (v : Word) (s : State) : State :=
  let s := s.plainWrite (R.hapStoreCtrl 0) v
  if s.flag (R.hapStoreCtrl 0) F.hapStoreCtrl_publish then { s with hapShared := { s.hapShared with publish := true } } else s

/-- HAP_STORE_CTRL as read. -/
def State.storeCtrlWord (s : State) : Word := F.hapStoreCtrl_old_busy.put (s.rd (R.hapStoreCtrl 0)) (b2n s.oldBusy)

/-- The byte address in HAP_STORE_ADDR. -/
def State.storeAddr (s : State) : Nat := s.fld (R.hapStoreAddr 0) F.hapStoreAddr_addr * 4

/-- HAP_STORE_ADDR advances by 4; it wraps from 0x3A_FFFC to 0. -/
def State.storeAdvance (s : State) : State :=
  s.put (R.hapStoreAddr 0) F.hapStoreAddr_addr (if s.storeAddr = storeEnd - 4 then 0 else s.storeAddr / 4 + 1)

/-- A read of HAP_STORE_DATA. -/
def readStoreData (s : State) : Word × State :=
  (if s.storeAddr < storeEnd then w32 (Mem.le 0 s.mem.store s.storeAddr 4) else 0#32, s.storeAdvance)

/-- A write of HAP_STORE_DATA: to the data area it is discarded while old_busy (R304). -/
def doStoreData (v : Word) (s : State) : State :=
  let a := s.storeAddr
  State.storeAdvance <|
    if storeEnd ≤ a then s
    else if 0x10000 ≤ a && s.oldBusy then s.setF (R.hapStoreCtrl 0) F.hapStoreCtrl_write_refused
    else { s with mem := { s.mem with store := Mem.write 0 s.mem.store a (leBytes 4 v.toNat) } }

/-! ### Channel quantities (R297 to R302) -/

/-- The load capacitance in nF. -/
def State.capNf (s : State) (n : Nat) : Nat := max 1 (s.fld (R.hapCfg n) F.hapCfg_cap_nf)

/-- The slew limit in codes per loop tick (R298). -/
def State.slewMax (s : State) (n : Nat) : Nat := max 1 (min 4095 (213281 / s.capNf n))

/-- The highest output code and the bias code. -/
def State.vMax (s : State) (n : Nat) : Nat := s.fld (R.hapVolt n) F.hapVolt_v_max
def State.biasCode (s : State) (n : Nat) : Nat := min (s.vMax n) (s.fld (R.hapVolt n) F.hapVolt_bias)

/-- A gain of HAP_GAIN_A or HAP_GAIN_B. -/
def State.gain (s : State) (a : Nat) (f : Fld) : Int := signed 16 (s.fld a f)

/-- The largest target magnitude. -/
def State.accMax (s : State) (n : Nat) : Int := (s.fld (R.hapLimit n) F.hapLimit_acc_max : Nat)

/-- The brake limit in loop ticks (HAP_LIMIT.brake_max). -/
def State.brakeTicks (s : State) (n : Nat) : Nat := max 1 (s.fld (R.hapLimit n) F.hapLimit_brake_max) * 16

/-- The measured acceleration of a polled word (R299). -/
def State.accOf (s : State) (n w : Nat) : Int :=
  let offset := signed 16 (s.fld (R.hapAccScale n) F.hapAccScale_offset)
  clampI (-32768) 32767 (sar ((signed 16 w - offset) * s.gain (R.hapAccScale n) F.hapAccScale_scale) 12)

/-- How the accelerometer port of a channel clocks its transactions: a divider below 4 acts as 4 (HAP_ACC_CFG). -/
def State.spiMode (s : State) (n : Nat) : SpiMode :=
  { cpol := s.flag (R.hapAccCfg n) F.hapAccCfg_cpol, cpha := s.flag (R.hapAccCfg n) F.hapAccCfg_cpha,
    div := max 4 (s.fld (R.hapAccCfg n) F.hapAccCfg_clk_div) }

/-- The data bytes of a poll: one or two (HAP_ACC_CFG.bytes_m1). -/
def State.pollBytes (s : State) (n : Nat) : Nat := if s.fld (R.hapAccCfg n) F.hapAccCfg_bytes_m1 = 0 then 1 else 2

/-- The raw value of a poll of its data bytes, in the order they came: one byte stands in [15:8], the first of two is the more
significant where msb_first says so (R299). -/
def State.pollWord (s : State) (n b0 b1 : Nat) : Nat :=
  if s.pollBytes n = 1 then b0 * 256
  else if s.flag (R.hapAccCfg n) F.hapAccCfg_msb_first then b0 * 256 + b1
  else b1 * 256 + b0

/-- The raw value is all ones (R301). -/
def State.pollOnes (s : State) (n w : Nat) : Bool := w == (if s.pollBytes n = 1 then 0xFF00 else 0xFFFF)

/-- A supply bank is in fault: its outputs are at high impedance (16_power_resets_and_start_up.md R479). -/
def State.bankFault (s : State) (bankB : Bool) : Bool :=
  s.flag R.pwrBoStatus (if bankB then F.pwrBoStatus_vio_b_fault else F.pwrBoStatus_vio_a_fault)

/-- A poll goes out: the command byte, then the data bytes are clocked in (R299). -/
def State.sendPoll (s : State) (n : Nat) : State :=
  if s.bankFault true then s else s.emit (.accPoll n (s.spiMode n) (s.fld (R.hapAccCfg n) F.hapAccCfg_cmd) (s.pollBytes n))

/-! ### Plays -/

/-- Two start requests have the same owner (R307). -/
def HapStart.sameOwner (a b : HapStart) : Bool := a.owner == b.owner && a.ownerSlice == b.ownerSlice

/-- The source code of HAP_STATE. -/
def HapSrc.code : HapSrc → Nat
  | .trigger => 1
  | .reflex => 2
  | .stream => 3
  | .station => 4
  | .protectedWorld => 5

/-- The order of sources of R307. -/
def HapSrc.rank : HapSrc → Nat
  | .protectedWorld => 0
  | .station => 1
  | .reflex => 2
  | .trigger => 3
  | .stream => 4

/-- The state code of HAP_STATE (R296). -/
def HapMode.code : HapMode → Nat
  | .off => 0
  | .ramp => 1
  | .idle => 2
  | .playing => 3
  | .braking => 4
  | .fault => 5

/-- The tick at which a play of a stored effect ends (R305). -/
def Play.endTick (p : Play) : Nat := p.k0 + 2 * p.len * (p.repeats + 1)

/-- A start dropped: counted, with PAGE_EVENT bit 1 (R307). -/
def State.countDropped (s : State) (n : Nat) : State := (s.count (R.hapDropped n) F.hapDropped_n).event 0x70 n 1

/-- The pending start, if any, is dropped. -/
def State.dropPending (s : State) (n : Nat) : State :=
  if (s.chan n).pend.isSome then (s.updChan n fun x => { x with pend := none }).countDropped n else s

/-- The result code of a start or stop request (R306). -/
def State.result (s : State) (n : Nat) (src : HapSrc) (owner ord code : Nat) : State :=
  match src with
  | .trigger => s.put (K.hst owner ord 7) ⟨31, 24⟩ code
  | .station => s.updChan n fun x => { x with cmdResult := code }
  | .protectedWorld => s.updChan n fun x => { x with cmdResult := code }
  | .reflex => s
  | .stream => s

/-- A play begins at the present loop tick (R305, R312). -/
def State.beginPlay (s : State) (n : Nat) (r : HapStart) (prio : Nat) (keepInteg : Bool) : State :=
  let stored := r.src != .stream
  let p : Play := { req := { r with prio := prio }, addr := if stored then s.activeLe r.effect 0 4 else 0,
                    len := if stored then s.activeLe r.effect 4 2 else 0,
                    repeats := if stored then s.activeLe r.effect 6 1 else 0, k0 := s.loopTick, fresh := true }
  let s := s.updChan n fun x => { x with
    mode := .playing, play := some p, integ := if keepInteg then x.integ else 0, progTime := s.now,
    streamTarget := if stored then x.streamTarget else signed 16 r.effect }
  (s.count (R.hapStarts n) F.hapStarts_n).event 0x70 n 0

/-- The play enters BRAKING (R302, R308). -/
def State.brake (s : State) (n : Nat) : State :=
  s.updChan n fun x => { x with mode := .braking, brakeStart := s.loopTick, quietRun := 0, integ := 0, progTime := s.now }

/-- A pending start begins, under the directory now active; one that names no effect any more is dropped (R304, R307). -/
def State.beginPending (s : State) (n : Nat) : State :=
  match (s.chan n).pend with
  | none => s.updChan n fun x => { x with mode := .idle, play := none, progTime := s.now }
  | some r =>
    let s := s.updChan n fun x => { x with mode := .idle, play := none, pend := none, progTime := s.now }
    if s.effectOk r.effect then s.beginPlay n r r.prio true else s.countDropped n

/-- Braking ends (R308). -/
def State.endBraking (s : State) (n : Nat) : State := (s.event 0x70 n 2).beginPending n

/-- The play or the braking of a channel ends without braking: its programme is empty from now on (R312). -/
def State.endProg (s : State) (n : Nat) : State :=
  let t := s.now
  s.updChan n fun x => { x with play := none, progTime := if x.play.isSome then t else x.progTime }

/-- The channel enters FAULT: its play ends without braking, its pending start is dropped (R301, R311). -/
def State.hapFault (s : State) (n : Nat) (rail : Bool) : State :=
  ((s.dropPending n).endProg n).updChan n fun x => { x with mode := .fault, railFault := rail, allOnes := 0, stuck := 0 }

/-- A sensor fault (R301). -/
def State.sensorFaulted (s : State) (n : Nat) : State :=
  ((s.hapFault n false).updChan n fun x => { x with sensorFault := true }).event 0x70 n 3

/-! ### Requests (R305, R306) -/

/-- Owner code of the requester of HAP_CMD. -/
def State.cmdSrc (s : State) (r : Req) : HapSrc × Nat := if s.reqProtected r then (.protectedWorld, 0xFF) else (.station, 0xFE)

/-- A write of HAP_CMD: it takes effect at the next loop tick (R305). -/
def doHapCmd (r : Req) (n : Nat) (v : Word) (s : State) : State :=
  let (src, ow) := s.cmdSrc r
  let due := loopAfter s.time
  if bitAt v.toNat 31 then
    s.updChan n fun x => { x with stops := x.stops ++ [{ who := ow, isSlice := false, ord := 0, due := due, silent := false }] }
  else
    s.makeStart n { src := src, owner := ow, ownerSlice := false, prio := 0, level := bitsOf v.toNat 23 16,
                    effect := bitsOf v.toNat 15 0, ord := 0, due := due }

/-- A write of SLC_HAP_TRIG (R305, R306). -/
def doHapTrig (sl : Nat) (v : Word) (s : State) : State :=
  let ord := bitsOf v.toNat 27 24
  match s.globalOf sl 5 ord with
  | none => if ord < 8 then s.put (K.hst sl ord 7) ⟨31, 24⟩ 4 else s
  | some n =>
    let due := loopAfter s.time
    if bitAt v.toNat 31 then
      s.updChan n fun x => { x with stops := x.stops ++ [{ who := sl, isSlice := true, ord := ord, due := due, silent := false }] }
    else
      s.makeStart n { src := .trigger, owner := sl, ownerSlice := true, prio := 0, level := bitsOf v.toNat 23 16,
                      effect := bitsOf v.toNat 15 0, ord := ord, due := due }

/-- A start is the owner's. -/
def HapStart.ownedBy (r : HapStart) (who : Nat) (isSlice : Bool) : Bool := r.owner == who && r.ownerSlice == isSlice

/-- The plays of an owner on a channel end: active braking from the next loop tick; its starts not yet begun go at once, the
pending one as dropped (03_slices.md R104, R107; R307, R308). At a slice reset a reflex that plays goes on. -/
def State.withdrawHaptic (s : State) (n who : Nat) (isSlice : Bool) (what : StopOf) : State :=
  let s := if (s.chan n).pend.any fun r => r.ownedBy who isSlice then s.dropPending n else s
  let due := loopAfter s.time
  s.updChan n fun x => { x with
    starts := x.starts.filter fun r => !r.ownedBy who isSlice,
    stops := x.stops ++ [{ who := who, isSlice := isSlice, ord := 0, due := due, silent := true, what := what }] }

/-- The play of a stream of a slice ends: braking from the loop tick `due` on; a start it has requested goes (R306, R308). -/
def State.endStream (s : State) (sl c due : Nat) : State :=
  match s.globalOf sl 5 c with
  | none => s
  | some n => s.updChan n fun x => { x with
      starts := x.starts.filter fun r => !(r.ownedBy sl true && r.src == .stream && r.ord == c),
      stops := x.stops ++ [{ who := sl, isSlice := true, ord := c, due := due, silent := true, what := .stream }] }

/-- A play is one that a stop brakes. -/
def HapStop.hits (t : HapStop) (r : HapStart) : Bool :=
  r.ownedBy t.who t.isSlice &&
    match t.what with
    | .all => true
    | .notReflex => r.src != .reflex
    | .stream => r.src == .stream && r.ord == t.ord

/-- A stop is applied (R305 to R308). -/
def State.applyStop (s : State) (n : Nat) (t : HapStop) : State :=
  let x := s.chan n
  let station := !t.isSlice && t.who == 0xFE
  let plays := x.mode == .playing && (match x.play with | some p => station || t.hits p.req | none => false)
  let pends := !t.silent && x.pend.any t.hits
  let (s, code) :=
    if plays then (s.brake n, 7)
    else if pends then (s.updChan n fun x => { x with pend := none }, 7)
    else (s, 8)
  if t.silent then s
  else s.result n (if t.isSlice then .trigger else if station then .station else .protectedWorld) t.who t.ord code

/-- A start that meets the channel is dropped; a stream request is not counted (R307). -/
def State.startDropped (s : State) (n : Nat) (r : HapStart) : State :=
  if r.src == .stream then s else (s.countDropped n).result n r.src r.owner r.ord 3

/-- A start begins. -/
def State.startBegins (s : State) (n : Nat) (r : HapStart) (p : Nat) (keep : Bool) : State :=
  (s.beginPlay n r p keep).result n r.src r.owner r.ord 1

/-- A start meets the channel (R307). A pending start that finds braking ended by another start is dropped. -/
def State.applyStart (s : State) (n : Nat) (r : HapStart) (p : Nat) : State :=
  let x := s.chan n
  if x.closing then s.result n r.src r.owner r.ord 5
  else
    match x.mode with
    | .off => s.result n r.src r.owner r.ord 5
    | .ramp => s.result n r.src r.owner r.ord 5
    | .fault => s.result n r.src r.owner r.ord 5
    | .idle => s.startBegins n r p false
    | .playing =>
      match x.play with
      | none => s.startBegins n r p false
      | some c =>
        if c.req.prio < p then (s.count (R.hapPreempts n) F.hapPreempts_n).startBegins n r p true
        else if p = c.req.prio && r.sameOwner c.req && c.req.src != .stream && r.src != .stream then s.startBegins n r p true
        else s.startDropped n r
    | .braking =>
      let pb := match x.play with | some c => c.req.prio | none => 0
      if pb < p then (s.dropPending n).startBegins n r p false
      else if r.src != .stream && (match x.pend with | some q => q.prio ≤ p | none => true) then
        ((s.dropPending n).updChan n fun x => { x with pend := some { r with prio := p, due := s.loopTick } }).result n
          r.src r.owner r.ord 2
      else s.startDropped n r

/-- A start that takes effect: a slice's only while its channel is permitted (R294, R306); a number that names no effect is
reported first. -/
def State.admitStart (s : State) (n : Nat) (r : HapStart) : Option (HapStart × Nat) × State :=
  let allowed := !r.ownerSlice || s.granted r.owner 5 n
  if !allowed then (none, s)
  else
    let s := if r.src == .reflex then s.count (R.tchReflexes r.ord) F.tchReflexes_n else s
    if r.src != .stream && !s.effectOk r.effect then (none, s.result n r.src r.owner r.ord 6)
    else (some (r, r.prio), s)

/-- The stops of a loop tick on one channel, which come first (R307). -/
def State.takeStops (s : State) (n : Nat) : State :=
  let k := s.loopTick
  let x := s.chan n
  let s := s.setChan n { x with stops := x.stops.filter fun t => k < t.due }
  s.each (x.stops.filter fun t => t.due ≤ k) fun s t => s.applyStop n t

/-- The starts of a loop tick on one channel, by priority and source (R307). -/
def State.takeStarts (s : State) (n : Nat) : State :=
  let k := s.loopTick
  let x := s.chan n
  let s := s.setChan n { x with starts := x.starts.filter fun r => k < r.due }
  let (rs, s) := (x.starts.filter fun r => r.due ≤ k).foldl (fun (l, s) r =>
    let (a, s) := s.admitStart n r
    (l ++ a.toList, s)) (([] : List (HapStart × Nat)), s)
  let before (a b : HapStart × Nat) : Bool :=
    b.2 < a.2 || (a.2 == b.2 && (a.1.src.rank < b.1.src.rank || (a.1.src.rank == b.1.src.rank && a.1.owner < b.1.owner)))
  s.each (sortBy before rs) fun s e => s.applyStart n e.1 e.2

/-! ### Transitions at a loop tick (R296, R301, R305, R308, R311) -/

/-- The capacity of a channel's bucket and of the pool (R310). -/
def State.floorMw (s : State) (n : Nat) : Nat := s.fld (R.hapBudget n) F.hapBudget_floor_mw
def State.floorSum (s : State) : Nat := ((List.range 8).map s.floorMw).sum

/-- All buckets and the pool are full (R310). -/
def State.fillBuckets (s : State) : State :=
  let s := s.each (List.range 8) fun s n => s.updChan n fun x => { x with bucket := s.floorMw n * 128000 }
  { s with hapShared := { s.hapShared with pool := (12000 - s.floorSum) * 128000 } }

/-- The rail is good (HAP_RAIL.rail_ok). -/
def State.railOk (s : State) : Bool := s.flag (R.hapRail 0) F.hapRail_rail_ok

/-- A channel whose enable was written 0 ends its play without braking, and its output slews to 0 V (R296). -/
def State.hapCloseStep (s : State) (n : Nat) : State :=
  let x := s.chan n
  if x.mode != .off && !x.closing then
    ((s.dropPending n).endProg n).updChan n fun x => { x with
      closing := true, offDue := false, sensorFault := false,
      mode := if x.mode == .fault then .fault else .idle }
  else s.setChan n { x with offDue := false }

/-- What PAGE_CTRL.enable asks of a channel at a loop tick: from OFF it ramps. Set again while the output slews to 0 V it takes
the channel back to RAMP, from FAULT only through OFF (R296; log 103). -/
def State.hapEnableStep (s : State) (n : Nat) : State :=
  let on := s.enabled (hapPage n)
  let s := if !on || (s.chan n).offDue then s.hapCloseStep n else s
  let x := s.chan n
  if on then
    if x.mode == .off then s.fillBuckets.updChan n fun x => { x with mode := .ramp, closing := false }
    else if x.closing && x.mode != .fault then s.updChan n fun x => { x with mode := .ramp, closing := false }
    else s
  else s

/-- A sensor fault would change the channel: it is polled, and not in FAULT because of its sensor (R299, R301). -/
def HapSt.canFault (x : HapSt) : Bool := x.mode != .off && (x.mode != .fault || x.railFault)

/-- The transitions of a channel before the starts of a loop tick. -/
def State.hapTransitions (s : State) (n : Nat) : State :=
  let x := s.chan n
  let s := if x.canFault && (16 ≤ x.allOnes || 160 ≤ x.stuck) then s.sensorFaulted n else s
  let s := s.hapEnableStep n
  let x := s.chan n
  let k := s.loopTick
  match x.mode with
  | .playing =>
    match x.play with
    | some p => if p.req.src != .stream && p.endTick ≤ k then s.brake n else s
    | none => s
  | .braking =>
    if x.brakeStart < k then
      let q := if x.a.natAbs ≤ s.fld (R.hapLimit n) F.hapLimit_quiet then x.quietRun + 1 else 0
      let s := s.setChan n { x with quietRun := q }
      if 16 ≤ q || x.brakeStart + s.brakeTicks n ≤ k then s.endBraking n
      else match x.pend with
        | some r => if r.due + 64 ≤ k then s.dropPending n else s
        | none => s
    else s
  | _ => s

/-! ### The loop (R302, R308 to R310) -/

/-- What the loop asks of a channel: the code wanted, the error, the slew limit, and the priority of its step. -/
structure Drive where
  want : Nat
  err : Option Int
  lim : Nat
  prio : Nat

/-- The target of a play at the present tick (R305, R306). -/
def State.target (s : State) (n : Nat) (p : Play) : Int :=
  let m := s.accMax n
  if p.req.src == .stream then clampI (-m) m (s.chan n).streamTarget
  else
    let j := (s.loopTick - p.k0) / 2 % p.len
    let v := signed 16 (Mem.le 0 s.mem.store (p.addr + 2 * j) 2)
    clampI (-m) m (sar (v * (p.req.level : Nat) * 257 + 32768) 16)

/-- The drive of a channel at a loop tick (R296, R302, R308). -/
def State.drive (s : State) (n : Nat) : Drive :=
  let x := s.chan n
  let bias : Int := (s.biasCode n : Nat)
  let top : Int := (s.vMax n : Nat)
  let lim := s.slewMax n
  if x.closing then { want := 0, err := none, lim := lim, prio := 0 }
  else
    match x.mode with
    | .off => { want := 0, err := none, lim := 0, prio := 0 }
    | .fault => { want := 0, err := none, lim := lim, prio := 0 }
    | .ramp => { want := s.biasCode n, err := none, lim := min 16 lim, prio := 0 }
    | .idle => { want := s.biasCode n, err := none, lim := lim, prio := 0 }
    | .playing =>
      match x.play with
      | none => { want := s.biasCode n, err := none, lim := lim, prio := 0 }
      | some p =>
        let r := s.target n p
        let e := r - x.a
        let y := sar (s.gain (R.hapGainA n) F.hapGainA_kff * r + s.gain (R.hapGainA n) F.hapGainA_kp * e) 12 + sar x.integ 16
        { want := (clampI 0 top (bias + y)).toNat, err := some e, lim := lim, prio := p.req.prio }
    | .braking =>
      let y := sar (s.gain (R.hapGainB n) F.hapGainB_kb * (0 - x.a)) 12
      { want := (clampI 0 top (bias + y)).toNat, err := none, lim := lim,
        prio := match x.play with | some p => p.req.prio | none => 0 }

/-- The energy units of an upward step of `d` codes (R309). -/
def stepCost (cap d : Nat) : Nat := ceilDiv (cap * d * 68400) 4095

/-- The upward step that a channel can pay for, at most `d`; it pays from its bucket, then from the pool (R310). -/
def State.payStep (s : State) (n d : Nat) : Nat × State :=
  let x := s.chan n
  let cap := s.capNf n
  let avail := x.bucket + s.hapShared.pool
  let k := min d (avail * 4095 / (cap * 68400))
  let cost := stepCost cap k
  let own := min cost x.bucket
  (k, { s.setChan n { x with bucket := x.bucket - own } with
          hapShared := { s.hapShared with pool := s.hapShared.pool - (cost - own) } })

/-- The output of a channel moves toward the code wanted; an upward step is paid for and may be limited (R302, R310). -/
def State.moveOutput (s : State) (n : Nat) (d : Drive) : State :=
  let x := s.chan n
  if d.want ≤ x.out then s.setChan n { x with out := max d.want (x.out - d.lim), limited := false }
  else
    let step := min d.lim (d.want - x.out)
    let (k, s) := s.payStep n step
    let s := s.updChan n fun y => { y with out := x.out + k, limited := k != step }
    if k = step then s
    else
      let s := s.count (R.hapLimitedTicks n) F.hapLimitedTicks_n
      if x.limited then s else s.event 0x70 n 4

/-- After the output moved: the poll goes out and its value comes, the sensor-fault counts, the integrator, and the ends of RAMP and of closing
(R296, R299, R301, R302). `out0` is the output at the start of the tick. -/
def State.afterDrive (s : State) (n : Nat) (d : Drive) (out0 : Nat) (polls : List AccPoll) : State :=
  let x := s.chan n
  if x.mode == .off then s
  else
    let s := s.sendPoll n
    let w := ((polls.find? fun p => p.ch.val == n).map fun p => s.pollWord n p.b0.toNat p.b1.toNat).getD 0
    let a := s.accOf n w
    let bias := s.biasCode n
    let far := 512 ≤ ((out0 : Int) - (bias : Nat)).natAbs
    let stuck := (x.mode == .playing || x.mode == .braking) && far && a.natAbs < 16
    let integ := match d.err with
      | some e => if x.out = d.want then clampI (-(2047 * 65536)) (2047 * 65536) (x.integ + s.gain (R.hapGainB n) F.hapGainB_ki * e)
                  else x.integ
      | none => x.integ
    let y := { x with a := a, allOnes := if s.pollOnes n w then x.allOnes + 1 else 0,
                      stuck := if stuck then x.stuck + 1 else 0, integ := integ }
    if y.closing && y.out == 0 then
      s.setChan n { y with mode := .off, closing := false, railFault := false, sensorFault := false, allOnes := 0, stuck := 0 }
    else if y.mode == .ramp && y.out == bias then s.setChan n { y with mode := .idle }
    else s.setChan n y

/-- The order in which channels with an upward step are visited (R310). -/
def driveOrder (ds : List (Nat × Drive)) : List (Nat × Drive) := sortBy (fun a b => b.2.prio < a.2.prio) ds

/-- The buckets and the pool are refilled (R310, steps 1 and 2). -/
def State.refill (s : State) : State :=
  let (extra, s) := (List.range 8).foldl (fun (e, s) n =>
    let cap := s.floorMw n * 128000
    let b := (s.chan n).bucket + s.floorMw n * 125
    (e + (b - cap), s.updChan n fun x => { x with bucket := min cap b })) (0, s)
  let rest := 12000 - s.floorSum
  { s with hapShared := { s.hapShared with pool := min (rest * 128000) (s.hapShared.pool + extra + rest * 125) } }

/-- Power floors written since the last tick take effect (HAP_BUDGET). -/
def State.takeFloors (s : State) : State :=
  s.each (List.range 8) fun s n =>
    match (s.chan n).floorNext with
    | some f => (s.put (R.hapBudget n) F.hapBudget_floor_mw f).updChan n fun x => { x with floorNext := none }
    | none => s

/-! ### The rail (R311; 16_power_resets_and_start_up.md R457, R480; 17_connectors_and_electrical_characteristics.md R491) -/

/-- The power state. -/
def State.power (s : State) : Nat := s.fld R.pwrState F.pwrState_current

/-- The brown-out warning is asserted. -/
def State.warned (s : State) : Bool := s.flag R.pwrBoStatus F.pwrBoStatus_warning

/-- The rail switch may be closed: in Run, without a warning, with the interlock connected. -/
def State.railAllowed (s : State) : Bool :=
  s.power == 0 && !s.warned && s.flag R.stnModule F.stnModule_hv_interlock

/-- The rail switch follows its conditions. -/
def State.railSwitch (s : State) : State := { s with hapShared := { s.hapShared with railOn := s.railAllowed } }

/-- The channel is enabled and not in FAULT or OFF: a rail fault puts it in FAULT (R311). -/
def State.onRail (s : State) (n : Nat) : Bool :=
  s.enabled (hapPage n) && (s.chan n).mode != .off && (s.chan n).mode != .fault

/-- A rail fault. -/
def State.railFaulted (s : State) : State :=
  let s := (s.clrF (R.hapRail 0) F.hapRail_rail_ok).setF (R.hapRail 0) F.hapRail_fault
  let s := { s with hapShared := { s.hapShared with railLow := 0, railHigh := 0 } }
  s.each (List.range 8) fun s n => (if s.onRail n then s.hapFault n true else s).event 0x70 n 5

/-- The rail has recovered: channels in FAULT only because of it ramp up. -/
def State.railRecovered (s : State) : State :=
  let s := s.setF (R.hapRail 0) F.hapRail_rail_ok
  let s := { s with hapShared := { s.hapShared with railLow := 0, railHigh := 0 } }
  s.each (List.range 8) fun s n =>
    let x := s.chan n
    if x.mode == .fault && x.railFault && !x.closing then s.setChan n { x with mode := .ramp, railFault := false } else s

/-- A low rail is a rail fault: rail_ok is 1, or a channel enabled since the last fault is not in FAULT yet (R311; log 103). -/
def State.railMatters (s : State) : Bool := s.railOk || (List.range 8).any s.onRail

/-- The measurement of a loop tick, in 0.1 V. -/
def State.railStep (s : State) (v : Nat) : State :=
  let s := s.put (R.hapRail 0) F.hapRail_tenths v
  let low := if v < 1800 then s.hapShared.railLow + 1 else 0
  let high := if 1850 ≤ v then s.hapShared.railHigh + 1 else 0
  if 16 ≤ low && s.railMatters then s.railFaulted
  else if 160 ≤ high && !s.railOk then s.railRecovered
  else { s with hapShared := { s.hapShared with railLow := low, railHigh := high } }

/-! ### The loop tick -/

/-- What a HAPTIC_STATE carries of the play of a channel, as one number (log 40): 0 for none. -/
def playCode (p : Option Play) : Nat :=
  match p with
  | none => 0
  | some p =>
    1 + 2 * (p.req.src.rank + 8 * (p.req.owner + 256 * (b2n p.req.ownerSlice + 2 * (p.req.prio + 8 * (p.req.level + 256 *
      (p.req.effect + 65536 * (p.req.ord + 16 * (p.addr + 2 ^ 32 * (p.len + 65536 * (p.repeats + 256 *
        (b2n p.fresh + 2 * p.k0)))))))))))

/-- The play that a HAPTIC_STATE carries. -/
def playOf (c : Nat) : Option Play :=
  if c = 0 then none
  else
    let c0 := c / 2
    let src : HapSrc := match c0 % 8 with | 0 => .protectedWorld | 1 => .station | 2 => .reflex | 3 => .trigger | _ => .stream
    let c1 := c0 / 8
    let c2 := c1 / 256
    let c3 := c2 / 2
    let c4 := c3 / 8
    let c5 := c4 / 256
    let c6 := c5 / 65536
    let c7 := c6 / 16
    let c8 := c7 / 2 ^ 32
    let c9 := c8 / 65536
    let c10 := c9 / 256
    some { req := { src := src, owner := c1 % 256, ownerSlice := c2 % 2 == 1, prio := c3 % 8, level := c4 % 256,
                    effect := c5 % 65536, ord := c6 % 16, due := 0 },
           addr := c7 % 2 ^ 32, len := c8 % 65536, repeats := c9 % 256, fresh := c10 % 2 == 1, k0 := c10 / 2 }

/-- The mirrored state of the channels (15_pairs_and_live_insertion.md R428, R430). -/
def State.hapMirrors (s : State) : List HapMirror :=
  ([0, 1, 2, 3, 4, 5, 6, 7] : List (Fin 8)).map fun n =>
    let x := s.chan n.val
    { ch := n, st := x.mode.code, out := x.out, a := x.a, integ := x.integ, play := playCode x.play }

/-- The loop of every channel at the present tick. -/
def State.runLoops (s : State) (polls : List AccPoll) : State :=
  let ds := (List.range 8).map fun n => (n, s.drive n)
  let outs := (List.range 8).map fun n => (s.chan n).out
  let s := s.each (driveOrder ds) fun s e => s.moveOutput e.1 e.2
  s.each ds fun s e => s.afterDrive e.1 e.2 (natAt outs e.1) polls

/-- What the channels do at a loop tick once the rail is measured; the channels of a secondary follow its partner. -/
def State.loopWork (s : State) (polls : List AccPoll) : State :=
  if s.secondary then
    s.each (List.range 8) fun s n => s.updChan n fun x => { x with starts := x.starts.filter fun r => s.loopTick < r.due,
                                                                   stops := x.stops.filter fun r => s.loopTick < r.due }
  else
    let s := s.each (List.range 8) State.takeStops
    let s := s.each (List.range 8) State.hapTransitions
    let s := s.each (List.range 8) State.takeStarts
    let s := s.runLoops polls
    s.mirror (.hapticState s.hapMirrors)

/-- The haptic stream words of slices that were reset return to their reset values: braking begins with this loop tick
(R315). -/
def State.clearHapWords (s : State) (sl : Nat) : State :=
  let s := s.resetKeys fun k => K.hst sl 0 0 ≤ k && k < K.hst sl 8 0
  s.updSlice sl fun x => { x with hapWords := false }
def State.clearHapAll (s : State) : State :=
  s.each (below 256 fun sl => (s.slice sl).hapWords) State.clearHapWords

/-- LOOP_TICK: the next loop tick (R302; 01_the_w880_at_a_glance.md R30). A secondary drives nothing and follows the
HAPTIC_STATE messages (15_pairs_and_live_insertion.md R417, R430). -/
def doLoopTick (polls : List AccPoll) (rail : Nat) (s : State) : State :=
  if !s.audTicks then s
  else
    let t := nextGrid 62500 s.ticks.2.1 s.time
    let s := (s.at t).passLoop t
    ((s.takeFloors.refill.publish.railStep rail).loopWork polls).clearHapAll

/-! ### Events of a channel that arrive on their own -/

/-- The instant of the next loop tick, at which a transition takes effect (R296). -/
def State.atLoop (s : State) : State := s.at (nextGrid 62500 s.ticks.2.1 s.time)

/-- EFFECT_END: the end tick of the stored effect that plays (R305). -/
def doEffectEnd (n : Nat) (s : State) : State :=
  let x := s.chan n
  match x.mode, x.play with
  | .playing, some p => if p.req.src == .stream then s else (s.at (p.endTick * 62500)).brake n
  | _, _ => s

/-- BRAKING_END: the channel has been quiet, or the limit is reached (R308). -/
def doBrakingEnd (n : Nat) (s : State) : State := if (s.chan n).mode == .braking then s.atLoop.endBraking n else s

/-- PENDING_START_EXPIRY: 64 loop ticks after it became pending (R307). -/
def doPendingExpiry (n : Nat) (s : State) : State :=
  match (s.chan n).mode, (s.chan n).pend with
  | .braking, some r => (s.at ((r.due + 64) * 62500)).dropPending n
  | _, _ => s

/-- SENSOR_FAULT (R301). -/
def doSensorFault (n : Nat) (s : State) : State :=
  if (s.chan n).canFault then s.atLoop.sensorFaulted n else s

/-- RAIL_FAULT (R311). -/
def doRailFault (s : State) : State := if s.railMatters then s.atLoop.railFaulted else s

/-- RAIL_RECOVERY (R311): the rail can measure its voltage only while its switch is closed. -/
def doRailRecovery (s : State) : State := if s.railOk || !s.hapShared.railOn then s else s.atLoop.railRecovered

/-! ### Registers -/

/-- A write of HAP_ACC_RAW: `reply` holds the bytes received (R299). -/
def doAccRaw (n : Nat) (v : Word) (reply : BitVec 24) (s : State) : State :=
  let s := s.plainWrite (R.hapAccRaw n) (v &&& 0x7FFFFFFF#32)
  if !bitAt v.toNat 31 then s
  else if (s.chan n).mode != .off then s.setF (R.hapAccRaw n) F.hapAccRaw_refused
  else
    let len := min 2 (s.fld (R.hapAccRaw n) F.hapAccRaw_len_m1) + 1
    let sent := s.fld (R.hapAccRaw n) F.hapAccRaw_data
    let s := if s.secondary || s.bankFault true then s else s.emit (.accTransaction n (s.spiMode n) (leBytes len sent))
    s.put (R.hapAccRaw n) F.hapAccRaw_data (reply.toNat % 256 ^ len + sent / 256 ^ len * 256 ^ len)

/-- A write of HAP_BUDGET: the floor takes effect at the next loop tick if the eight then sum to at most 12 W (R309). -/
def doHapBudget (n : Nat) (v : Word) (s : State) : State :=
  let s := if bitAt v.toNat 31 then s.clrF (R.hapBudget n) F.hapBudget_refused else s
  let f := bitsOf v.toNat 15 0
  let sum := (((List.range 8).filter (· ≠ n)).map fun m => ((s.chan m).floorNext).getD (s.floorMw m)).sum + f
  if 12000 < sum then s.setF (R.hapBudget n) F.hapBudget_refused
  else s.updChan n fun x => { x with floorNext := some f }

/-- HAP_STATE. -/
def State.hapStateWord (s : State) (n : Nat) : Word :=
  let x := s.chan n
  let (ow, src, prio) := match x.play with
    | some p => (p.req.owner, p.req.src.code, p.req.prio)
    | none => (0, 0, 0)
  w32 (x.cmdResult * 2 ^ 24 + ow * 2 ^ 16 + src * 2 ^ 13 + prio * 2 ^ 10 + b2n x.pend.isSome * 2 ^ 7 +
    b2n x.limited * 2 ^ 6 + b2n x.sensorFault * 2 ^ 5 + x.mode.code)

/-- HAP_MEAS. -/
def State.hapMeasWord (s : State) (n : Nat) : Word := w32 (unsigned 16 (s.chan n).a * 2 ^ 16 + (s.chan n).out)

/-- The 48 bytes of an effect-programme snapshot (R312); with no play the effect number reads 0xFFFF. -/
def State.progBytes (s : State) (n : Nat) : List Byte :=
  let x := s.chan n
  let braking := x.mode == .braking
  let (e, src, prio, ow, lv, len, rep) := match x.play with
    | some p => (if braking || p.req.src == .stream then 0xFFFF else p.req.effect, p.req.src.code, p.req.prio, p.req.owner,
                 if p.req.src == .stream then 0 else p.req.level, p.len, p.repeats)
    | none => (0xFFFF, 0, 0, 0, 0, 0, 0)
  leBytes 4 0x4E4C5045 ++ leBytes 2 1 ++ leBytes 1 n ++ leBytes 1 x.mode.code ++ leBytes 8 x.progTime ++ leBytes 2 e ++
    leBytes 1 src ++ leBytes 1 prio ++ leBytes 1 ow ++ leBytes 1 lv ++ leBytes 2 len ++ leBytes 1 rep ++
    leBytes 1 (b2n braking + b2n x.pend.isSome * 2) ++ leBytes 2 (s.slewMax n) ++
    leBytes 2 (s.fld (R.hapGainA n) F.hapGainA_kff) ++ leBytes 2 (s.fld (R.hapGainA n) F.hapGainA_kp) ++
    leBytes 2 (s.fld (R.hapGainB n) F.hapGainB_ki) ++ leBytes 2 (s.fld (R.hapGainB n) F.hapGainB_kb) ++
    leBytes 2 (s.fld (R.hapLimit n) F.hapLimit_acc_max) ++ leBytes 2 (s.brakeTicks n) ++
    leBytes 1 (s.fld (R.hapLimit n) F.hapLimit_quiet) ++ leBytes 7 0

/-- A write of HAP_RB_CTRL; a snapshot is taken at once. -/
def doHapRb (n : Nat) (v : Word) (s : State) : State :=
  let s := s.plainWrite (R.hapRbCtrl n) v
  if s.flag (R.hapRbCtrl n) F.hapRbCtrl_snap then
    let ws := wordsOf (s.progBytes n)
    ((s.clrF (R.hapRbCtrl n) F.hapRbCtrl_snap).setF (R.hapRbCtrl n) F.hapRbCtrl_valid).updChan n fun x => { x with rb := ws }
  else s

/-- A read of HAP_RB_DATA; the index stops at 11. -/
def readHapRb (n : Nat) (s : State) : Word × State :=
  let i := s.fld (R.hapRbIndex n) F.hapRbIndex_index
  ((s.chan n).rb.getD i 0#32, s.put (R.hapRbIndex n) F.hapRbIndex_index (min 11 (i + 1)))

end Sys2Proof.Machine
end

