-- ==== Sys2Proof/Machine/Streams.lean ====
section
/-!
DEFINITION. Haptic and audio streams, the audio mixer and the TDM ports (10_haptic_and_acoustic_feedback.md R306, R313 to R319).
-/

namespace Sys2Proof.Machine

/-! ### The words of the streams -/

/-- Key of a slice's haptic stream record. -/
def hstIdx (sl ch : Nat) : Nat := sl * 8 + ch

/-- A haptic stream word, and an audio stream word. -/
def State.hstWord (s : State) (sl ch w : Nat) : Nat := s.num (K.hst sl ch w)
def State.astWord (s : State) (sl w : Nat) : Nat := s.num (K.ast sl w)

/-- A stream of a slice: of a haptic ordinal, or its audio stream. -/
def K.stream (sl : Nat) (ch : Option Nat) (w : Nat) : Nat :=
  match ch with
  | some c => K.hst sl c w
  | none => K.ast sl w

/-- The ring size of a stream in samples or frames (R313, R317). -/
def State.streamSize (s : State) (sl : Nat) (ch : Option Nat) : Nat :=
  match ch with
  | some c => 2 ^ (min 8 (bitsOf (s.hstWord sl c 0) 4 1) + 8)
  | none => 2 ^ (min 7 (bitsOf (s.astWord sl 0) 11 8) + 8)

/-- The bytes of one sample or frame. -/
def State.streamUnit (s : State) (sl : Nat) (ch : Option Nat) : Nat :=
  match ch with
  | some _ => 2
  | none => (if bitAt (s.astWord sl 0) 2 then 4 else 2) * (if bitAt (s.astWord sl 0) 1 then 2 else 1)

/-- The ring address of a stream. -/
def State.streamBase (s : State) (sl : Nat) (ch : Option Nat) : Nat :=
  s.num (K.stream sl ch 1) * 2 ^ 32 + s.num (K.stream sl ch 0) / 4096 * 4096

/-- The stream is enabled. -/
def State.streamOn (s : State) (sl : Nat) (ch : Option Nat) : Bool := bitAt (s.num (K.stream sl ch 0)) 0

/-- The start time of a stream. -/
def State.streamStart (s : State) (sl : Nat) (ch : Option Nat) : Nat := s.num64 (K.stream sl ch 5) (K.stream sl ch 6)

/-- Samples or frames between the read and the write position. -/
def State.streamAhead (s : State) (sl : Nat) (ch : Option Nat) : Nat :=
  (s.num (K.stream sl ch 3) + 2 ^ 32 - s.num (K.stream sl ch 4)) % 2 ^ 32

/-- The watermark of a stream. -/
def State.streamMark (s : State) (sl : Nat) (ch : Option Nat) : Nat :=
  match ch with
  | some c => bitsOf (s.hstWord sl c 2) 15 0
  | none => bitsOf (s.astWord sl 7) 15 0

/-- The flag that the difference is below the watermark, and its writer. -/
def State.streamLow (s : State) (sl : Nat) (ch : Option Nat) : Bool :=
  match ch with
  | some c => (s.hstSt (hstIdx sl c)).low
  | none => (s.astSt sl).low
def State.setStreamLow (s : State) (sl : Nat) (ch : Option Nat) (b : Bool) : State :=
  match ch with
  | some c => s.updHst (hstIdx sl c) fun x => { x with low := b }
  | none => s.updAst sl fun x => { x with low := b }

/-- The difference falls below the watermark: slice line 2 once (R314). -/
def State.streamCheck (s : State) (sl : Nat) (ch : Option Nat) : State :=
  let low := s.streamAhead sl ch < s.streamMark sl ch
  let was := s.streamLow sl ch
  let s := s.setStreamLow sl ch low
  if low && !was then s.signal (some sl) 2 else s

/-! ### Fetching (R314, R315) -/

/-- What a stream has fetched, whether a read is under way, and whether a host error stopped it. -/
def State.streamFetch (s : State) (sl : Nat) (ch : Option Nat) : Nat × Bool × Bool :=
  match ch with
  | some c => let x := s.hstSt (hstIdx sl c); (x.fetchPos, x.reading, x.stopped)
  | none => let x := s.astSt sl; (x.fetchPos, x.reading, x.stopped || x.fading)

/-- A stream is permitted: its channel, or the audio permission (R306; 03_slices.md R101). -/
def State.streamAllowed (s : State) (sl : Nat) (ch : Option Nat) : Bool :=
  match ch with
  | some c => (s.globalOf sl 5 c).isSome
  | none => s.granted sl 6 0

/-- The ring runs of `k` units from a position: address and length. -/
def ringRuns (base size unit pos k : Nat) : List (Nat × Nat) :=
  let i := pos % size
  if i + k ≤ size then [(base + i * unit, k * unit)]
  else [(base + i * unit, (size - i) * unit), (base, (i + k - size) * unit)]

/-- Read the entries between the fetch and the write position, at most 1,024 samples or 512 frames ahead of the read
position (R314). -/
def State.fetchStream (s : State) (sl : Nat) (ch : Option Nat) : State :=
  let (pos, reading, stopped) := s.streamFetch sl ch
  let got := (pos + 2 ^ 32 - s.num (K.stream sl ch 4)) % 2 ^ 32
  let want := min (s.streamAhead sl ch) (if ch.isSome then 1024 else 512)
  if s.streamOn sl ch && (s.slice sl).st == .bound && s.streamAllowed sl ch && !reading && !stopped && got < want && s.canRead then
    let k := want - got
    let s := match ch with
      | some c => s.updHst (hstIdx sl c) fun x => { x with reading := true }
      | none => s.updAst sl fun x => { x with reading := true }
    s.hostRead (match ch with | some c => .haptic sl c k | none => .audio sl k) (s.pasidOf sl)
      (ringRuns (s.streamBase sl ch) (s.streamSize sl ch) (s.streamUnit sl ch) pos k)
  else s

/-- Fetch for every stream of a slice: after THAW, or when reads can be issued again (R315). -/
def State.fetchStreams (s : State) (sl : Nat) : State :=
  ((List.range 8).foldl (fun s c => if s.streamOn sl (some c) then s.fetchStream sl (some c) else s) s).fetchStream sl none

/-- The samples of haptic stream data. -/
def hapticSamples (data : List Byte) : List Int := (chunks 2 (data.length / 2) data).map fun b => signed 16 (leNat b)

/-- One audio sample of its bytes (R317). -/
def audioSample (b : List Byte) : Int := if b.length = 2 then signed 16 (leNat b) * 256 else signed 24 (leNat b % 2 ^ 24)

/-- The frames of audio stream data: left and right; a mono frame repeats its sample. -/
def State.audioFrames (s : State) (sl : Nat) (data : List Byte) : List (Int × Int) :=
  let w := if bitAt (s.astWord sl 0) 2 then 4 else 2
  let n := s.streamUnit sl none
  (chunks n (data.length / n) data).map fun b =>
    (audioSample (b.take w), if n = w then audioSample (b.take w) else audioSample (b.drop w))

/-- Stream data have arrived, as samples, or left and right samples in turn (R314; 15_pairs_and_live_insertion.md R430). -/
def State.streamSamples (s : State) (sl : Nat) (ch : Option Nat) (samples : List Int) : State :=
  match ch with
  | some c => s.updHst (hstIdx sl c) fun x =>
      { x with fetched := x.fetched ++ samples, fetchPos := (x.fetchPos + samples.length) % 2 ^ 32, reading := false }
  | none => s.updAst sl fun x =>
      let fs := (chunks 2 (samples.length / 2) samples).map fun p => (intAt p 0, intAt p 1)
      { x with fetched := x.fetched ++ fs, fetchPos := (x.fetchPos + fs.length) % 2 ^ 32, reading := false }

/-- A read of stream data has completed (R314). -/
def State.streamData (s : State) (sl : Nat) (ch : Option Nat) (data : List Byte) : State :=
  let samples := match ch with
    | some _ => hapticSamples data
    | none => (s.audioFrames sl data).flatMap fun f => [f.1, f.2]
  let (pos, _, _) := s.streamFetch sl ch
  let s := s.streamSamples sl ch samples
  let s := s.mirror (.streamData sl ch pos samples)
  s.fetchStream sl ch

/-- A host error on a stream read (R314): fetching stops until the write position is written. -/
def State.streamError (s : State) (sl : Nat) (ch : Option Nat) : State :=
  let s := match ch with
    | some c => (s.updHst (hstIdx sl c) fun x => { x with reading := false, stopped := true }).put (K.hst sl c 7) ⟨23, 23⟩ 1
    | none => s.updAst sl fun x => { x with reading := false, stopped := true }
  s.signal (some sl) 4

/-! ### Writes of stream words -/

/-- The bits of a stream word that a write changes. -/
def hstMask (w : Nat) : Word :=
  match w with
  | 0 => 0xFFFFF01F#32
  | 2 => 0x0003FFFF#32
  | 4 => 0#32
  | 7 => 0#32
  | _ => 0xFFFFFFFF#32
def astMask (w : Nat) : Word :=
  match w with
  | 0 => 0xFFFFFF07#32
  | 2 => 0x0000FFFF#32
  | 4 => 0#32
  | 7 => 0x0000FFFF#32
  | _ => 0xFFFFFFFF#32

/-- A read is for a stream. -/
def ReadFor.isStream (sl : Nat) (ch : Option Nat) : ReadFor → Bool
  | .haptic t c _ => t == sl && ch == some c
  | .audio t _ => t == sl && ch == none
  | _ => false

/-- Enable was set: the read position takes the write position, nothing is fetched, and the data of earlier reads are not
wanted (R314). -/
def State.streamEnabled (s : State) (sl : Nat) (ch : Option Nat) : State :=
  let w := s.num (K.stream sl ch 3)
  let s := (s.wrN (K.stream sl ch 4) w).cancelReads (ReadFor.isStream sl ch)
  let s := match ch with
    | some c => s.updHst (hstIdx sl c) fun x =>
        { x with fetched := [], fetchPos := w, begun := false, stopped := false, reading := false }
    | none => s.updAst sl fun x => { x with fetched := [], fetchPos := w, begun := false, stopped := false, reading := false }
  s.setStreamLow sl ch (0 < s.streamMark sl ch)

/-- The audio stream starts to fade out of the mix; its fetching stops (R315, R318; 03_slices.md R107). -/
def State.audioFade (s : State) (sl : Nat) : State :=
  if (s.astSt sl).inMix then s.updAst sl fun x => { x with fading := true } else s

/-- Enable was cleared: a haptic play ends at the next loop tick, an audio stream fades (R296, R318). -/
def State.streamDisabled (s : State) (sl : Nat) (ch : Option Nat) : State :=
  match ch with
  | some c => (s.updHst (hstIdx sl c) fun x => { x with begun := false }).endStream sl c (loopAfter s.time)
  | none => (s.audioFade sl).updAst sl fun x => { x with begun := false }

/-- A write of the write position: beyond the ring size ahead of the read position, or behind it, it has no effect (R314). -/
def State.streamAdvance (s : State) (sl : Nat) (ch : Option Nat) (v : Word) : State :=
  if s.streamSize sl ch < (v.toNat + 2 ^ 32 - s.num (K.stream sl ch 4)) % 2 ^ 32 then s
  else
    let s := s.wr (K.stream sl ch 3) v
    let s := match ch with
      | some c => s.updHst (hstIdx sl c) fun x => { x with stopped := false }
      | none => s.updAst sl fun x => { x with stopped := false }
    (s.streamCheck sl ch).fetchStream sl ch

/-- A write of a stream word (R313, R314, R317). -/
def State.putStreamWord (s : State) (sl : Nat) (ch : Option Nat) (w : Nat) (v : Word) : State :=
  if w = 3 then s.streamAdvance sl ch v
  else
    let k := K.stream sl ch w
    let mask := if ch.isSome then hstMask w else astMask w
    let was := s.streamOn sl ch
    let s := s.wr k ((s.rd k &&& ~~~mask) ||| (v &&& mask))
    if w = 0 then
      let on := s.streamOn sl ch
      if on && !was then (s.streamEnabled sl ch).fetchStream sl ch
      else if !on && was then s.streamDisabled sl ch
      else s
    else if w = 7 && ch.isSome && bitAt v.toNat 23 then s.put k ⟨23, 23⟩ 0
    else s

/-- The selected ordinal and word of page 7. -/
def State.hapSel (s : State) (sl : Nat) : Nat × Nat :=
  (s.fld (R.slcHapSel sl) F.slcHapSel_ordinal, s.fld (R.slcHapSel sl) F.slcHapSel_word)

/-- SLC_HAP_SEL.word advances and wraps from 7 to 0. -/
def State.hapSelAdvance (s : State) (sl : Nat) : State := s.put (R.slcHapSel sl) F.slcHapSel_word ((s.hapSel sl).2 + 1)

/-- A write of SLC_HAP_DATA. -/
def doHapData (sl : Nat) (v : Word) (s : State) : State :=
  let (o, w) := s.hapSel sl
  (if (s.globalOf sl 5 o).isSome then s.putStreamWord sl (some o) w v else s).hapSelAdvance sl

/-- A read of SLC_HAP_DATA; underruns are cleared by the read. -/
def readHapData (sl : Nat) (s : State) : Word × State :=
  let (o, w) := s.hapSel sl
  if (s.globalOf sl 5 o).isSome then
    let k := K.hst sl o w
    (s.rd k, (if w = 7 then s.put k ⟨15, 0⟩ 0 else s).hapSelAdvance sl)
  else (0#32, s.hapSelAdvance sl)

/-- The selected word of page 8, and its advance. -/
def State.audSel (s : State) (sl : Nat) : Nat := s.fld (R.slcAudSel sl) F.slcAudSel_word
def State.audSelAdvance (s : State) (sl : Nat) : State := s.put (R.slcAudSel sl) F.slcAudSel_word (s.audSel sl + 1)

/-- A write and a read of SLC_AUD_DATA. -/
def doAudData (sl : Nat) (v : Word) (s : State) : State := (s.putStreamWord sl none (s.audSel sl) v).audSelAdvance sl
def readAudData (sl : Nat) (s : State) : Word × State := (s.rd (K.ast sl (s.audSel sl)), s.audSelAdvance sl)

/-- SLC_AUD_STATUS. -/
def State.audStatusWord (s : State) (sl : Nat) : Word :=
  let x := s.astSt sl
  w32 (b2n x.inMix * 2 ^ 31 + b2n x.starved * 2 ^ 30 + s.fld (R.slcAudStatus sl) F.slcAudStatus_underruns)

/-- A write and a read of AUD_ROUTE_DATA. -/
def State.routeAdvance (s : State) : State := s.put R.audRouteSel F.audRouteSel_stream (s.fld R.audRouteSel F.audRouteSel_stream + 1)
def doRouteData (v : Word) (s : State) : State :=
  (s.wr (K.route (s.fld R.audRouteSel F.audRouteSel_stream)) (v &&& 0xFFFF9F70#32)).routeAdvance
def readRouteData (s : State) : Word × State := (s.rd (K.route (s.fld R.audRouteSel F.audRouteSel_stream)), s.routeAdvance)

/-- AUD_ACTIVE. -/
def State.audActiveWord (s : State) : Word := w32 (s.ast.filter fun e => e.2.inMix).length

/-! ### The haptic stream-sample tick (R306) -/

/-- One haptic stream at a stream-sample tick. -/
def State.hapticSample (s : State) (sl c : Nat) : State :=
  let x := s.hstSt (hstIdx sl c)
  if !s.streamOn sl (some c) then s
  else
    match x.fetched with
    | [] =>
      if x.begun then (s.count (K.hst sl c 7) ⟨15, 0⟩).endStream sl c s.loopTick else s
    | v :: rest =>
      if !x.begun && s.now < s.streamStart sl (some c) then s
      else
        let s := s.updHst (hstIdx sl c) fun x => { x with fetched := rest, begun := true }
        let s := s.wrN (K.hst sl c 4) (s.hstWord sl c 4 + 1)
        let s := (s.streamCheck sl (some c)).fetchStream sl (some c)
        match s.globalOf sl 5 c with
        | none => s
        | some n =>
          let y := s.chan n
          let mine := match y.play with
            | some p => p.req.src == .stream && p.req.owner == sl && p.req.ord == c
            | none => false
          if y.mode == .playing && mine then s.setChan n { y with streamTarget := v }
          else
            s.makeStart n { src := .stream, owner := sl, ownerSlice := true, prio := bitsOf (s.hstWord sl c 2) 17 16, level := 0,
                            effect := unsigned 16 v, ord := c, due := s.loopTick }

/-- A sample of every haptic stream that is on, of every slice that is not UNBOUND. -/
def State.hapticSamples (s : State) : State :=
  s.each (List.range 256) fun s sl =>
    if (s.slice sl).st == .unbound then s
    else s.each ((List.range 8).filter fun c => s.streamOn sl (some c) && (s.globalOf sl 5 c).isSome) fun s c => s.hapticSample sl c

/-- STREAM_SAMPLE_TICK: the next stream-sample tick (R306; 01_the_w880_at_a_glance.md R30). -/
def doStreamSampleTick (s : State) : State :=
  if !s.audTicks then s
  else
    let t := nextGrid 125000 s.ticks.2.2.1 s.time
    State.hapticSamples { s.at t with ticks := (s.ticks.1, s.ticks.2.1, t, s.ticks.2.2.2) }

/-! ### Sound (R318) -/

/-- The gain that a stream moves toward. -/
def State.gainTarget (s : State) (sl : Nat) : Int :=
  if (s.astSt sl).fading then 0
  else (((bitsOf (s.astWord sl 2) 15 0 * bitsOf (s.num (K.route sl)) 31 16 + 16384) / 32768 : Nat) : Int)

/-- The gain of a stream at the next sample tick: linear over 48 ticks (R318). -/
def AstSt.moveGain (x : AstSt) (target : Int) : AstSt :=
  let x := if target = x.gainTo then x else { x with gain0 := x.gain, gainTo := target, step := 0 }
  if x.step < 48 then
    let j := x.step + 1
    { x with step := j, gain := x.gain0 + ((x.gainTo - x.gain0) * (j : Nat)).tdiv 48 }
  else x

/-- A stream enters the mix at gain 0. -/
def AstSt.enterMix (x : AstSt) : AstSt := { x with inMix := true, gain := 0, gain0 := 0, gainTo := 0, step := 48, fading := false }

/-- The slice may be heard: it runs (R315). -/
def State.audioRuns (s : State) (sl : Nat) : Bool :=
  s.streamOn sl none && s.granted sl 6 0 && (s.slice sl).st == .bound

/-- One audio stream at a sample tick: its frame for the mixer, if it gives one (R318). -/
def State.audioStep (s : State) (sl : Nat) : Option (Int × Int) × State :=
  let x := s.astSt sl
  let runs := s.audioRuns sl
  let s := if x.inMix && !runs then s.audioFade sl else s
  let two := bitAt (s.astWord sl 0) 1
  let s := if runs && !x.fading then s.updAst sl fun x => { x with stereo := two } else s
  let begins := runs && !x.begun && s.streamStart sl none ≤ s.now
  let s := if begins then s.updAst sl fun x => { x with begun := true } else s
  let x := s.astSt sl
  if !x.begun && !x.inMix then (none, s)
  else
    let (frame, s) := match x.fetched with
      | [] =>
        (none, (if s.streamOn sl none && x.begun then s.count (R.slcAudStatus sl) F.slcAudStatus_underruns else s).updAst sl fun x =>
          { x with starved := true })
      | f :: rest =>
        let s := s.updAst sl fun x =>
          let y := { x with fetched := rest, starved := false }
          if !x.fading && runs && (!x.inMix || x.starved) then y.enterMix else y
        ((some f : Option (Int × Int)),
          if s.streamOn sl none && x.begun then ((s.wrN (K.ast sl 4) (s.astWord sl 4 + 1)).streamCheck sl none).fetchStream sl none else s)
    if !(s.astSt sl).inMix then (none, s)
    else
      let g := s.gainTarget sl
      let s := s.updAst sl fun x => x.moveGain g
      let y := s.astSt sl
      let s := if y.fading && y.step = 48 then s.updAst sl fun x => { x with inMix := false, fading := false, begun := false } else s
      (frame.map fun f => (sar (f.1 * y.gain + 16384) 15, sar (f.2 * y.gain + 16384) 15), s)

/-- The contributions of a stream: port, slot, value (R318). -/
def State.contributions (s : State) (sl : Nat) (f : Int × Int) : List (Nat × Nat × Int) :=
  let w := s.num (K.route sl)
  if !bitAt w 15 then []
  else
    let port := bitsOf w 12 11
    if (s.astSt sl).stereo then [(port, bitsOf w 10 8, f.1), (port, bitsOf w 6 4, f.2)] else [(port, bitsOf w 10 8, f.1)]

/-- The slots of a port from the contributions, clamped, with the number of clamped ones (R318). -/
def mixPort (cs : List (Nat × Nat × Int)) (p : Nat) : List Int × Nat :=
  let sums := (List.range 8).map fun k => ((cs.filter fun c => c.1 == p && c.2.1 == k).map fun c => c.2.2).sum
  let outs := sums.map (clampI (-8388608) 8388607)
  (outs, ((sums.zip outs).filter fun e => e.1 != e.2).length)

/-- A TDM port. -/
def State.tdmSt (s : State) (p : Nat) : TdmSt := Tab.get {} s.tdm p
def State.updTdm (s : State) (p : Nat) (f : TdmSt → TdmSt) : State := { s with tdm := Tab.upd {} s.tdm p f }

/-- The port sends: enabled, its clocks on, the module drives the ports, no AUD loss, bank B supplied
(R319; 15_pairs_and_live_insertion.md R417; 16_power_resets_and_start_up.md R479). -/
def State.tdmSends (s : State) (p : Nat) : Bool :=
  s.enabled (pageBase 0x72 p) && s.clocked 0x72 p && !s.secondary && s.pllOk 2 && !s.bankFault true

/-- The 32 bits of a slot, the bit of its first bit clock in [31]: the 24-bit sample, most significant bit first, then 8 zero
bits (R319). -/
def slotWord (v : Int) : Word := w32 (unsigned 24 v * 256)

/-- The slots of a frame: an undriven one is high impedance (AUD_TDM_SLOTS). -/
def State.tdmSlots (s : State) (p : Nat) (l : List Int) : List (Option Word) :=
  (List.range 8).map fun k => if bitAt (s.num (R.audTdmSlots p)) k then some (slotWord (intAt l k)) else none

/-- A sample tick of one port: a master sends what was mixed at the tick before (R319). -/
def State.tdmTick (s : State) (p k : Nat) (mixed : List Int) (clips : Nat) : State :=
  let x := s.tdmSt p
  let s := if s.tdmSends p && s.flag (R.audTdmCtrl p) F.audTdmCtrl_master then s.emit (.tdmFrame p (s.tdmSlots p x.mixed)) else s
  let s := s.count (R.audTdmClip p) F.audTdmClip_n clips
  s.updTdm p fun x => { x with prev := x.mixed, mixed := mixed, mixTick := k }

/-- The mixer's clocks run (14_clock_generation.md R402). -/
def State.mixes (s : State) : Bool := s.clocked 0x71 0

/-- The frames that the audio streams give at a sample tick. -/
def State.audioSteps (s : State) : List (Nat × Nat × Int) × State :=
  (List.range 256).foldl (fun q sl =>
    let (f, s) := q.2.audioStep sl
    ((match f with | some f => q.1 ++ s.contributions sl f | none => q.1), s)) ([], s)

/-- The audio stream words of a slice that was reset return to their reset values: the fade has begun (R315). -/
def State.clearAudWords (s : State) (sl : Nat) : State :=
  (s.resetKeys fun k => K.ast sl 0 ≤ k && k < K.ast sl 8).updSlice sl fun x => { x with audWords := false }
def State.clearAudAll (s : State) : State := s.each (below 256 fun sl => (s.slice sl).audWords) State.clearAudWords

/-- What a slice's reset has still to clear of its stream words. -/
def State.clearStreamWords (s : State) (sl : Nat) : State :=
  let s := if (s.slice sl).hapWords then s.clearHapWords sl else s
  if (s.slice sl).audWords then s.clearAudWords sl else s

/-- The ports at sample tick `k`: what the streams give is mixed and sent. -/
def State.mixTick (s : State) (k : Nat) : State :=
  let q := s.audioSteps
  (q.2.each (List.range 4) fun s p => s.tdmTick p k (mixPort q.1 p).1 (mixPort q.1 p).2).clearAudAll

/-- SAMPLE_TICK: the next sample tick (R318, R319; 01_the_w880_at_a_glance.md R30). -/
def doSampleTick (s : State) : State :=
  if !s.audTicks then s
  else
    let k := nextSample s.ticks.2.2.2 s.time
    let s := { s.at (sampleTime k) with ticks := (s.ticks.1, s.ticks.2.1, s.ticks.2.2.1, k) }
    let s := if s.perCoasts then s.timeUncertain else s
    if s.mixes then s.mixTick k else s

/-- TDM_FRAME_SYNC: a slave port starts a frame with the samples mixed at the last tick at least 10.4 µs ago; a repeated or a
dropped frame counts as a slip (R319). -/
def doTdmSync (p : Nat) (s : State) : State :=
  if s.flag (R.audTdmCtrl p) F.audTdmCtrl_master || !s.enabled (pageBase 0x72 p) then s
  else
    let x := s.tdmSt p
    let new := sampleTime x.mixTick + 10400 ≤ s.time
    let k := if new then x.mixTick else x.mixTick - 1
    let s := if x.sentTick != 0 && k != x.sentTick + 1 && !x.lost then s.count (R.audTdmSlips p) F.audTdmSlips_n else s
    let s := s.updTdm p fun x => { x with sentTick := k, lost := false }
    if s.tdmSends p then s.emit (.tdmFrame p (s.tdmSlots p (if new then x.mixed else x.prev))) else s

/-- TDM_CLOCK_LOST: a slave port without its clocks for 2 frame periods (R319). -/
def doTdmLost (p : Nat) (s : State) : State :=
  if s.flag (R.audTdmCtrl p) F.audTdmCtrl_master || !s.enabled (pageBase 0x72 p) then s
  else (s.setF (R.audTdmCtrl p) F.audTdmCtrl_clock_lost).updTdm p fun x => { x with lost := true }

/-! ### A slice's streams at a reset or the loss of a permission -/

/-- The streams of a slice end at a reset: no further sample is fetched or taken, the audio stream fades from the gain it has,
and the words are to return to their reset values when braking and the fade begin (R315; 03_slices.md R107). -/
def State.resetStreams (s : State) (sl : Nat) : State :=
  let s := (s.audioFade sl).updAst sl fun x =>
    { x with fetched := if x.inMix then x.fetched else [], begun := false, reading := false, stopped := false, low := false }
  let s := { s with hst := s.hst.filter fun e => e.1 / 8 != sl }
  s.updSlice sl fun x => { x with hapWords := true, audWords := true }

end Sys2Proof.Machine
end

