-- ==== Sys2Proof/Machine/Slices.lean ====
section
/-!
DEFINITION. Slices: grants and permissions, binding, reset, freeze and thaw, the dirty log's registers
(03_slices.md R94 to R116, R122).
-/

namespace Sys2Proof.Machine

/-! ### States and reads of the slice registers (R96 to R98) -/

/-- The code of a slice state (R96). -/
def SliceState.code : SliceState → Nat
  | .unbound => 0
  | .bound => 1
  | .freezing => 2
  | .frozen => 3
  | .resetting => 4
  | .detached => 5

/-- Set SLC_ADM_STATUS.last_error. -/
def State.lastError (s : State) (sl e : Nat) : State := s.put (R.slcAdmStatus sl) F.slcAdmStatus_last_error e

/-- SLC_STATE as read. -/
def State.slcStateWord (s : State) (sl : Nat) : Word := w32 (s.slice sl).st.code

/-- SLC_ADM_STATUS as read. -/
def State.admStatusWord (s : State) (sl : Nat) : Word :=
  w32 (min 64 (s.space sl).heldRecs.length * 2 ^ 16 + s.fld (R.slcAdmStatus sl) F.slcAdmStatus_last_error * 2 ^ 8 +
    (s.slice sl).st.code)

/-- The number of ordinals of a kind in use (R102). -/
def State.grantCount (s : State) (sl kind : Nat) : Nat :=
  ((s.slice sl).ords.filter fun e => e.1 / 256 == kind && e.2.isSome).length

/-- SLC_GRANT_COUNTS_A and SLC_GRANT_COUNTS_B as read. -/
def State.countsAWord (s : State) (sl : Nat) : Word :=
  w32 (s.grantCount sl 1 * 2 ^ 24 + s.grantCount sl 3 * 2 ^ 16 + s.grantCount sl 2 * 2 ^ 8)
def State.countsBWord (s : State) (sl : Nat) : Word :=
  w32 (s.grantCount sl 6 * 2 ^ 12 + s.grantCount sl 5 * 2 ^ 8 + s.grantCount sl 4 * 2 ^ 4 + s.grantCount sl 0)

/-- SLC_GRANT_QUERY as read (R102). -/
def State.grantQueryWord (s : State) (sl : Nat) : Word :=
  let kind := s.fld (R.slcGrantQuery sl) F.slcGrantQuery_kind
  let ord := s.fld (R.slcGrantQuery sl) F.slcGrantQuery_ordinal
  let g := s.globalOf sl kind ord
  let out := match kind, g with
    | 1, some n => s.outOrdinal sl (s.slotOut n)
    | 3, some n => s.outOrdinal sl (regionOut n)
    | _, _ => 0xF
  w32 (kind * 2 ^ 28 + b2n g.isSome * 2 ^ 27 + out * 2 ^ 20 + ord)

/-- SLC_ADM_MAP as read (R102). -/
def State.admMapWord (s : State) (sl : Nat) : Word :=
  let kind := s.fld (R.slcAdmMap sl) F.slcAdmMap_kind
  let ord := s.fld (R.slcAdmMap sl) F.slcAdmMap_ordinal
  let g := s.globalOf sl kind ord
  w32 (kind * 2 ^ 28 + g.getD 0 * 2 ^ 16 + b2n g.isSome * 2 ^ 15 + ord)

/-! ### Grants and withdrawals (R101 to R105) -/

/-- The page of an owned block: LAYER, CVU or CSR. -/
def ownedPage (kind n : Nat) : Nat := pageBase (if kind = 1 then 0x42 else if kind = 2 then 0x50 else 0x51) n

/-- The number of blocks of an owned kind. -/
def ownedCount (kind : Nat) : Nat := if kind = 1 then 64 else if kind = 2 then 32 else 128

/-- A grant or a withdrawal is counted, and told to the slice (R105). -/
def State.noteGrant (s : State) (sl change kind ord : Nat) : State :=
  let seq := s.fld (R.slcGrantSeq sl) F.slcGrantSeq_grant_seq + 1
  let s := s.put (R.slcGrantSeq sl) F.slcGrantSeq_grant_seq seq
  match (s.slice sl).st with
  | .unbound => s
  | .resetting => s
  | _ => s.postEvent sl 0x8005 (leBytes 1 change ++ leBytes 1 kind ++ leBytes 1 ord ++ leBytes 1 0 ++ leBytes 2 (seq % 65536))

/-- The lowest ordinal of a kind not in use (R102); `fuel` bounds the search. -/
def State.freeOrdinal (s : State) (sl kind : Nat) : Nat → Nat → Nat
  | 0, i => i
  | fuel + 1, i => if (s.globalOf sl kind i).isNone then i else State.freeOrdinal s sl kind fuel (i + 1)

/-- A grant: the block takes the lowest ordinal not in use (R102, R105). -/
def State.grant (s : State) (sl kind global : Nat) : State :=
  let i := s.freeOrdinal sl kind 128 0
  let s := s.updSlice sl fun x => { x with ords := Tab.set none x.ords (K.ord kind i) (some global) }
  s.noteGrant sl 1 kind i

/-- The contacts of an owner on a panel pass to nobody (R107). -/
def State.orphan (s : State) (n owner : Nat) : State :=
  s.updPanel n fun x => { x with contacts := x.contacts.map fun e =>
    (e.1, e.2.map fun c => if c.owner = owner then { c with owner := 257 } else c) }

/-- A check-value unit stops at once: what feeds it ends with NOT_GRANTED, detail 0x22, and its registers take their reset
values (R104; 08_check_values_core_samples_and_floor_images.md R240). -/
def State.stopUnit (s : State) (u : Nat) : State :=
  let s := match s.cvFeed u with
    | .idle => s
    | .haul sp h => (match s.xfer sp h with | some x => s.failXfer x 0x1003 0x22 | none => s)
    | .seed sp h => (match s.xfer sp h with | some x => s.failXfer x 0x1003 0x22 | none => s)
  s.cvReset u

/-- Both images of a slot go: the shadow image now, the latched one at its tick (R104; 06_layer_composition.md R187;
07_scanout_and_display_links.md R506). -/
def State.withdrawSlot (s : State) (n : Nat) : State :=
  (s.updLayer n fun x => { x with shadow := [] }).askRemoval (s.slotOut n) (.layer n)

/-- A commit without an image of a region. -/
def Commit.strip (n : Nat) (c : Commit) : Commit := { c with regions := c.regions.filter fun e => e.1 != n }

/-- No commit in progress latches an image of a region that its owner loses (08_check_values_core_samples_and_floor_images.md
R243). -/
def State.stripRegion (s : State) (n : Nat) : State :=
  let entry (e : Entry) : Entry := match e with | .commit c => .commit (c.strip n) | .share w => .share w
  s.updOut (regionOut n) fun x => { x with
    queue := x.queue.map entry, check := x.check.map entry, fenced := x.fenced.map (Commit.strip n),
    accepted := x.accepted.map (Commit.strip n), deferred := x.deferred.map (Commit.strip n),
    restored := x.restored.map (Commit.strip n) }

/-- Both images of a region go (R104; 08_check_values_core_samples_and_floor_images.md R243). -/
def State.withdrawRegion (s : State) (n : Nat) : State :=
  ((s.clearRegionShadow n).stripRegion n).askRemoval (regionOut n) (.region n true)

/-- The effects of a withdrawal on running work (R104). -/
def State.withdrawWork (s : State) (sl kind n : Nat) : State :=
  match kind with
  | 0 => (s.endCommits n (fun c => c.owner == sl) 0x1003 0).askRemoval n (.sliceLayers sl)
  | 1 =>
    let s := s.each (List.range 8) fun s o => s.endCommits o (fun c => c.owner == sl && c.coversSlot n) 0x1003 1
    s.withdrawSlot n
  | 2 => s.stopUnit n
  | 3 => s.withdrawRegion n
  | 4 => (s.orphan n sl).removeBindings sl (some n)
  | 5 => s.withdrawHaptic n sl true .all
  | _ => s.audioFade sl

/-- A withdrawal: effects on running work, the ordinal is free again, the count and the record (R102, R104, R105). -/
def State.withdraw (s : State) (sl kind global : Nat) : State :=
  match s.ordinalOf sl kind global with
  | none => s
  | some i =>
    let s := s.withdrawWork sl kind global
    let s := s.updSlice sl fun x => { x with ords := Tab.set none x.ords (K.ord kind i) none }
    s.noteGrant sl 2 kind i

/-- The kind and number of an owned block by its page. -/
def ownedKind (ty : Nat) : Option Nat :=
  if ty = 0x42 then some 1 else if ty = 0x50 then some 2 else if ty = 0x51 then some 3 else none

/-- PAGE_OWNER's owner fields. -/
def State.setOwner (s : State) (pg kind sl : Nat) : State :=
  (s.put (pg + 0x1C) ⟨9, 8⟩ kind).put (pg + 0x1C) ⟨7, 0⟩ sl

/-- A write of PAGE_OWNER by the host management driver (R103). -/
def doPageOwner (r : Req) (pg : Nat) (v : Word) (s : State) : State :=
  match pageAt pg with
  | none => s
  | some (ty, inst) =>
    match ownedKind ty with
    | none => s
    | some kind =>
      let new := bitsOf v.toNat 9 8
      let sl := bitsOf v.toNat 7 0
      let old := s.ownerKind pg
      if !r.isHost || (kind == 2 && 28 ≤ inst) || s.pageWorld1 pg then s
      else if old = 0 && new = 2 && !s.ownerLock pg && !s.worldLock pg then (s.setOwner pg 2 sl).grant sl kind inst
      else if old = 0 && new = 1 && !s.ownerLock pg && !s.worldLock pg then s.setOwner pg 1 0
      else if old = 2 && new = 0 && !s.ownerLock pg then
        (s.withdraw (s.ownerSlice pg) kind inst).setOwner pg 0 0
      else if old = 1 && new = 0 && !s.ownerLock pg then
        (if kind = 2 then s.stopUnit inst else s).setOwner pg 0 0
      else s

/-- The kind and number that a bit of SLC_ADM_PERM stands for. -/
def permBlock (sl i : Nat) : Nat × Nat :=
  if i < 8 then (0, i) else if i < 16 then (4, i - 8) else if i < 24 then (5, i - 16) else (6, sl)

/-- A write of SLC_ADM_PERM: one grant or withdrawal per changed bit, in ascending order (R105). -/
def doAdmPerm (sl : Nat) (v : Word) (s : State) : State :=
  s.each (List.range 25) fun s i =>
    let old := bitAt (s.num (R.slcAdmPerm sl)) i
    let new := bitAt v.toNat i
    let (kind, n) := permBlock sl i
    if old = new then s
    else
      let s := s.put (R.slcAdmPerm sl) ⟨i, i⟩ (b2n new)
      if new then s.grant sl kind n else s.withdraw sl kind n

/-! ### Bind (R97, R99) -/

/-- Another slice is bound to a PASID (R99). -/
def State.pasidTaken (s : State) (sl : Nat) (p : BitVec 20) : Bool :=
  s.slices.any fun e => e.1 != sl && e.2.st != .unbound && e.2.pasid == p

/-- BIND (R99). -/
def doBind (sl : Nat) (s : State) : State :=
  let p := BitVec.ofNat 20 (s.fld (R.slcAdmPasid sl) F.slcAdmPasid_pasid)
  if (s.slice sl).st != .unbound then s.lastError sl 1
  else if p = 0#20 then s.lastError sl 2
  else if s.pasidTaken sl p then s.lastError sl 3
  else (s.updSlice sl fun x => { x with st := .bound, pasid := p }).lastError sl 0

/-- SLC_ADM_PASID is writable only while UNBOUND. -/
def doAdmPasid (sl : Nat) (v : Word) (s : State) : State :=
  if (s.slice sl).st = .unbound then s.plainWrite (R.slcAdmPasid sl) v else s

/-! ### Reset (R106 to R109) -/

/-- The space, a slice or 256, that a read of host memory belongs to. -/
def ReadFor.space : ReadFor → Nat
  | .entry sp => sp
  | .segment sp _ _ => sp
  | .haptic sl _ _ => sl
  | .audio sl _ => sl

/-- Insert a record by its handle index. -/
def insertRec (r : Rec) : List Rec → List Rec
  | [] => [r]
  | q :: t => if handleIndex r.handle < handleIndex q.handle then r :: q :: t else q :: insertRec r t

/-- The records of a reset in the order in which they are written: completion records in ascending handle index, then held
event records (R108). -/
def resetOrder (l : List Rec) : List Rec :=
  ((l.filter fun r => !r.event).foldl (fun acc r => insertRec r acc) []) ++ l.filter fun r => r.event

/-- Every command in progress of a space ends with a status; its record is held (R107). -/
def State.abortCmds (s : State) (sp status : Nat) : State :=
  let x := s.space sp
  let recs := (x.cmds.filter (·.inProgress)).map fun c =>
    ({ handle := c.handle, status := status, opcode := c.op, event := false, time := s.now, result := [],
       noInt := c.noInt } : Rec)
  s.setSpace sp { x with
    cmds := x.cmds.map fun c => if c.inProgress then { c with phase := .held } else c,
    heldRecs := x.heldRecs ++ recs }

/-- The command page of a space returns to its reset values; no handle is outstanding, the cursor is 0 (R108;
02_host_interface.md R77). -/
def State.clearSpace (s : State) (sp : Nat) : State :=
  let pg := pageOf (R.cmdOp sp)
  (s.setSpace sp { gens := (s.space sp).gens }).resetKeys fun a => pageOf a == pg

/-- The slice's records of a reset are written or dropped: its command page is cleared (R108). -/
def State.settleReset (s : State) (sl : Nat) : State :=
  if (s.slice sl).st = .resetting && (s.space sl).heldRecs.isEmpty then s.clearSpace sl else s

/-- Every surface of the slice is released (R107; 04_surfaces_and_haul.md R154). -/
def State.releaseSurfaces (s : State) (sl : Nat) : State :=
  s.each (s.surfacesOf sl) fun s x => ((s.putSurface sl x.ident none).markFreed sl x.ident).retireAll sl x.ident

/-- The transfers of a space end without a record. -/
def State.dropXfers (s : State) (sp : Nat) : State :=
  s.each (s.haul.xfers.filter fun x => x.sp == sp) fun s x => s.dropXfer x

/-- A capture or restore of the slice that is in progress ends (R109). -/
def State.abortMigration (s : State) (sl status : Nat) : State :=
  s.each ((s.space 256).cmds.filter fun c => c.inProgress && (c.op == 0x10 || c.op == 0x11) && argOf c.words 0 % 256 == sl)
    fun s c => match s.xfer 256 c.handle with
      | some x => s.failXfer x status 0
      | none => s.fail 256 c.handle status 0

/-- The slice's layers and regions leave the outputs at their ticks; the reset awaits those of the outputs that show a layer of
it (R107, R109; 07_scanout_and_display_links.md R506). -/
def State.removeLayers (s : State) (sl : Nat) : State :=
  let slots := below 64 fun n => s.ownedBy (lyrPage n) sl
  let s := s.each slots fun s n => s.updLayer n fun x => { x with shadow := [] }
  let held (o : Nat) (p : LyrSt → Bool) : Bool :=
    (List.range 64).any fun n => s.slotOut n == o && (s.layer n).owner == sl && p (s.layer n)
  let shown := below 8 fun o => held o fun x => imgOn x.latched
  let outs := below 8 fun o => held o fun _ => true
  let s := s.updSlice sl fun x => { x with awaits := shown }
  let s := s.each outs fun s o => s.askRemoval o (.sliceLayers sl)
  s.each (below 128 fun n => s.ownedBy (regionPage n) sl) State.withdrawRegion

/-- A slice leaves FREEZING for another state than FROZEN: the page event of R97. -/
def State.leaveFreezing (s : State) (sl : Nat) : State :=
  if (s.slice sl).st = .freezing then s.event 0x20 sl 0 else s

/-- A slice enters RESETTING: its records are dropped where the reset says so or nothing takes them, nothing of it is held or
awaited, and the data of its reads in flight is discarded (R106, R107). -/
def State.enterReset (s : State) (sl : Nat) (unbinding discard : Bool) : State :=
  let s := s.leaveFreezing sl
  let discard := discard || (s.slice sl).st == .detached || !s.hif.linkUp || !s.cqOn sl
  let s := s.updSlice sl fun x => { x with
    st := .resetting, unbinding := unbinding, discard := discard, waiting := [], restored := false, relatch := [],
    latchedAll := true, round := 0 }
  let s := s.clrF (R.slcAdmDlogCtrl sl) F.slcAdmDlogCtrl_stalled
  s.cancelReads fun u => u.space == sl

/-- What a slice in RESETTING has in the station ends with a status (R107). -/
def State.endWork (s : State) (sl status : Nat) : State :=
  let discard := (s.slice sl).discard
  let s := s.abortCmds sl status
  let s := s.dropXfers sl
  let s := s.abortMigration sl status
  let s := s.updHaul fun h => { h with credit := Tab.set 0 h.credit sl 0,
                                       mirrorWait := h.mirrorWait.filter fun e => e.1 ≠ sl }
  let s := s.each (List.range 8) fun s o => s.endCommits o (fun c => c.owner == sl) status 0
  let s := (s.removeLayers sl).releaseSurfaces sl
  let s := s.each (List.range 8) fun s n => (s.orphan n sl).withdrawHaptic n sl true .notReflex
  let s := (s.removeBindings sl none).resetStreams sl
  let s := s.each (below 28 fun u => s.ownedBy (pageBase 0x50 u) sl) State.cvReset
  let x := s.space sl
  let s := s.setSpace sl { x with heldRecs := if discard || s.secondary then [] else resetOrder x.heldRecs }
  (s.flush sl).settleReset sl

/-- A slice reset takes effect: what ends at its instant (R106 to R108). `status` is the status of the commands it ends. -/
def State.startReset (s : State) (sl : Nat) (unbinding discard : Bool) (status : Nat) : State :=
  (s.enterReset sl unbinding discard).endWork sl status

/-- Every grant and permission of a slice is withdrawn (R100, R105). -/
def State.withdrawAll (s : State) (sl : Nat) : State :=
  let s := s.each [1, 2, 3] fun s kind =>
    s.each (below (ownedCount kind) fun n => s.ownedBy (ownedPage kind n) sl) fun s n =>
      (s.withdraw sl kind n).setOwner (ownedPage kind n) 0 0
  doAdmPerm sl 0#32 s

/-- The registers that UNBIND returns to their reset values (R100). -/
def State.unbindRegs (s : State) (sl : Nat) : State :=
  s.resetKeys fun a => a == R.slcAdmRes sl || a == R.slcAdmMig sl || (R.slcAdmDlogBaseLo sl ≤ a && a ≤ R.slcAdmDlogStalls sl)

/-- Braking or the fade of a reset slice's streams has still to begin, at the next loop or sample tick
(10_haptic_and_acoustic_feedback.md R315): the state leaves RESETTING after it, within the 2 ms that R109 allows (log 104). -/
def State.streamsEnding (s : State) (sl : Nat) : Bool :=
  s.audTicks && ((s.slice sl).hapWords || ((s.slice sl).audWords && s.mixes))

/-- No request that carries the slice's PASID is outstanding, its records are out, its layers are gone (R109). -/
def State.resetOver (s : State) (sl : Nat) : Bool :=
  (s.slice sl).st == .resetting && !(s.hif.reads.any fun r => r.use.space == sl) && (s.space sl).heldRecs.isEmpty &&
    (s.slice sl).awaits.isEmpty && !s.streamsEnding sl

/-- The end of an unbind: grants go, the registers clear, the state is UNBOUND (R100). -/
def State.finishUnbind (s : State) (sl : Nat) : State :=
  let s := (s.withdrawAll sl).unbindRegs sl
  s.setSlice sl { ords := (s.slice sl).ords }

/-- RESET_END: the state leaves RESETTING (R97, R100, R109). -/
def doResetEnd (sl : Nat) (s : State) : State :=
  if s.resetOver sl then
    let s := s.clearStreamWords sl
    let s :=
      if (s.slice sl).unbinding then s.finishUnbind sl
      else s.updSlice sl fun x => { x with st := .bound, discard := false }
    s.event 0x20 sl 0
  else s

/-- RESET and UNBIND are allowed in a state (R97). -/
def SliceState.resettable : SliceState → Bool
  | .bound => true
  | .freezing => true
  | .frozen => true
  | .detached => true
  | _ => false

/-- RESET (R106, R107): a frame tick of its instant comes first. -/
def doReset (sl : Nat) (discard : Bool) (s : State) : State :=
  let s := s.dueFrames
  if (s.slice sl).st.resettable then (s.startReset sl false discard 0x6001).lastError sl 0 else s.lastError sl 1

/-- Some owned block granted to the slice has its owner lock set (R100). -/
def State.grantLocked (s : State) (sl : Nat) : Bool :=
  [1, 2, 3].any fun kind => (List.range (ownedCount kind)).any fun n =>
    s.ownedBy (ownedPage kind n) sl && s.ownerLock (ownedPage kind n)

/-- UNBIND (R100). -/
def doUnbind (sl : Nat) (discard : Bool) (s : State) : State :=
  let s := s.dueFrames
  if !(s.slice sl).st.resettable then s.lastError sl 1
  else if s.grantLocked sl then s.lastError sl 5
  else (s.startReset sl true discard 0x6001).lastError sl 0

/-! ### Freeze and thaw (R111, R112, R122) -/

/-- FREEZE (R111; 10_haptic_and_acoustic_feedback.md R315). -/
def doFreeze (sl : Nat) (s : State) : State :=
  if (s.slice sl).st = .bound then
    ((s.updSlice sl fun x => { x with st := .freezing }).audioFade sl).lastError sl 0
  else s.lastError sl 1

/-- FREEZE_COMPLETE: nothing is in progress, records and log entries are written (R111). -/
def doFreezeComplete (sl : Nat) (s : State) : State :=
  let x := s.space sl
  if (s.slice sl).st = .freezing && !x.cmds.any Cmd.inProgress && x.heldRecs.all (·.event) && (s.slice sl).waiting.isEmpty then
    (s.updSlice sl fun y => { y with st := .frozen }).event 0x20 sl 0
  else s

/-- The slice takes commands and fetches streams again (R112; 10_haptic_and_acoustic_feedback.md R315). -/
def State.resumeSlice (s : State) (sl : Nat) : State := (s.fetchEntry sl).fetchStreams sl

/-- The outputs whose restored configurations wait for the thaw of a slice. -/
def State.restoredOuts (s : State) (sl : Nat) : List Nat :=
  below 8 fun o => (s.out o).restored.any fun c => c.owner == sl

/-- A restored configuration is to latch at the next tick of its output; one whose output has stopped does not (R122). -/
def State.relatchOut (s : State) (sl o : Nat) : State :=
  let x := s.out o
  let (mine, rest) := x.restored.partition fun c => c.owner == sl
  if x.gen = .running then
    let mine := mine.map fun c => { c with acc := s.time }
    let s := s.setOut o { x with restored := rest,
                                 accepted := if s.inFreeze o then x.accepted else x.accepted ++ mine,
                                 deferred := if s.inFreeze o then x.deferred ++ mine else x.deferred }
    (s.updSlice sl fun y => { y with relatch := y.relatch ++ [o] }).announce o
  else ((s.setOut o { x with restored := rest }).endCommitHolds o sl 0).updSlice sl fun y => { y with latchedAll := false }

/-- THAW (R112, R122). A restored slice stays FROZEN until its configurations have latched. -/
def doThaw (sl : Nat) (s : State) : State :=
  let x := s.slice sl
  if x.st != .frozen then s.lastError sl 1
  else if x.restored then
    let s := (s.each (s.restoredOuts sl) fun s o => s.relatchOut sl o).lastError sl 0
    if (s.slice sl).relatch.isEmpty then (s.finishThaw sl).resumeSlice sl else s
  else
    let s := s.setSlice sl { x with st := .bound, captured := false, firstDone := false, nextRound := 0, round := 0 }
    (((s.flush sl).tellLost sl).resumeSlice sl).lastError sl 0

/-- A write of SLC_ADM_CTRL: the slice commands (R97). -/
def doAdmCtrl (sl : Nat) (v : Word) (s : State) : State :=
  let discard := bitAt v.toNat 8
  match bitsOf v.toNat 3 0 with
  | 1 => doBind sl s
  | 2 => doReset sl discard s
  | 3 => doUnbind sl discard s
  | 4 => doFreeze sl s
  | 5 => doThaw sl s
  | _ => s

/-! ### Migration method (R110) -/

/-- A write of SLC_ADM_MIG (R110). -/
def doAdmMig (sl : Nat) (v : Word) (s : State) : State :=
  if (s.slice sl).st = .bound && !(s.slice sl).captured then s.plainWrite (R.slcAdmMig sl) v else s.lastError sl 4

end Sys2Proof.Machine
end

