-- ==== Sys2Proof/Machine/Window.lean ====
section
/-!
DEFINITION. What reads of a slice window and of the station command page return (03_slices.md R94;
02_host_interface.md R70, R73, R79).
-/

namespace Sys2Proof.Machine

/-- Key of a high word latched by a read of its low word: `who` is 0 for the host, 1 + n for core n. -/
def K.latch (hi who : Nat) : Nat := hi * 8 + who

/-- A read of the low word of a 64-bit count latches its high word (01_the_w880_at_a_glance.md R29). -/
def State.readLow (s : State) (hi who v : Nat) : Word × State :=
  (w32 v, { s with latches := Tab.set 0#32 s.latches (K.latch hi who) (w32 (v / 2 ^ 32)) })

/-- A read of a latched high word. -/
def State.readHigh (s : State) (hi who : Nat) : Word × State := (Tab.get 0#32 s.latches (K.latch hi who), s)

/-- A read of a block register of a command page: of a slice, or of HIF_1 (02_host_interface.md R70). -/
def readCmdPage (sp off : Nat) (s : State) : Word × State :=
  if off = 0x06C then (w32 ((s.space sp).handleState (s.space sp).query), s)
  else s.plainRead (cmdPage sp + off)

/-- SLC_SRF_USE and SLC_SRF_COUNT as read (04_surfaces_and_haul.md R125). -/
def State.srfUseWord (s : State) (sl : Nat) : Word := w32 (s.useOf sl)

/-- SLC_CV_SUMMARY as read: the count of onsets is cleared by the read. -/
def readCvSummary (sl : Nat) (s : State) : Word × State :=
  let (v, t) := s.plainRead (R.slcCvSummary sl)
  (F.slcCvSummary_substituted.put v (min 255 (s.substitutedOf sl)), t)

/-- SLC_AUD_STATUS as read: the count of underruns is cleared by the read. -/
def readAudStatus (sl : Nat) (s : State) : Word × State := (s.audStatusWord sl, s.clearedByRead (R.slcAudStatus sl))

/-- A read of a block register of page `p` of the window of a slice (03_slices.md R94). -/
def readWindow (sl p off : Nat) (s : State) : Word × State :=
  match p, off with
  | 0, o => readCmdPage sl o s
  | 1, 0x040 => (s.slcStateWord sl, s)
  | 1, 0x044 => (s.countsAWord sl, s)
  | 1, 0x048 => (s.countsBWord sl, s)
  | 1, 0x04C => (s.grantQueryWord sl, s)
  | 1, 0x050 => (readFields (fieldsAt 0x20 sl 0x050) (s.rd (R.slcAdmRes sl)), s)
  | 1, 0x058 => s.readLow (R.slcTimeHi sl) 0 s.now
  | 1, 0x05C => s.readHigh (R.slcTimeHi sl) 0
  | 2, 0x040 => (s.srfUseWord sl, s)
  | 2, 0x044 => (s.srfCountWord sl, s)
  | 3, 0x044 => readLyrData sl s
  | 3, 0x04C => (s.lyrInfoWord sl, s)
  | 4, 0x044 => readCvData sl s
  | 4, 0x048 => readCvSummary sl s
  | 6, 0x044 => readRfxData sl s
  | 7, 0x044 => readHapData sl s
  | 8, 0x044 => readAudData sl s
  | 8, 0x048 => readAudStatus sl s
  | p, o => s.plainRead (winPage sl p + o)

/-- The 52 block registers of a window in page and offset order (03_slices.md R94). -/
def windowRegs : List (Nat × Nat) :=
  ((List.range 8).map fun i => (0, 0x040 + 4 * i)) ++
  ([0x060, 0x064, 0x068, 0x06C, 0x080, 0x084, 0x088, 0x08C, 0x090, 0x0A0, 0x0A4, 0x0A8, 0x0AC, 0x0B0, 0x0B4].map
    fun o => (0, o)) ++
  ((List.range 8).map fun i => (1, 0x040 + 4 * i)) ++
  [(2, 0x040), (2, 0x044), (3, 0x040), (3, 0x044), (3, 0x048), (3, 0x04C), (4, 0x040), (4, 0x044), (4, 0x048),
   (5, 0x040), (5, 0x044), (5, 0x048), (5, 0x04C), (6, 0x040), (6, 0x044), (7, 0x040), (7, 0x044), (7, 0x048),
   (8, 0x040), (8, 0x044), (8, 0x048)]

/-- The window's registers that hold state of their own, which a restore writes: not those that show the target's state,
data windows, write-only registers and the handle query. -/
def windowStored : List (Nat × Nat) :=
  windowRegs.filter fun e => !([(0, 0x060), (0, 0x06C), (1, 0x040), (1, 0x044), (1, 0x048), (1, 0x050), (1, 0x058), (1, 0x05C),
    (2, 0x040), (2, 0x044), (3, 0x044), (3, 0x048), (3, 0x04C), (4, 0x044), (6, 0x044), (7, 0x044), (7, 0x048),
    (8, 0x044)] : List (Nat × Nat)).contains e

end Sys2Proof.Machine
end

