-- ==== Sys2Proof/Machine/Migrate.lean ====
section
/-!
DEFINITION. Capture blobs: what SLICE_CAPTURE writes and what SLICE_RESTORE checks and applies (03_slices.md R117 to R122;
06_layer_composition.md R188; 08_check_values_core_samples_and_floor_images.md R256, R257; 09_capacitive_touch.md R295;
10_haptic_and_acoustic_feedback.md R316).
-/

namespace Sys2Proof.Machine

/-! ### Sections (R119) -/

/-- One section: type, item count, body. -/
structure Section_ where
  ty : Nat
  count : Nat
  body : List Byte
deriving DecidableEq, Repr

/-- A section's bytes: its header and its padded body. -/
def Section_.bytes (x : Section_) : List Byte :=
  leBytes 2 x.ty ++ leBytes 2 0 ++ leBytes 4 x.body.length ++ leBytes 4 x.count ++ leBytes 4 0 ++
    padTo (roundUp x.body.length 16) x.body

/-- The ordinals of a kind in use, ascending, with their global numbers. -/
def State.ordsOf (s : State) (sl kind : Nat) : List (Nat × Nat) :=
  (s.slice sl).ords.filterMap fun e => if e.1 / 256 = kind then e.2.map fun g => (e.1 % 256, g) else none

/-- The bitmap of the ordinals of a kind in use, in `n` bytes. -/
def State.ordBitmap (s : State) (sl kind n : Nat) : List Byte :=
  leBytes n ((s.ordsOf sl kind).foldl (fun m e => m + 2 ^ e.1) 0)

/-- The bitmaps of GRANTS, and the active areas of its outputs. -/
def State.grantBits (s : State) (sl : Nat) : List Byte :=
  s.ordBitmap sl 1 8 ++ s.ordBitmap sl 2 4 ++ s.ordBitmap sl 3 16 ++ s.ordBitmap sl 0 1 ++ s.ordBitmap sl 4 1 ++
    s.ordBitmap sl 5 1 ++ s.ordBitmap sl 6 1

/-- GRANTS. -/
def State.secGrants (s : State) (sl : Nat) : Section_ :=
  { ty := 1, count := (s.ordsOf sl 0).length,
    body := s.grantBits sl ++ (s.ordsOf sl 0).flatMap fun e =>
      leBytes 2 (s.timing e.2).ha ++ leBytes 2 (s.timing e.2).va ++ leBytes 4 (s.timing e.2).mHz }

/-- WINDOW. -/
def State.secWindow (s : State) (sl : Nat) : Section_ :=
  { ty := 2, count := 52, body := windowRegs.flatMap fun e => leBytes 4 (readWindow sl e.1 e.2 s).1.toNat }

/-- HANDLES. -/
def State.secHandles (s : State) (sl : Nat) : Section_ :=
  let x := s.space sl
  { ty := 3, count := 4096,
    body := ((List.range 4096).flatMap fun i =>
        leBytes 2 (Tab.get 0 x.gens i + (if x.outstanding.contains i then 0x2000 else 0))) ++
      padTo 16 (leBytes 2 x.cursor) }

/-- The surfaces that a round carries (R120). -/
def State.carried (s : State) (sl : Nat) (first final : Bool) : List Surface :=
  (s.surfacesOf sl).filter fun x =>
    x.cur.isSome && (first || (s.slice sl).dirty.contains x.ident) &&
      (final || !(s.versionsOf sl x.ident).any fun e => e.2.lease == .filling)

/-- SURFACE_TABLE. -/
def secTable (l : List Surface) : Section_ := { ty := 4, count := l.length, body := l.flatMap descriptor }

/-- SURFACE_DATA: the stored bytes as they sit in module DRAM; what a tile-compressed form does not use reads 0
(04_surfaces_and_haul.md R133). -/
def State.secData (s : State) (l : List Surface) : Section_ :=
  { ty := 5, count := l.length,
    body := l.flatMap fun x =>
      let n := storedLen x.fmt x.w x.h
      leBytes 4 x.ident ++ leBytes 4 n ++ leBytes 8 0 ++ s.storedOut (s.versionBase x.cur) x.fmt x.w x.h 0 n }

/-- SURFACES_FREED. -/
def State.secFreed (s : State) (sl : Nat) : Section_ :=
  { ty := 6, count := (s.slice sl).freed.length, body := (s.slice sl).freed.flatMap fun i => leBytes 4 i }

/-- The words of an image. -/
def imgBytes (t : Tab Word) : List Byte := (List.range 272).flatMap fun w => leBytes 4 (imgGet t w).toNat

/-- LAYERS (06_layer_composition.md R188). -/
def State.secLayers (s : State) (sl : Nat) : Section_ :=
  let l := s.ordsOf sl 1
  { ty := 7, count := l.length,
    body := l.flatMap fun e => padTo 2192 (leBytes 4 e.1 ++ imgBytes (s.layer e.2).latched ++ imgBytes (s.layer e.2).shadow) }

/-- The words of a region image. -/
def RegionImg.bytes (i : RegionImg) : List Byte := [0, 1, 2, 3].flatMap fun k => leBytes 4 (i.word k).toNat

/-- CORE_SAMPLES (08_check_values_core_samples_and_floor_images.md R256). -/
def State.secRegions (s : State) (sl : Nat) : Section_ :=
  let l := s.ordsOf sl 3
  { ty := 8, count := l.length,
    body := l.flatMap fun e => padTo 48 (leBytes 4 e.1 ++ (s.region e.2).latched.bytes ++ (s.region e.2).shadow.bytes) }

/-- CHECK_VALUES (08_check_values_core_samples_and_floor_images.md R256). -/
def State.secUnits (s : State) (sl : Nat) : Section_ :=
  let l := s.ordsOf sl 2
  { ty := 9, count := l.length,
    body := l.flatMap fun e => padTo 32 (leBytes 4 e.1 ++ leBytes 4 (s.num (R.cvuCfg e.2) % 2 ^ 31) ++
      leBytes 4 (s.num (R.cvuPoly e.2)) ++ leBytes 4 (s.num (R.cvuInit e.2)) ++ leBytes 4 (s.num (R.cvuXorout e.2)) ++
      leBytes 4 (s.num (R.cvuValue e.2))) }

/-- REFLEXES (09_capacitive_touch.md R295). -/
def State.secReflexes (s : State) (sl : Nat) : Section_ :=
  { ty := 10, count := 16,
    body := (List.range 16).flatMap fun b => (List.range 4).flatMap fun w => leBytes 4 (s.num (K.reflex sl b w)) }

/-- The words of a stream, its count of underruns read as 0 (10_haptic_and_acoustic_feedback.md R316). -/
def State.streamBytes (s : State) (sl : Nat) (ch : Option Nat) : List Byte :=
  (List.range 8).flatMap fun w =>
    let v := s.num (K.stream sl ch w)
    leBytes 4 (if w = 7 && ch.isSome then v / 65536 * 65536 else v)

/-- STREAMS (10_haptic_and_acoustic_feedback.md R316). -/
def State.secStreams (s : State) (sl : Nat) : Section_ :=
  let l := s.ordsOf sl 5
  { ty := 11, count := l.length + 1,
    body := (l.flatMap fun e => padTo 48 (leBytes 4 e.1 ++ s.streamBytes sl (some e.1))) ++
      padTo 48 (leBytes 4 0xFFFFFFFF ++ s.streamBytes sl none) }

/-- HELD_RECORDS. -/
def State.secHeld (s : State) (sl : Nat) : Section_ :=
  let l := (s.space sl).heldRecs.filter (·.event)
  { ty := 12, count := l.length, body := l.flatMap fun r => recBytes r 0 }

/-- The sections of a round in ascending order of type (R120). -/
def State.sections (s : State) (sl : Nat) (first final : Bool) : List Section_ :=
  let l := s.carried sl first final
  [s.secGrants sl] ++ (if final then [s.secWindow sl, s.secHandles sl] else []) ++ [secTable l, s.secData l] ++
    (if first then [] else [s.secFreed sl]) ++
    (if final then [s.secLayers sl, s.secRegions sl, s.secUnits sl, s.secReflexes sl, s.secStreams sl, s.secHeld sl] else []) ++
    [{ ty := 0xFFFF, count := 0, body := [] }]

/-- The round that a capture takes (R119). -/
def State.roundNow (s : State) (sl : Nat) (first : Bool) : Nat := if first then 0 else (s.slice sl).nextRound

/-- The blob of a round (R119). -/
def State.captureBlob (s : State) (sl : Nat) (first final : Bool) : List Byte :=
  let secs := s.sections sl first final
  let body := secs.flatMap Section_.bytes
  let head := leBytes 4 0x434C5357 ++ leBytes 2 1 ++ leBytes 2 (b2n first + 2 * b2n final) ++ leBytes 4 (s.roundNow sl first) ++
    leBytes 4 (64 + body.length) ++ leBytes 4 (s.num R.stnFamily) ++ leBytes 4 secs.length ++ leBytes 8 s.now
  let head := padTo 60 head
  head ++ leBytes 4 (crc32 (head ++ [0#8, 0#8, 0#8, 0#8] ++ body)) ++ body

/-! ### SLICE_CAPTURE (R110, R117, R118) -/

/-- Why a capture is refused after issue (R118). -/
def State.captureFault (s : State) (sl : Nat) (first final : Bool) : Option Nat :=
  let m := s.fld (R.slcAdmMig sl) F.slcAdmMig_method
  if m = 0 || (m == 1 && !(first && final)) then some 1
  else if final && (s.slice sl).st != .frozen then some 2
  else if !first && !(s.slice sl).firstDone then some 3
  else if m == 2 && !s.dlogOn sl then some 4
  else none

/-- The runs of DRAM that a piece of a blob is read from: the surface bytes in it. -/
def State.captureRuns (s : State) (l : List Surface) (dataAt off size : Nat) : List (Nat × Nat) :=
  (l.foldl (fun (acc, p) x =>
    let n := storedLen x.fmt x.w x.h
    let a := max off (p + 16)
    let e := min (off + size) (p + 16 + n)
    (if a < e then acc ++ [(s.versionBase x.cur + (a - (p + 16)), e - a)] else acc, p + 16 + n)) (([] : List (Nat × Nat)), dataAt)).1

/-- SLICE_CAPTURE starts: the slice's state is read, the surfaces carried are held, those that the first round skips are due in
a later one (R117 to R120; 04_surfaces_and_haul.md R151). -/
def startCapture (c : Cmd) (s : State) : State :=
  let sl := argOf c.words 0 % 256
  let first := bitAt (argOf c.words 1) 0
  let final := bitAt (argOf c.words 1) 1
  match s.captureFault sl first final with
  | some d => s.fail 256 c.handle 0x1002 d
  | none =>
    let blob := s.captureBlob sl first final
    if argOf c.words 4 * 4096 < blob.length then s.fail 256 c.handle 0x1002 (2 ^ 31 + ceilDiv blob.length 4096)
    else
      let l := s.carried sl first final
      let pre := [s.secGrants sl] ++ (if final then [s.secWindow sl, s.secHandles sl] else []) ++ [secTable l]
      let dataAt := 64 + (pre.flatMap Section_.bytes).length + 16
      let segs := (bufferSegs (argAddr c.words 2) blob.length).map fun g => { g with dram := s.captureRuns l dataAt g.off g.size }
      let s := s.updSlice sl fun x => { x with
        dirty := (x.dirty.filter fun i => !(l.any fun y => y.ident == i)) ++
          ((if first then s.surfacesOf sl else []).filter fun y => y.cur.isSome && !(l.any fun z => z.ident == y.ident)).map (·.ident),
        freed := if first then [] else x.freed }
      let s := s.each l fun s x => match x.cur with | some vid => s.hold vid (.cmd 256 c.handle) | none => s
      s.addXfer { sp := 256, handle := c.handle, op := 0x10, slice := sl, segs := segs, idx := 0, done := 0, vid := none,
                  src := none, snoop := none, buf := blob, data := none, order := 0 }

/-- The version that holds a DRAM offset, and the offset within it. -/
def State.withinVersion (s : State) (a : Nat) : Nat :=
  match (s.versionsWith fun v => v.base ≤ a && a < v.base + v.units * 65536).head? with
  | some e => a - e.2.base
  | none => a

/-- A segment of a capture: its surface bytes are read, its bytes written to the host (R117; 04_surfaces_and_haul.md R142). -/
def captureSegment (e : Nat) (x : Xfer) (g : Seg) (ecc : Ecc) (s : State) : SegOut :=
  match g.dram.find? fun (a, l) => s.dramProtected a l with
  | some (a, _) => (some (0x5002, 0x310000 + e * 256 + 1), s.denial false 0 (0x10 + e) a)
  | none =>
    let (f, s) := s.haulReads e x.slice 0 g.dram ecc
    match f with
    | some a => (some (0x5001, s.withinVersion a), s)
    | none =>
      let bytes := (x.buf.drop g.off).take g.size
      (none, s.each (splitRuns g.runs bytes) fun s r => s.hostWrite none r.1 r.2 s.hif.relaxedOrdering)

/-! ### Reading a blob -/

/-- The sections of a blob's body; `fuel` bounds their number. -/
def parseSections : Nat → List Byte → List Section_
  | 0, _ => []
  | fuel + 1, b =>
    if b.length < 16 then []
    else
      let n := blobNum b 4 4
      let x : Section_ := { ty := blobNum b 0 2, count := blobNum b 8 4, body := (b.drop 16).take n }
      x :: (if x.ty = 0xFFFF then [] else parseSections fuel (b.drop (16 + roundUp n 16)))

/-- The sections of a blob. -/
def blobSections (b : List Byte) : List Section_ := parseSections (blobNum b 20 4) ((b.take (blobNum b 12 4)).drop 64)

/-- The body of a section of a blob; nothing where it is absent. -/
def sectionBody (l : List Section_) (ty : Nat) : List Byte :=
  match l.find? fun x => x.ty == ty with
  | some x => x.body
  | none => []

/-- The item count of a section. -/
def sectionCount (l : List Section_) (ty : Nat) : Nat :=
  match l.find? fun x => x.ty == ty with
  | some x => x.count
  | none => 0

/-- A capture completes: the round is made, its surfaces are no longer due (R110, R117, R120). -/
def finishCapture (x : Xfer) (s : State) : State :=
  let secs := blobSections x.buf
  let round := blobNum x.buf 8 4
  let first := bitAt (blobNum x.buf 6 2) 0
  let s := s.updSlice x.slice fun y => { y with
    captured := true, firstDone := y.firstDone || first, nextRound := round + 1, freed := y.freed.drop (sectionCount secs 6) }
  s.endXfer x (leBytes 4 x.buf.length ++ leBytes 4 round ++ leBytes 4 (sectionCount secs 5) ++ leBytes 4 0)

/-! ### SLICE_RESTORE (R121, R122) -/

/-- SLICE_RESTORE starts: its blob is read from host memory. -/
def startRestore (c : Cmd) (s : State) : State :=
  let segs := bufferSegs (argAddr c.words 2) (argOf c.words 4 * 4096)
  if segs.isEmpty then s.fail 256 c.handle 0x1002 0x11
  else s.addXfer { sp := 256, handle := c.handle, op := 0x11, slice := argOf c.words 0 % 256, segs := segs, idx := 0, done := 0,
                   vid := none, src := none, snoop := none, buf := [], data := none, order := 0 }

/-- Magic, version and CRC are correct, and the length lies within what was read (R121, 0x11). -/
def blobOk (b : List Byte) : Bool :=
  let n := blobNum b 12 4
  let whole := b.take n
  blobNum b 0 4 == 0x434C5357 && blobNum b 4 2 == 1 && 64 ≤ n && n ≤ b.length && n % 16 == 0 &&
    crc32 (whole.take 60 ++ [0#8, 0#8, 0#8, 0#8] ++ whole.drop 64) == blobNum b 60 4

/-- The checks of R121 in order. -/
def State.restoreFault (s : State) (sl : Nat) (b : List Byte) : Option Nat :=
  let secs := blobSections b
  let grants := sectionBody secs 1
  let areas := (s.ordsOf sl 0).flatMap fun e => leBytes 2 (s.timing e.2).ha ++ leBytes 2 (s.timing e.2).va
  let blobAreas := (chunks 8 grants.length (grants.drop 32)).flatMap fun c => c.take 4
  let rnd := blobNum b 8 4
  if !blobOk b then some 0x11
  else if (s.slice sl).st != .frozen then some 0x12
  else if (if (s.slice sl).round = 0 then !bitAt (blobNum b 6 2) 0 else rnd != (s.slice sl).round) then some 0x13
  else if grants.take 32 != s.grantBits sl then some 0x14
  else if blobAreas != areas then some 0x15
  else none

/-- The surface of a descriptor (04_surfaces_and_haul.md R128). -/
def surfaceOf (d : List Byte) : Surface :=
  { ident := blobNum d 0 4, w := blobNum d 4 2, h := blobNum d 6 2, fmt := blobNum d 8 1, colour := blobNum d 9 1,
    importCount := blobNum d 24 2 }

/-- The items of SURFACE_DATA: identifier and bytes; `fuel` bounds their number. -/
def surfaceItems : Nat → List Byte → List (Nat × List Byte)
  | 0, _ => []
  | fuel + 1, b =>
    if b.length < 16 then []
    else
      let n := blobNum b 4 4
      (blobNum b 0 4, (b.drop 16).take n) :: surfaceItems fuel (b.drop (16 + n))

/-- A surface of the blob is created as an IDLE current version, or replaces a live one (04_surfaces_and_haul.md R154); none
where the quota or the pool does not hold it, or where its place is protected (11_control_cores_and_the_protected_world.md R339).
A failure is its status, its detail and the address of a write that was denied. -/
def State.restoreSurface (s : State) (e sl : Nat) (x : Surface) (data : List Byte) : Except (Nat × Nat × Option Nat) State :=
  let n := storedLen x.fmt x.w x.h
  match s.allocFails sl (ceilDiv n 65536) with
  | some d => .error (0x3001, d, none)
  | none =>
    let idx := x.ident % 65536
    let old := Tab.get none s.haul.surfaces (K.surf sl idx)
    let s := s.updHaul fun h => { h with idGens := Tab.set 0 h.idGens (K.surf sl idx) (x.ident / 65536) }
    let s := if h : sl < 256 then s.decide (.identifierIssued ⟨sl, h⟩ x.ident x.w x.h x.fmt x.colour) else s
    let (vid, s) := s.allocate sl x.ident n
    let s := match s.version vid with
      | some v => s.putVersion vid (some { v with lease := .current, importCount := x.importCount })
      | none => s
    let s := s.putSurface sl x.ident (some { x with cur := some vid })
    if s.dramProtected (s.versionBase (some vid)) n then
      .error (0x5002, 0x310000 + e * 256 + 1, some (s.versionBase (some vid)))
    else
    let s := s.dramWrite (s.versionBase (some vid)) (data.take n) (0x10 + e) sl false
    let s := match old with
      | some o => match o.cur with | some v => s.retire v | none => s
      | none => s
    let s := if h : sl < 256 then s.decide (.versionCurrent ⟨sl, h⟩ x.ident vid) else s
    .ok s

/-- Every surface of a blob, in order. -/
def State.restoreSurfaces (s : State) (e sl : Nat) : List (Surface × List Byte) → Except (Nat × Nat × Option Nat) State
  | [] => .ok s
  | (x, data) :: t => match s.restoreSurface e sl x data with
    | .error d => .error d
    | .ok s => State.restoreSurfaces s e sl t

/-- Identifiers freed since the round before are released. -/
def State.restoreFreed (s : State) (sl : Nat) (b : List Byte) : State :=
  s.each ((chunks 4 b.length b).map leNat) fun s i =>
    match s.surface sl i with
    | some _ => (s.putSurface sl i none).retireAll sl i
    | none => s

/-- WINDOW: the registers that hold state of their own. -/
def State.restoreWindow (s : State) (sl : Nat) (b : List Byte) : State :=
  s.each (List.range 52) fun s i =>
    match windowRegs[i]? with
    | some e => if windowStored.contains e then s.wrN (winPage sl e.1 + e.2) (blobNum b (4 * i) 4) else s
    | none => s

/-- HANDLES: counters, the cursor, and the handles whose records are not consumed, which end with the last of them (log 30). -/
def State.restoreHandles (s : State) (sl : Nat) (b : List Byte) : State :=
  let last := (s.num (R.cqTail sl) + 2 ^ 32 - 1) % 2 ^ 32
  let entry (i : Nat) : Nat := blobNum b (2 * i) 2
  let gens : Tab Nat := (List.range 4096).filterMap fun i => if entry i % 4096 = 0 then none else some (i, entry i % 4096)
  let cmds : List Cmd := (below 4096 fun i => bitsOf (entry i) 13 12 == 2).map fun i =>
    { handle := entry i % 4096 * 2 ^ 20 + i * 256 + sl, op := 0, words := [], fence := false, noInt := false, phase := .written last }
  s.updSpace sl fun x => { x with gens := gens, cursor := blobNum b 8192 2 % 4096, cmds := cmds }

/-- An image of its words. -/
def imgOf (b : List Byte) : Tab Word :=
  (List.range 272).foldl (fun t w => Tab.set (imgReset w) t w (w32 (blobNum b (4 * w) 4))) []

/-- A region image of its words. -/
def regionOf (b : List Byte) : RegionImg :=
  [0, 1, 2, 3].foldl (fun i k => i.put k (w32 (blobNum b (4 * k) 4))) ({} : RegionImg)

/-- CHECK_VALUES (08_check_values_core_samples_and_floor_images.md R257). -/
def State.restoreUnits (s : State) (sl : Nat) (b : List Byte) : State :=
  s.each (chunks 32 b.length b) fun s c =>
    match s.globalOf sl 2 (blobNum c 0 4 % 32) with
    | none => s
    | some u =>
      let s := (s.wrN (R.cvuCfg u) (blobNum c 4 4 % 2 ^ 31)).wrN (R.cvuPoly u) (blobNum c 8 4)
      let s := (s.wrN (R.cvuInit u) (blobNum c 12 4)).wrN (R.cvuXorout u) (blobNum c 16 4)
      (s.wrN (R.cvuValue u) (blobNum c 20 4)).wrN (R.cvuBytes u) 0

/-- The restored latched images of a LAYERS section, by slot; the shadow images are written at once (06_layer_composition.md R188). -/
def State.restoreLayers (s : State) (sl : Nat) (b : List Byte) : List (Nat × Tab Word) × State :=
  (chunks 2192 b.length b).foldl (fun (l, s) c =>
    match s.globalOf sl 1 (blobNum c 0 4 % 256) with
    | none => (l, s)
    | some n => (l ++ [(n, imgOf (c.drop 4))], s.updLayer n fun x => { x with shadow := imgOf (c.drop 1092) })) ([], s)

/-- The rectangle of an enabled region image meets R244 on its output: on the active area, and within the clipped destination
rectangle of its anchor, whose image is one of `images` by slot. -/
def State.regionFits (s : State) (sl n : Nat) (images : List (Nat × Tab Word)) (i : RegionImg) : Bool :=
  let t := s.normalTiming (regionOut n)
  !i.on || (i.inArea t &&
    match s.globalOf sl 1 (bitsOf i.ctrl.toNat 13 8) with
    | none => false
    | some slot => match images.find? fun e => e.1 == slot with
      | none => false
      | some e =>
        let (x, y, w, h) := ({ slot := slot, owner := sl, image := e.2, vid := none, base := 0, sw := 0, sh := 0, fmt := 0,
                               colour := 0 } : CfgLayer).clip t
        s.slotOut slot == regionOut n && x ≤ i.x && i.x + i.w ≤ x + w && y ≤ i.y && i.y + i.h ≤ y + h)

/-- The restored latched images of a CORE_SAMPLES section, by region; a region with a rectangle that does not meet R244 on the
target is restored disabled in both images (08_check_values_core_samples_and_floor_images.md R257). `ls` are the restored
latched images of the layers. -/
def State.restoreRegions (s : State) (sl : Nat) (ls : List (Nat × Tab Word)) (b : List Byte) : List (Nat × RegionImg) × State :=
  let shadows := ls.map fun e => (e.1, (s.layer e.1).shadow)
  (chunks 48 b.length b).foldl (fun (l, s) c =>
    match s.globalOf sl 3 (blobNum c 0 4 % 128) with
    | none => (l, s)
    | some n =>
      let ok := s.regionFits sl n ls (regionOf (c.drop 4)) && s.regionFits sl n shadows (regionOf (c.drop 20))
      let fit (i : RegionImg) : RegionImg := if ok then i else { i with ctrl := i.ctrl &&& 0xFFFFFFFE#32 }
      (l ++ [(n, fit (regionOf (c.drop 4)))], s.updRegion n fun x => { x with shadow := fit (regionOf (c.drop 20)) })) ([], s)

/-- REFLEXES (09_capacitive_touch.md R295). -/
def State.restoreReflexes (s : State) (sl : Nat) (b : List Byte) : State :=
  let s := s.each (List.range 64) fun s i => s.wrN (K.reflex sl (i / 4) (i % 4)) (blobNum b (4 * i) 4)
  { s with reflexDirty := true }

/-- STREAMS: the words, with start times of 0 (10_haptic_and_acoustic_feedback.md R316). -/
def State.restoreStreams (s : State) (sl : Nat) (b : List Byte) : State :=
  s.each (chunks 48 b.length b) fun s c =>
    let o := blobNum c 0 4
    let ch := if o = 0xFFFFFFFF then none else some (o % 8)
    let s := s.each (List.range 8) fun s w => s.wrN (K.stream sl ch w) (if w = 5 ∨ w = 6 then 0 else blobNum c (4 + 4 * w) 4)
    let pos := s.num (K.stream sl ch 4)
    match ch with
    | some c => s.updHst (hstIdx sl c) fun x => { x with fetched := [], fetchPos := pos, begun := false, stopped := false }
    | none => s.updAst sl fun x => { x with fetched := [], fetchPos := pos, begun := false, stopped := false }

/-- HELD_RECORDS: before the records that the target holds. -/
def State.restoreHeld (s : State) (sl : Nat) (b : List Byte) : State :=
  let recs := (chunks 32 b.length b).map fun c =>
    ({ handle := blobNum c 0 4, status := blobNum c 4 2, opcode := blobNum c 6 1, event := true, time := blobNum c 8 8,
       result := c.drop 16, noInt := false } : Rec)
  s.updSpace sl fun x => { x with heldRecs := recs ++ x.heldRecs }

/-- A restored image whose surface the blob has not brought is disabled (log 100). -/
def State.dropStale (s : State) (sl : Nat) (e : Nat × Tab Word) : Nat × Tab Word :=
  if imgOn e.2 && (s.bindSlice sl e.2).isNone then (e.1, Tab.set (imgReset 0) e.2 0 (imgGet e.2 0 &&& 0xFFFFFFFE#32)) else e

/-- A refusing output leaves the slice without latched layers there (R121). -/
def State.restoreRefused (s : State) (sl o : Nat) : State :=
  (s.askRemoval o (.sliceLayers sl)).updSlice sl fun x => { x with latchedAll := false }

/-- The fit check of an output with the restored layers (R121): accepted configurations wait for the THAW; a refusal leaves no
latched layer there. Answers the first refusal. -/
def State.restoreFit (s : State) (sl o : Nat) (ls : List (Nat × Tab Word)) (rs : List (Nat × RegionImg)) :
    Option (Nat × Nat) × State :=
  let kept := ls.map (s.dropStale sl)
  let s := if kept = ls then s else s.updSlice sl fun x => { x with latchedAll := false }
  let ls := kept
  let c : Commit := { owner := sl, handle := 0, probe := false, layers := ls, regions := rs, bound := [], acc := 0, headroom := 0 }
  if ls.isEmpty && rs.isEmpty then (none, s)
  else match s.bindLayers sl c.enabled with
    | .error _ => (none, s.restoreRefused sl o)
    | .ok bound =>
      let c := { c with bound := bound }
      if (s.out o).gen != .running then
        if bound.isEmpty then
          let s := s.each ls fun s e => s.updLayer e.1 fun x => { x with latched := e.2, owner := sl }
          (none, s.each rs fun s e => s.latchRegion sl true e.1 e.2)
        else (some (0x2007, 0xFFFF * 256 + 0xFF), (s.noteRefusal o 7 false).restoreRefused sl o)
      else match s.checkOut o (s.candidate o c) (s.shares o) with
        | some f => (some (0x2000 + f.reason, f.line * 256 + s.namedLayer c f.layer), (s.noteRefusal o f.reason false).restoreRefused sl o)
        | none =>
          let s := s.each bound fun s l => match l.vid with | some v => s.hold v (.commit o sl 0) | none => s
          (none, s.updOut o fun x => { x with restored := (x.restored.filter fun k => k.owner != sl) ++ [c] })

/-- The fit checks of a final blob, in ascending output. -/
def State.restoreFits (s : State) (sl : Nat) (ls : List (Nat × Tab Word)) (rs : List (Nat × RegionImg)) :
    Option (Nat × Nat) × State :=
  (List.range 8).foldl (fun (r, s) o =>
    let (q, s) := s.restoreFit sl o (ls.filter fun e => s.slotOut e.1 == o) (rs.filter fun e => regionOut e.1 == o)
    (r.or q, s)) (none, s)

/-- The sections that a final blob alone carries. -/
def State.restoreFinal (s : State) (sl : Nat) (secs : List Section_) : Option (Nat × Nat) × State :=
  let s := (s.restoreWindow sl (sectionBody secs 2)).restoreHandles sl (sectionBody secs 3)
  let (ls, s) := s.restoreLayers sl (sectionBody secs 7)
  let (rs, s) := s.restoreRegions sl ls (sectionBody secs 8)
  let s := (s.restoreUnits sl (sectionBody secs 9)).restoreReflexes sl (sectionBody secs 10)
  let s := (s.restoreStreams sl (sectionBody secs 11)).restoreHeld sl (sectionBody secs 12)
  let s := s.updSlice sl fun x => { x with restored := true, latchedAll := true }
  let (f, s) := s.restoreFits sl ls rs
  (f, s.shedPass false)

/-- The whole blob is read: it is checked and applied (R121; 11_control_cores_and_the_protected_world.md R339). -/
def finishRestore (e : Nat) (x : Xfer) (s : State) : State :=
  let sl := x.slice
  let b := x.buf
  match s.restoreFault sl b with
  | some d => s.failXfer x 0x1002 d
  | none =>
    let secs := blobSections b
    let table := (chunks 32 (sectionBody secs 4).length (sectionBody secs 4)).map surfaceOf
    let items := surfaceItems (sectionCount secs 5) (sectionBody secs 5)
    let surfs := items.filterMap fun (i, data) => (table.find? fun y => y.ident == i).map fun y => (y, data)
    match (s.restoreFreed sl (sectionBody secs 6)).restoreSurfaces e sl surfs with
    | .error (st, d, denied) =>
      (match denied with
       | some a => s.denial true 0 (0x10 + e) a
       | none => s).failXfer x st d
    | .ok s =>
      let s := s.updSlice sl fun y => { y with round := blobNum b 8 4 + 1 }
      let (f, s) := if bitAt (blobNum b 6 2) 1 then s.restoreFinal sl secs else (none, s)
      match f with
      | some (st, d) => s.failXfer x st d
      | none => s.endXfer x (leBytes 4 (blobNum b 12 4) ++ leBytes 4 (blobNum b 8 4) ++ leBytes 4 surfs.length ++ leBytes 4 0)

end Sys2Proof.Machine
end

