-- ==== Sys2Proof/Machine/Engines.lean ====
section
/-!
DEFINITION. Starting commands in issue order, the haul engines and their arbiter, completions of host reads
(02_host_interface.md R48, R49, R72; 04_surfaces_and_haul.md R142 to R150).
-/

namespace Sys2Proof.Machine

/-! ### Starting commands (02_host_interface.md R72; 04_surfaces_and_haul.md R147) -/

/-- The surface that a command names, for the order of R147. -/
def Cmd.surface (c : Cmd) : Option Nat :=
  if c.op = 1 then (if argOf c.words 5 = 0 then none else some (argOf c.words 5))
  else if c.op = 2 then some (argOf c.words 0)
  else none

/-- A command starts. -/
def State.startCmd (s : State) (sp : Nat) (c : Cmd) : State :=
  match c.op with
  | 0x01 => startImport sp c s
  | 0x02 => startExport sp c s
  | 0x03 => startRelease sp c s
  | 0x04 => startCommit sp c s
  | 0x05 => startSeed sp c s
  | 0x06 => s.complete sp c.handle 0 []
  | 0x10 => startCapture c s
  | 0x11 => startRestore c s
  | 0x12 => startFloorLoad c s
  | _ => s

/-- A waiting command may start: no fence holds it back, and no earlier command on its surface is in progress. `earlier` are
the commands issued before it. One on another surface does not wait for those that R147 holds back (DESIGN CHOICE, log 31). -/
def Cmd.mayStart (c : Cmd) (earlier : List Cmd) : Bool :=
  let open_ := earlier.filter (·.inProgress)
  !(c.fence && !open_.isEmpty) &&
    match c.surface with
    | none => true
    | some i => !(open_.any fun d => d.surface == some i)

/-- A fence holds back every command behind it. -/
def Cmd.blocks (c : Cmd) (earlier : List Cmd) : Bool := c.fence && earlier.any (·.inProgress)

/-- A SURF_RELEASE without fence starts at its issue, even behind a fence (04_surfaces_and_haul.md R143). -/
def Cmd.atIssue (c : Cmd) : Bool := c.op == 3 && !c.fence

/-- Start what may start of a space, in issue order; `shut` behind a fence that waits. -/
def State.startFrom (sp : Nat) : Nat → Nat → Bool → State → State
  | 0, _, _, s => s
  | fuel + 1, i, shut, s =>
    let cmds := (s.space sp).cmds
    match cmds[i]? with
    | none => s
    | some c =>
      if c.phase = .waiting then
        if (!shut || c.atIssue) && c.mayStart (cmds.take i) then
          let s := s.updSpace sp fun x => { x with cmds := x.cmds.map fun d =>
            if d.handle = c.handle then { d with phase := .running } else d }
          State.startFrom sp fuel (i + 1) shut (s.startCmd sp { c with phase := .running })
        else State.startFrom sp fuel (i + 1) (shut || c.blocks (cmds.take i)) s
      else State.startFrom sp fuel (i + 1) shut s

/-- Start what may start of every space; a secondary starts nothing (15_pairs_and_live_insertion.md R430). -/
def State.startAll (s : State) : State :=
  if s.secondary then s
  else s.each (s.cmds.map (·.1)) fun s sp => State.startFrom sp (s.space sp).cmds.length 0 false s

/-- The commands that wait to start. -/
def State.waitingCmds (s : State) : Nat :=
  (s.cmds.map fun e => (e.2.cmds.filter fun c => c.phase == .waiting).length).sum

/-- Start commands until none that waits may start: a command that ends as it starts lets others start. -/
def State.startRounds : Nat → State → State
  | 0, s => s
  | fuel + 1, s =>
    let t := s.startAll
    if t.waitingCmds = s.waitingCmds then t else State.startRounds fuel t

/-! ### The arbiter (R145, R146) -/

/-- The engine record. -/
def State.engine (s : State) (e : Nat) : Engine := Tab.get {} s.haul.engines e
def State.setEngine (s : State) (e : Nat) (x : Engine) : State :=
  s.updHaul fun h => { h with engines := Tab.set {} h.engines e x }

/-- An engine that may take a segment: idle, its gate open, enabled (R145). -/
def State.engineFree (s : State) (e : Nat) : Bool :=
  (s.engine e).run.isNone && s.gateOpen (25 + e) && s.enabled (pageBase 0x31 e)

/-- A host segment of the transfer reads host memory. -/
def Xfer.reads (x : Xfer) : Bool := x.op == 1 || x.op == 5 || x.op == 0x11 || x.op == 0x12

/-- The next segment of a transfer. -/
def Xfer.seg (x : Xfer) : Option Seg := x.segs[x.idx]?

/-- The weight of a space in the arbitration; the station's commands are served first. -/
def State.weight (s : State) (sp : Nat) : Nat := if sp < 256 then s.fld (R.slcAdmRes sp) F.slcAdmRes_haul_weight else 1

/-- The slice of a space is attached: its requests may be issued (02_host_interface.md R69, R90). -/
def State.attached (s : State) (sp : Nat) : Bool := 256 ≤ sp || (s.slice sp).st != .detached

/-- A transfer has a segment ready: not running, not stalled by the dirty log (03_slices.md R116), with haul access, and its
request can be issued. -/
def State.xferReady (s : State) (x : Xfer) : Bool :=
  match x.seg with
  | none => false
  | some g =>
    !(s.haul.engines.any fun e => e.2.run == some (x.sp, x.handle)) &&
      (256 ≤ x.sp || !s.stalled x.sp) && 0 < s.weight x.sp && (g.kind != .host || (s.canRead && s.attached x.sp))

/-- The oldest ready transfer of a space (R146). -/
def State.oldest (s : State) (sp : Nat) : Option Xfer :=
  (s.haul.xfers.filter fun x => x.sp == sp && s.xferReady x).foldl (fun best x =>
    match best with
    | none => some x
    | some y => if x.order < y.order then some x else some y) none

/-- The slices with a segment ready, ascending. -/
def State.readySlices (s : State) : List Nat :=
  s.haul.xfers.foldl (fun l x => if x.sp < 256 && s.xferReady x then insertNat x.sp l else l) []

/-- The next slice of a list after one, in turn. -/
def nextTurn (l : List Nat) (t : Nat) : Nat := ((l.find? fun i => t < i).or l.head?).getD 0

/-- Deficit round robin: the slice that is served, and its credits (R146); `fuel` bounds the passes. -/
def State.roundRobin (s : State) (ready : List Nat) : Nat → Nat → Tab Nat → Option (Nat × Nat × Tab Nat)
  | 0, _, _ => none
  | fuel + 1, t, credit =>
    let size := match (s.oldest t).bind Xfer.seg with | some g => g.size | none => 0
    if ready.contains t && size ≤ Tab.get 0 credit t then
      some (t, size, Tab.set 0 credit t (Tab.get 0 credit t - size))
    else
      let n := nextTurn ready t
      State.roundRobin s ready fuel n (Tab.set 0 credit n (Tab.get 0 credit n + s.weight n * 4096))

/-- An engine takes a segment: a host read is issued under the space's PASID (R145, R149). -/
def State.takeSegment (s : State) (e : Nat) (x : Xfer) : State :=
  let s := s.setEngine e { s.engine e with run := some (x.sp, x.handle) }
  match x.seg with
  | none => s
  | some g =>
    if g.kind == .host && x.reads then s.hostRead (.segment x.sp x.handle g.off) (s.pasidOf x.sp) g.runs else s

/-- A slice with nothing ready loses its credit (R146). -/
def State.dropCredits (s : State) : State :=
  let ready := s.readySlices
  s.updHaul fun h => { h with credit := h.credit.filter fun c => ready.contains c.1 }

/-- The segment that the arbiter picks for an engine, none when none is ready (R146). -/
def State.pickFor (s : State) (e : Nat) : Option State :=
  match s.oldest 256 with
  | some x => some (s.takeSegment e x)
  | none =>
    let ready := s.readySlices
    let s := s.dropCredits
    if ready.isEmpty then none
    else match s.roundRobin ready (ready.length * 17 + 2) s.haul.turn s.haul.credit with
      | none => none
      | some (t, _, credit) =>
        let s := s.updHaul fun h => { h with credit := credit, turn := t }
        (s.oldest t).map fun x => s.takeSegment e x

/-- Engines that may take a segment take one while one is ready. Which of them takes it the spec leaves open (log 1). -/
def State.pick : Nat → State → State
  | 0, s => s
  | fuel + 1, s =>
    match (List.range 4).filter s.engineFree with
    | [] => s
    | l =>
      let (k, t) := s.free l.length
      match t.pickFor ((l[k]?).getD 0) with
      | some u => State.pick fuel u
      | none => s.dropCredits

/-- Commands start and engines take segments, as far as they can. -/
def State.settle (s : State) : State := State.pick 4 (State.startRounds (s.waitingCmds + 1) s)

/-- Requests that wait are issued, and entries and streams are read, where reads can be issued again. -/
def State.kick (s : State) : State :=
  let s := s.issueReads
  let s := s.each (s.cmds.map (·.1)) fun s sp => s.fetchEntry sp
  let sls := (s.hst.map fun e => e.1 / 8) ++ s.ast.map (·.1)
  (s.each (sls.foldl (fun l n => insertNat n l) []) fun s sl => s.fetchStreams sl).settle

/-! ### The end of a segment -/

/-- A segment of a SLICE_RESTORE: its bytes are kept until the blob is whole. -/
def restoreSegment (x : Xfer) (s : State) : SegOut :=
  (none, match s.xfer x.sp x.handle with
    | some y => s.putXfer { y with buf := y.buf ++ y.data.getD [] }
    | none => s)

/-- A segment of a FLOOR_LOAD: its bytes go into the slot (08_check_values_core_samples_and_floor_images.md R255). -/
def floorSegment (x : Xfer) (g : Seg) (s : State) : SegOut :=
  (none, match s.floorOf x.handle with
    | some o => s.floorStore o g.off (x.data.getD [])
    | none => s)

/-- What a segment does at its end, by opcode. -/
def State.segmentEffect (s : State) (e : Nat) (x : Xfer) (g : Seg) (ecc : Ecc) : SegOut :=
  match x.op with
  | 0x05 => seedSegment x s
  | 0x10 => captureSegment e x g ecc s
  | 0x11 => restoreSegment x s
  | 0x12 => floorSegment x g s
  | _ => surfaceSegment e x g ecc s

/-- A transfer fails; a floor load fails as R255 says. -/
def State.xferFails (s : State) (x : Xfer) (status detail : Nat) : State :=
  if x.op = 0x12 then
    match s.floorOf x.handle with
    | some o => s.floorFailed o status detail
    | none => s.failXfer x status detail
  else s.failXfer x status detail

/-- The last segment is done. -/
def State.xferDone (s : State) (e : Nat) (x : Xfer) : State :=
  match x.op with
  | 0x01 => importFilled x s
  | 0x02 => finishExport x s
  | 0x05 => finishSeed x s
  | 0x10 => finishCapture x s
  | 0x11 => finishRestore e x s
  | _ => s

/-- A segment has ended well: the engine's count, the transfer's progress. -/
def State.advanceXfer (s : State) (e : Nat) (sp handle : Nat) (g : Seg) : State :=
  let s := s.setEngine e { run := none, bytes := (s.engine e).bytes + g.size }
  match s.xfer sp handle with
  | none => s
  | some x =>
    let x := { x with idx := x.idx + 1, done := x.done + (if g.kind == .host then g.size else 0), data := none }
    let s := s.putXfer x
    if x.idx = x.segs.length then s.xferDone e x else s

/-- HAUL_SEGMENT_DONE: the segment that an engine runs ends; the arbiter picks the next (R145, R146). A segment that reads host
memory ends no earlier than its data have come. While DRAM is in self-refresh, one that needs it ends as at a link loss
(14_clock_generation.md R410, R413). -/
def doSegmentDone (e : Nat) (ecc : Ecc) (s : State) : State :=
  match (s.engine e).run with
  | none => s
  | some (sp, handle) =>
    match s.xfer sp handle with
    | none => s
    | some x =>
      match x.seg with
      | none => s
      | some g =>
        if g.kind == .host && x.reads && x.data.isNone then s
        else
          let (f, s) := if s.dmc.selfRefresh && x.op != 0x05 && x.op != 0x12 then (some (0x4005, s.lostAt x), s)
            else s.segmentEffect e x g ecc
          let s := match f with
            | some (st, d) => s.xferFails x st d
            | none => s.advanceXfer e sp handle g
          s.settle

/-! ### Completions of host reads (02_host_interface.md R48, R49) -/

/-- A transfer's read failed (R142): its command ends, and a slice is told on line 4 (12_interrupt_delivery.md R367). -/
def State.segmentFailed (s : State) (sp handle off status : Nat) : State :=
  match s.xfer sp handle with
  | none => s
  | some x =>
    let s := s.xferFails x status off
    if sp < 256 then s.signal (some sp) 4 else s

/-- A read of host memory, `off` bytes behind the first address of its use, has ended without data. -/
def State.readFailed (s : State) (u : ReadFor) (off status : Nat) : State :=
  match u with
  | .entry sp => s.entryFailed sp
  | .segment sp h at_ => s.segmentFailed sp h (at_ + off) status
  | .haptic sl ch _ => s.streamError sl (some ch)
  | .audio sl _ => s.streamError sl none

/-- Every byte that a use of host memory wants has come. An entry that is behind the tail again is not kept
(02_host_interface.md R74). -/
def State.readData (s : State) (u : ReadFor) (data : List Byte) : State :=
  match u with
  | .entry sp => s.updSpace sp fun x => { x with fetching := false, entry := if s.sqAhead sp = 0 then none else some data }
  | .segment sp h _ =>
    (match s.xfer sp h with
     | some x => s.putXfer { x with data := some data }
     | none => s)
  | .haptic sl ch _ => s.streamData sl (some ch) data
  | .audio sl _ => s.streamData sl none data

/-- The read is no longer outstanding. -/
def State.dropRead (s : State) (tag : Nat) : State :=
  { s with hif := { s.hif with reads := s.hif.reads.filter fun r => r.tag ≠ tag } }

/-- Data put in their place among those that have come. -/
def insertPart (p : Nat) (d : List Byte) : List (Nat × List Byte) → List (Nat × List Byte)
  | [] => [(p, d)]
  | (q, e) :: t => if p < q then (p, d) :: (q, e) :: t else (q, e) :: insertPart p d t

/-- A gather with one more part of its data, and the bytes of all of them. -/
def Gather.take (g : Gather) (p : Nat) (d : List Byte) : Gather := { g with got := insertPart p d g.got }
def Gather.bytes (g : Gather) : List Byte := g.got.flatMap (·.2)

/-- The data of one read request have come: with the last of a use, the use goes on (02_host_interface.md R46, R48). -/
def State.readPart (s : State) (r : HostRead) (data : List Byte) : State :=
  match s.hif.gathers.find? fun g => g.gid == r.gid with
  | none => s
  | some g =>
    let g := g.take r.place data
    if g.bytes.length = g.len then
      let s := { s with hif := { s.hif with gathers := s.hif.gathers.filter fun h => h.gid ≠ r.gid } }
      s.readData g.use g.bytes
    else { s with hif := { s.hif with gathers := s.hif.gathers.map fun h => if h.gid = r.gid then g else h } }

/-- One read request has ended without data: what the use still wants is not asked for, and what comes is discarded
(02_host_interface.md R48, R49). -/
def State.readEnds (s : State) (r : HostRead) (status : Nat) : State :=
  let s := { s with hif := { s.hif with
    reads := s.hif.reads.map fun (q : HostRead) => if q.gid = r.gid then { q with discard := true } else q,
    gathers := s.hif.gathers.filter fun h => h.gid ≠ r.gid } }
  s.readFailed r.use r.off status

/-- The status of a failed completion (02_host_interface.md R86). -/
def dmaStatus : DmaRes → Nat
  | .ok _ => 0
  | .ur => 0x4001
  | .ca => 0x4002
  | .poisoned => 0x4004

/-- DMA_READ_COMPLETION (02_host_interface.md R48). A completion for no outstanding read, or whose data are not of its length,
changes nothing. -/
def doReadCompletion (tag : Nat) (res : DmaRes) (s : State) : State :=
  match s.hif.reads.find? fun r => r.tag == tag with
  | none => s
  | some r =>
    match res with
    | .ok data =>
      if data.length != r.len then s
      else
        let s := s.dropRead tag
        if r.discard then s.kick else (s.readPart r data).kick
    | _ =>
      let s := s.dropRead tag
      if r.discard then s.kick else (s.readEnds r (dmaStatus res)).kick

/-- COMPLETION_TIMEOUT (02_host_interface.md R49): no timer runs while Completion Timeout Disable is set. -/
def doCompletionTimeout (tag : Nat) (s : State) : State :=
  match s.hif.reads.find? fun r => r.tag == tag with
  | none => s
  | some r =>
    if s.hif.timeoutDisable then s
    else
      let s := s.dropRead tag
      if r.discard then s.kick else (s.readEnds r 0x4003).kick

/-! ### Registers of an engine (R149, R150) -/

/-- The transfer that an engine runs. -/
def State.engineXfer (s : State) (e : Nat) : Option Xfer := (s.engine e).run.bind fun p => s.xfer p.1 p.2

/-- HAUL_STATUS, HAUL_HANDLE and HAUL_PROGRESS as read. -/
def State.haulStatusWord (s : State) (e : Nat) : Word :=
  match s.engineXfer e with
  | none => 0#32
  | some x => w32 (2 ^ 31 + b2n (x.sp == 256) * 2 ^ 30 + x.slice * 2 ^ 8 + x.op)
def State.haulHandleWord (s : State) (e : Nat) : Word :=
  match s.engineXfer e with
  | none => 0#32
  | some x => w32 x.handle
def State.haulProgressWord (s : State) (e : Nat) : Word :=
  match s.engineXfer e with
  | none => 0#32
  | some x => w32 x.done

/-- The stored flag of a transfer. -/
def State.xferStored (s : State) (x : Xfer) : Bool := (x.op == 1 || x.op == 2) && storedArg x.op (s.xferWords x)

/-- The first byte of a version that a segment of a capture reads, as a DRAM offset, with the version. -/
def State.segVersion (s : State) (x : Xfer) (g : Seg) : Option (Nat × Version) :=
  if x.op != 0x10 then none
  else g.dram.head?.bind fun r =>
    (s.versionsWith fun v => v.base ≤ r.1 && r.1 < v.base + v.units * 65536).head?.map fun e => (r.1, e.2)

/-- The DRAM offset of a segment's first byte, relative to the pool base; 0 where the segment moves no version byte. A group's
header stands for the group (DESIGN CHOICE, log 102). -/
def State.segDram (s : State) (x : Xfer) (g : Seg) : Nat :=
  match (if x.op = 2 then x.src else x.vid).bind s.version with
  | none => (match s.segVersion x g with | some (a, _) => a - s.poolBase * 65536 | none => 0)
  | some v =>
    let first := match g.groups with
      | grp :: _ => (grp.2 * groupsW x.w + grp.1) * 16
      | [] => match g.dram.head? with | some r => r.1 | none => 0
    v.base + first - s.poolBase * 65536

/-- The surface that a segment's bytes belong to: the transfer's, or in a capture that of the first version byte it reads. -/
def State.segIdent (s : State) (x : Xfer) (g : Seg) : Nat :=
  match s.segVersion x g with
  | some (_, v) => v.ident
  | none => x.ident

/-- The 32 bytes of the segment descriptor in use (R150). The copy and zero-fill segments of a snooped transfer show its unit and
its flags as its other segments do (DESIGN CHOICE, log 102). -/
def State.haulDesc (s : State) (e : Nat) : List Byte :=
  match s.engineXfer e with
  | none => []
  | some x =>
    match x.seg with
    | none => []
    | some g =>
      let stored := s.xferStored x
      let host := g.kind == .host
      let flags := b2n (x.sp == 256) + 2 * b2n stored + 4 * b2n (x.op == 1 && host && tiled x.fmt && !stored) +
        8 * b2n (x.op == 2 && tiled x.fmt && !stored) + 16 * b2n x.snoop.isSome + 32 * b2n x.atTarget + 64 * b2n (g.kind == .copy)
      let addr := match g.runs.head? with | some r => r.1 | none => 0
      leBytes 4 x.handle ++ leBytes 1 x.op ++ leBytes 1 flags ++ leBytes 1 x.slice ++
        leBytes 1 (match x.snoop with | some (u, _) => u | none => 0xFF) ++ leBytes 8 addr ++ leBytes 4 (s.segIdent x g) ++
        leBytes 4 (s.segDram x g) ++ leBytes 4 g.size ++ leBytes 4 x.idx

end Sys2Proof.Machine
end

