-- ==== Sys2Proof/Machine/Hif.lean ====
section
/-!
DEFINITION. The host link: its loss and return, reattachment, the configuration space, the surface aperture, refused
requests, and the function-level reset (02_host_interface.md R46 to R54, R66 to R68, R90, R91;
16_power_resets_and_start_up.md R465).
-/

namespace Sys2Proof.Machine

/-! ### Refused and discarded requests (R67, R68) -/

/-- A request that R66 refuses is counted, captured and reported. -/
def State.pasidRefused (s : State) (pasid : Option (BitVec 20)) (write bar0 : Bool) (sl off : Nat) : State :=
  let s := s.count R.hifPasidErrCount ⟨31, 0⟩
  let s :=
    if s.flag R.hifPasidErrInfo F.hifPasidErrInfo_valid then s
    else
      let p := match pasid with | some p => p.toNat | none => 0
      let s := s.wrN R.hifPasidErrInfo
        (2 ^ 31 + b2n write * 2 ^ 30 + b2n pasid.isSome * 2 ^ 29 + sl * 2 ^ 20 + p)
      s.wrN R.hifPasidErrAddr (b2n bar0 * 2 ^ 31 + off % 2 ^ 31)
  let s := (s.event 0x10 0 0).emit .aerAdvisory
  { s with hif := { s.hif with aerUnsupported := true, aerAdvisory := true } }

/-- A host request of a slice window (`sl`, or 0) is discarded or refused for another reason: kinds 0 size or alignment,
1 poisoned, 2 world-1 page, 3 slice window frozen or resetting (R68). -/
def State.logAccess (s : State) (write : Bool) (kind sl off len : Nat) : State :=
  let s := s.count R.hifAccessErrCount ⟨31, 0⟩
  let s :=
    if s.flag R.hifAccessErrInfo F.hifAccessErrInfo_valid then s
    else
      let s := s.wrN R.hifAccessErrInfo
        (2 ^ 31 + b2n write * 2 ^ 30 + kind * 2 ^ 27 + sl * 2 ^ 8 + (if len ≤ 8 then len else 0))
      s.wrN R.hifAccessErrAddr off
  s.event 0x10 0 1

/-- A host request to BAR0 is discarded or refused (R68). -/
def State.accessRefused (s : State) (write : Bool) (kind off len : Nat) : State :=
  s.logAccess write kind (if 0x1000000 ≤ off ∧ off < 0x2000000 then (off - 0x1000000) / 0x10000 else 0) off len

/-- A write with a poisoned payload outside BAR0 is discarded and logged (R53, R68). It has no BAR0 offset, so the offset
captured is a free value (log 71). -/
def State.poisonRefused (s : State) (len : Nat) : State :=
  let (a, s) := s.free (2 ^ 26)
  s.logAccess true 1 0 a len

/-! ### Loss and return of the link (R90) -/

/-- The configuration space after an FLR, as PCI Express requires: what the station gives it stays, and so do the sticky status
bits, the payload size and the link's own control and state (log 16). -/
def Hif.flrConfig (h : Hif) : Hif :=
  { h with memorySpace := false, busMaster := false, msixEnable := false, functionMask := false, relaxedOrdering := false,
           timeoutValue := 0, timeoutDisable := false, powerState := 0, pmeEnable := false, bar0 := 0, bar2 := 0, bar4 := 0,
           maxRead := 2, tenBitTag := false, ltr := false, pasidEnable := false }

/-- The configuration space at its reset values, as PCI Express requires (R90). What the station gives it stays, and the sticky
status bits do (log 16). -/
def Hif.resetConfig (h : Hif) : Hif := { h.flrConfig with maxPayload := 0, aspm := 0, l1Sub := 0 }

/-- A state that a slice leaves for DETACHED. -/
def SliceState.detaches : SliceState → Bool
  | .bound => true
  | .freezing => true
  | .frozen => true
  | _ => false

/-- The slices become detached; a slice in its reset drops its records (03_slices.md R108). -/
def State.detachAll (s : State) : State :=
  s.each (s.slices.map (·.1)) fun s sl =>
    let x := s.slice sl
    if SliceState.detaches x.st then ((s.leaveFreezing sl).setSlice sl { x with st := .detached, before := x.st })
    else if x.st = .resetting then
      ((s.setSlice sl { x with discard := true }).updSpace sl fun y => { y with heldRecs := [] }).settleReset sl
    else s

/-- The transfers in flight that a test selects end with LINK_LOST (R90; 04_surfaces_and_haul.md R142). -/
def State.loseXfers (s : State) (p : Xfer → Bool) : State :=
  s.each (s.haul.xfers.filter p) fun s x =>
    match s.xfer x.sp x.handle with
    | some x => s.xferFails x 0x4005 (s.lostAt x)
    | none => s

/-- What waits for a slice's dirty log when the slice becomes detached is not issued: a submission entry is read again later,
export data go with their transfer, and report records are dropped and counted (R69, R90). -/
def State.dropWaiting (s : State) (sl : Nat) : State :=
  let k := ((s.slice sl).waiting.filter fun w => w.kind == 3).length
  let s := s.count (R.slcTrStatus sl) F.slcTrStatus_dropped k
  (s.updSlice sl fun x => { x with waiting := [] }).clrF (R.slcAdmDlogCtrl sl) F.slcAdmDlogCtrl_stalled

/-- No read of host memory is outstanding any more, and none is being waited for. -/
def State.dropReads (s : State) : State :=
  let s := { s with hif := { s.hif with reads := [], gathers := [] } }
  let s := s.each (s.cmds.map (·.1)) fun s sp => s.updSpace sp fun x => { x with fetching := false, entry := none }
  let s := s.each (s.hst.map (·.1)) fun s i => s.updHst i fun x => { x with reading := false }
  s.each (s.ast.map (·.1)) fun s i => s.updAst i fun x => { x with reading := false }

/-- What the loss of the link ends once the slices are DETACHED: reads in flight and transfers; it is counted and told
(R90). -/
def State.linkEnds (s : State) : State :=
  let s := (s.loseXfers fun _ => true).dropReads
  let s := s.each ((s.slices.filter fun e => e.2.st == .detached).map (·.1)) State.dropWaiting
  ((s.clrF R.hifLinkCtrl F.hifLinkCtrl_reattach).count R.hifLinkStatus F.hifLinkStatus_loss_count).event 0x10 0 2

/-- The data link goes down. -/
def State.linkLost (s : State) : State :=
  if !s.hif.linkUp then s
  else State.linkEnds (State.detachAll { s with hif := { s.hif.resetConfig with linkUp := false } })

/-- DATA_LINK_DOWN. -/
def doLinkDown (s : State) : State := s.linkLost

/-- The host link trains: a module of a pair holds it down unless it is the primary (15_pairs_and_live_insertion.md R418). -/
def State.linkTrains (s : State) : Bool :=
  s.pllOk 4 && !s.pwr.perstLow &&
    (s.fld R.pairStatus F.pairStatus_state == 0 || s.fld R.pairStatus F.pairStatus_role == 1)

/-- DATA_LINK_UP: the PHY has its reference, and PERST# is high. Slices stay detached until a reattach. Which of the speeds and
widths of R46 the partner allows is a free value (log 1). -/
def doLinkUp (s : State) : State :=
  if s.hif.linkUp || !s.linkTrains then s
  else
    let (speed, s) := s.free 5
    let (width, s) := s.free 4
    { s with hif := { s.hif with linkUp := true, linkSpeed := speed + 1, linkWidth := 2 ^ width } }

/-- HIF_LINK_STATUS as read. -/
def State.linkStatusWord (s : State) : Word :=
  w32 (b2n s.hif.linkUp * 2 ^ 31 + b2n (s.slices.any fun e => e.2.st == .detached) * 2 ^ 30 +
    b2n (s.flag R.hifLinkCtrl F.hifLinkCtrl_reattach) * 2 ^ 29 +
    s.fld R.hifLinkStatus F.hifLinkStatus_loss_count)

/-! ### The configuration space (R46, R49, R50, R90, R369; log 16) -/

/-- A capability of the table of R46 is present: in the PCI space Power Management, PCI Express and MSI-X; in the extended space
AER, LTR, PASID and L1 PM Substates. Any other is absent. -/
def capPresent (ext : Bool) (id : Nat) : Bool :=
  if ext then id == 0x01 || id == 0x18 || id == 0x1B || id == 0x1E else id == 0x01 || id == 0x10 || id == 0x11

/-- The size of the memory BAR of a 64-bit pair (R50). -/
def barSize (pair : Nat) : Nat := if pair = 0 then 0x4000000 else if pair = 1 then 0x10000000 else 0x10000

/-- The base address in a 64-bit pair of BARs. -/
def Hif.base (h : Hif) (pair : Nat) : Nat := if pair = 0 then h.bar0 else if pair = 1 then h.bar2 else h.bar4

/-- A BAR as read: memory, 64 bits wide, BAR2 prefetchable; the odd ones are upper halves (R50). -/
def Hif.barWord (h : Hif) (n : Nat) : Nat :=
  if n % 2 = 1 then h.base (n / 2) / 2 ^ 32 % 2 ^ 32 else h.base (n / 2) % 2 ^ 32 + 4 + (if n = 2 then 8 else 0)

/-- A write of a BAR: the bits below the size stay 0 (R50). -/
def Hif.writeBar (h : Hif) (n v : Nat) : Hif :=
  let p := n / 2
  let old := h.base p
  let new := if n % 2 = 1 then old % 2 ^ 32 + v % 2 ^ 32 * 2 ^ 32 else old / 2 ^ 32 * 2 ^ 32 + v % 2 ^ 32
  let new := new / barSize p * barSize p
  if p = 0 then { h with bar0 := new } else if p = 1 then { h with bar2 := new } else { h with bar4 := new }

/-- The bytes of a configuration write as a number; a field that is read-only takes no write, and a size code that the function
does not support has no effect (log 16). Writing 1 to Initiate Function Level Reset is the FLR, which the access makes. -/
def doConfigWrite (f : CfgField) (data : List Byte) (s : State) : State :=
  if !s.hif.linkUp || s.hif.retry then s
  else
    let n := leNat data
    let b := n % 2 == 1
    let h := s.hif
    { s with hif := match f with
      | .memorySpace => { h with memorySpace := b }
      | .busMaster => { h with busMaster := b }
      | .msixEnable => { h with msixEnable := b }
      | .functionMask => { h with functionMask := b }
      | .relaxedOrdering => { h with relaxedOrdering := b }
      | .timeoutValue => { h with timeoutValue := n % 16 }
      | .timeoutDisable => { h with timeoutDisable := b }
      | .powerState => { h with powerState := if n % 4 = 0 ∨ n % 4 = 3 then n % 4 else h.powerState }
      | .pmeEnable => { h with pmeEnable := b }
      | .bar k => h.writeBar k.val n
      | .maxPayload => { h with maxPayload := if n % 8 ≤ 2 then n % 8 else h.maxPayload }
      | .maxReadRequest => { h with maxRead := if n % 8 ≤ 5 then n % 8 else h.maxRead }
      | .tenBitTagEnable => { h with tenBitTag := b }
      | .aspmControl => { h with aspm := n % 4 / 2 * 2 }
      | .l1SubstatesEnable => { h with l1Sub := n % 16 }
      | .ltrEnable => { h with ltr := b }
      | .pasidEnable => { h with pasidEnable := b }
      | .pmeStatus => { h with pmeStatus := h.pmeStatus && !b }
      | .aerUnsupported => { h with aerUnsupported := h.aerUnsupported && !b }
      | .aerAdvisory => { h with aerAdvisory := h.aerAdvisory && !b }
      | .vendorId => h
      | .deviceId => h
      | .revisionId => h
      | .classCode => h
      | .subsystemVendorId => h
      | .subsystemId => h
      | .interruptPin => h
      | .maxPayloadSupported => h
      | .tenBitTagSupported => h
      | .maxLinkSpeed => h
      | .maxLinkWidth => h
      | .linkSpeed => h
      | .linkWidth => h
      | .aspmSupport => h
      | .l1Substates => h
      | .timeoutRanges => h
      | .flrCapable => h
      | .initiateFlr => h
      | .pasidWidth => h
      | .pasidExecute => h
      | .pasidPrivileged => h
      | .msixTableSize => h
      | .msixTable => h
      | .msixPba => h
      | .pmeSupport => h
      | .capability _ _ => h }

/-- A configuration field as read (R46, R49, R50). Speeds and widths are the codes of PCI Express; the BAR4 offsets of the MSI-X
table and of the pending-bit array carry their BAR number in bits [2:0]; L1 substates and PME support are bit masks (log 16). -/
def State.configValue (s : State) (f : CfgField) : Nat :=
  match f with
  | .memorySpace => b2n s.hif.memorySpace
  | .busMaster => b2n s.hif.busMaster
  | .msixEnable => b2n s.hif.msixEnable
  | .functionMask => b2n s.hif.functionMask
  | .relaxedOrdering => b2n s.hif.relaxedOrdering
  | .timeoutValue => s.hif.timeoutValue
  | .timeoutDisable => b2n s.hif.timeoutDisable
  | .powerState => s.hif.powerState
  | .pmeEnable => b2n s.hif.pmeEnable
  | .vendorId => 0x1F3C
  | .deviceId => 0x0880
  | .revisionId => 0x02
  | .classCode => 0x038000
  | .subsystemVendorId => s.hif.subsystem.toNat % 2 ^ 16
  | .subsystemId => s.hif.subsystem.toNat / 2 ^ 16
  | .interruptPin => 0
  | .bar k => s.hif.barWord k.val
  | .maxPayloadSupported => 2
  | .maxPayload => s.hif.maxPayload
  | .maxReadRequest => s.hif.maxRead
  | .tenBitTagSupported => 1
  | .tenBitTagEnable => b2n s.hif.tenBitTag
  | .maxLinkSpeed => 5
  | .maxLinkWidth => 8
  | .linkSpeed => s.hif.linkSpeed
  | .linkWidth => s.hif.linkWidth
  | .aspmSupport => 2
  | .aspmControl => s.hif.aspm
  | .l1Substates => 0xF
  | .l1SubstatesEnable => s.hif.l1Sub
  | .timeoutRanges => 0xF
  | .flrCapable => 1
  | .initiateFlr => 0
  | .ltrEnable => b2n s.hif.ltr
  | .pasidWidth => 20
  | .pasidExecute => 0
  | .pasidPrivileged => 0
  | .pasidEnable => b2n s.hif.pasidEnable
  | .msixTableSize => 2047
  | .msixTable => 0x0000 + 4
  | .msixPba => 0x8000 + 4
  | .pmeSupport => 0x08
  | .pmeStatus => b2n s.hif.pmeStatus
  | .aerUnsupported => b2n s.hif.aerUnsupported
  | .aerAdvisory => b2n s.hif.aerAdvisory
  | .capability ext id => b2n (capPresent ext id)

/-- The function answers memory requests: the link is up, Memory Space Enable is 1 and the function is in D0 (R57, R90;
log 16). -/
def State.answers (s : State) : Bool := s.hif.linkUp && s.hif.memorySpace && s.hif.powerState == 0

/-! ### BAR4: the MSI-X table and the pending-bit array (R46, R50) -/

/-- The key of a BAR4 word: the table, the pending-bit array, or none at a reserved offset. -/
def bar4Key (off : Nat) : Option Nat :=
  if off < 0x8000 then some (K.msix (off / 16) (off / 4 % 4))
  else if off < 0x8100 then some (K.pba ((off - 0x8000) / 4))
  else none

/-- A word of BAR4. -/
def State.bar4Word (s : State) (off : Nat) : Word :=
  match bar4Key off with
  | some k => s.rd k
  | none => 0#32

/-- A write of a BAR4 word: the pending-bit array is read-only, the two low address bits are 0, and the vector control word
has its Mask bit only. -/
def State.bar4Write (s : State) (off : Nat) (v : Word) : State :=
  if off < 0x8000 then
    let k := K.msix (off / 16) (off / 4 % 4)
    match off / 4 % 4 with
    | 0 => s.wr k (v &&& 0xFFFFFFFC#32)
    | 3 => s.wr k (v &&& 1#32)
    | _ => s.wr k v
  else s

/-- An access to BAR4 carries no PASID and has the sizes of a BAR0 access; one of another size has no effect. -/
def bar4Access (pasid : Option (BitVec 20)) (off len : Nat) (write : Bool) (s : State) : Bool × State :=
  if !s.answers then (false, s)
  else if pasid.isSome then (false, s.pasidRefused pasid write false 0 off)
  else ((len = 4 || len = 8) && off % len = 0 && off + len ≤ 0x10000, s)

/-! ### BAR2: the surface aperture (R54) -/

/-- The DRAM byte of BAR2 offset 0. -/
def State.aperture (s : State) : Nat := min 7424 (s.fld R.hifAperCtrl F.hifAperCtrl_base_mib) * 0x100000

/-- An access falls on protected or absent DRAM: it is denied (R54; 11_control_cores_and_the_protected_world.md R339, R340). -/
def State.aperDenied (s : State) (a len : Nat) (write : Bool) : Option State :=
  if dramEnd < a + len then some (s.setF R.hifAperCtrl F.hifAperCtrl_denied)
  else if s.dramProtected a len then some ((s.denial write 0 0x20 a).setF R.hifAperCtrl F.hifAperCtrl_denied)
  else none

/-- The length of an aperture access. -/
def bar2Len : Bar2Op → Nat
  | .read n => n
  | .write d _ => d.length

/-- The access writes. -/
def bar2Writes : Bar2Op → Bool
  | .read _ => false
  | .write _ _ => true

/-- The access is a write with a poisoned payload (R53). -/
def bar2Poisoned : Bar2Op → Bool
  | .read _ => false
  | .write _ p => p

/-- BAR2_ACCESS. Only the host reaches BAR2. A poisoned write is logged, whether BAR2 is on or off (R53). While DRAM is in
self-refresh the aperture answers as while it is off (log 63). -/
def doBar2 (r : Req) (off : Nat) (acc : Bar2Op) (ecc : Ecc) (s : State) : State :=
  match r with
  | .core _ => { s with resp := .busError }
  | .host pasid =>
    let len := bar2Len acc
    if !s.answers || 0x10000000 < off + len then { s with resp := .unsupported }
    else if pasid.isSome then { s.pasidRefused pasid (bar2Writes acc) false 0 off with resp := .unsupported }
    else if !s.flag R.hifAperCtrl F.hifAperCtrl_enable || s.dmc.selfRefresh then
      { (if bar2Poisoned acc then s.poisonRefused len else s) with resp := .unsupported }
    else if bar2Poisoned acc then { s.poisonRefused len with resp := .done }
    else
      let a := s.aperture + off
      match s.aperDenied a len (bar2Writes acc) with
      | some s => (match acc with
        | .read n => { s with resp := .data (List.replicate n 0xFF#8) }
        | .write _ _ => { s with resp := .done })
      | none => match acc with
        | .read n =>
          let (d, l, s) := s.dramRead a n 0x20 0 ecc
          { s with resp := if l.isEmpty then .data d else .poisoned d }
        | .write d _ => { s.dramWrite a d 0x20 0 false with resp := .done }

/-! ### Reset causes and the function-level reset (16_power_resets_and_start_up.md R461, R465) -/

/-- The reset log takes a cause. -/
def State.noteReset (s : State) (cause : Nat) : State :=
  let s := s.put R.pwrResetCause F.pwrResetCause_previous (s.fld R.pwrResetCause F.pwrResetCause_cause)
  (s.put R.pwrResetCause F.pwrResetCause_cause cause).count R.pwrResetCause F.pwrResetCause_count

/-- The MSI-X table and the pending-bit array return to their reset values. -/
def State.resetMsix (s : State) : State :=
  let s := s.resetKeys fun k => K.msix 0 0 ≤ k && k < K.pba 64
  { s with hif := { s.hif with lastMsg := [], merged := [] } }

/-- Every station command ends without a record. -/
def State.endStation (s : State) : State :=
  let s := s.setSpace 256 {}
  let host (src : FloorSrc) : Bool := match src with | .host .. => true | .dram _ => false
  let s := s.each (List.range 8) fun s o => s.updFloor o fun x => { x with waiting := x.waiting.filter fun f => !host f }
  let s := s.each (s.haul.xfers.filter fun x => x.sp == 256) fun s x => s.xferFails x 0x6002 0
  s.each (List.range 8) fun s o =>
    match (s.floorSt o).load with
    | some (src, _) => if host src then s.floorFailed o 0x6002 0 else s
    | none => s

/-- A slice is unbound by an FLR: records are dropped. -/
def State.flrSlice (s : State) (sl : Nat) : State :=
  match (s.slice sl).st with
  | .unbound => s
  | .resetting =>
    ((s.updSlice sl fun x => { x with unbinding := true, discard := true }).updSpace sl fun x =>
      { x with heldRecs := [] }).settleReset sl
  | _ => s.startReset sl true true 0x6002

/-- Every owner lock clears. -/
def State.clearOwnerLocks (s : State) : State :=
  s.each ((s.cells.filter fun e => e.1 < 0x1000000 && e.1 % 0x1000 == 0x20).map (·.1)) fun s a => s.put a ⟨0, 0⟩ 0

/-- FLR. Each unbinding ends at its RESET_END. -/
def doFlr (s : State) : State :=
  let s := (s.noteReset 7).decide .flr
  let s := (State.resetMsix { s with hif := s.hif.flrConfig }).dropReads.clearOwnerLocks.endStation
  let s := s.each (s.slices.map (·.1)) State.flrSlice
  let s := s.resetKeys fun a => 0x10000 ≤ a && a < 0x14000 && 0x40 ≤ a % 0x1000
  let s := s.each (s.cmds.map (·.1)) fun s sp => s.updSpace sp fun x => { x with gens := [], cursor := 0 }
  s.updHaul fun h => { h with idGens := [] }

end Sys2Proof.Machine
end

