-- ==== Sys2Proof/Machine/HaulLink.lean ====
section
/-!
DEFINITION. The haul link and the roles of a pair: pair states, elections, frames with their sequence numbers,
acknowledgements and replays, training and loss of the link, and what each state change does to the station
(15_pairs_and_live_insertion.md R417 to R431, R444, R451). The messages themselves stand in Pair.lean and Mirror.lean.
-/

namespace Sys2Proof.Machine

/-! ### Pair states (R423) -/

/-- The pair state and the role. -/
def State.pairSt (s : State) : Nat := s.fld R.pairStatus F.pairStatus_state
def State.pairRole (s : State) : Nat := s.fld R.pairStatus F.pairStatus_role

/-- The haul link is up. -/
def State.linkOn (s : State) : Bool := s.flag R.pairLinkStatus F.pairLinkStatus_up

/-- Change the pair state and the role. -/
def State.setPair (s : State) (st role : Nat) : State :=
  if s.pairSt = st ∧ s.pairRole = role then s
  else ((s.put R.pairStatus F.pairStatus_state st).put R.pairStatus F.pairStatus_role role).event 0xB0 0 0

/-- Change fields of the pair. -/
def State.updPair (s : State) (f : Pair → Pair) : State := { s with pair := f s.pair }

/-- PAIR_STATUS as read. -/
def State.pairStatusWord (s : State) : Word :=
  let w := F.pairStatus_role_line.put (s.rd R.pairStatus) (b2n (s.pair.roleHeld || s.pair.roleLow))
  F.pairStatus_link_up.put (F.pairStatus_hb_seen.put w (b2n s.pair.hbSeen)) (b2n s.linkOn)

/-- PAIR_FEED as read: the outputs whose feed this module drives. -/
def State.pairFeedWord (s : State) : Word :=
  F.pairFeed_driving.put (s.rd R.pairFeed) (s.pair.feedSel.foldl (fun m o => m ||| 2 ^ o) 0)

/-- Cause bit 2 of R170, the pair deduction: while a primary has no partner in PAIRED (R423). -/
def State.setLone (s : State) (b : Bool) : State :=
  if s.causeBit 2 = b then s
  else
    let rest := s.reductions.filter fun e => e.cause != 2
    let waits := s.reductionWaits
    let s : State := { s with reductions := if b && !waits.isEmpty then rest ++ [Reduction.mk 2 0 waits] else rest }
    ((s.setCause 2 b).syncReff).shedPass false

/-- Outputs that run. -/
def State.runningOuts (s : State) : List Nat := (List.range 8).filter fun o => (s.out o).gen == .running

/-- A feed move of an output at its next horizontal blanking; an output that does not run moves at once (R441, R444). -/
def State.askFeed (s : State) (o t : Nat) (mine : Bool) : State :=
  if (s.out o).gen == .running || (s.out o).gen == .stopping then
    s.updPair fun p => { p with moves := p.moves ++ [{ o := o, t := t, mine := mine }] }
  else
    (s.updPair fun p => { p with feedSel := if mine then insertNat o p.feedSel else p.feedSel.filter (· ≠ o) }).event 0xB0 2 0

/-- Every feed comes to this module (R444, R446). -/
def State.feedAll (s : State) : State :=
  let s := s.put R.pairFeed F.pairFeed_moved 0
  s.each ((List.range 8).filter fun o => !s.pair.feedSel.contains o) fun s o => s.askFeed o s.time true

/-! ### Copies of the pair's exchange (R426, R433) -/

/-- Imports whose writes and decision the secondary has acknowledged become current (R433). -/
def State.finishMirrored (s : State) (p : Nat → Bool) : State :=
  let ready := s.haul.mirrorWait.filter fun e => p e.2.2
  let s := s.updHaul fun h => { h with mirrorWait := h.mirrorWait.filter fun e => !p e.2.2 }
  s.each ready fun s (sp, handle, _) => match s.xfer sp handle with
    | some x => finishImport x s
    | none => s

/-- The exchange with a partner ends: nothing is forwarded or awaited any more. -/
def State.endExchange (s : State) : State :=
  let s := s.updPair fun p => { p with
    forwarding := false, sent := [], queued := [], fenced := [], latches := [], own := [], theirs := [],
    verify := [], verifying := false, copying := false, unattr := [], edge := none, starts := [], aligned := false,
    recheck := false }
  (s.clrF R.pairCatchup F.pairCatchup_active).finishMirrored fun _ => true

/-- The primary goes on alone and feeds every output (R423, R444). -/
def State.goAlone (s : State) : State :=
  (((s.endExchange).setPair 2 1).feedAll).setLone true

/-- A module that must give up its state: a secondary that yields, or a primary that has lost its role. Its pair takeover
reset follows (R445, R450). -/
def State.yieldNow (s : State) (cause : Nat) : State :=
  let s := if cause = 5 ∨ cause = 6 then s.put R.pairStatus F.pairStatus_last_cause cause else s
  let s := if cause = 0 then s else s.send (.yield cause)
  State.linkLost ((s.setPair 7 0).updPair fun p => { p with yielding := some cause })

/-- A catch-up has failed: the newcomer counts it and takes the takeover reset (R451). -/
def State.catchupFailed (s : State) : State :=
  let s := (s.count R.pairCatchupFails ⟨31, 0⟩).setF R.pairCatchup F.pairCatchup_failed
  ((s.clrF R.pairCatchup F.pairCatchup_active).event 0xB0 3 2).yieldNow 0

/-- A divergence on the secondary: during its catch-up a failure, later a yield with cause 5 (R435, R451). -/
def State.diverge (s : State) : State :=
  if !s.secondary then s
  else if s.pairSt = 6 then s.yieldNow 5
  else
    let s := (s.send (.yield 5)).put R.pairStatus F.pairStatus_last_cause 5
    s.catchupFailed

/-! ### Elections (R421, R422) -/

/-- The election key of this module (R422). -/
def State.pairKey (s : State) : Nat := s.num64 R.pairKeyLo R.pairKeyHi

/-- The station identifier. -/
def State.stationId (s : State) : Nat := s.num64 R.pairStationIdLo R.pairStationIdHi

/-- Take a station identifier where none is held (PAIR_STATION_ID). -/
def State.takeStationId (s : State) (k : Nat) : State :=
  if s.stationId = 0 then (s.wrN R.pairStationIdLo k).wrN R.pairStationIdHi (k / 2 ^ 32) else s

/-- ELECTION: in ELECTING with PAIR_ROLE released, the start bit. -/
def doElection (s : State) : State :=
  if s.pairSt = 1 && !s.pair.roleLow then s.updPair fun p => { p with electing := true } else s

/-- A secondary candidate: its host link is held down (R418, R451). -/
def State.becomeSecondary (s : State) : State := (s.setPair 3 2).linkLost

/-- ELECTION_DONE: the key with the higher value wins; a module alone on the line meets a key of 0. -/
def doElectionDone (partner : Nat) (s : State) : State :=
  if s.pairSt = 1 && s.pair.electing then
    if partner < s.pairKey then
      let s := s.updPair fun p => { p with electing := false, roleHeld := true, hbOut := true, hbSeen := partner != 0 }
      let s := ((s.setPair 2 1).put R.pairStatus F.pairStatus_last_cause 4).takeStationId s.pairKey
      s.feedAll.setLone true
    else
      let s := s.updPair fun p => { p with electing := false, roleLow := true, hbOut := true, hbSeen := true }
      s.becomeSecondary.takeStationId partner
  else s

/-- ROLE_HELD_BY_PRIMARY: in ELECTING the line is held without a start bit. -/
def doRoleHeld (s : State) : State :=
  if s.pairSt = 1 then
    (s.updPair fun p => { p with electing := false, roleLow := true, hbOut := true, hbSeen := true }).becomeSecondary
  else s

/-! ### Training and loss (R424, R429) -/

/-- HELLO names the key, the digest, the part and the pair state (R428, R451). -/
def State.sendHello (s : State) : State :=
  s.send (.hello s.pairKey s.pair.digest (s.rd R.stnFamily) (s.rd R.stnCapsMem) s.pairSt)

/-- HAUL_LINK_TRAINED: frames flow; each channel counts from 0 at both ends. A tripped guard holds the transmitter stopped (R420). -/
def doLinkTrained (s : State) : State :=
  if s.linkOn || s.pairSt < 2 || s.pairSt = 7 || !s.pllOk 5 || s.flag R.pairStatus F.pairStatus_guard_tripped then s
  else
    let s := s.updPair fun p => { p with
      seqT := 0, seqB := 0, rxT := 0, rxB := 0, nakOwed := false, sent := [], queued := [], fenced := [], hbSeen := true }
    let s := (s.setF R.pairLinkStatus F.pairLinkStatus_up).clrF R.pairLinkStatus F.pairLinkStatus_training
    ((s.put R.pairLinkStatus F.pairLinkStatus_lane_map 0xFF).event 0xB0 1 1).sendHello

/-- In PAIRED both modules hold their roles while the reference fails; the frames in flight are lost, and the pair proves itself anew
when the link returns (R450). -/
def State.holdPair (s : State) : State :=
  s.updPair fun p => { p with
    recheck := true, sent := [], queued := [], fenced := [], own := [], theirs := [], verify := [], edge := none }

/-- The haul link goes down. A primary goes on alone. A newcomer's catch-up has failed; a secondary in PAIRED waits for
partner loss or the takeover reset (R429, R444, R451, "Haul link lost with both modules alive"). -/
def State.haulDown (s : State) : State :=
  if !s.linkOn then s
  else
    let s := (s.clrF R.pairLinkStatus F.pairLinkStatus_up).setF R.pairLinkStatus F.pairLinkStatus_training
    let s := ((s.put R.pairLinkStatus F.pairLinkStatus_lane_map 0).count R.pairLinkStatus F.pairLinkStatus_downs).event 0xB0 1 0
    if s.pairSt = 6 && !s.refOk then s.holdPair
    else if s.pairRole = 1 then s.goAlone
    else if 3 ≤ s.pairSt ∧ s.pairSt ≤ 5 then s.catchupFailed
    else s

/-- A pair that must prove itself anew has failed: the secondary yields, the primary goes on alone (R450). -/
def State.recheckFails (s : State) : State :=
  let s := s.updPair fun p => { p with recheck := false }
  if s.pairRole = 1 then s.goAlone else s.yieldNow 5

/-- HAUL_LINK_RETRY: a link that failed to train tries again (R424); a pair whose link does not return with the reference has
failed (R450). -/
def doLinkRetry (s : State) : State :=
  if s.linkOn || s.pairSt < 2 || s.pairSt = 7 then s
  else
    let s := s.setF R.pairLinkStatus F.pairLinkStatus_training
    if s.pair.recheck && s.refOk then s.recheckFails else s

/-! ### Frames (R425 to R427) -/

/-- The message type (R428). -/
def Msg.code : Msg → Nat
  | .idle => 0x01
  | .hello .. => 0x02
  | .time .. => 0x03
  | .lineCv .. => 0x04
  | .latch .. => 0x05
  | .latchAck .. => 0x06
  | .writeReg .. => 0x07
  | .writeDram .. => 0x08
  | .decision .. => 0x09
  | .touchState .. => 0x0A
  | .hapticState .. => 0x0B
  | .streamData .. => 0x0C
  | .feed .. => 0x0D
  | .handover .. => 0x0E
  | .yield .. => 0x0F
  | .catchupDone .. => 0x10

/-- The 16 bytes of a frame's header, before a payload of `units` units of 16 bytes (R425). -/
def Frame.header (f : Frame) (units : Nat) : List Byte :=
  leBytes 1 f.msg.code ++ leBytes 1 (b2n f.bulk + 2 * b2n f.nak) ++ leBytes 2 units ++ leBytes 3 f.seq ++ leBytes 1 0 ++
    leBytes 3 f.ackT ++ leBytes 1 0 ++ leBytes 3 f.ackB ++ leBytes 1 0

/-- A frame as it stands on the lanes: header, the payload filled up to units of 16 bytes, and the trailer with the CRC-32 of
both (R425). Which bytes a message's fields have in the payload R428 does not give (log 113). -/
def Frame.bytes (f : Frame) (payload : List Byte) : List Byte :=
  let units := ceilDiv payload.length 16
  let body := f.header units ++ payload ++ List.replicate (units * 16 - payload.length) 0#8
  body ++ leBytes 4 (crc32 body) ++ List.replicate 12 0#8

/-- The bytes received are those of a frame whose CRC is correct (R426). -/
def frameGood (bs : List Byte) : Bool :=
  let body := bs.take (bs.length - 16)
  32 ≤ bs.length && leNat ((bs.drop (bs.length - 16)).take 4) == crc32 body

/-- Send the messages that waited for room in the window. -/
def State.sendQueued : Nat → State → State
  | 0, s => s
  | fuel + 1, s =>
    match s.pair.queued.find? fun m => (s.pair.sent.filter fun f => f.bulk == m.bulk).length < 2048 with
    | none => s
    | some m => State.sendQueued fuel (State.send (s.updPair fun p => { p with queued := p.queued.erase m }) m)

/-- The frames that a header acknowledges are done with (R426, R433). -/
def State.acked (s : State) (ackT ackB : Nat) : State :=
  let done (f : Frame) : Bool := serialLe 24 f.seq (if f.bulk then ackB else ackT)
  let s := s.updPair fun p => { p with sent := p.sent.filter fun f => !done f }
  let s := State.sendQueued s.pair.queued.length s
  s.finishMirrored fun q => serialLe 24 q ackB

/-- A frame that is not accepted: a NAK is owed (R426). -/
def State.oweNak (s : State) : State := s.updPair fun p => { p with nakOwed := true }

/-- BAD_FRAME: counted and discarded (R426, R428). -/
def doBadFrame (s : State) : State :=
  if s.linkOn then (s.count R.pairLinkCrc ⟨31, 0⟩).oweNak else s

/-- Mark the frames of a channel as replayed once more. -/
def State.replayed (s : State) (bulk : Bool) : State :=
  s.updPair fun p => { p with sent := p.sent.map fun f => if f.bulk == bulk then { f with replays := f.replays + 1 } else f }

/-- FRAME_REPLAY: the channel is sent again from its oldest unacknowledged frame; the eighth replay of a frame takes the link
down (R426, R429). -/
def doReplay (bulk : Bool) (s : State) : State :=
  let fs := s.pair.sent.filter fun f => f.bulk == bulk
  if !s.linkOn || fs.isEmpty then s
  else
    let s := (s.replayed bulk).count R.pairLinkReplay ⟨31, 0⟩ fs.length
    let s := if fs.any fun f => f.replays = 3 then s.event 0xB0 1 2 else s
    if fs.any fun f => f.replays = 7 then s.haulDown
    else s.each (s.pair.sent.filter fun f => f.bulk == bulk) fun s f => s.emit (.frame f)

/-- IDLE sends the timing channel's next number and does not consume it (R426, R427). -/
def State.sendIdle (s : State) : State :=
  if s.linkOn then (s.emit (.frame (s.nextFrame .idle))).updPair fun p => { p with nakOwed := false } else s

/-- IDLE, sent or received: an accepted IDLE brings acknowledgements (R426, R427). -/
def doIdle (rx : Option FrameHdr) (s : State) : State :=
  match rx with
  | none => s.sendIdle
  | some h =>
    if !s.linkOn then s
    else if h.seq.toNat = s.pair.rxT then s.acked h.ackT.toNat h.ackB.toNat
    else s.oweNak

/-- The state after a frame of a channel is accepted: its acknowledgements are taken and the next number is expected. -/
def State.accepted (s : State) (h : FrameHdr) (bulk : Bool) : State :=
  let s := s.acked h.ackT.toNat h.ackB.toNat
  if bulk then s.updPair fun p => { p with rxB := (p.rxB + 1) % 2 ^ 24 }
  else s.updPair fun p => { p with rxT := (p.rxT + 1) % 2 ^ 24 }

/-- The number that a channel expects next. -/
def State.wants (s : State) (bulk : Bool) : Nat := if bulk then s.pair.rxB else s.pair.rxT

/-- Receive a frame of a channel: applied when it is the next in its channel, else discarded (R426). -/
def State.receive (s : State) (h : FrameHdr) (bulk : Bool) (f : State → State) : State :=
  if !s.linkOn then s
  else if h.seq.toNat ≠ s.wants bulk then s.oweNak
  else f (s.accepted h bulk)

end Sys2Proof.Machine
end

