-- ==== Sys2Proof/Machine/Pair.lean ====
section
/-!
DEFINITION. The messages of a pair that act on time, lines, latches, touch, haptics, streams and DRAM; feed moves; the
catch-up of a newcomer; partner loss, takeover and planned handover (15_pairs_and_live_insertion.md R432 to R451).
Mirrored register writes and decisions stand in Mirror.lean.
-/

namespace Sys2Proof.Machine

/-! ### HELLO and the catch-up (R451) -/

/-- A HELLO names a partner whose image and part match this module's. -/
def State.helloMatches (s : State) (digest family capsMem : Word) : Bool :=
  digest == s.pair.digest && family == s.rd R.stnFamily && capsMem == s.rd R.stnCapsMem

/-- HELLO: the primary accepts a matching newcomer, and the newcomer enters CATCH_UP. -/
def helloEffect (key : Nat) (digest family capsMem : Word) (st : Nat) (s : State) : State :=
  let s := (s.wrN R.pairPartnerKeyLo key).wrN R.pairPartnerKeyHi (key / 2 ^ 32)
  let ok := s.helloMatches digest family capsMem
  if s.pairRole = 1 ∧ s.pairSt = 2 ∧ st = 3 then
    if ok then
      let s := s.updPair fun p => { p with forwarding := true, copying := true, copyPos := 0, copyStart := s.time }
      (s.wrN R.pairCatchup (2 ^ 31 + b2n (s.flag R.pairCatchup F.pairCatchup_failed) * 2 ^ 30)).event 0xB0 3 0
    else s.event 0xB0 3 2
  else if s.pairRole = 2 ∧ s.pairSt = 3 ∧ st = 2 ∧ ok then
    let s := s.takeStationId key
    ((s.setPair 4 2).setF R.pairCatchup F.pairCatchup_active).event 0xB0 3 0
  else s

/-- HELLO_RETRY: the newcomer offers itself again after 10 s. -/
def doHelloRetry (s : State) : State :=
  if s.pairSt = 3 && s.linkOn then (s.at (s.time + 10000000000)).sendHello else s

/-- CATCHUP_RETRY: a newcomer whose catch-up failed starts again after 1 s: its link trains. -/
def doCatchupRetry (s : State) : State :=
  if s.pairSt = 3 && !s.linkOn then
    (s.at (s.time + 1000000000)).setF R.pairLinkStatus F.pairLinkStatus_training
  else s

/-- One block of the copy as a message of its own, poisoned where it fails (R432; 13_memory_controller.md R382, R385). -/
def State.copyBlock (s : State) (a : Nat) (bad : Bool) : State :=
  s.send (.writeDram a (Mem.read 0 s.mem.dram a 64) true bad)

/-- The mirror's reads of blocks: the blocks that failed (13_memory_controller.md R380, R382). What a read finds is a free value. -/
def State.mirrorReads (s : State) (ds : List Nat) : List Nat × State :=
  ds.foldl (fun (l, s) d =>
    let (res, s) := s.eccFree
    let (ok, s) := s.readBlock d 0x40 0 false res
    (if ok then l else l ++ [d], s)) ([], s)

/-- The bytes of one copy message: 63 blocks. -/
def copyChunk : Nat := 4032

/-- The floor slots and the effect store follow the DRAM in the copy's addresses (log 41). -/
def copyStore : Nat := dramEnd + 8 * floorSlotLen
def copyEnd : Nat := copyStore + storeEnd

/-- Copy the next chunk of the floor slots or of the effect store. -/
def State.copyOnDie (s : State) (a : Nat) : State :=
  let floor := a < copyStore
  let n := min copyChunk ((if floor then copyStore else copyEnd) - a)
  let data := if floor then Mem.read 0 s.mem.floor (a - dramEnd) n else Mem.read 0 s.mem.store (a - copyStore) n
  (s.send (.writeDram a data true false)).updPair fun p => { p with copyPos := a + n }

/-- Copy the next chunk of DRAM. The world bit of a copy is that of the protected world, which may write every area (log 64). -/
def State.copyDram (s : State) (a : Nat) : State :=
  let n := min copyChunk (dramEnd - a)
  let blocks := blocksOf a n
  let (bad, s) := s.mirrorReads blocks
  let s :=
    if bad.isEmpty then s.send (.writeDram a (Mem.read 0 s.mem.dram a n) true false)
    else s.each blocks fun s d => s.copyBlock (d * 64) (bad.contains d)
  let s := s.updPair fun p => { p with copyPos := a + n }
  s.put R.pairCatchup F.pairCatchup_copied_mib ((a + n) / 0x100000)

/-- Copy the read-back state of every mirrored page, and the domains' ratios, after the memories (log 41). -/
def State.copyRegs (s : State) : State :=
  let s := s.each (s.cells.filter fun e => catchupCell e.1) fun s e => s.send (.writeReg e.1 e.2 .copy)
  s.each ((List.range 16).filter hasRatio) fun s d => s.send (.writeReg R.clkDomCfg (w32 (d * 2 ^ 24 + (s.dom d).target)) .copy)

/-- Copy the next chunk: DRAM in ascending order, then the floor slots and the effect store. -/
def State.copyNext (s : State) : State :=
  let a := s.pair.copyPos
  if a < dramEnd then s.copyDram a else s.copyOnDie a

/-- Time passes for the copy: it goes on at no more than 8 GB/s, once the plans without its allowance are in use
(05_bench_plan_and_fit_check.md R176), and CATCHUP_DONE ends it. -/
def State.copyStep (s : State) : State :=
  if !s.pair.copying || !s.linkOn then s
  else if copyEnd ≤ s.pair.copyPos then
    let s := s.copyRegs.updPair fun p => { p with copying := false, verifying := true, verify := [] }
    s.send (.catchupDone ((s.nextBulkSeq + 2 ^ 24 - 1) % 2 ^ 24))
  else if s.reductions.any fun e => e.cause == 2 then s
  else if s.pair.copyPos + copyChunk ≤ 8 * (s.time - s.pair.copyStart) && s.pair.queued.isEmpty then s.copyNext
  else s

/-- What the block does with no command waiting: time passes, and a catch-up goes on (log 18). -/
def idleStep (s : State) : State := (idleTick s).copyStep

/-- Every running output has compared equal over 2 frames: PAIRED (R451). -/
def State.tryPaired (s : State) : State :=
  let full := s.runningOuts.all fun o => 2 * (s.timing o).va ≤ Tab.get 0 s.pair.verify o
  if !s.pair.verifying || !full || (s.secondary && s.pairSt ≠ 5) then s
  else
    let s := s.updPair fun p => { p with verifying := false, verify := [] }
    let s := (((s.setPair 6 s.pairRole).clrF R.pairCatchup F.pairCatchup_active).event 0xB0 0 3).event 0xB0 3 1
    if s.pairRole = 1 then s.setLone false else s

/-- Every running output has compared equal over 2 frames since the reference returned: the pair stays PAIRED (R450). -/
def State.tryRechecked (s : State) : State :=
  if s.pair.recheck && s.runningOuts.all fun o => 2 * (s.timing o).va ≤ Tab.get 0 s.pair.verify o then
    s.updPair fun p => { p with recheck := false, verify := [] }
  else s

/-- The newcomer has the primary's state and time: it compiles its plans and enters VERIFY (R451). -/
def State.enterVerify (s : State) : State :=
  if s.pairSt = 4 && s.pair.verifying && s.pair.aligned then
    let shed := s.shedWith none
    let cause := s.fld (R.bplCapacity 0) F.bplCapacity_causes % 16
    let s := s.each s.activeOutputs fun s o => s.recompile o ((shed.filter fun e => e.1 == o).map (·.2)) cause
    ((s.setPair 5 2).updPair fun p => { p with verify := [] }).tryPaired
  else s

/-- CATCHUP_DONE: every frame of the copy has been applied. -/
def catchupDoneEffect (s : State) : State :=
  if s.pairSt = 4 then (s.updPair fun p => { p with verifying := true }).enterVerify else s

/-! ### Time (R419, R436) -/

/-- TIME: what the next PAIR_SYNC edge applies. -/
def timeEffect (t : Nat) (starts : List (Nat × Nat)) (s : State) : State :=
  if s.secondary then s.updPair fun p => { p with edge := some t, starts := starts } else s

/-- A timing generator takes the grid of the primary's: started at `t0`, a whole number of frames ago. -/
def State.alignGen (s : State) (o t0 : Nat) : State :=
  let x := s.out o
  let t := s.timing o
  if x.gen == .running && x.t0 != t0 && t0 ≤ s.time then
    s.setOut o { x with t0 := t0, clk0 := 0, ticks := (s.time - t0) * t.khz / (t.vt * t.ht * 1000000) }
  else s

/-- PAIR_SYNC_EDGE. The primary pulses at the next multiple of 1 ms and names the edge after it; the secondary takes the time
that the last TIME named, or compares with it. -/
def doSyncEdge (s : State) : State :=
  if s.pairRole = 1 then
    let t := (s.time / 1000000 + 1) * 1000000
    let s := (s.at t).emit .pairSync
    let s := if s.forwards then
        s.send (.time (t + 1000000) (s.runningOuts.map fun o => (o, s.gridTime o 0)))
      else s
    if s.pairSt = 2 && s.pair.sent.isEmpty then s.tryPaired else s
  else match s.secondary, s.pair.edge with
    | true, some t =>
      let starts := s.pair.starts
      let s := s.updPair fun p => { p with edge := none, starts := [] }
      if !s.pair.aligned then
        let s := { s with time := t, ticks := (t / stationPeriod s.rate * stationPeriod s.rate, t / 62500 * 62500,
                                               t / 250000 * 250000, t * 3 / 62500) }
        let s := s.each starts fun s e => s.alignGen e.1 e.2
        (s.updPair fun p => { p with aligned := true }).enterVerify
      else if t + 20 < s.time || s.time + 20 < t then s.diverge
      else s.each starts fun s e => s.alignGen e.1 e.2
    | _, _ => s

/-! ### Line check values (R439, R440) -/

/-- A feed move of a line, and the mark of an output that the secondary feeds (PAIR_FEED.moved). -/
def State.moveFeed (s : State) (o t : Nat) (mine : Bool) : State :=
  let away := mine == (s.pairRole == 2)
  (s.askFeed o t mine).put R.pairFeed ⟨16 + o, 16 + o⟩ (b2n away)

/-- A fault attributed to one module: captured, and the feed leaves that module (R440, R441). -/
def State.attribute (s : State) (e : LineCv) (partner : Bool) : State :=
  let s :=
    if s.flag R.pairAttrInfo F.pairAttrInfo_valid then s
    else
      let s := s.wrN R.pairAttrInfo (2 ^ 31 + b2n partner * 2 ^ 30 + e.o * 2 ^ 16 + e.flags % 32 * 2 ^ 8)
      (s.wrN R.pairAttrLine e.line).wrN R.pairAttrFrame e.frame
  let mine := s.pair.feedSel.contains e.o
  let s := if mine != partner then s.moveFeed e.o (s.lineTime e.o e.line) partner else s
  s.event 0xB0 2 0

/-- A difference that neither module explains (R440). -/
def State.unattributed (s : State) (o frame : Nat) : State :=
  let s := (s.count (R.pairUnattr o) ⟨31, 0⟩).event 0xB0 2 1
  let (n, last) := Tab.get (0, 0) s.pair.unattr o
  let n := if n = 0 then 1 else if last = frame then n else if (last + 1) % 2 ^ 32 = frame then n + 1 else 1
  let s := s.updPair fun p => { p with unattr := Tab.set (0, 0) p.unattr o (n, frame) }
  if 3 ≤ n && s.secondary then s.yieldNow 6 else s

/-- Both check values of a line are held (R440, R451). -/
def State.judgeLine (s : State) (a b : LineCv) : State :=
  let counted : Nat :=
    let n := Tab.get 0 s.pair.verify a.o
    if n = 0 ∧ a.line ≠ 0 then 0 else n + 1
  if a.cv = b.cv then
    if s.pair.verifying && (s.pairSt = 5 || s.pairSt = 2) then
      (s.updPair fun p => { p with verify := Tab.set 0 p.verify a.o counted }).tryPaired
    else if s.pair.recheck then
      (s.updPair fun p => { p with verify := Tab.set 0 p.verify a.o counted }).tryRechecked
    else s
  else if s.pair.recheck then (if s.secondary then s.yieldNow 5 else s)
  else if s.pairSt = 6 then
    match a.flags != 0, b.flags != 0 with
    | true, false => s.attribute a false
    | false, true => s.attribute b true
    | _, _ => s.unattributed a.o a.frame
  else if s.pairSt = 5 then s.catchupFailed
  else s.updPair fun p => { p with verify := Tab.set 0 p.verify a.o 0 }

/-- The lines of an output whose check values both modules have given are compared. -/
def State.compareLines (s : State) (o : Nat) : State :=
  let same (a b : LineCv) : Bool := a.o == b.o && a.line == b.line && a.frame == b.frame
  let mine := s.pair.own.filter fun a => a.o == o
  mine.foldl (fun s a =>
    match s.pair.theirs.find? (same a) with
    | none => s
    | some b =>
      let s := s.updPair fun p => { p with own := p.own.filter (· ≠ a), theirs := p.theirs.filter (· ≠ b) }
      s.judgeLine a b) s

/-- A LINE_CV comes too late: the line before its own has started (R439). -/
def State.lineLate (s : State) (e : LineCv) : Bool :=
  let t := s.timing e.o
  let place (y : Nat) : Nat := (y + t.vt - s.latchLine e.o t) % max 1 t.vt
  (s.out e.o).lead && e.frame == s.num (R.outFrame e.o) && place e.line ≤ place (s.out e.o).line + 1

/-- LINE_CV. -/
def lineCvEffect (e : LineCv) (s : State) : State :=
  if s.lineLate e then
    let s := s.count R.pairLinkLate ⟨31, 0⟩
    s.updPair fun p => { p with
      verify := if p.verifying || p.recheck then Tab.set 0 p.verify e.o 0 else p.verify,
      own := p.own.filter fun a => !(a.o == e.o && a.line == e.line && a.frame == e.frame) }
  else
    (s.updPair fun p => { p with theirs := (p.theirs.filter fun b => !(b.o == e.o && b.line == e.line)) ++ [e] }).compareLines e.o

/-- LINE_START: the line, and in a pair the comparison of its check value. -/
def doLine (o : Nat) (late : Option Nat) (ecc : Ecc) (s : State) : State :=
  (doLineStart o late ecc s).compareLines o

/-! ### Feeds (R441) -/

/-- FEED: the partner has announced a move. -/
def feedEffect (o t : Nat) (toPrimary : Bool) (s : State) : State :=
  s.moveFeed o t (toPrimary == (s.pairRole == 1))

/-- PAIR_CTRL.feed_home: every moved output returns to the primary at its next blanking. -/
def State.feedHome (s : State) : State :=
  if s.pairRole ≠ 1 then s
  else
    let moved := (List.range 8).filter fun o => bitAt (s.fld R.pairFeed F.pairFeed_moved) o
    let s := s.setF R.pairCtrl F.pairCtrl_feed_home
    s.each moved fun s o => (s.moveFeed o s.time true).send (.feed o s.now true)

/-- PAIR_CTRL as read: feed_home until every move is done. -/
def State.pairCtrlWord (s : State) : Word :=
  F.pairCtrl_feed_home.put (s.rd R.pairCtrl)
    (b2n (s.flag R.pairCtrl F.pairCtrl_feed_home && s.pair.moves.any fun m => m.mine))

/-! ### Latches (R429, R434, R435) -/

/-- The secondary applies a LATCH: before the cut-off it compares the plan and acknowledges, afterwards it answers late. -/
def State.applyLatch (s : State) (o frame crc : Nat) : State :=
  let x := s.out o
  if x.gen != .running || s.inFreeze o || frame ≠ (s.num (R.outFrame o) + 1) % 2 ^ 32 then s.send (.latchAck o frame true)
  else if 5 ≤ s.pairSt ∧ crc ≠ crc32 (s.planBytes o x.next) then s.diverge
  else
    let rest := s.pair.latches.filter fun (p, f, _, _) => !(p == o && f == frame)
    (s.updPair fun p => { p with latches := rest ++ [(o, frame, crc, true)] }).send (.latchAck o frame false)

/-- Latches whose fence has been reached. -/
def State.applyFenced (s : State) : State :=
  let ready (e : Nat × Nat × Nat × Nat) : Bool := serialLe 24 e.2.2.1 ((s.pair.rxB + 2 ^ 24 - 1) % 2 ^ 24)
  let l := s.pair.fenced.filter ready
  let s := s.updPair fun p => { p with fenced := p.fenced.filter fun e => !ready e }
  s.each l fun s (o, frame, _, crc) => s.applyLatch o frame crc

/-- LATCH. -/
def latchEffect (o frame fence crc : Nat) (s : State) : State :=
  if s.secondary then (s.updPair fun p => { p with fenced := p.fenced ++ [(o, frame, fence, crc)] }).applyFenced else s

/-- LATCH_ACK: the commits may latch at that tick, or wait for a LATCH of the next. -/
def latchAckEffect (o frame : Nat) (late : Bool) (s : State) : State :=
  s.updPair fun p => { p with
    latches := if late then p.latches.filter fun (q, f, _, _) => !(q == o && f == frame)
      else p.latches.map fun (q, f, c, a) => (q, f, c, a || (q == o && f == frame)) }

/-! ### Mirrored data (R430, R432) -/

/-- Data of the floor slots or of the effect store, at their offsets beyond the DRAM (log 41). -/
def State.onDieStore (s : State) (off : Nat) (data : List Byte) : State :=
  if off + data.length ≤ copyStore then
    { s with mem := { s.mem with floor := Mem.write 0 s.mem.floor (off - dramEnd) data } }
  else if copyStore ≤ off ∧ off + data.length ≤ copyEnd then
    { s with mem := { s.mem with store := Mem.write 0 s.mem.store (off - copyStore) data } }
  else s

/-- WRITE_DRAM: checked with the carried world bit, then written; poisoned data leave poisoned blocks. -/
def writeDramEffect (off : Nat) (data : List Byte) (world1 poisoned : Bool) (s : State) : State :=
  if !s.secondary then s
  else if dramEnd ≤ off then s.onDieStore off data
  else if dramEnd < off + data.length then s
  else if !world1 && s.dramProtected off data.length then (s.denial true 0 0x40 off).diverge
  else
    let s := s.dramStore off data 0x40 0
    if poisoned then s.each (blocksOf off data.length) fun s d => s.setMark d 2 else s

/-- TOUCH_STATE: the panel as the primary's last scan left it. -/
def touchEffect (n scan : Nat) (st : TouchMirror) (s : State) : State :=
  if s.secondary then
    s.updPanel n fun x => { x with
      base := st.base, delta := st.delta, contacts := st.contacts.foldl (fun t e => Tab.set none t e.1 (some e.2)) [],
      scans := scan, mode := if x.plan.isSome then 2 else x.mode, lastEnd := s.time }
  else s

/-- The channel state of a code (10_haptic_and_acoustic_feedback.md R296). -/
def hapModeOf (n : Nat) : HapMode :=
  match n with
  | 0 => .off
  | 1 => .ramp
  | 2 => .idle
  | 3 => .playing
  | 4 => .braking
  | _ => .fault

/-- HAPTIC_STATE: each channel as the primary's last loop tick left it. -/
def hapticEffect (chs : List HapMirror) (s : State) : State :=
  if s.secondary then
    s.each chs fun s m => s.updChan m.ch.val fun x => { x with
      mode := hapModeOf m.st, out := m.out, a := m.a, integ := m.integ, play := playOf m.play }
  else s

/-- STREAM_DATA: samples the primary has fetched. -/
def streamEffect (sl : Nat) (ch : Option Nat) (pos : Nat) (samples : List Int) (s : State) : State :=
  if s.secondary then
    let s := match ch with
      | some c => s.updHst (hstIdx sl c) fun x => { x with fetchPos := pos }
      | none => s.updAst sl fun x => { x with fetchPos := pos }
    s.streamSamples sl ch samples
  else s

/-! ### Takeover (R444 to R448) -/

/-- A panel goes on with a bridge scan; the scan under way is lost and counted (R446). -/
def State.bridgePanel (s : State) (n : Nat) : State :=
  match (s.panel n).plan with
  | none => s
  | some p => s.updPanel n fun x => { x with
      plan := none, next := some { s.compileScan n p.set true with base := p.base, stride := p.stride },
      scans := (x.scans + 1) % 65536 }

/-- The commands that a takeover ends (R447). -/
def endsAtTakeover (op : Nat) : Bool := op == 1 || op == 2 || op == 5 || op == 0x10 || op == 0x11 || op == 0x12

/-- The work of an output at a takeover: what has an acknowledged tick latches, the rest ends (R447). -/
def State.takeoverCommits (s : State) (o : Nat) : State :=
  let frame := (s.num (R.outFrame o) + 1) % 2 ^ 32
  let acked := s.pair.latches.any fun (p, f, _, a) => p == o && f == frame && a
  let keep := if acked then (s.out o).accepted else []
  s.endCommits o (fun c => !keep.contains c) 0x6004 0

/-- The work of the slices at a takeover: each is told first, then its work ends (R447). -/
def State.takeoverWork (s : State) : State :=
  let sls := (s.slices.filter fun e => e.2.st != .unbound).map (·.1)
  let s := s.detachAll
  let s := s.each sls fun s sl =>
    let s := s.postEvent sl 0x8005 (leBytes 1 4 ++ leBytes 1 0xF ++ leBytes 1 0 ++ leBytes 1 0 ++
      leBytes 2 (s.fld (R.slcGrantSeq sl) F.slcGrantSeq_grant_seq))
    s.setResync sl true
  let s := s.each (s.cmds.map (·.1)) fun s sp =>
    s.each ((s.space sp).cmds.filter fun c => c.inProgress && endsAtTakeover c.op) fun s c => s.fail sp c.handle 0x6004 0
  s.each (List.range 8) State.takeoverCommits

/-- The secondary becomes primary (R446): `alone` unless its partner stays as secondary. -/
def State.takeover (s : State) (cause : Nat) (alone : Bool) : State :=
  let s := s.updPair fun p => { p with roleHeld := true, roleLow := false, handover := none, handoverModEn := false,
                                       yielding := none }
  let s := ((s.setPair (if alone then 2 else 6) 1).count R.pairStatus F.pairStatus_takeovers).put
    R.pairStatus F.pairStatus_last_cause cause
  let s := s.event 0xB0 0 1
  let s := s.takeoverWork
  let s := if alone then s.endExchange else s.updPair fun p => { p with forwarding := true, latches := [], fenced := [] }
  let s := s.feedAll
  let s := (s.each (List.range 8) State.bridgePanel).setLone alone
  s.settle

/-- PARTNER_LOSS: link, heartbeat and PAIR_ROLE have all failed (R444). Neither module declares loss while the reference fails
(R450). -/
def doPartnerLoss (s : State) : State :=
  if s.linkOn || s.pairSt < 2 || s.pairSt = 7 || !s.refOk then s
  else
    let s := s.updPair fun p => { p with roleLow := false, hbSeen := false }
    if s.pairRole = 1 then s.goAlone.event 0xB0 0 2
    else s.takeover 1 true

/-! ### Planned handover (R449) -/

/-- PLANNED_HANDOVER: t_h lies 10 µs ahead. A primary that yields with the link down gives the role up at once (R445). -/
def State.startHandover (s : State) (fault modEn : Bool) : State :=
  if s.pairSt = 6 && s.pairRole = 1 && s.pair.handover.isNone then
    let t := s.time + 10000
    let s := s.updPair fun p => { p with handover := some t, handoverModEn := modEn }
    let s := s.setF R.pairCtrl F.pairCtrl_handover
    let s := if fault then s.send (.yield 3) else s
    let s := s.send (.handover t)
    s.each s.runningOuts fun s o => s.askFeed o t false
  else if fault && s.pairRole = 1 && !s.linkOn then s.updPair fun p => { p with roleHeld := false, hbOut := false }
  else s.setF R.pairCtrl F.pairCtrl_refused

/-- HANDOVER: the secondary takes every feed from t_h on. -/
def handoverEffect (t : Nat) (s : State) : State :=
  if s.secondary && s.pairSt = 6 then
    let s := s.updPair fun p => { p with handover := some t }
    s.each s.runningOuts fun s o => s.askFeed o t true
  else s

/-- HANDOVER_ROLE_RELEASE, at t_h + 100 µs: the roles change. -/
def doRoleRelease (s : State) : State :=
  match s.pair.handover with
  | none => s
  | some t =>
    let s := s.at (t + 100000)
    if s.pairRole = 1 then
      let modEn := s.pair.handoverModEn
      let s := s.updPair fun p => { p with roleHeld := false, roleLow := true, handover := none, handoverModEn := false,
                                           forwarding := false, latches := [], feedSel := [] }
      let s := (s.clrF R.pairCtrl F.pairCtrl_handover).event 0xB0 0 4
      let s := (s.setPair 6 2).linkLost
      if modEn then s.yieldNow 0 else s
    else if s.secondary then
      (s.takeover (if s.pair.yielding = some 3 then 3 else 2) false).event 0xB0 0 4
    else s

/-- YIELD: the partner gives up, for a module fault ahead of a handover, or as a secondary (R445). -/
def yieldEffect (cause : Nat) (s : State) : State :=
  if cause = 3 then s.updPair fun p => { p with yielding := some 3 }
  else if (cause = 5 ∨ cause = 6) ∧ s.pairRole = 1 then
    (s.put R.pairStatus F.pairStatus_last_cause cause).goAlone
  else s

/-! ### The pair guard (R420) -/

/-- PAIR_GUARD_TRIP. No guard trips during a reference failure. -/
def doGuardTrip (s : State) : State :=
  if s.pairSt = 0 || !s.refOk then s
  else
    let s := s.haulDown.setF R.pairStatus F.pairStatus_guard_tripped
    s.updPair fun p => { p with roleHeld := false, hbOut := false, feedSel := [], moves := [] }

end Sys2Proof.Machine
end

