-- ==== Sys2Proof/Machine/Plls.lean ====
section
/-!
DEFINITION. What the loss and the return of a PLL or of the reference do to the blocks they clock, and the clock gates
(14_clock_generation.md R402 to R406, R409 to R416).
-/

namespace Sys2Proof.Machine

/-! ### A primary's own fault (15_pairs_and_live_insertion.md R445) -/

/-- A primary yields for a module fault. -/
def State.yieldFault (s : State) : State :=
  if s.pairRole = 1 && s.pair.handover.isNone then s.startHandover true false else s

/-! ### Effects while a PLL is lost (R410) -/

/-- An output stops its timing generator at once, and starts again when its PLL locks. -/
def State.genLost (s : State) (o : Nat) : State :=
  match (s.out o).gen with
  | .running =>
    let s := s.updOut o fun x => { x with gen := .locking, retune := false, videoDue := false, pixels := [], hold := [] }
    let s := if (s.out o).accepted.isEmpty then s.removeAll o else s
    ((((s.setLink o 0).auxIdle o).event 0x41 o 10).reductionTick o true).floorTick o
  | .stopping => s.stopOutput o
  | _ => s

/-- Every output shows its floor image from its next frame tick on, or no longer does. -/
def State.floorAll (s : State) (b : Bool) : State :=
  let s := if b then s.stopChecks else s
  s.each (List.range 8) fun s o => s.updOut o fun x => { x with allFloorNext := b }

/-- No haptic loop runs: each enabled channel is in FAULT as for a rail fault, its output discharged. -/
def State.loopsLost (s : State) : State :=
  s.each (List.range 8) fun s n =>
    if (s.chan n).mode == .off then s
    else (if s.onRail n then s.hapFault n true else s).updChan n fun x => { x with out := 0, integ := 0 }

/-- DRAM enters self-refresh: requests end as the loss of the host link ends them. -/
def State.dramLost (s : State) : State :=
  let was := s.dmcReady
  let s := State.clrF { s with dmc := { s.dmc with selfRefresh := true } } R.dmcStatus F.dmcStatus_ready
  let s := (s.floorAll true).loseXfers fun x => x.op != 5 && x.op != 0x12
  if was then s.yieldFault else s

/-- What is lost with a PLL, apart from its domains' clocks. Station time is uncertain from the moment PER coasts, and from the moment
AUDIO stops while PER coasts (R414; log 107). -/
def State.pllEffect (s : State) (i : Nat) : State :=
  match i with
  | 0 => s.timeUncertain
  | 1 => s.floorAll true
  | 2 => if s.perCoasts then s.loopsLost.timeUncertain else s.loopsLost
  | 3 => s.dramLost
  | 4 => s.linkLost
  | 5 => s.haulDown
  | _ => s.genLost (i - 6)

/-- PLL_LOSS_OF_LOCK (R409). A reference failure suspends the rule (R416). -/
def doPllLoss (i : Nat) (s : State) : State :=
  if !s.pllOk i || !s.refOk then s
  else
    let s := ((s.setLocked i false).put R.clkPllStatus ⟨16 + i, 16 + i⟩ 1).event 0xA0 1 3
    let s := s.each (pllDoms i) State.toCoast
    let times := ((Tab.get [] s.clk.losses i).filter fun t => s.time < t + 1000000000) ++ [s.time]
    let s := { s with clk := { s.clk with losses := Tab.set [] s.clk.losses i times } }
    let s :=
      if 3 ≤ times.length then
        let s := { s with clk := { s.clk with started := s.clk.started.filter (· ≠ i) } }
        ((s.put R.clkPllFailed ⟨i, i⟩ 1).event 0xA0 1 4).yieldFault
      else s.startPll i
    s.pllEffect i

/-! ### Returns (R410, R415) -/

/-- The composition engines and DRAM both run: outputs compose again from their next frame tick. -/
def State.composeAgain (s : State) : State :=
  if s.pllOk 1 && s.pllOk 3 && !s.dmc.selfRefresh then s.floorAll false else s

/-- DRAM leaves self-refresh. -/
def State.dramBack (s : State) : State :=
  if s.dmc.selfRefresh then
    let s := State.setF { s with dmc := { s.dmc with selfRefresh := false } } R.dmcStatus F.dmcStatus_ready
    let s := s.syncReff.composeAgain
    let sp := s.fld R.dmcCtrl F.dmcCtrl_sp_target
    if sp = s.spNow then s else s.pursue sp
  else s.composeAgain

/-- The haptic loops run again: channels in FAULT only for the loss ramp up. -/
def State.loopsBack (s : State) : State :=
  s.each (List.range 8) fun s n =>
    let x := s.chan n
    if x.mode == .fault && x.railFault && !x.closing && s.railOk then s.setChan n { x with mode := .ramp, railFault := false }
    else s

/-- What returns with a PLL. -/
def State.pllBack (s : State) (i : Nat) : State :=
  match i with
  | 1 => s.composeAgain.each (List.range 8) State.panelRestart
  | 2 => s.loopsBack.each (List.range 8) State.panelRestart
  | 3 => s.dramBack
  | _ => s

/-- PLL_LOCKED: its domains return to it (R399, R409). -/
def doPllLocked (i : Nat) (s : State) : State :=
  if !s.clk.started.contains i || s.pllOk i || !s.refOk then s
  else
    let s := (s.setLocked i true).each (pllDoms i) State.toPrimary
    (s.pllBack i).coastEnds.kick

/-- PLL_RESTART: a write of CLK_PLL_FAILED. A restart of a PLL that clocks a world-1 block is denied to the general world
(11_control_cores_and_the_protected_world.md R348; log 65). -/
def doPllRestart (r : Req) (v : Word) (s : State) : State :=
  s.each ((List.range 14).filter fun i => bitAt v.toNat i && bitAt (s.num R.clkPllFailed) i) fun s i =>
    if (pllDoms i).any s.domWorld1 && !s.reqProtected r then s.xwDenied r 2 R.clkPllFailed
    else (s.put R.clkPllFailed ⟨i, i⟩ 0).startPll i

/-! ### Hold-over and coasting (R412 to R416) -/

/-- HOLDOVER_EXPIRY: 250 ms after the failure the module coasts: MEM first, then every other domain. -/
def doHoldoverExpiry (s : State) : State :=
  if !s.holdover then s
  else
    let s := (s.at (s.clk.holdStart + 250000000)).setF R.clkRefStatus F.clkRefStatus_coast
    let s := (s.clrF R.clkRefStatus F.clkRefStatus_holdover).event 0xA0 1 1
    let up := (List.range 14).filter s.pllOk
    let s := if up.contains 3 then s.dramLost else s
    let s := s.each up fun s i => (s.each (pllDoms i) State.toCoast).setLocked i false
    let s := { s with clk := { s.clk with started := s.clk.started.filter fun i => !up.contains i } }
    s.each (up.filter (· ≠ 3)) State.pllEffect

/-- A PLL that is wanted: some domain of it coasts, or its output waits to start. -/
def State.pllWanted (s : State) (i : Nat) : Bool :=
  if 6 ≤ i then (s.out (i - 6)).gen == .locking else (pllDoms i).any fun d => (s.dom d).coasting

/-- REFERENCE_RECOVERED (R415): from hold-over the loops close and abandoned relocks start again; from coasting every PLL
restarts. -/
def doRefRecovered (s : State) : State :=
  if !s.recovered then s
  else
    let s := ((s.setF R.clkRefStatus F.clkRefStatus_ref_ok).clrF R.clkRefStatus F.clkRefStatus_holdover).event 0xA0 1 2
    let s := { s with clk := { s.clk with windowsOk := 0 } }
    (s.each ((List.range 14).filter fun i => s.pllWanted i && !s.pllOk i && !bitAt (s.num R.clkPllFailed) i) State.startPll).kick

/-! ### Clock gates (R402 to R406) -/

/-- A write of CLK_GATE_OPEN_i. -/
def doGateOpen (i : Nat) (v : Word) (s : State) : State :=
  (s.each ((List.range 32).filter fun j => bitAt v.toNat j && 21 ≤ 32 * i + j && 32 * i + j ≤ 317) fun s j =>
    s.openGate (32 * i + j)).kick

/-- An output is in use by its timing or by a floor load. -/
def State.outBusy (s : State) (o : Nat) : Bool :=
  s.flag (R.outCtrl o) F.outCtrl_run || (s.floorSt o).load.isSome || !(s.floorSt o).waiting.isEmpty

/-- A region is latched enabled, or an enabled image of it is in a commit in progress. -/
def State.regionBusy (s : State) (n : Nat) : Bool :=
  (s.region n).latched.on ||
    (s.out (n / 16)).commits.any fun c => c.regions.any fun e => e.1 == n && e.2.on

/-- The condition of R404 in which a close of a gate has no effect. -/
def State.gateBusy (s : State) (g : Nat) : Bool :=
  if g < 25 then false
  else if g < 29 then bitAt (s.haulStatusWord (g - 25)).toNat 31
  else if g < 37 then s.outBusy (g - 29)
  else if g < 45 then s.outBusy (g - 37)
  else if g < 53 then s.outBusy (g - 45)
  else if g < 117 then false
  else if g < 149 then s.cvBusy (g - 117)
  else if g < 277 then s.regionBusy (g - 149)
  else if g = 277 then (List.range 8).any fun n => s.enabled (tchPage n)
  else if g < 286 then s.enabled (tchPage (g - 278))
  else if g < 294 then (s.chan (g - 286)).mode != .off
  else if g = 294 then (List.range 256).any fun i => bitAt (s.num (K.route i)) 15
  else if g < 299 then s.enabled (pageBase 0x72 (g - 295))
  else if g < 303 then true
  else if g < 305 then (List.range 4).any fun c => !(s.core c).held
  else if g < 314 then s.dmcReady
  else s.enabled (pageBase 0xB0 0)

/-- A close of a busy block is refused: the first is captured. -/
def State.gateRefused (s : State) (g : Nat) : State :=
  let s := if s.flag R.clkGateRefused F.clkGateRefused_valid then s else s.wrN R.clkGateRefused (2 ^ 31 + g)
  s.event 0xA0 0 0

/-- A write of CLK_GATE_CLOSE_i; a closure of world-1 blocks by the general world is logged once per write
(R404; 11_control_cores_and_the_protected_world.md R348, R350). -/
def doGateClose (r : Req) (i : Nat) (v : Word) (s : State) : State :=
  let gs := ((List.range 32).filter fun j => bitAt v.toNat j && 21 ≤ 32 * i + j && 32 * i + j ≤ 317).map fun j => 32 * i + j
  let foreign (g : Nat) : Bool := s.pageWorld1 (gatePage g) && !s.reqProtected r
  let s0 := if gs.any foreign then s.xwDenied r 1 (R.clkGateClose i) else s
  s0.each (gs.filter fun g => !foreign g && s.gateOpen g) fun s g =>
    if s.gateBusy g then s.gateRefused g
    else { s with clk := { s.clk with closing := s.clk.closing ++ [g] } }

/-- GATE_CLOSE_DONE: every earlier access and any soft reset of the page has completed (R406). -/
def doGateCloseDone (g : Nat) (s : State) : State :=
  if !s.clk.closing.contains g || s.hif.softReset.contains (gatePage g) then s
  else
    let s := { s with clk := { s.clk with closing := s.clk.closing.filter (· ≠ g) } }
    s.put (R.clkGate (g / 32)) ⟨g % 32, g % 32⟩ 0

end Sys2Proof.Machine
end

