-- ==== Sys2Proof/Machine/Worlds.lean ====
section
/-!
DEFINITION. The protected world's watchdog and reset (11_control_cores_and_the_protected_world.md R351 to R356).
-/

namespace Sys2Proof.Machine

/-- The host is told of a change of the protected world's state (R354). -/
def State.pwChanged (s : State) : State := (s.setF R.stnPwStatus F.stnPwStatus_changed).signal none 6

/-- The watchdog's count starts from timeout_ms; 0 acts as 1 (WLD_WDOG_CTRL). -/
def State.startWorldDog (s : State) : State :=
  let t := max 1 (s.fld R.wldWdogCtrl F.wldWdogCtrl_timeout_ms) * 1000000
  { s with wld := { s.wld with wdog := some (s.time + t) } }

/-- A write of WLD_WDOG_KICK (WLD_WDOG_KICK). -/
def doWorldKick (v : Word) (s : State) : State :=
  if v = 0xC35A#32 && s.flag R.wldWdogCtrl F.wldWdogCtrl_enabled then s.startWorldDog else s

/-- WLD_WDOG_LEFT: the remaining time in µs. -/
def State.worldDogLeft (s : State) : Word :=
  match s.wld.wdog with
  | none => 0#32
  | some t => w32 ((t - s.time) / 1000)

/-- An output shows a capstone: a capstone slot assigned to it has an enabled latched image. -/
def State.showsCapstone (s : State) (o : Nat) : Bool :=
  (List.range 64).any fun n => s.slotCap n && s.slotOut n == o && imgOn (s.layer n).latched

/-- The core that holds the token leaves PROTECTED; a gate call returns ABORTED (R352). -/
def State.dropToken (s : State) : State :=
  match s.wld.token with
  | none => s
  | some c => s.leave c 4 0#32 0#32

/-- Pending and done mailbox slots become ABORTED (R352). -/
def State.abortMailbox (s : State) : State :=
  s.each (List.range 16) fun s k => if s.slotState k = 1 || s.slotState k = 2 then s.setSlot k 3 else s

/-- The capstone work of an output is withdrawn and its capstones show the floor image from the next frame tick
(R352; 06_layer_composition.md R204). -/
def State.dropCapstones (s : State) : State :=
  let s := s.each (List.range 8) fun s o =>
    let s := s.endCommits o (fun c => c.owner == 256) 0 0
    if s.showsCapstone o then s.updOut o fun x => { x with capFloorNext := true } else s
  let s := s.each (List.range 64) fun s n =>
    if s.slotCap n then s.clrF (R.lyrCapCtrl n) F.lyrCapCtrl_commit else s
  s.shedPass false

/-- What a world reset clears outside the protected world's pages: the token, a pending mailbox call, the protected world's
pending sources, core registers and cache lines, its capture ports, its capstones and the haptic effects it owns. -/
def State.worldQuiet (s : State) : State :=
  let s := s.dropToken.abortMailbox
  let s := s.each (List.range 448) fun s n =>
    if s.srcWorld1 n && (s.src n).pending then s.setSrc n { s.src n with pending := false } else s
  let s := s.each [0, 1, 2, 3] fun s c => s.updCore c fun x => { x with p := [] }
  let s := (s.cleanLines s.wayProtected)
  let s := s.dropLines s.wayProtected
  let s := s.each [28, 29, 30, 31] State.cvReset
  let s := s.dropCapstones
  s.each (List.range 8) fun s n => (s.orphan n 256).withdrawHaptic n 0xFF false .all

/-- The registers that a world reset changes. -/
def State.worldRegs (s : State) (cause : Nat) : State :=
  let s := (s.clrF R.wldGateCtrl F.wldGateCtrl_armed).clrF R.tcpPwCtrl F.tcpPwCtrl_enable
  let s := ((s.put R.wldWdogCtrl F.wldWdogCtrl_timeout_ms 2000).startWorldDog).clrF R.wldPwCtrl F.wldPwCtrl_running
  let s := (s.clrF R.wldStatus F.wldStatus_running).count R.wldStatus F.wldStatus_restarts
  s.put R.wldStatus F.wldStatus_last_cause cause

/-- The resets of the last 60 s; more than the allowed restarts park the world. -/
def State.noteWorldReset (s : State) : State :=
  let times := (s.wld.resets.filter fun t => s.time < t + 60000000000) ++ [s.time]
  { s with wld := { s.wld with
    resetting := true, restartDue := false, resets := times,
    pendingPark := s.fld R.wldPwCtrl F.wldPwCtrl_max_restarts < times.length } }

/-- A protected-world reset begins, with its cause (R352, R354, R356). -/
def State.worldReset (s : State) (cause : Nat) : State :=
  ((s.worldQuiet.worldRegs cause).noteWorldReset).pwChanged

/-- The watchdog's count reaches 0 (R351). -/
def State.worldDogExpires (s : State) : State :=
  match s.wld.wdog with
  | none => s
  | some t => (s.at t).worldReset 1

/-- PW_RESET_COMPLETE: the restart falls due, or the protected world is parked (R355, R356). -/
def doWorldResetDone (s : State) : State :=
  if !s.wld.resetting then s
  else if s.wld.pendingPark then
    let s := { s with wld := { s.wld with resetting := false, pendingPark := false, wdog := none } }
    ((s.setF R.wldStatus F.wldStatus_parked).clrF R.wldWdogCtrl F.wldWdogCtrl_enabled).pwChanged
  else { s with wld := { s.wld with resetting := false, restartDue := true } }

/-- A write of WLD_PW_CTRL by the protected world: running is told to the host (R351, R354, WLD_PW_CTRL). -/
def State.pwCtrl (s : State) (v : Word) : State :=
  let was := s.flag R.wldStatus F.wldStatus_running
  let s := (s.plainWrite R.wldPwCtrl v).clrF R.wldPwCtrl F.wldPwCtrl_self_reset
  if bitAt v.toNat 0 && !was then (s.setF R.wldStatus F.wldStatus_running).pwChanged else s

end Sys2Proof.Machine
end

