-- ==== Sys2Proof/Machine/Boot.lean ====
section
/-!
DEFINITION. Boot records, Bobaul images and the boot sequence (16_power_resets_and_start_up.md R467 to R476, R504).
-/

namespace Sys2Proof.Machine

/-! ### Flash (R467) -/

/-- Bytes of flash; erased flash reads as 0xFF (log 11). -/
def State.flash (s : State) (a n : Nat) : List Byte := Mem.read 0xFF#8 s.mem.flash a n

/-- A little-endian number in flash. -/
def State.flashLe (s : State) (a n : Nat) : Nat := leNat (s.flash a n)

/-! ### Boot records (R468, R469) -/

/-- A boot record. -/
structure BootRec where
  seq : Nat := 0
  preferB : Bool := false
  confirmed : Bool := false
  maxTries : Nat := 3

/-- The record of a sector, if it is valid. -/
def State.bootRec (s : State) (i : Nat) : Option BootRec :=
  let b := s.flash (i * 0x10000) 64
  if blobNum b 0 4 = 0x44435242 ∧ crc32 (b.take 60) = blobNum b 60 4 then
    let m := blobNum b 10 1
    some { seq := blobNum b 4 4, preferB := blobNum b 8 1 == 1, confirmed := bitAt (blobNum b 9 1) 0,
           maxTries := if m = 0 then 3 else m }
  else none

/-- The record in use: the valid one with the later sequence number, record 0 when they are equal. -/
def State.bootRecord (s : State) : BootRec :=
  match s.bootRec 0, s.bootRec 1 with
  | none, none => {}
  | some a, none => a
  | none, some b => b
  | some a, some b => if a.seq ≠ b.seq ∧ serialLe 32 a.seq b.seq then b else a

/-! ### Images (R472, R473) -/

/-- An entry of the section table. -/
structure Section where
  ty : Nat
  resv : Nat
  off : Nat
  len : Nat
  target : Nat
  hash : List Byte

/-- The sections of an image at a flash offset. -/
def State.imgSections (s : State) (base : Nat) : List Section :=
  (List.range (s.flashLe (base + 12) 2)).map fun i =>
    let e := base + 64 + 64 * i
    { ty := s.flashLe e 2, resv := s.flashLe (e + 2) 2, off := s.flashLe (e + 4) 4, len := s.flashLe (e + 8) 4,
      target := s.flashLe (e + 12) 4, hash := s.flash (e + 16) 48 }

/-- The section of a type. -/
def sectionOf (l : List Section) (ty : Nat) : Option Section := l.find? fun e => e.ty == ty

/-- The body of a section. -/
def State.secBody (s : State) (base : Nat) (e : Section) : List Byte := s.flash (base + e.off) e.len

def allZero (b : List Byte) : Bool := b.all (· == 0#8)

/-- Check 0x2: version, kind, lengths, count and table placement. -/
def State.imgHeaderOk (s : State) (base region kind : Nat) : Bool :=
  let b := s.flash base 64
  let total := blobNum b 8 4
  let n := blobNum b 12 2
  blobNum b 4 2 == 1 && blobNum b 6 1 == kind && blobNum b 7 1 == 0 && total % 16 == 0 && total ≤ region &&
    1 ≤ n && n ≤ 32 && blobNum b 14 2 == 0 && blobNum b 32 4 + 256 == total && 64 + 64 * n + 256 ≤ total &&
    allZero (b.drop 36)

/-- Check 0x3: the image is for this part. -/
def State.imgPartOk (s : State) (base : Nat) : Bool :=
  let b := s.flash base 64
  blobNum b 16 2 == s.fld R.stnFamily F.stnFamily_family_code && blobNum b 18 1 == s.fld R.stnFamily F.stnFamily_member_code &&
    (blobNum b 19 1 == 0xFF || blobNum b 19 1 == s.fld R.stnFamily F.stnFamily_die_stepping)

/-- The signature block of an image. -/
def State.imgSig (s : State) (base : Nat) : List Byte := s.flash (base + s.flashLe (base + 32) 4) 256

/-- Check 0x4: the key is the fused key of its slot, and the slot is not revoked. -/
def keyOk (sig : List Byte) : Bool :=
  let slot := blobNum sig 2 1
  if h : slot < 4 then
    Config.sha384 ((sig.drop 4).take 96) == Config.keyHash ⟨slot, h⟩ && !Config.keyRevoked ⟨slot, h⟩
  else false

/-- Check 0x5: the signature verifies over the header and the section table. -/
def State.imgSigOk (s : State) (base : Nat) : Bool :=
  let sig := s.imgSig base
  blobNum sig 0 2 == 1 && blobNum sig 3 1 == 0 && allZero (sig.drop 196) &&
    Config.ecdsaVerify ((sig.drop 4).take 96) ((sig.drop 100).take 96)
      (s.flash base (64 + 64 * s.flashLe (base + 12) 2))

/-- Check 0x7: bodies lie within the image, apart from each other, and match their hashes. -/
def State.imgBodiesOk (s : State) (base : Nat) : Bool :=
  let l := s.imgSections base
  let lo := 64 + 64 * l.length
  let hi := s.flashLe (base + 32) 4
  l.all (fun e => e.resv == 0 && e.off % 16 == 0 && lo ≤ e.off && e.off + e.len ≤ hi && Config.sha384 (s.secBody base e) == e.hash) &&
    (List.range l.length).all fun i => (List.range i).all fun j =>
      match l[i]?, l[j]? with
      | some a, some b => a.off + a.len ≤ b.off || b.off + b.len ≤ a.off
      | _, _ => true

/-- Each type appears at most once. -/
def typesDistinct (l : List Section) : Bool :=
  l.all fun e => (l.filter fun f => f.ty == e.ty).length == 1

/-- Check 0x8 for a FIRMWARE image. -/
def State.firmwareOk (s : State) (base : Nat) : Bool :=
  let l := s.imgSections base
  typesDistinct l && (sectionOf l 1).isSome && (sectionOf l 2).isSome &&
    l.all fun e => match e.ty with
      | 1 => 0x10308000 ≤ e.target && e.target + e.len ≤ 0x10400000
      | 2 => 0x10000000 ≤ e.target && e.target + e.len ≤ 0x10300000
      | 3 => e.len == 16 && e.target == 0 && allZero ((s.secBody base e).drop 7)
      | _ => false

/-- A MEMORY body (R473, R474). -/
def memoryOk (b : List Byte) : Bool :=
  let pool := blobNum b 0 2
  let size := blobNum b 2 2
  let save := blobNum b 4 2
  b.length == 32 && pool + size ≤ 7680 && save + 32 ≤ 7680 && (size == 0 || pool + size ≤ save || save + 32 ≤ pool) &&
    blobNum b 6 1 ≤ 2 && blobNum b 7 1 == 0 &&
    ([0, 1, 2, 3].all fun i => blobNum b (8 + 4 * i) 4 % 2 ^ 15 == 0 && blobNum b (8 + 4 * i) 4 < 2 ^ 30) && allZero (b.drop 26)

/-- Check 0x8 for a STATION image. -/
def State.stationOk (s : State) (base : Nat) : Bool :=
  let l := s.imgSections base
  typesDistinct l && (sectionOf l 0x102).isSome &&
    l.all fun e =>
      let b := s.secBody base e
      if e.ty = 0x101 then e.len == 4
      else if e.ty = 0x102 then memoryOk b
      else if e.ty = 0x103 then b.length == 16 && blobNum b 0 1 < 2 && allZero (b.drop 2)
      else if e.ty = 0x104 then e.len % 8 == 0 && e.len ≤ 131072
      else if 0x110 ≤ e.ty ∧ e.ty < 0x118 then (blobFault b e.len).isNone
      else e.ty == 0x120 && e.len ≤ 3866624

/-- The error code of an image, 0 when it is valid: the first check that fails (R474). -/
def State.imgError (s : State) (base region kind : Nat) : Nat :=
  if s.flashLe base 4 ≠ 0x4C414242 then 1
  else if !s.imgHeaderOk base region kind then 2
  else if !s.imgPartOk base then 3
  else if !keyOk (s.imgSig base) then 4
  else if !s.imgSigOk base then 5
  else if s.flashLe (base + 20) 4 < Config.minVersion then 6
  else if !s.imgBodiesOk base then 7
  else if !(if kind = 1 then s.firmwareOk base else s.stationOk base) then 8
  else 0

/-- The flash offsets of a firmware copy and of the station image. -/
def copyBase (b : Bool) : Nat := if b then 0x900000 else 0x100000
def stationBase : Nat := 0x1100000

/-! ### The stages (R470, R504) -/

/-- The stage that the boot has reached. -/
def State.stage (s : State) : Nat := s.fld R.bootStatus F.bootStatus_stage
def State.setStage (s : State) (n : Nat) : State := s.put R.bootStatus F.bootStatus_stage n

/-- A PLL is locked, and its domains run on it at their ratios. -/
def State.bootPll (s : State) (i : Nat) : State :=
  let s := (s.startPll i).setLocked i true
  s.each (pllDoms i) fun s d =>
    s.setDom d { s.dom d with src := 0, now := (s.dom d).target, switching := false, coasting := false }

/-- Stages ROM and CLOCKS: the gates of the worlds and of interrupt delivery, and the first PLLs. REF is valid (log 67). -/
def State.bootClocks (s : State) : State :=
  let s := s.each ([299, 300, 301, 302, 145, 146, 147, 148, 303, 304] : List Nat) State.openGate
  let s := (s.setF R.clkRefStatus F.clkRefStatus_ref_ok).railSwitch
  let s := ((s.bootPll 0).bootPll 1).bootPll 4
  ((s.startPll 2).startPll 5).setStage 1

/-- Stage FIRMWARE: the copy that boots, none when both fail (R468, R469, R474). -/
def State.bootFirmware (s : State) : Option Bool × State :=
  let s := s.setStage 2
  let r := s.bootRecord
  let n := if s.pwr.attemptsSeq = r.seq then s.pwr.attempts else 0
  let over_ := !r.confirmed && r.maxTries ≤ n
  let n := if r.confirmed || over_ then n else n + 1
  let s := { s with pwr := { s.pwr with attempts := n, attemptsSeq := r.seq } }
  let s := s.put R.bootStatus F.bootStatus_attempts (min 15 n)
  let first := r.preferB != over_
  let e := s.imgError (copyBase first) 0x800000 1
  if e = 0 then
    let s := (s.put R.bootStatus F.bootStatus_copy (b2n first)).put R.bootStatus F.bootStatus_fallback (b2n over_)
    (some first, s)
  else
    let s := s.put R.bootStatus F.bootStatus_fw_error e
    if s.imgError (copyBase !first) 0x800000 1 = 0 then
      let s := (s.put R.bootStatus F.bootStatus_copy (b2n !first)).put R.bootStatus F.bootStatus_fallback (b2n (first == r.preferB))
      (some (!first), s)
    else (none, s)

/-- A FLOOR section goes into its slot. -/
def State.bootFloor (s : State) (base o : Nat) : State :=
  match sectionOf (s.imgSections base) (0x110 + o) with
  | none => s
  | some e =>
    let s := (s.openGate (45 + o)).floorStore o 0 (s.secBody base e)
    let crc := Mem.le 0 s.mem.floor (floorBase o + 60) 4
    let s := s.wrN (R.outFloorStatus o) (2 ^ 31 + e.len % 2 ^ 21)
    (s.wrN (R.outFloorCrc o) crc).wr (R.outFloorFrame o) (s.rd (R.outFrame o))

/-- The EFFECTS section goes into the store and is published. -/
def State.bootEffects (s : State) (base : Nat) : State :=
  match sectionOf (s.imgSections base) 0x120 with
  | none => s
  | some e =>
    let s := s.openGate 286
    let s := { s with mem := { s.mem with store := Mem.write 0 s.mem.store 0 (s.secBody base e) } }
    { s with hapShared := { s.hapShared with publish := true } }.publish

/-- The settings of a MEMORY body, or the defaults (R473, R476). -/
def State.bootMemory (s : State) (b : Option (List Byte)) : State :=
  match b with
  | some b =>
    let s := s.wrN R.srfPool (blobNum b 2 2 * 2 ^ 16 + blobNum b 0 2)
    let s := (s.wrN R.pwrSave (blobNum b 4 2)).put R.dmcCtrl F.dmcCtrl_sp_min (blobNum b 6 1)
    let s := s.each [0, 1, 2, 3] fun s i => s.wrN (R.dmcHash0 + 4 * i) (blobNum b (8 + 4 * i) 4)
    s.wrN R.dmcScrub (blobNum b 24 2)
  | none =>
    let s := (s.wrN R.srfPool 0).wrN R.pwrSave 7648
    (s.put R.dmcCtrl F.dmcCtrl_sp_min 2).wrN R.dmcScrub 24

/-- The identity, pair and register sections of a valid station image (R417, R422, R473). -/
def State.bootSections (s : State) (base : Nat) : State :=
  let l := s.imgSections base
  let body (ty : Nat) : Option (List Byte) := (sectionOf l ty).map (s.secBody base)
  let s := match body 0x101 with
    | some b => { s with hif := { s.hif with subsystem := w32 (blobNum b 0 4) } }
    | none => s
  let pair := (body 0x103).getD (List.replicate 16 0#8)
  let s := { s with pair := { s.pair with configured := bitAt (blobNum pair 0 1) 0, prio := blobNum pair 1 1,
                                          digest := w32 (crc32 pair) } }
  let s := s.wrN R.pairKeyHi (s.pair.prio * 2 ^ 24 + s.num R.pairKeyHi % 2 ^ 24)
  match body 0x104 with
  | some b => { s with mem := { s.mem with ctl := Mem.write 0 s.mem.ctl 0x1020000 b } }
  | none => s

/-- Stage STATION (R470, R476). -/
def State.bootStation (s : State) : State :=
  let s := s.setStage 3
  let e := s.imgError stationBase 0x1000000 2
  let s := s.put R.bootStatus F.bootStatus_station_error e
  if e = 0 then
    let s := (s.each (List.range 8) (fun s o => s.bootFloor stationBase o)).bootEffects stationBase
    let s := (s.bootSections stationBase).setF R.bootStatus F.bootStatus_station_ok
    s.bootMemory ((sectionOf (s.imgSections stationBase) 0x102).map (s.secBody stationBase))
  else
    let s := { s with pair := { s.pair with digest := w32 (crc32 (List.replicate 16 0#8)) } }
    s.bootMemory none

/-- Stage DRAM: zeroed and trained; a failure leaves ready at 0 (R470; log 66). -/
def State.bootDram (s : State) : State :=
  let s := s.setStage 4
  let s := s.each ([305, 306, 307, 308, 309, 310, 311, 312, 313] : List Nat) State.openGate
  let s := (s.bootPll 3).setF R.dmcCtrl F.dmcCtrl_cfg_lock
  if Config.dramTrains then s.trained else s.setStage 0xE

/-- Control-core memory from a section: its body at its target. -/
def State.loadCode (s : State) (base ty : Nat) : State :=
  match sectionOf (s.imgSections base) ty with
  | none => s
  | some e => { s with mem := { s.mem with ctl := Mem.write 0 s.mem.ctl (e.target - 0x10000000) (s.secBody base e) } }

/-- The entry address of a firmware section. -/
def State.entryOf (s : State) (base ty : Nat) : Nat :=
  match sectionOf (s.imgSections base) ty with | some e => e.target | none => 0

/-- JTAG opens for a DEBUG_TOKEN with the module's serial number (R471). -/
def State.debugToken (s : State) (base : Nat) : Bool :=
  match sectionOf (s.imgSections base) 3 with
  | some e => blobNum (s.secBody base e) 0 7 == Config.serial.toNat
  | none => false

/-- Stage PROTECTED: both firmwares are in memory, the watchdog counts, and C0 starts the protected one (R324, R351, R470). -/
def State.bootProtected (s : State) (base : Nat) : State :=
  let s := { s with pwr := { s.pwr with jtagOpen := s.debugToken base } }
  let s := (s.loadCode base 1).loadCode base 2
  let s := s.wrN R.wldBootGEntry (s.entryOf base 2 / 2 * 2)
  let s := (s.setF R.wldWdogCtrl F.wldWdogCtrl_enabled).startWorldDog
  let s := s.updCore 0 fun x => { x with pc := w32 (s.entryOf base 1) }
  s.setStage 5

/-- host_ready is set: the function answers, a station reset ends (R463, R464; 17_connectors_and_electrical_characteristics.md R488). -/
def State.becomeReady (s : State) (stage : Nat) : State :=
  let s := (s.setF R.bootStatus F.bootStatus_host_ready).setStage stage
  { s with hif := { s.hif with retry := false }, pwr := { s.pwr with resetting := false, wakePin := false } }

/-- The stages of boot after the firmware copy `c` is loaded. -/
def State.bootRest (s : State) (c : Bool) : State :=
  let s := (s.bootStation.bootDram).bootProtected (copyBase c)
  if s.pair.configured then (s.setPair 1 0).updPair fun p => { p with hbOut := true } else s

/-- What follows stage FIRMWARE: the rest of the boot with the copy that was chosen, else RECOVERY. -/
def State.bootNext (s : State) (c : Option Bool) : State :=
  match c with
  | none => s.becomeReady 0xF
  | some c => s.bootRest c

/-- The boot sequence up to the start of the protected firmware, or to RECOVERY (R470, R475). -/
def State.boot (s : State) : State :=
  let r := (State.bootClocks { s with pwr := { s.pwr with bootDue := false } }).bootFirmware
  r.2.bootNext r.1

/-- The boot when the supplies and PERST# allow it, else it waits (R463, R479; 17_connectors_and_electrical_characteristics.md R489). -/
def State.bootWhenFree (s : State) : State :=
  if s.pwr.perstLow || !s.pwr.mainOk then { s with pwr := { s.pwr with bootDue := true } } else s.boot

/-- RESTART_ENTRY: the protected section of the copy that booted is validated and loaded again; the world is parked when it
fails (R470; 11_control_cores_and_the_protected_world.md R355, R356). The entry takes the token, so it waits while the token is
held and lets a forced entry go first (11_control_cores_and_the_protected_world.md R323). -/
def doRestartEntry (s : State) : State :=
  if !s.wld.restartDue || s.wld.token.isSome || s.anyForced then s
  else match s.restartCore with
    | none => s
    | some c =>
      let base := copyBase (s.flag R.bootStatus F.bootStatus_copy)
      if s.imgError base 0x800000 1 ≠ 0 then
        let s := { s with wld := { s.wld with restartDue := false, wdog := none } }
        ((s.setF R.wldStatus F.wldStatus_parked).clrF R.wldWdogCtrl F.wldWdogCtrl_enabled).pwChanged
      else
        let s := (s.setF R.wldWdogCtrl F.wldWdogCtrl_enabled).loadCode base 1
        s.enterRestart c

/-- The first exit from PROTECTED completes the stage GENERAL (R470). -/
def State.noteExit (s : State) : State := if s.stage = 5 ∨ s.stage = 0xE then s.setStage 6 else s

/-- A write of WLD_WEXIT, and the stage of the boot sequence that the first exit completes
(11_control_cores_and_the_protected_world.md R330; 16_power_resets_and_start_up.md R470). -/
def exitWorld (c : Nat) (s : State) : State :=
  let left := (s.core c).st == 1 && (s.core c).runs
  let s := doWorldExit c s
  if left && (s.core c).st == 0 then s.noteExit else s

end Sys2Proof.Machine
end

