-- ==== Sys2Proof/Machine/Csr.lean ====
section
/-!
DEFINITION. The control and status registers of a core: the banked registers of R324, the vendor registers of R325, and what the
RISC-V privileged specification lays down for the rest (11_control_cores_and_the_protected_world.md R320, R324, R325; log 9).
-/

namespace Sys2Proof.Machine

/-! ### What a register holds -/

def csr.misa : Nat := 0x301
def csr.mscratch : Nat := 0x340
def csr.mip : Nat := 0x344
def csr.wstat : Nat := 0xFC0
def csr.wgate : Nat := 0x7C0
def csr.wexit : Nat := 0x7C1
def csr.wcache : Nat := 0x7C3
def csr.mhartid : Nat := 0xF14

/-- misa of RV32IMAC with user mode (R320; the coding is RISC-V's, log 9). -/
def misaWord : Word := 0x40101105#32

/-- Registers that hold 0 and discard writes: what RISC-V lets an implementation leave out, and the PMP entries above the eight
(R320; log 9). -/
def csrZero (n : Nat) : Bool :=
  ([0x306, 0x30A, 0x310, 0x31A, 0x320] : List Nat).contains n || (0x3A2 ≤ n && n ≤ 0x3AF) || (0x3B8 ≤ n && n ≤ 0x3EF)

/-- Registers of the banks that read back what was last written to them (R324). -/
def csrPlain (n : Nat) : Bool :=
  ([0x300, 0x304, 0x305, 0x340, 0x341, 0x342, 0x343, 0x7C2] : List Nat).contains n || (0x323 ≤ n && n ≤ 0x33F) ||
    n == 0x3A0 || n == 0x3A1 || (0x3B0 ≤ n && n ≤ 0x3B7)

/-- The counter that a register is half of, and whether it is the high half: mcycle, minstret and the hpm counters. -/
def csrCounter (n : Nat) : Option (Nat × Bool) :=
  if 0xB00 ≤ n ∧ n ≤ 0xB1F ∧ n ≠ 0xB01 then some (n - 0xB00, false)
  else if 0xB80 ≤ n ∧ n ≤ 0xB9F ∧ n ≠ 0xB81 then some (n - 0xB80, true)
  else none

/-- The 64-bit value of a counter; mcycle is shared by the worlds, the others are banked (R324). -/
def CoreSt.counter (x : CoreSt) (i : Nat) : Nat :=
  if i = 0 then x.mcycle
  else (Tab.get 0#32 x.bank (0xB00 + i)).toNat + (Tab.get 0#32 x.bank (0xB80 + i)).toNat * 2 ^ 32

/-- Set a counter. -/
def CoreSt.setCounter (x : CoreSt) (i v : Nat) : CoreSt :=
  if i = 0 then { x with mcycle := v % 2 ^ 64 }
  else (x.setCsr (0xB00 + i) (w32 v)).setCsr (0xB80 + i) (w32 (v / 2 ^ 32))

/-- Half of a counter's value. -/
def counterHalf (v : Nat) (hi : Bool) : Word := w32 (if hi then v / 2 ^ 32 else v)

/-- A counter with one half written. -/
def counterWith (old : Nat) (hi : Bool) (v : Word) : Nat :=
  if hi then old % 2 ^ 32 + v.toNat * 2 ^ 32 else old / 2 ^ 32 % 2 ^ 32 * 2 ^ 32 + v.toNat

/-! ### Physical memory protection (R320; log 9) -/

/-- The configuration byte of a PMP entry. -/
def CoreSt.pmpCfg (x : CoreSt) (i : Nat) : Nat :=
  bitsOf (Tab.get 0#32 x.bank (csr.pmpcfg (i / 4))).toNat (8 * (i % 4) + 7) (8 * (i % 4))

/-- The address register of a PMP entry. -/
def CoreSt.pmpAddr (x : CoreSt) (i : Nat) : Nat := (Tab.get 0#32 x.bank (csr.pmpaddr i)).toNat

/-- The number of low one bits, among the first 32. -/
def lowOnes (n : Nat) : Nat := ((List.range 32).find? fun i => !bitAt n i).getD 32

/-- The byte range of a PMP entry, from the first byte to the one after the last; none where the entry is off. -/
def CoreSt.pmpRange (x : CoreSt) (i : Nat) : Option (Nat × Nat) :=
  let a := x.pmpAddr i
  match bitsOf (x.pmpCfg i) 4 3 with
  | 1 => some (if i = 0 then 0 else x.pmpAddr (i - 1) * 4, a * 4)
  | 2 => some (a * 4, a * 4 + 4)
  | 3 =>
    let n := lowOnes a
    let base := a / 2 ^ (n + 1) * 2 ^ (n + 1) * 4
    some (base, base + 2 ^ (n + 3))
  | _ => none

/-- The first PMP entry that matches a byte of a range. -/
def CoreSt.pmpMatch (x : CoreSt) (a len : Nat) : Option (Nat × Nat × Nat) :=
  (List.range 8).findSome? fun i =>
    match x.pmpRange i with
    | some (lo, hi) => if lo < a + len ∧ a < hi then some (i, lo, hi) else none
    | none => none

/-- An access of a mode to a range passes the PMP entries of the current bank: `perm` is the bit of the entry that allows it,
0 read, 1 write, 2 execute. -/
def CoreSt.pmpOk (x : CoreSt) (user : Bool) (perm a len : Nat) : Bool :=
  match x.pmpMatch a len with
  | none => !user
  | some (i, lo, hi) =>
    lo ≤ a && a + len ≤ hi && ((!user && !bitAt (x.pmpCfg i) 7) || bitAt (x.pmpCfg i) perm)

/-- The entry is locked. -/
def CoreSt.pmpLocked (x : CoreSt) (i : Nat) : Bool := bitAt (x.pmpCfg i) 7

/-- A write of a configuration register: locked entries stay, reserved bits are 0, and an entry that would allow writes and no
reads allows neither. -/
def CoreSt.pmpCfgWord (x : CoreSt) (r : Nat) (v : Word) : Word :=
  (List.range 4).foldl (fun w j =>
    let b := bitsOf v.toNat (8 * j + 7) (8 * j)
    let b := b &&& 0x9F
    let b := if bitAt b 1 && !bitAt b 0 then b &&& 0x9D else b
    Fld.put ⟨8 * j + 7, 8 * j⟩ w (if x.pmpLocked (4 * r + j) then x.pmpCfg (4 * r + j) else b)) 0#32

/-- An address register takes no write while its entry is locked, or while the next one is locked and ranges from it. -/
def CoreSt.pmpAddrLocked (x : CoreSt) (i : Nat) : Bool :=
  x.pmpLocked i || (i < 7 && x.pmpLocked (i + 1) && bitsOf (x.pmpCfg (i + 1)) 4 3 == 1)

/-! ### Reads and writes -/

/-- mstatus after a write: MIE, MPIE, MPRV and TW, and an MPP that names a mode there is (R320, R324; log 9). -/
def statusWord (old v : Word) : Word :=
  let w := (old &&& ~~~0x220088#32) ||| (v &&& 0x220088#32)
  let m := bitsOf v.toNat 12 11
  Fld.put ⟨12, 11⟩ w (if m = 0 ∨ m = 3 then m else bitsOf old.toNat 12 11)

/-- What a register of the banks takes of a write (R324; log 9). -/
def CoreSt.csrTakes (x : CoreSt) (n : Nat) (v : Word) : Word :=
  let old := Tab.get 0#32 x.bank n
  if n = csr.mstatus then statusWord old v
  else if n = csr.mie then v &&& 0x888#32
  else if n = csr.mtvec then v &&& 0xFFFFFFFD#32
  else if n = csr.mepc then v &&& 0xFFFFFFFE#32
  else if n = csr.wdwin then v &&& 0xF#32
  else if n = csr.pmpcfg 0 then x.pmpCfgWord 0 v
  else if n = csr.pmpcfg 1 then x.pmpCfgWord 1 v
  else if csr.pmpaddr 0 ≤ n ∧ n ≤ csr.pmpaddr 7 then if x.pmpAddrLocked (n - csr.pmpaddr 0) then old else v
  else v

/-- mip: an external interrupt is pending while a source of the current world is delivered (12_interrupt_delivery.md R360); no
source of the module drives its other bits. -/
def State.mipWord (s : State) (c : Nat) : Word := w32 (b2n (s.meip c ((s.core c).st != 0)) * 2 ^ 11)

/-- A read of a register in machine mode; none where it raises the illegal-instruction exception. A counter has gone on by a
number that the spec leaves open (log 1). -/
def State.csrRead (s : State) (c n : Nat) : Option (Word × State) :=
  let x := s.core c
  if n = csr.wstat then some (s.wstat c, s)
  else if n = csr.wgate ∨ n = csr.wexit ∨ n = csr.wcache then some (0#32, s)
  else if n = csr.misa then some (misaWord, s)
  else if n = csr.mhartid then some (w32 c, s)
  else if 0xF11 ≤ n ∧ n ≤ 0xF13 then some (Config.coreIdent (n - 0xF11), s)
  else if n = csr.mip then some (s.mipWord c, s)
  else if csrZero n || n = 0xF15 then some (0#32, s)
  else if csrPlain n then some (Tab.get 0#32 x.bank n, s)
  else match csrCounter n with
  | some (i, hi) =>
    let (d, s) := s.free (2 ^ 64)
    let v := (x.counter i + d) % 2 ^ 64
    some (counterHalf v hi, s.updCore c fun y => y.setCounter i v)
  | none => none

/-- A write of a register in machine mode; none where it raises the illegal-instruction exception. -/
def State.csrWrite (s : State) (c n : Nat) (v : Word) : Option State :=
  let next (s : State) : State := s.updCore c CoreSt.next
  if n = csr.wgate then some (doGateCall c 0 v s)
  else if n = csr.wexit then some (exitWorld c s)
  else if n = csr.wcache then some (next (s.wcache c v))
  else if n = csr.misa ∨ n = csr.mip ∨ csrZero n then some (next s)
  else if csrPlain n then some (next (s.updCore c fun x => x.setCsr n (x.csrTakes n v)))
  else match csrCounter n with
  | some (i, hi) => some (next (s.updCore c fun x => x.setCounter i (counterWith (x.counter i) hi v)))
  | none => none

/-- A core's access to a register: a core that runs, in machine mode (R325). The host reaches none. -/
def State.csrAccess (s : State) (r : Req) (f : Nat → Option State) : State :=
  match r with
  | .host _ => { s with resp := .unsupported }
  | .core c =>
    let x := s.core c.val
    if !x.runs then { s with resp := .busError }
    else if x.user then s.illegal c.val
    else match f c.val with
      | some s => s
      | none => s.illegal c.val

/-- A csrrw with no destination (R325). -/
def doCsrWrite (r : Req) (n : Nat) (v : Word) (s : State) : State := s.csrAccess r fun c => s.csrWrite c n v

/-- A csrrs with no source, which writes nothing (R325). -/
def doCsrRead (r : Req) (n : Nat) (s : State) : State :=
  s.csrAccess r fun c => (s.csrRead c n).map fun e =>
    { (e.2.updCore c CoreSt.next) with resp := .data (leBytes 4 e.1.toNat) }

end Sys2Proof.Machine
end

