-- ==== Sys2Proof/Machine/Commands.lean ====
section
/-!
DEFINITION. Issuing commands: the refusals at issue in their order, handles, the command page of a slice window and of
HIF_1, submission entries (02_host_interface.md R70 to R85, R503; 04_surfaces_and_haul.md R135, R136;
05_bench_plan_and_fit_check.md R155, R156; 06_layer_composition.md R186;
08_check_values_core_samples_and_floor_images.md R239, R240, R244, R254; 03_slices.md R117).
-/

namespace Sys2Proof.Machine

/-! ### Arguments that a definition does not list, and reserved bits (R79) -/

/-- The bits of argument words 0 to 7 that an opcode's definition lists. -/
def argMasks (op : Nat) : List Nat :=
  let all := 0xFFFFFFFF
  match op with
  | 0x01 => [all, 0x7FF, all, all, all, all, all, 0xDF]
  | 0x02 => [all, 1, all, all, all, all, 0, 0xDF]
  | 0x03 => [all, 0, 0, 0, 0, 0, 0, 0]
  | 0x04 => [0x10F, 0, 0, 0, 0, 0, 0, 0]
  | 0x05 => [0x31F, all, all, all, all, 0, 0, 0]
  | 0x10 => [0xFF, 3, all, all, all, 0, 0, 0]
  | 0x11 => [0xFF, 0, all, all, all, 0, 0, 0]
  | 0x12 => [7, 0, all, all, all, 0, 0, 0]
  | _ => [0, 0, 0, 0, 0, 0, 0, 0]

/-- No unlisted argument and no reserved bit is set. -/
def argsListed (op : Nat) (ws : List Word) : Bool :=
  (List.range 8).all fun i => andNot (argOf ws i) (((argMasks op)[i]?).getD 0) == 0

/-- An opcode is defined and available to its issuer (R71). -/
def opAvailable (sp op : Nat) : Bool :=
  if sp < 256 then 1 ≤ op && op ≤ 6 else op == 5 || op == 6 || op == 0x10 || op == 0x11 || op == 0x12

/-- The first refusal of a list of conditions with their status. -/
def firstRefusal (l : List (Bool × Nat)) : Option Nat := (l.find? (·.1)).map (·.2)

/-! ### Surface commands (04_surfaces_and_haul.md R136) -/

/-- The host address and pitch of a transfer fail: alignment, and the pitch of unstored rows. -/
def badPlace (stored : Bool) (addr pitch f w : Nat) : Bool :=
  addr % 16 != 0 || (!stored && (pitch % 16 != 0 || pitch < rowBytes f w))

/-- The row range of a transfer fails. -/
def badRows (arg : Nat) (stored : Bool) (f h : Nat) : Bool :=
  let first := arg % 65536
  let rows := arg / 65536
  let n := if rows = 0 then h - first else rows
  h ≤ first || h < first + n || (stored && arg != 0) ||
    (isNv12 f && (first % 2 == 1 || n % 2 == 1)) ||
    (tiled f && (first % 32 != 0 || ((first + n) % 32 != 0 && first + n != h)))

/-- The snoop of a transfer names no unit granted to the slice. -/
def State.badSnoop (s : State) (sl : Nat) (ws : List Word) : Bool :=
  bitAt (argOf ws 7) 7 && (s.globalOf sl 2 (argOf ws 7 % 32)).isNone

/-- SURF_IMPORT. -/
def State.importRefusal (s : State) (sl : Nat) (ws : List Word) : Option Nat :=
  let (w, h) := (argOf ws 0 % 65536, argOf ws 0 / 65536)
  let f := argOf ws 1 % 256
  let stored := bitAt (argOf ws 1) 10
  let target := if argOf ws 5 = 0 then none else some (argOf ws 5)
  let old := target.bind (s.surface sl)
  firstRefusal [
    (s.weight sl == 0, 0x1003),
    (s.badSnoop sl ws, 0x1003),
    (target.isSome && old.isNone, 0x1004),
    (!fmtOk f || w == 0 || 8192 < w || h == 0 || 8192 < h || !fmtSizeOk f w h ||
      badPlace stored (argAddr ws 2) (argOf ws 4) f w, 0x1002),
    (badRows (argOf ws 6) stored f h, 0x1002),
    (match old with
      | some x => x.w != w || x.h != h || x.fmt != f || x.colour != colourOf f (bitsOf (argOf ws 1) 9 8)
      | none => false, 0x1002)]

/-- SURF_EXPORT. -/
def State.exportRefusal (s : State) (sl : Nat) (ws : List Word) : Option Nat :=
  let stored := bitAt (argOf ws 1) 0
  let x := s.surface sl (argOf ws 0)
  let y := x.getD {}
  firstRefusal [
    (s.weight sl == 0, 0x1003),
    (s.badSnoop sl ws, 0x1003),
    (x.isNone, 0x1004),
    (badPlace stored (argAddr ws 2) (argOf ws 4) y.fmt y.w, 0x1002),
    (badRows (argOf ws 5) stored y.fmt y.h, 0x1002)]

/-! ### COMMIT (R156; 06_layer_composition.md R186; 08_check_values_core_samples_and_floor_images.md R244) -/

/-- The layer that an image of a slice describes, with its surface. -/
def State.imageLayer (s : State) (sl : Nat) (n : Nat) (img : Tab Word) : CfgLayer :=
  let x := (s.surface sl (imgGet img 1).toNat).getD {}
  { slot := n, owner := sl, image := img, vid := none, base := 0, sw := x.w, sh := x.h, fmt := x.fmt, colour := x.colour }

/-- The rows of R186 on the enabled layers of a snapshot. -/
def State.layersRefusal (s : State) (sl : Nat) (c : Commit) : Option Nat :=
  let ls := c.enabled.map fun e => s.imageLayer sl e.1 e.2
  let src := ls.filter fun l => !l.solid
  firstRefusal [
    (src.any fun l => (s.surface sl (imgGet l.image 1).toNat).isNone, 0x1004),
    (ls.any fun l => l.dstW == 0 || l.dstH == 0 || (!l.solid && (l.srcW == 0 || l.srcH == 0)), 0x1002),
    (src.any fun l => l.sw < l.srcX + l.srcW || l.sh < l.srcY + l.srcH, 0x1002),
    (src.any fun l =>
      (isNv12 l.fmt && !(l.srcX % 2 == 0 && l.srcY % 2 == 0 && l.srcW % 2 == 0 && l.srcH % 2 == 0)) ||
        (l.fmt == 7 && !(l.srcX % 2 == 0 && l.srcW % 2 == 0)), 0x1002)]

/-- The anchor of a region image: the slice's layer of that ordinal on the output, enabled in the snapshot. -/
def State.anchorOf (s : State) (sl : Nat) (c : Commit) (i : RegionImg) : Option CfgLayer :=
  (s.globalOf sl 1 (bitsOf i.ctrl.toNat 13 8)).bind fun n =>
    (c.enabled.find? fun e => e.1 == n).map fun e => s.imageLayer sl e.1 e.2

/-- A region image lies wholly within its anchor's clipped destination rectangle. -/
def RegionImg.within (i : RegionImg) (l : CfgLayer) (t : Timing) : Bool :=
  let (x, y, w, h) := l.clip t
  x ≤ i.x && y ≤ i.y && i.x + i.w ≤ x + w && i.y + i.h ≤ y + h

/-- The rows of R244 on the enabled region images of a snapshot. -/
def State.regionsRefusal (s : State) (sl o : Nat) (c : Commit) : Option Nat :=
  let rs := c.regions.filter fun e => e.2.on
  let t := s.normalTiming o
  firstRefusal [
    (rs.any fun e => (s.imageUnit sl e.2).isNone, 0x1003),
    (rs.any fun e => !e.2.inArea t, 0x1002),
    (rs.any fun e => (s.anchorOf sl c e.2).isNone, 0x1002),
    (rs.any fun e => (match s.anchorOf sl c e.2 with | some l => !e.2.within l t | none => false), 0x1002),
    (rs.any fun e => (match s.imageUnit sl e.2 with | some u => s.cvFeed u != .idle | none => false), 0x1002),
    (rs.any fun e => !s.gateOpen (149 + e.1), 0x1002)]

/-- COMMIT: R156, then R186, then R244 (R79). -/
def State.commitRefusal (s : State) (sl : Nat) (ws : List Word) : Option Nat :=
  match s.commitOut sl ws with
  | none => some 0x1003
  | some o =>
    let c := s.snapshot sl o 0 false
    (s.layersRefusal sl c).or (s.regionsRefusal sl o c)

/-! ### The other commands -/

/-- CV_SEED (08_check_values_core_samples_and_floor_images.md R240). -/
def State.seedRefusal (s : State) (sp : Nat) (ws : List Word) : Option Nat :=
  firstRefusal [
    ((s.seedUnit sp ws).isNone, 0x1003),
    (sp < 256 && s.weight sp == 0 && argOf ws 4 != 0, 0x1003),
    (bitsOf (argOf ws 0) 9 8 == 3 || 16777216 < argOf ws 4, 0x1002)]

/-- FLOOR_LOAD (08_check_values_core_samples_and_floor_images.md R254). -/
def State.floorRefusal (s : State) (ws : List Word) : Option Nat :=
  firstRefusal [
    (argOf ws 4 == 0 || 1048576 < argOf ws 4 || argAddr ws 2 % 16 != 0, 0x1002),
    (s.pageWorld1 (pageBase 0x43 (argOf ws 0 % 8)), 0x1003)]

/-- The checks of an opcode's own definition. A misaligned capture buffer is an argument out of range (03_slices.md R117; log 70). -/
def State.opRefusal (s : State) (sp op : Nat) (ws : List Word) : Option Nat :=
  match op with
  | 0x01 => s.importRefusal sp ws
  | 0x02 => s.exportRefusal sp ws
  | 0x03 => firstRefusal [((s.surface sp (argOf ws 0)).isNone, 0x1004)]
  | 0x04 => s.commitRefusal sp ws
  | 0x05 => s.seedRefusal sp ws
  | 0x10 => firstRefusal [(argAddr ws 2 % 16 != 0, 0x1002)]
  | 0x12 => s.floorRefusal ws
  | _ => none

/-! ### Issue (R72, R76, R77, R79) -/

/-- The slice is frozen for migration or detached. -/
def State.frozenSpace (s : State) (sp : Nat) : Bool := sp < 256 && (s.slice sp).st != .bound

/-- Why a command is refused at issue, in the order of R79. -/
def State.issueRefusal (s : State) (sp op : Nat) (ws : List Word) : Option Nat :=
  (firstRefusal [
    (s.frozenSpace sp, 0x1007),
    (!opAvailable sp op, 0x1001),
    (!s.cqOn sp, 0x1006),
    (s.cqSize sp - 16 ≤ s.committed sp, 0x1006),
    (4096 ≤ (s.space sp).cmds.length, 0x1005),
    (!argsListed op ws, 0x1002)]).or (s.opRefusal sp op ws)

/-- The low byte of a handle: the slice, or the slice that a station command acts on (R76). -/
def handleLow (sp op : Nat) (ws : List Word) : Nat :=
  if sp < 256 then sp else if op = 0x10 ∨ op = 0x11 then argOf ws 0 % 256 else 0

/-- A command with its handle joins its space; a COMMIT takes its snapshot (R72; 05_bench_plan_and_fit_check.md R156). -/
def State.joinSpace (s : State) (sp handle op : Nat) (ws : List Word) (fence noInt : Bool) : State :=
  let s := s.updSpace sp fun x => { x with cmds := x.cmds ++
    [({ handle := handle, op := op, words := ws, fence := fence, noInt := noInt, phase := .waiting } : Cmd)] }
  if op = 4 then s.commitIssued sp handle ws else s

/-- Issue a command: its status and handle, a refusal having handle 0 (R79). -/
def State.issue (s : State) (sp op : Nat) (ws : List Word) (fence noInt : Bool) : Nat × Nat × State :=
  let refused (st : Nat) : Nat × Nat × State :=
    (st, 0, if h : sp < 257 then s.decide (.commandRefused ⟨sp, h⟩ st) else s)
  match s.issueRefusal sp op ws with
  | some st => refused st
  | none => match s.issueHandle sp (handleLow sp op ws) with
    | none => refused 0x1005
    | some (handle, t) =>
      let t := t.joinSpace sp handle op ws fence noInt
      (0, handle, if h : sp < 257 then t.decide (.commandIssued ⟨sp, h⟩ handle op ws fence noInt) else t)

/-! ### The command page (R70, R73) -/

/-- The argument registers of a command page. -/
def State.cmdArgs (s : State) (sp : Nat) : List Word := (List.range 8).map fun i => s.rd (R.cmdArg sp i)

/-- A write of SLC_CMD_OP issues the immediate command; both result registers take its outcome (R72, R73; log 43). -/
def doCmdOp (sp : Nat) (v : Word) (s : State) : State :=
  let (st, handle, s) := s.issue sp (v.toNat % 256) (s.cmdArgs sp) (bitAt v.toNat 8) (bitAt v.toNat 9)
  ((s.wrN (R.cmdResult sp) handle).wrN (R.cmdRefusal sp) st).settle

/-- A write of SLC_HANDLE_QUERY. -/
def doHandleQuery (sp : Nat) (v : Word) (s : State) : State := s.updSpace sp fun x => { x with query := v.toNat }

/-- Line 4 of a slice, or line 1 of the station (R85, R88, R503). -/
def State.ringError (s : State) (sp : Nat) : State := if sp < 256 then s.signal (some sp) 4 else s.signal none 1

/-- A read is for the submission ring of a space. -/
def ReadFor.isEntry (sp : Nat) : ReadFor → Bool
  | .entry p => p == sp
  | _ => false

/-- The write of a submission-entry result waits for the dirty log (R75; 03_slices.md R116). -/
def State.entryWaits (s : State) (sp : Nat) : Bool := (s.slice sp).waiting.any fun w => w.kind == 2

/-- A write of SLC_SQ_CTRL: a ring that is disabled drops an entry not yet taken, read or being read (log 52). -/
def doSqCtrl (sp : Nat) (v : Word) (s : State) : State :=
  let s := s.plainWrite (R.sqCtrl sp) v
  let s := if s.flag (R.sqCtrl sp) F.sqCtrl_enable then s
    else (s.updSpace sp fun x => { x with entry := none, fetching := false }).cancelReads (ReadFor.isEntry sp)
  s.fetchEntry sp

/-- A write of SLC_SQ_TAIL: the doorbell. Too far ahead sets error and stops the ring; otherwise reading goes on, where error is
clear. After a failed read, the write makes the module read the same entry again, whatever its value (R75, R503). -/
def doSqTail (sp : Nat) (v : Word) (s : State) : State :=
  let err := s.flag (R.sqCtrl sp) F.sqCtrl_error
  let again := (s.space sp).stopped && !err
  let s := s.wr (R.sqTail sp) v
  if s.sqSize sp < s.sqAhead sp then
    let s := (s.setF (R.sqCtrl sp) F.sqCtrl_error).updSpace sp fun x => { x with stopped := true, again := again }
    (s.ringError sp).fetchEntry sp
  else (s.updSpace sp fun x => { x with stopped := err, again := again }).fetchEntry sp

/-- A write of SLC_CQ_CTRL: enabling starts the ring anew; disabling takes effect only with nothing outstanding, held or
unconsumed (R80, R85). -/
def doCqCtrl (sp : Nat) (v : Word) (s : State) : State :=
  let was := s.cqOn sp
  let on := bitAt v.toNat 0
  if was && !on && !((s.space sp).cmds.isEmpty && (s.space sp).heldRecs.isEmpty && s.cqUsed sp == 0) then
    s.setF (R.cqStatus sp) F.cqStatus_disable_refused
  else
    let s := s.plainWrite (R.cqCtrl sp) v
    if !was && on then (s.wrN (R.cqTail sp) 0).wrN (R.cqHead sp) 0 else s

/-- A write of SLC_CQ_HEAD consumes records within the range written (R78, R84, R85). -/
def doCqHead (sp : Nat) (v : Word) (s : State) : State :=
  let head := s.num (R.cqHead sp)
  let k := (v.toNat + 2 ^ 32 - head) % 2 ^ 32
  if k ≤ s.cqUsed sp then
    let s := (s.wr (R.cqHead sp) v).setSpace sp ((s.space sp).consume head k)
    (s.tellLost sp).settle
  else (s.setF (R.cqStatus sp) F.cqStatus_head_error).ringError sp

/-- A write of a block register of a command page. -/
def doCmdPage (sp off : Nat) (v : Word) (s : State) : State :=
  match off with
  | 0x060 => doCmdOp sp v s
  | 0x06C => doHandleQuery sp v s
  | 0x088 => doSqCtrl sp v s
  | 0x08C => doSqTail sp v s
  | 0x0A8 => doCqCtrl sp v s
  | 0x0AC => doCqHead sp v s
  | _ => s.plainWrite (cmdPage sp + off) v

/-! ### Submission entries (R74, R75) -/

/-- The module writes bytes 56 to 63 of an entry: without PASID for the station, logged for a slice (R75; 03_slices.md R113). -/
def State.entryResult (s : State) (sp addr st handle : Nat) : State :=
  let bytes := leBytes 2 st ++ leBytes 2 0 ++ leBytes 4 handle
  if sp < 256 then s.guestIssue sp { addr := addr, data := bytes, kind := 2 } else s.hostWrite none addr bytes false

/-- The entry that has been read is taken: its result is written, and then SLC_SQ_HEAD advances (R72, R75). -/
def State.takeEntry (sp : Nat) (s : State) : State :=
  match (s.space sp).entry with
  | none => s
  | some e =>
    if !s.takes sp || s.sqAhead sp = 0 then s
    else
      let op := leNat (e.take 4)
      let ws := (List.range 8).map fun i => w32 (leNat ((e.drop (4 + 4 * i)).take 4))
      let addr := s.sqEntryAddr sp
      let s := s.updSpace sp fun x => { x with entry := none }
      let (st, handle, s) := s.issue sp (op % 256) ws (bitAt op 8) (bitAt op 9)
      let s := s.entryResult sp (addr + 56) st handle
      let s := s.wrN (R.sqHead sp) (s.num (R.sqHead sp) + 1)
      let s := if h : sp < 257 then s.decide (.entryTaken ⟨sp, h⟩ (s.rd (R.sqHead sp))) else s
      (s.fetchEntry sp).settle

/-- SUBMISSION_ENTRY: the entry that has been read is taken, once the dirty log has room for its result (R75;
03_slices.md R116). -/
def doSubmissionEntry (sp : Nat) (s : State) : State :=
  let addr := s.sqEntryAddr sp + 56
  if sp < 256 && s.dlogBlocks sp addr 8 then
    if (s.space sp).entry.isSome && s.takes sp && !s.entryWaits sp then
      s.guestWait sp { addr := addr, data := List.replicate 8 0#8, kind := 2 }
    else s
  else s.takeEntry sp

/-! ### The dirty log's registers, and writes that waited for it (03_slices.md R113 to R116) -/

/-- A write that waited goes on: a submission entry is taken, a report record is written at the ring's tail, and export data
are written, with which the export may be over. -/
def State.guestGoesOn (s : State) (sl : Nat) (w : GuestWrite) : State :=
  if w.kind = 2 then s.takeEntry sl
  else if w.kind = 3 then s.writeReportBytes sl w.data
  else
    let s := s.guestIssue sl w
    match s.xfer sl w.handle with
    | some x => if x.idx = x.segs.length then finishExport x s else s
    | none => s

/-- Let waiting guest writes go on, in order, while the log has room or is off (03_slices.md R116). -/
def State.drainWaiting (sl : Nat) : Nat → State → State
  | 0, s => s
  | fuel + 1, s =>
    match (s.slice sl).waiting with
    | [] => s
    | w :: rest =>
      if !s.dlogOn sl || s.dlogRoom sl (pagesOf w.addr w.data.length).length then
        State.drainWaiting sl fuel ((s.setSlice sl { s.slice sl with waiting := rest }).guestGoesOn sl w)
      else s

/-- The completion records of a freezing slice are written, its event records stay held (03_slices.md R111, R116). -/
def State.flushCompletions (s : State) (sl : Nat) : State :=
  let x := s.space sl
  let (evs, cs) := x.heldRecs.partition (·.event)
  let s := (s.setSpace sl { x with heldRecs := cs }).flush sl
  s.updSpace sl fun y => { y with heldRecs := y.heldRecs ++ evs }

/-- Nothing waits for log space any more: `stalled` clears. -/
def State.settleStall (s : State) (sl : Nat) : State :=
  if s.recordsBlocked sl && !(s.space sl).heldRecs.isEmpty || !(s.slice sl).waiting.isEmpty then s
  else s.clrF (R.slcAdmDlogCtrl sl) F.slcAdmDlogCtrl_stalled

/-- Log space has freed, or the log is off: waiting writes and records of an attached slice go on (03_slices.md R116;
02_host_interface.md R90). -/
def State.dlogProgress (s : State) (sl : Nat) : State :=
  if (s.slice sl).st = .detached then s
  else
    let s := State.drainWaiting sl (s.slice sl).waiting.length s
    let s := match (s.slice sl).st with
      | .bound => s.flush sl
      | .resetting => (s.flush sl).settleReset sl
      | .freezing => s.flushCompletions sl
      | .frozen => s.flushCompletions sl
      | _ => s
    s.settleStall sl

/-- A write of SLC_ADM_DLOG_CTRL: enable is writable only under LOGGED, and setting it sets head and tail to 0
(03_slices.md R113). -/
def doDlogCtrl (sl : Nat) (v : Word) (s : State) : State :=
  let s := s.put (R.slcAdmDlogCtrl sl) F.slcAdmDlogCtrl_log2_entries (bitsOf v.toNat 4 1)
  if s.fld (R.slcAdmMig sl) F.slcAdmMig_method != 2 then s
  else if bitAt v.toNat 0 && !s.dlogOn sl then
    ((s.setF (R.slcAdmDlogCtrl sl) F.slcAdmDlogCtrl_enable).wrN (R.slcAdmDlogHead sl) 0).wrN (R.slcAdmDlogTail sl) 0
  else if !bitAt v.toNat 0 && s.dlogOn sl then
    (s.clrF (R.slcAdmDlogCtrl sl) F.slcAdmDlogCtrl_enable).dlogProgress sl
  else s

/-- A write of SLC_ADM_DLOG_HEAD (03_slices.md R116). -/
def doDlogHead (sl : Nat) (v : Word) (s : State) : State := (s.wr (R.slcAdmDlogHead sl) v).dlogProgress sl

/-! ### Reattachment (R91) -/

/-- The reattach under way: the held records of each DETACHED slice are written in ascending slice number, and the slice
returns to its state; a slice whose records wait for its dirty log keeps those behind it waiting. With the last one, reattach
clears and the event is set. `fuel` bounds the slices. -/
def State.reattachNext : Nat → State → State
  | 0, s => s
  | fuel + 1, s =>
    match s.slices.find? fun e => e.2.st == .detached with
    | none => (s.clrF R.hifLinkCtrl F.hifLinkCtrl_reattach).event 0x10 0 3
    | some (sl, _) =>
      let s := s.flush sl
      if (s.space sl).heldRecs.isEmpty then
        let s := s.updSlice sl fun x => { x with st := x.before }
        State.reattachNext fuel ((s.dlogProgress sl).tellLost sl)
      else if s.stalled sl then s else s.dlogStall sl

/-- A reattach goes on, if one is under way. -/
def State.reattachGoesOn (s : State) : State :=
  if s.flag R.hifLinkCtrl F.hifLinkCtrl_reattach && s.hif.linkUp then State.reattachNext (s.slices.length + 1) s else s

/-- A write of HIF_LINK_CTRL (R91): first the held records of the station ring, then those of the DETACHED slices. -/
def doReattach (v : Word) (s : State) : State :=
  if !bitAt v.toNat 0 || !s.hif.linkUp || !s.hif.busMaster || !(s.slices.any fun e => e.2.st == .detached) then s
  else (((s.flush 256).setF R.hifLinkCtrl F.hifLinkCtrl_reattach).reattachGoesOn).kick

end Sys2Proof.Machine
end

