-- ==== Sys2Proof/Machine/Power.lean ====
section
/-!
DEFINITION. Power states, what survives each reset, resets, supplies, the junction temperature, the HV interlock, the
cores' run control and flash operations (16_power_resets_and_start_up.md R452 to R466, R478 to R480;
17_connectors_and_electrical_characteristics.md R488 to R491, R501; 15_pairs_and_live_insertion.md R450;
11_control_cores_and_the_protected_world.md R341, R349).
-/

namespace Sys2Proof.Machine

/-! ### The HV rail (R457, R458, R480; 17_connectors_and_electrical_characteristics.md R491) -/

/-- The rail is turned off: each enabled channel ends its play as in a rail fault (R457, R480). -/
def State.railOff (s : State) : State := s.railFaulted.railSwitch

/-! ### Dim (R457) -/

/-- Entry to Dim: the fields are saved and reduced. -/
def State.enterDim (s : State) : State :=
  let x := (s.fld R.dmcCtrl F.dmcCtrl_sp_target, s.fld R.stnTickCtrl F.stnTickCtrl_rate, (s.dom 4).target)
  let s := State.railOff { s with pwr := { s.pwr with saved := some x } }
  let s := (s.setRatio 4 1).put R.stnTickCtrl F.stnTickCtrl_rate 0
  let s := s.put R.stnTickCtrl F.stnTickCtrl_pending (b2n (s.rate != 0))
  s.setPoint (s.fld R.dmcCtrl F.dmcCtrl_sp_min)

/-- What Dim saved is restored, in the reverse order. -/
def State.restoreDim (s : State) : State :=
  match s.pwr.saved with
  | none => s
  | some (sp, rate, ratio) =>
    let s := State.setPoint { s with pwr := { s.pwr with saved := none } } sp
    let s := s.put R.stnTickCtrl F.stnTickCtrl_rate rate
    (s.put R.stnTickCtrl F.stnTickCtrl_pending (b2n (s.rate != rate))).setRatio 4 ratio

/-! ### What survives (R466) -/

/-- The flash after a reset: an operation in progress leaves its bytes open (log 1). -/
def State.cutFlash (s : State) : State :=
  match s.pwr.flash with
  | none => s
  | some f =>
    let n := if f.erase then 0x10000 else 256
    let bytes := (List.range n).map fun i => BitVec.ofNat 8 (Config.free (s.freeCtr + i))
    { s with freeCtr := s.freeCtr + n, mem := { s.mem with flash := Mem.write 0xFF#8 s.mem.flash f.addr bytes } }

/-- The registers that every reset but a power-on keeps: the reset log, the wake time, the brown-out state, tripped and the
presence of XO32. -/
def keptByReset (a : Nat) : Bool :=
  a == R.pwrResetCause || a == R.pwrWakeLo || a == R.pwrWakeHi || a == R.pwrWakeCause || a == R.pwrBoStatus ||
    a == R.pwrMainMv || a == R.stnModule || a == R.clkRefStatus

/-- The presence of the supplies and of the outside world's signals, which no reset changes. -/
def Pwr.outside (p : Pwr) : Pwr :=
  { perstLow := p.perstLow, perstHigh := p.perstHigh, modEn := p.modEn, modEnFell := p.modEnFell, vstby := p.vstby,
    mainOk := p.mainOk, tripOpen := p.tripOpen, bootDue := false }

/-- The block with everything at reset but what no reset touches. -/
def State.bare (s : State) : State :=
  let s := s.cutFlash
  { State.reset with
    pending := s.pending, freeCtr := s.freeCtr, emits := s.emits, resp := s.resp,
    mem := { State.reset.mem with flash := s.mem.flash }, pwr := s.pwr.outside }

/-- Registers kept through a reset, with those of their fields that are settings or go stale returned to reset. -/
def State.keepCells (s t : State) (p : Nat → Bool) : State :=
  let t := { t with cells := s.cells.filter fun e => p e.1 }
  let t := t.put R.stnModule F.stnModule_warn_c 0x64
  t.wrN R.clkRefStatus (if p R.clkRefStatus then s.num R.clkRefStatus / 2 ^ 30 % 2 * 2 ^ 30 else 0)

/-- Retention memory (11_control_cores_and_the_protected_world.md R321). -/
def retentionOf (t : Tab Byte) : Tab Byte := t.filter fun e => 0x1000000 ≤ e.1

/-- Those registers, and with the link the MSI-X table and the pending-bit array. -/
def keptWithLink (link : Bool) (a : Nat) : Bool := keptByReset a || (link && K.msix 0 0 ≤ a && a < K.pba 64)

/-- The state `t` after a reset with station time, retention memory and the counters of the resets of `s`. -/
def State.keepDie (s t : State) : State :=
  { t with
    time := s.time, ticks := s.ticks, mem := { t.mem with ctl := retentionOf s.mem.ctl },
    pwr := { t.pwr with wakeTime := s.pwr.wakeTime, attempts := s.pwr.attempts, attemptsSeq := s.pwr.attemptsSeq } }

/-- The state `t` after a reset with the PCI Express link and its configuration space of `s`. -/
def State.keepLink (s t : State) : State := { t with hif := { s.hif with reads := [], softReset := [], subsystem := 0#32 } }

/-- The columns PERST, STATION and WATCHDOG: station time, retention memory and the counters of the resets stay; with `link`
also the PCI Express link, its configuration space, the MSI-X table and the pending-bit array. -/
def State.dieReset (s : State) (link : Bool) : State :=
  let t := s.keepDie (s.keepCells s.bare (keptWithLink link))
  if link then s.keepLink t else t

/-- The columns POWER_ON and BROWN_OUT: everything but what no reset touches; a brown-out keeps the reset log and tripped. -/
def State.fullReset (s : State) (brownOut : Bool) : State :=
  State.keepCells s s.bare fun a =>
    brownOut && (a == R.pwrResetCause || a == R.pwrMainMv || a == R.stnModule || a == R.clkRefStatus)

/-! ### The pair takeover reset (R466; 15_pairs_and_live_insertion.md R450) -/

/-- The registers that a takeover reset keeps: those of the clocks but for gates, ratios and the clock-out pin, power and boot, the
memory controller, the worlds with their guards and gate entries, the pair pages; the locks, whose owner locks clear, and the
headers of world-1 pages. The gates are for `takeoverGates`. -/
def State.keptByTakeover (s : State) (a : Nat) : Bool :=
  (0x20000 ≤ a && a < 0x25000 && a != R.clkOutCtrl) || (0x280000 ≤ a && a < 0x284000) || (0x290000 ≤ a && a < 0x2A4000) ||
    a == R.stnModule || (K.guardBase 0 0 ≤ a && a < K.hst 0 0 0) ||
    (a < 0x1000000 && a % 0x1000 < 0x40 && (a % 0x1000 == 0x20 || s.pageWorld1 (pageOf a))) ||
    (K.flashBuf 0 ≤ a && a < K.flashBuf 64)

/-- The clock gates after a takeover reset: closed, but for those of the blocks whose pages it keeps (log 101). -/
def State.takeoverGates (s : State) : State :=
  s.each (below 297 fun i => !s.keptByTakeover (gatePage (21 + i) + 0x40) && !s.pageWorld1 (gatePage (21 + i))) fun s i =>
    s.put (R.clkGate ((21 + i) / 32)) ⟨(21 + i) % 32, (21 + i) % 32⟩ 0

/-- The domains after a takeover reset go back to their ratios at reset, by a ramp as every change of ratio
(R466; 14_clock_generation.md R398). -/
def State.takeoverRatios (s : State) : State :=
  s.each ((List.range 16).filter hasRatio) fun s d => s.setRatio d (domRatio d)

/-- A core after a takeover reset: its general bank is at reset, C1 to C3 are held. -/
def State.takeoverCore (s : State) (c : Nat) : CoreSt :=
  let x := s.core c
  { x with g := [], x := if x.st = 0 then [] else x.x, pc := if x.st = 0 then s.generalEntry else x.pc,
           held := c != 0, halted := false, wfi := false }

/-- What a takeover reset leaves in place of each part of State, its gates, ratios and locks apart (R466). -/
def State.takeoverBase (s : State) : State :=
  { s.bare with
    cells := s.cells.filter fun (e : Nat × Word) => s.keptByTakeover e.1, time := s.time, ticks := s.ticks, clk := s.clk,
    dmc := { s.dmc with queue := [] },
    cic := { srcs := s.cic.srcs.filter fun (e : Nat × Src) => s.srcWorld1 e.1 },
    pwr := { s.pwr with saved := none, retaining := none },
    wld := { s.wld with cores := [0, 1, 2, 3].foldl (fun t c => Tab.set {} t c (s.takeoverCore c)) [], lines := [],
                        notice := none },
    mem := { s.mem with ctl := s.mem.ctl.filter (fun (e : Nat × Byte) => 0x300000 ≤ e.1), store := [], floor := [] },
    pair := { configured := s.pair.configured, prio := s.pair.prio, digest := s.pair.digest,
              roleLow := s.pair.roleLow, hbSeen := s.pair.hbSeen, hbOut := true } }

/-- PAIR_TAKEOVER_RESET: a module that yields, or a primary that finds PAIR_ROLE held by its partner, or a secondary whose link
is down while its partner lives. -/
def doTakeoverReset (s : State) : State :=
  let due := s.pairSt == 7 || (s.pairRole == 1 && s.pair.roleLow) ||
    (s.pairRole == 2 && 5 < s.pairSt && !s.linkOn && (s.pair.roleLow || s.pair.hbSeen))
  if !due then s
  else
    let s := s.each (List.range 8) fun s o => s.stopPll (6 + o)
    let s := s.noteReset 8
    let t := s.takeoverBase
    let t := t.clearOwnerLocks.takeoverGates.takeoverRatios.clrF R.pairStatus F.pairStatus_guard_tripped
    let t := (t.put R.pairLinkStatus F.pairLinkStatus_up 0).put R.pairLinkStatus F.pairLinkStatus_training 1
    let t := t.wrN R.pairFeed 0
    (t.clrF R.wldPwrNotice F.wldPwrNotice_pending).railSwitch.setPair 3 2

/-! ### Requests for a power state (R454, R456; 11_control_cores_and_the_protected_world.md R349) -/

/-- A request is pending or a transition is in progress. -/
def State.pwrBusy (s : State) : Bool := s.wld.notice.isSome || s.pwr.retaining.isSome

/-- PWR_STATE as read. -/
def State.pwrStateWord (s : State) : Word := F.pwrState_busy.put (s.rd R.pwrState) (b2n s.pwrBusy)

/-- A request is refused with its reason. -/
def State.refusePower (s : State) (reason : Nat) : State :=
  ((s.put R.pwrState F.pwrState_reason reason).setF R.pwrState F.pwrState_refused).event 0xA1 0 1

/-- A transition completes. -/
def State.enterPower (s : State) (n : Nat) : State :=
  ((s.put R.pwrState F.pwrState_previous s.power).put R.pwrState F.pwrState_current n).event 0xA1 0 0

/-- The standby retention area within the cells of control-core and retention memory (R453, R466; log 82). -/
def standbyArea (t : Tab Byte) : Tab Byte := t.filter fun e => e.1 / 0x1000 == 0x1000 + Config.standbyPage.val

/-- The state `t` after a reset with nothing powered but the always-on domain, entered at the time of `s`. Of retention memory
the standby retention area alone survives, so the count of boots is lost (R453, R466, R469). -/
def State.standbyOf (s t : State) : State :=
  { t with mem := { t.mem with ctl := standbyArea t.mem.ctl }, wld := { t.wld with cores := [], token := none },
           pwr := { t.pwr with entryTime := s.time, attempts := 0, attemptsSeq := 0 } }

/-- Standby: only the always-on domain stays powered; it holds station time (R455, R460). -/
def State.enterStandby (s : State) : State :=
  ((s.standbyOf (s.dieReset false)).put R.pwrState F.pwrState_previous s.power).put R.pwrState F.pwrState_current 3

/-- Off: nothing is powered (R454). -/
def State.enterOff (s : State) : State :=
  let old := s.power
  let t := s.fullReset false
  let t := { t with wld := { t.wld with cores := [], token := none } }
  (t.put R.pwrState F.pwrState_previous old).put R.pwrState F.pwrState_current 4

/-- The transitions of R454 that a request starts. -/
def powerMoves (p n : Nat) : Bool :=
  match p with
  | 0 => n == 1 || n == 2 || n == 3 || n == 4
  | 1 => n == 0 || n == 2 || n == 3 || n == 4
  | 2 => n == 3 || n == 4
  | 3 => n == 4
  | _ => false

/-- Why a request is refused, in the order listed (R456). -/
def State.powerRefusal (s : State) (n : Nat) (busy : Bool) : Option Nat :=
  if 2 ≤ n ∧ s.pairSt ≠ 0 then some 1
  else if n = 2 ∧ s.slices.any (fun e => e.2.st != .frozen && e.2.st != .unbound) then some 2
  else if n = 2 ∧ ((List.range 4).any (fun e => (s.engine e).run.isSome) || s.floor.any fun e => e.2.load.isSome) then some 3
  else if 2 ≤ n ∧ s.warned then some 4
  else if busy then some 6
  else if powerMoves s.power n then none
  else some 7

/-- A request is decided: refused, or its transition starts. -/
def State.decidePower (s : State) (n : Nat) (busy : Bool) : State :=
  match s.powerRefusal n busy with
  | some r => s.refusePower r
  | none => match n with
    | 0 => (State.enterPower s 0).restoreDim.railSwitch
    | 1 => (State.enterPower s 1).enterDim
    | 2 => { s with pwr := { s.pwr with retaining := some s.time } }
    | 3 => s.enterStandby
    | _ => s.enterOff

/-- The notice to the protected world ends, and its request is decided. -/
def State.endNotice (s : State) : State :=
  match s.wld.notice with
  | none => s
  | some (n, _) =>
    let s := { s with wld := { s.wld with notice := none } }
    (((s.clrF R.wldPwrNotice F.wldPwrNotice_pending).clrF R.wldPwrNotice F.wldPwrNotice_ready).put
      R.wldPwrNotice F.wldPwrNotice_state 0).decidePower n false

/-- A notice ends at once while the protected world does not run. -/
def State.settleNotice (s : State) : State :=
  if s.wld.notice.isSome && !s.flag R.wldStatus F.wldStatus_running then s.endNotice else s

/-- A request for a power state. One of the general world for Retain, Standby or Off gives the protected world its notice first
(11_control_cores_and_the_protected_world.md R349). -/
def State.askPower (s : State) (r : Req) (n : Nat) : State :=
  if 2 ≤ n && !s.reqProtected r && !s.pwrBusy then
    let s := { s with wld := { s.wld with notice := some (n, s.time + 5000000) } }
    (((s.setF R.wldPwrNotice F.wldPwrNotice_pending).put R.wldPwrNotice F.wldPwrNotice_state n).event 0x80 3 1).settleNotice
  else s.decidePower n s.pwrBusy

/-- A write of PWR_STATE; a reserved target requests nothing. -/
def doPwrState (r : Req) (v : Word) (s : State) : State :=
  let s := if bitAt v.toNat 30 then s.clrF R.pwrState F.pwrState_refused else s
  let n := F.pwrState_target.get v
  if n ≤ 4 then (s.put R.pwrState F.pwrState_target n).askPower r n else s

/-- A write of WLD_PWR_NOTICE by the protected world: ready ends the notice. -/
def doPwrNotice (v : Word) (s : State) : State :=
  if bitAt v.toNat 30 && s.wld.notice.isSome then (s.setF R.wldPwrNotice F.wldPwrNotice_ready).endNotice else s

/-- POWER_NOTICE_TIMEOUT. -/
def doNoticeTimeout (s : State) : State :=
  match s.wld.notice with
  | none => s
  | some (_, t) => (s.at t).endNotice

/-! ### Retain (R458, R459) -/

/-- Every released core executes WFI. -/
def State.allWfi (s : State) : Bool := (List.range 4).all fun c => (s.core c).held || (s.core c).wfi

/-- RETAIN_WFI_TIMEOUT: a request is refused whose released cores have not all executed WFI (R456). One that waits for the
function's PowerState alone goes on waiting (R454). -/
def doWfiTimeout (s : State) : State :=
  match s.pwr.retaining with
  | none => s
  | some t =>
    if s.allWfi then s
    else (State.at { s with pwr := { s.pwr with retaining := none } } (t + 10000000)).refusePower 5

/-- An output stops at its next frame tick; its latched images, its leases and OUT_CTRL.run stay. -/
def State.retainOut (s : State) (o : Nat) : State :=
  let x := s.out o
  match x.gen with
  | .running => (State.genLost ((s.at (s.tickTime o (x.ticks + 1))).frameTick o false) o).stopPll (6 + o)
  | .stopping => (s.at (s.tickTime o (x.ticks + 1))).frameTick o true
  | .locking => s.stopPll (6 + o)
  | .stopped => s

/-- RETAIN_ENTRY_COMPLETE. -/
def doRetainEntry (s : State) : State :=
  if s.pwr.retaining.isNone || !s.allWfi || s.hif.powerState ≠ 3 then s
  else
    let s := s.each (List.range 8) State.retainOut
    let s := s.each ((List.range 8).filter fun n => (s.panel n).plan.isSome) State.panelStop
    let s := s.railOff
    let s := State.clrF { s with dmc := { s.dmc with selfRefresh := true } } R.dmcStatus F.dmcStatus_ready
    let s := { s with pwr := { s.pwr with retaining := none, entryTime := s.time } }
    (s.enterPower 2).railSwitch

/-- Station time at the exit, `c` edges after the entry (R455). -/
def State.timeAfter (s : State) (c : Nat) : Nat := s.pwr.entryTime + c * 1000000000 / (32768 * 5) * 5

/-- Station time is advanced; without XO32 it is uncertain. -/
def State.advanceTime (s : State) (t : Nat) : State := if s.xoOk then s.at t else (s.at t).timeUncertain

/-- Leave Retain with a wake cause. -/
def State.leaveRetain (s : State) (t cause : Nat) : State :=
  let s := ((s.advanceTime t).put R.pwrWakeCause F.pwrWakeCause_cause cause).enterPower 0
  let s := State.setF { s with dmc := { s.dmc with selfRefresh := false } } R.dmcStatus F.dmcStatus_ready
  let s := s.syncReff.restoreDim.railSwitch
  let s := s.each [0, 1, 2, 3] fun s c => s.updCore c fun x => { x with wfi := false }
  let s := s.each ((List.range 8).filter fun o => (s.out o).gen == .locking) fun s o => s.startPll (6 + o)
  s.each ((List.range 8).filter fun n => s.enabled (tchPage n)) fun s n =>
    s.updPanel n fun x => { x with next := some (s.compileScan n 0 false), mode := 1 }

/-- RETAIN_EXIT: the host writes D0. -/
def doRetainExit (edges : Nat) (s : State) : State :=
  if s.power = 2 then State.leaveRetain { s with hif := { s.hif with powerState := 0 } } (s.timeAfter edges) 1 else s

/-! ### Exits from Standby and Off (R454, R455, R460) -/

/-- Leave Standby: a STANDBY_EXIT reset. -/
def State.leaveStandby (s : State) (t cause : Nat) (wake : Bool) : State :=
  let s := s.put R.pwrState F.pwrState_previous 3
  let s := (s.put R.pwrState F.pwrState_current 0).put R.pwrWakeCause F.pwrWakeCause_cause cause
  let s := s.noteReset 3
  let s := { s with wld := State.reset.wld, pwr := { s.pwr with wakePin := wake } }
  (s.advanceTime t).bootWhenFree

/-- The wake time is enabled and reached at an instant. -/
def State.wakes (s : State) (t : Nat) : Bool := s.pwr.wakeTime != 0 && s.pwr.wakeTime ≤ t

/-- WAKE_TIME: in Retain a PME follows where the host has enabled it, in Standby WAKE# is driven
(R455, R459; 17_connectors_and_electrical_characteristics.md R488; log 16). -/
def doWakeTime (edges : Nat) (s : State) : State :=
  let t := s.timeAfter edges
  if !s.wakes t then s
  else if s.power = 2 then
    let s := s.leaveRetain t 2
    let s := { s with hif := { s.hif with pmeStatus := true } }
    if s.hif.pmeEnable then s.emit .pme else s
  else if s.power = 3 && s.pwr.modEn && s.pwr.mainOk then s.leaveStandby t 2 true
  else s

/-- A POWER_ON reset and its boot (R461). -/
def State.powerOn (s : State) : State :=
  let s := State.bare { s with pwr := { s.pwr with tripOpen := false } }
  s.bootWhenFree

/-- Standby ends because MOD_EN is high while the main supply is good. The always-on domain's count since the entry to Standby
is no operand of the events that lead here: station time is a free value not before the entry (R454, R455; log 1). -/
def State.modEnExit (s : State) : State :=
  let r := s.free (2 ^ 40)
  r.2.leaveStandby (r.2.timeAfter r.1) 3 false

/-- MOD_EN_RISE. -/
def doModEnRise (s : State) : State :=
  if s.pwr.modEn then s
  else
    let s := { s with pwr := { s.pwr with modEn := true, modEnFell := none } }
    if s.power = 4 && s.pwr.vstby then s.powerOn
    else if s.power = 3 && s.pwr.mainOk then s.modEnExit
    else s

/-- MOD_EN_FALL: a primary starts its handover (17_connectors_and_electrical_characteristics.md R490). -/
def doModEnFall (s : State) : State :=
  if !s.pwr.modEn then s
  else
    let s := { s with pwr := { s.pwr with modEn := false, modEnFell := some s.time } }
    if s.pairSt = 6 && s.pairRole = 1 && s.pair.handover.isNone then s.startHandover false true else s

/-- MOD_EN_LOW_TIMEOUT: after 1 ms low the module enters Standby. -/
def doModEnTimeout (s : State) : State :=
  match s.pwr.modEnFell with
  | none => s
  | some t => if s.power ≤ 2 then (s.at (t + 1000000)).enterStandby else s

/-- VSTBY_RISE. -/
def doVstbyRise (s : State) : State :=
  if s.pwr.vstby then s
  else
    let s := { s with pwr := { s.pwr with vstby := true } }
    if s.pwr.modEn then s.powerOn
    else s.bare.enterStandby

/-- VSTBY_FALL. -/
def doVstbyFall (s : State) : State :=
  if s.pwr.vstby then State.enterOff { s with pwr := { s.pwr with vstby := false } } else s

/-! ### Resets (R461 to R464) -/

/-- PERST_ASSERT. -/
def doPerstAssert (s : State) : State :=
  if s.pwr.perstLow then s
  else
    let s := { s with pwr := { s.pwr with perstLow := true } }
    if s.power ≤ 2 then
      let s := (s.noteReset 4).dieReset false
      { s with pwr := { s.pwr with bootDue := true } }
    else s

/-- PERST_DEASSERT: a boot that waits for it starts. -/
def doPerstDeassert (s : State) : State :=
  if !s.pwr.perstLow then s
  else
    let s := { s with pwr := { s.pwr with perstLow := false, perstHigh := s.time } }
    if s.pwr.bootDue && s.pwr.mainOk && s.power ≤ 2 then s.boot else s

/-- HOST_READY_LATE. -/
def doHostReadyLate (s : State) : State :=
  if s.flag R.bootStatus F.bootStatus_host_ready || s.pwr.perstLow || s.pwr.bootDue then s
  else ((s.at (s.pwr.perstHigh + 900000000)).setF R.bootStatus F.bootStatus_late).becomeReady 7

/-- A STATION or WATCHDOG reset: the link and configuration space stay. -/
def State.stationReset (s : State) (cause : Nat) : State :=
  let s := (s.noteReset cause).dieReset true
  State.boot { s with pwr := { s.pwr with resetting := true } }

/-- A write of PWR_RESET. -/
def doPwrReset (v : Word) (s : State) : State :=
  if bitsOf v.toNat 31 16 = 0x5A17 && bitAt v.toNat 0 then s.stationReset 5 else s

/-- The station watchdog's count starts (PWR_WDOG_CTRL). -/
def State.startDog (s : State) : State :=
  { s with pwr := { s.pwr with wdog := some (s.time + max 1 (s.fld R.pwrWdogCtrl F.pwrWdogCtrl_timeout_ms) * 1000000) } }

/-- A write of PWR_WDOG_CTRL: enabling starts the count. -/
def doDogCtrl (v : Word) (s : State) : State :=
  let was := s.flag R.pwrWdogCtrl F.pwrWdogCtrl_enabled
  let s := s.plainWrite R.pwrWdogCtrl v
  if !was && s.flag R.pwrWdogCtrl F.pwrWdogCtrl_enabled then s.startDog else s

/-- A write of PWR_WDOG_KICK. -/
def doDogKick (v : Word) (s : State) : State := if v = 0xA5C3#32 && s.pwr.wdog.isSome then s.startDog else s

/-- STATION_WATCHDOG_EXPIRY. -/
def doDogExpiry (s : State) : State :=
  match s.pwr.wdog with
  | none => s
  | some t => if s.power ≤ 1 then (s.at t).stationReset 6 else s

/-! ### Supplies (R479, R480) -/

/-- A BROWN_OUT reset; what needs no main supply goes on. -/
def State.brownOut (s : State) : State :=
  let s := { s with pwr := { s.pwr with mainOk := false } }
  if s.power ≤ 2 then
    let s := (s.noteReset 2).fullReset true
    { s with pwr := { s.pwr with bootDue := true } }
  else s

/-- BROWN_OUT. -/
def doBrownOut (mv : Nat) (s : State) : State := if mv < 9500 then (s.wrN R.pwrMainMv mv).brownOut else s

/-- BROWN_OUT_RECOVERY: the internal switch of a thermal trip must have closed again (17 R501). In Standby the supply returns
while MOD_EN may be high, which is the exit of R454. -/
def doBrownOutRecovery (mv : Nat) (s : State) : State :=
  if mv < 10800 || s.pwr.tripOpen || s.pwr.mainOk then s
  else
    let s := State.wrN { s with pwr := { s.pwr with mainOk := true } } R.pwrMainMv mv
    if s.power ≤ 2 && s.pwr.bootDue then (if s.pwr.modEn then s.bootWhenFree else s.enterStandby)
    else if s.power = 3 && s.pwr.modEn then s.modEnExit
    else s

/-- BROWN_OUT_WARNING: the rail goes off, an erase is suspended, requests beyond Dim are refused, a primary yields. In Retain,
Standby and Off, where the die that would act is not powered, only the supply reads (log 108). -/
def doWarning (mv : Nat) (pinLow : Bool) (s : State) : State :=
  let s := (s.wrN R.pwrMainMv mv).put R.pwrBoStatus F.pwrBoStatus_warn_pin (b2n pinLow)
  if s.warned || !(mv < 10400 || pinLow) || 1 < s.power then s
  else
    let s := (s.setF R.pwrBoStatus F.pwrBoStatus_warning).count R.pwrBoStatus F.pwrBoStatus_warnings
    let s := s.railOff.event 0xA1 1 0
    let s := { s with pwr := { s.pwr with flash := s.pwr.flash.map fun (f : FlashOp) => { f with suspended := f.erase } } }
    let s := if s.pwr.retaining.isSome then State.refusePower { s with pwr := { s.pwr with retaining := none } } 4 else s
    s.endNotice.yieldFault

/-- WARNING_CLEAR. -/
def doWarningClear (mv : Nat) (s : State) : State :=
  if mv < 10600 || !s.warned then s.wrN R.pwrMainMv mv
  else
    let s := ((s.wrN R.pwrMainMv mv).clrF R.pwrBoStatus F.pwrBoStatus_warning).clrF R.pwrBoStatus F.pwrBoStatus_warn_pin
    let s := { s with pwr := { s.pwr with flash := s.pwr.flash.map fun (f : FlashOp) => { f with suspended := false } } }
    (s.event 0xA1 1 1).railSwitch

/-- BANK_FAULT, or its recovery; a VIO_A fault trips the pair guard, and during a VIO_B fault the TDM and accelerometer ports
send nothing. -/
def doBankFault (bankB recovered : Bool) (s : State) : State :=
  let f := if bankB then F.pwrBoStatus_vio_b_fault else F.pwrBoStatus_vio_a_fault
  if s.flag R.pwrBoStatus f = !recovered then s
  else
    let s := (s.put R.pwrBoStatus f (b2n (!recovered))).event 0xA1 1 2
    if bankB || recovered then s else doGuardTrip s

/-! ### Temperature and interlock (17_connectors_and_electrical_characteristics.md R491, R501) -/

/-- JUNCTION_MEASUREMENT, in °C. -/
def doJunction (t : Int) (s : State) : State :=
  let s := s.put R.stnModule F.stnModule_temp_c (unsigned 8 (clampI (-128) 127 t))
  let warn : Int := (s.fld R.stnModule F.stnModule_warn_c : Nat)
  let on := s.flag R.stnModule F.stnModule_warning
  let s := if warn ≤ t && !on then (s.setF R.stnModule F.stnModule_warning).event 0x02 0 0
    else if t ≤ warn - 5 && on then (s.clrF R.stnModule F.stnModule_warning).event 0x02 0 1 else s
  if 125 ≤ t && !s.pwr.tripOpen then
    (State.setF { s with pwr := { s.pwr with tripOpen := true } } R.stnModule F.stnModule_tripped).brownOut
  else if t ≤ 95 && s.pwr.tripOpen then { s with pwr := { s.pwr with tripOpen := false } }
  else s

/-- HV_INTERLOCK_OPEN: the rail switch opens and every output is discharged. -/
def doInterlockOpen (s : State) : State :=
  if !s.flag R.stnModule F.stnModule_hv_interlock then s
  else
    let s := ((s.clrF R.stnModule F.stnModule_hv_interlock).event 0x02 0 2).railSwitch
    s.each (List.range 8) fun s n => s.updChan n fun x => { x with out := 0 }

/-- HV_INTERLOCK_CLOSED: connected for 100 ms. -/
def doInterlockClosed (s : State) : State :=
  if s.flag R.stnModule F.stnModule_hv_interlock then s
  else ((s.setF R.stnModule F.stnModule_hv_interlock).event 0x02 0 3).railSwitch

/-! ### Cores (R463, R469, R470, R478) -/

/-- A write of BOOT_CTRL: cores only. -/
def doBootCtrl (r : Req) (v : Word) (s : State) : State :=
  if r.isHost then s
  else
    let s := if bitAt v.toNat 30 then { s with pwr := { s.pwr with attempts := 0 } } else s
    let s := s.each ([1, 2, 3] : List Nat) fun s c =>
      if bitAt v.toNat c && (s.core c).held then
        (s.setCore c { pc := s.generalEntry, p := (s.core c).p, mcycle := (s.core c).mcycle, held := false }).wake
      else s
    if bitAt v.toNat 31 && !s.flag R.bootStatus F.bootStatus_host_ready then s.becomeReady 7 else s

/-- BOOT_CTRL as read: host_ready and the released cores. -/
def State.bootCtrlWord (s : State) : Word :=
  w32 (s.fld R.bootStatus F.bootStatus_host_ready * 2 ^ 31 +
    (([1, 2, 3] : List Nat).map fun c => b2n (!(s.core c).held) * 2 ^ c).sum)

/-- A core that the general world may not halt or reset: in PROTECTED or MONITOR, or the target of a world-1 source
(11_control_cores_and_the_protected_world.md R348). -/
def State.coreBarred (s : State) (r : Req) (c : Nat) : Bool :=
  !s.reqProtected r && ((s.core c).st != 0 ||
    (List.range 448).any fun n => s.srcWorld1 n && srcTarget (s.src n) == c)

/-- One core of a write of BOOT_CORE_CTRL: reset over halt over resume. -/
def State.coreCtrl (s : State) (v : Word) (c : Nat) : State :=
  if (s.core c).held then s
  else if bitAt v.toNat c then
    let s := if s.wld.token = some c then s.freeToken else s
    s.updCore c fun x => { x with x := [], g := [], pc := 0#32, st := 0, entry := none, held := true, halted := false,
                                  wfi := false, user := false, mcycle := 0 }
  else if bitAt v.toNat (4 + c) then s.updCore c fun x => { x with halted := true }
  else if bitAt v.toNat (8 + c) then State.wake (s.updCore c fun x => { x with halted := false })
  else s

/-- A write of BOOT_CORE_CTRL (R478); what the general world may not do is logged once per write. -/
def doCoreCtrl (r : Req) (v : Word) (s : State) : State :=
  let barred (c : Nat) : Bool := (bitAt v.toNat c || bitAt v.toNat (4 + c)) && !(s.core c).held && s.coreBarred r c
  let s0 := if ([0, 1, 2, 3] : List Nat).any barred then s.xwDenied r 3 R.bootCoreCtrl else s
  s0.each (([0, 1, 2, 3] : List Nat).filter fun c => !barred c) fun s c => s.coreCtrl v c

/-- BOOT_CORE_STATUS as read. -/
def State.coreStatusWord (s : State) : Word :=
  w32 ((([0, 1, 2, 3] : List Nat).map fun c => b2n (s.core c).held * 2 ^ (4 + c) + b2n (s.core c).halted * 2 ^ c).sum)

/-! ### Flash operations (BOOT_FLASH_CMD; 11_control_cores_and_the_protected_world.md R341) -/

/-- The 256-byte buffer. -/
def State.flashBuf (s : State) : List Byte := (List.range 64).flatMap fun i => leBytes 4 (s.num (K.flashBuf i))

/-- The result of a flash operation; `start` then reads 0. -/
def State.flashResult (s : State) (n : Nat) : State :=
  (s.put R.bootFlashCmd F.bootFlashCmd_result n).clrF R.bootFlashCmd F.bootFlashCmd_start

/-- A write of BOOT_FLASH_CMD. A misplaced address is reported before a denial, and that before a warning; a read of guarded
flash is denied as a program is (log 68). -/
def doFlashCmd (r : Req) (v : Word) (s : State) : State :=
  if s.flag R.bootFlashCmd F.bootFlashCmd_start then s
  else
    let op := F.bootFlashCmd_op.get v
    let s := if op = 3 then s else s.put R.bootFlashCmd F.bootFlashCmd_op op
    if !bitAt v.toNat 31 || op = 3 then s
    else
      let a := s.fld R.bootFlashAddr F.bootFlashAddr_addr
      let n := if op = 2 then 0x10000 else 256
      if a % n ≠ 0 then s.flashResult 4
      else if s.inGuard 2 a n && !s.reqWorld1 r then
        (s.denial (op != 0) 2 (match r with | .host _ => 0x20 | .core c => c.val) a).flashResult 1
      else if op = 0 then
        let s := s.each (List.range 64) fun s i => s.wrN (K.flashBuf i) (s.flashLe (a + 4 * i) 4)
        s.flashResult 0
      else if s.warned then s.flashResult 2
      else
        let f : FlashOp := { erase := op = 2, addr := a, data := s.flashBuf, suspended := false }
        State.setF { s with pwr := { s.pwr with flash := some f } } R.bootFlashCmd F.bootFlashCmd_start

/-- FLASH_OPERATION_DONE: an erase sets every bit of its sector; a program clears bits, and reports whether the bytes read back
as the buffer. -/
def doFlashDone (verified : Bool) (s : State) : State :=
  match s.pwr.flash with
  | none => s
  | some f =>
    if f.suspended then s
    else
      let bytes := if f.erase then List.replicate 0x10000 0xFF#8
        else List.zipWith (fun (a b : Byte) => a &&& b) (s.flash f.addr 256) f.data
      let s := { s with pwr := { s.pwr with flash := none },
                        mem := { s.mem with flash := Mem.write 0xFF#8 s.mem.flash f.addr bytes } }
      s.flashResult (if f.erase || (verified && bytes == f.data) then 0 else 3)

/-- BOOT_BUF_DATA: the word that BOOT_BUF_SEL selects, which then advances. -/
def State.bufAdvance (s : State) : State :=
  s.put R.bootBufSel F.bootBufSel_word ((s.fld R.bootBufSel F.bootBufSel_word + 1) % 64)
def readBuf (s : State) : Word × State := (s.rd (K.flashBuf (s.fld R.bootBufSel F.bootBufSel_word)), s.bufAdvance)
def doBuf (v : Word) (s : State) : State := (s.wr (K.flashBuf (s.fld R.bootBufSel F.bootBufSel_word)) v).bufAdvance

/-- A write of PWR_WAKE_HI puts the wake time in force with the low word held (PWR_WAKE_LO). -/
def doWakeHi (v : Word) (s : State) : State :=
  let s := s.wr R.pwrWakeHi v
  { s with pwr := { s.pwr with wakeTime := s.num64 R.pwrWakeLo R.pwrWakeHi } }

end Sys2Proof.Machine
end

