-- ==== Sys2Proof/Machine/Flags.lean ====
section
/-!
DEFINITION. What the registers of the station pages and of the slice windows show: the common page header
(02_host_interface.md R59), and the status, count and data registers whose value the block computes when they are read.
-/

namespace Sys2Proof.Machine

/-! ### The common page header (02_host_interface.md R56, R57, R59) -/

/-- The pages of a type code on the module: 256 for a slice window page type. -/
def pageCount (ty : Nat) : Nat :=
  if 0x100 ≤ ty then 256 else match stationPages.find? fun e => e.2.2 == ty with | some (_, n, _) => n | none => 0

/-- The number of event bits of a type: its highest defined bit plus 1. -/
def eventCount : Nat → Nat
  | 0x02 => 4 | 0x10 => 4 | 0x20 => 1 | 0x40 => 10 | 0x41 => 11 | 0x42 => 2 | 0x51 => 3 | 0x60 => 1 | 0x61 => 3
  | 0x70 => 6 | 0x80 => 2 | 0x90 => 6 | 0xA0 => 7 | 0xA1 => 3 | 0xB0 => 5
  | _ => 0

/-- The block parameter of a type. -/
def typeParam : Nat → Nat
  | 0x41 => 0x3C | 0x42 => 0x08 | 0x50 => 0x1C | 0x51 => 0x10 | 0x60 => 0x80 | 0x61 => 0x80 | 0x70 => 0xB4 | 0x72 => 0x08
  | 0x91 => 0x10
  | _ => 0

/-- PAGE_ID. -/
def pageIdWord (ty inst : Nat) : Word := w32 (ty * 65536 + inst * 256 + 1)

/-- PAGE_CAPS. -/
def pageCapsWord (ty : Nat) : Word := w32 (pageCount ty * 2 ^ 20 + eventCount ty * 256 + typeParam ty)

/-- A block soft reset of the page is in progress (02_host_interface.md R62). -/
def State.softResetting (s : State) (pg : Nat) : Bool := s.hif.softReset.contains pg

/-- PAGE_STATUS[31:16], in place: an output, a layer slot and a core-sample region define one. -/
def State.blockStatus (s : State) (ty inst : Nat) : Nat :=
  match ty with
  | 0x41 => s.outStatus inst
  | 0x42 => s.lyrStatus inst
  | 0x51 => (s.region inst).st * 65536
  | _ => 0

/-- PAGE_STATUS. -/
def State.pageStatusWord (s : State) (ty inst pg : Nat) : Word :=
  let busy := s.softResetting pg
  w32 (s.blockStatus ty inst + b2n (s.ownerLock pg || s.worldLock pg) * 4 + b2n busy * 2 +
    b2n (s.enabled pg && s.clocked ty inst && !busy))

/-- The header word at an offset below 0x040; PAGE_EVENT_FORCE and the reserved offsets read 0. -/
def State.headerWord (s : State) (ty inst pg off : Nat) : Word :=
  match off with
  | 0x000 => pageIdWord ty inst
  | 0x004 => pageCapsWord ty
  | 0x008 => w32 (b2n (s.softResetting pg) * 2 + b2n (s.enabled pg))
  | 0x00C => s.pageStatusWord ty inst pg
  | 0x010 => s.rd (pg + 0x10)
  | 0x014 => s.rd (pg + 0x14)
  | 0x01C => if 0x100 ≤ ty then w32 (0x200 + inst) else s.rd (pg + 0x1C)
  | 0x020 => if 0x100 ≤ ty then 0#32 else s.rd (pg + 0x20)
  | _ => 0#32

/-! ### Views of the station pages -/

/-- STN_PW_STATUS as read (11_control_cores_and_the_protected_world.md R354). -/
def State.pwStatusWord (s : State) : Word :=
  w32 (b2n (s.flag R.stnPwStatus F.stnPwStatus_changed) * 2 ^ 31 + b2n (s.flag R.wldStatus F.wldStatus_running) * 2 ^ 30 +
    b2n (s.flag R.wldStatus F.wldStatus_parked) * 2 ^ 29 + b2n s.armed * 2 ^ 28 +
    s.fld R.wldStatus F.wldStatus_restarts * 65536 + s.fld R.wldStatus F.wldStatus_last_cause)

/-- WLD_GATE_CTRL as read: the holder of the token is open while no core holds it (log 1). -/
def readGateCtrl (s : State) : Word × State :=
  match s.wld.token with
  | some c => (w32 (b2n s.armed * 2 ^ 31 + 2 ^ 30 + c % 4 * 2 ^ 28), s)
  | none =>
    let (h, s) := s.free 4
    (w32 (b2n s.armed * 2 ^ 31 + h * 2 ^ 28), s)

/-- The protected touch registers are visible to PROTECTED only (09_capacitive_touch.md R292). -/
def pwTouchReg (off : Nat) : Bool := 0x060 ≤ off && off ≤ 0x074

/-- SRF_VERSIONS as read. -/
def State.versionsWord (s : State) : Word := w32 (s.versionsWith fun _ => true).length

/-- A read of a haul engine's register (04_surfaces_and_haul.md R149, R150). -/
def readHaulReg (who e off : Nat) (s : State) : Word × State :=
  match off with
  | 0x040 => (s.haulStatusWord e, s)
  | 0x044 => (s.haulHandleWord e, s)
  | 0x048 => (s.haulProgressWord e, s)
  | 0x04C => s.readLow (R.haulBytesHi e) who (s.engine e).bytes
  | 0x050 => s.readHigh (R.haulBytesHi e) who
  | o => if 0x060 ≤ o ∧ o < 0x080 then (w32 (blobNum (s.haulDesc e) (o - 0x060) 4), s) else (0#32, s)

/-- A read of a bench-plan register (05_bench_plan_and_fit_check.md R164, R171, R178). -/
def readBplReg (o off : Nat) (s : State) : Word × State :=
  match off with
  | 0x044 => (s.bplCheckWord o, s)
  | 0x048 => (w32 (s.planCosts o).1, s)
  | 0x04C => (w32 (s.planCosts o).2.1, s)
  | 0x050 => (w32 (s.planCosts o).2.2, s)
  | 0x068 => readPlanData o s
  | 0x080 => if o = 0 then (s.capacityWord, s) else (0#32, s)
  | k => s.plainRead (pageBase 0x40 o + k)

/-- A read of an output's register (07_scanout_and_display_links.md R209). -/
def readOutReg (who o off : Nat) (s : State) : Word × State :=
  match off with
  | 0x084 => s.readLow (R.outTickHi o) who (s.num64 (R.outTickLo o) (R.outTickHi o))
  | 0x088 => s.readHigh (R.outTickHi o) who
  | 0x08C => (s.outPosWord o, s)
  | k => s.plainRead (pageBase 0x41 o + k)

/-- A read of a core-sample region's register (08_check_values_core_samples_and_floor_images.md R241). -/
def readCsrReg (n off : Nat) (s : State) : Word × State :=
  if 0x040 ≤ off ∧ off < 0x050 then ((s.region n).shadow.word ((off - 0x040) / 4), s)
  else if 0x050 ≤ off ∧ off < 0x060 then ((s.region n).latched.word ((off - 0x050) / 4), s)
  else if off = 0x068 then (s.regionStateWord n, s)
  else s.plainRead (pageBase 0x51 n + off)

/-- A read of a touch-pool register (09_capacitive_touch.md R258, R292). -/
def readPoolReg (r : Req) (off : Nat) (s : State) : Word × State :=
  if pwTouchReg off && !s.reqProtected r then (0#32, s)
  else match off with
  | 0x044 => readPinCfg s
  | 0x074 => readPwRfxData s
  | k => s.plainRead (pageBase 0x60 0 + k)

/-- A read of a panel's register (09_capacitive_touch.md R264, R266, R273, R295). -/
def readPanelReg (n off : Nat) (s : State) : Word × State :=
  match off with
  | 0x068 => readHopset n s
  | 0x06C => (s.tchStateWord n, s)
  | 0x074 => readRef n s
  | 0x088 => readTchRb n s
  | 0x08C => (s.tchRbScanWord n, s)
  | 0x0A4 => readDiag n s
  | k => s.plainRead (tchPage n + k)

/-- A read of a haptic channel's register (10_haptic_and_acoustic_feedback.md R303, R311, R312). -/
def readHapReg (n off : Nat) (s : State) : Word × State :=
  match off with
  | 0x070 => (s.hapStateWord n, s)
  | 0x074 => (s.hapMeasWord n, s)
  | 0x0A8 => readHapRb n s
  | 0x0C0 => if n = 0 then (s.storeCtrlWord, s) else (0#32, s)
  | 0x0C8 => if n = 0 then readStoreData s else (0#32, s)
  | k => s.plainRead (hapPage n + k)

/-- A read of a register of the worlds pages (11_control_cores_and_the_protected_world.md R334, R336, R338, R351). -/
def readWldReg (p off : Nat) (s : State) : Word × State :=
  match p, off with
  | 0, 0x050 => (s.worldDogLeft, s)
  | 1, 0x044 => (s.guardWord false, s)
  | 1, 0x048 => (s.guardWord true, s)
  | 2, 0x040 => readGateCtrl s
  | 2, 0x048 => readGateEntry s
  | 2, 0x064 => readMbox s
  | p, k => s.plainRead (pageBase 0x80 p + k)

/-- A read of a register of the interrupt controller (12_interrupt_delivery.md R358, R361). -/
def readCicReg (r : Req) (p off : Nat) (s : State) : Word × State :=
  if p = 0 then
    if off = 0x044 then readSrcCfg r s
    else if 0x080 ≤ off ∧ off < 0x0B8 then (s.pendingWord r ((off - 0x080) / 4), s)
    else s.plainRead (pageBase 0x81 0 + off)
  else if off = 0x040 then readClaim r s
  else s.plainRead (pageBase 0x81 1 + off)

/-- A read of a DRAM channel's register (13_memory_controller.md R390). -/
def readChannelReg (who ch off : Nat) (s : State) : Word × State :=
  match off with
  | 0x040 => (F.dmcChStatus_wq_fill.put (s.rd (R.dmcChStatus ch)) (s.wqFill ch), s)
  | 0x050 => s.readLow (R.dmcChRtHi ch) who (s.num64 (R.dmcChRtLo ch) (R.dmcChRtHi ch))
  | 0x054 => s.readHigh (R.dmcChRtHi ch) who
  | k => s.plainRead (pageBase 0x91 ch + k)

/-- A read of a block register of a page, with what the read does. -/
def readBlock (r : Req) (ty inst off : Nat) (s : State) : Word × State :=
  let plain := s.plainRead (pageBase ty inst + off)
  match ty with
  | 0x02 => if off = 0x080 then (s.pwStatusWord, s) else plain
  | 0x03 =>
    if off = 0x040 then s.readLow R.stnTimeHi r.latch s.now
    else if off = 0x044 then s.readHigh R.stnTimeHi r.latch else plain
  | 0x10 =>
    if inst = 0 then (if off = 0x070 then (s.linkStatusWord, s) else plain)
    else if inst = 1 then readCmdPage 256 off s
    else if inst = 2 ∧ off = 0x048 then (s.rd (K.moderation (s.fld R.hifModSel ⟨10, 0⟩)), s)
    else plain
  | 0xA0 => if inst = 1 ∧ off = 0x054 then (s.domWord, s) else plain
  | 0xA1 => if inst = 0 ∧ off = 0x040 then (s.pwrStateWord, s) else plain
  | 0xC0 =>
    if off = 0x044 then (s.bootCtrlWord, s) else if off = 0x054 then readBuf s
    else if off = 0x05C then (s.coreStatusWord, s) else plain
  | 0x20 => if off = 0x048 then (s.admStatusWord inst, s) else if off = 0x058 then (s.admMapWord inst, s) else plain
  | 0x30 =>
    if inst = 0 ∧ off = 0x044 then (w32 s.poolUsed, s) else if inst = 0 ∧ off = 0x04C then (s.versionsWord, s) else plain
  | 0x31 => readHaulReg r.latch inst off s
  | 0x40 => readBplReg inst off s
  | 0x41 => readOutReg r.latch inst off s
  | 0x43 => if off = 0x04C then (s.floorSubstWord inst, s) else if off = 0x054 then (s.floorSrcWord inst, s) else plain
  | 0x42 => if off = 0x048 then readImgData inst s else if off = 0x050 then (s.capCtrlWord inst, s) else plain
  | 0x50 => if off = 0x054 then (s.cvFinalWord inst, s) else if off = 0x058 then (s.cvFeedWord inst, s) else plain
  | 0x51 => readCsrReg inst off s
  | 0x60 => readPoolReg r off s
  | 0x61 => readPanelReg inst off s
  | 0x70 => readHapReg inst off s
  | 0x71 => if off = 0x044 then readRouteData s else if off = 0x048 then (s.audActiveWord, s) else plain
  | 0x80 => readWldReg inst off s
  | 0x81 => readCicReg r inst off s
  | 0x91 => readChannelReg r.latch inst off s
  | 0xB0 =>
    if inst = 0 ∧ off = 0x040 then (s.pairCtrlWord, s) else if inst = 0 ∧ off = 0x044 then (s.pairStatusWord, s)
    else if inst = 2 ∧ off = 0x040 then (s.pairFeedWord, s) else plain
  | ty => if 0x100 ≤ ty then readWindow inst (ty - 0x100) off s else plain

/-- The register at a page offset has a read-clear field (00_scope.md R12). -/
def hasReadClear (ty inst off : Nat) : Bool := (fieldsAt ty inst off).any fun f => f.acc == .rc

end Sys2Proof.Machine
end

