-- ==== Sys2Proof/Machine/Bus.lean ====
section
/-!
DEFINITION. Register accesses: the checks that a request of the host or of a control core passes, what a write of each
register does, and the block soft reset (02_host_interface.md R51 to R68, R505; 03_slices.md R95;
11_control_cores_and_the_protected_world.md R350; 14_clock_generation.md R405; 15_pairs_and_live_insertion.md R430, R431;
16_power_resets_and_start_up.md R464, R475).
-/

namespace Sys2Proof.Machine

/-! ### Writes to the common header (02_host_interface.md R56, R59 to R62) -/

/-- A block soft reset does something in pages of this type (02_host_interface.md R505). -/
def softResets (ty : Nat) : Bool :=
  ty < 0x100 && !([0x01, 0x02, 0x03, 0x10, 0x20, 0x80, 0x81, 0x90, 0x91, 0xA0, 0xA1, 0xB0, 0xC0] : List Nat).contains ty

/-- A block soft reset starts; a second one while it runs has no effect (02_host_interface.md R62). -/
def State.startSoftReset (s : State) (ty pg : Nat) : State :=
  if softResets ty && !s.softResetting pg then { s with hif := { s.hif with softReset := s.hif.softReset ++ [pg] } } else s

/-- A write of PAGE_CTRL.enable with what it starts or stops in the block. -/
def State.writeEnable (s : State) (ty inst pg : Nat) (on : Bool) : State :=
  if s.ownerLock pg && ty < 0x100 then s
  else
    let was := s.enabled pg
    let plain := s.put (pg + 0x08) ⟨0, 0⟩ (b2n on)
    match ty with
    | 0x61 => doPanelEnable inst on s
    | 0x70 => if on then plain else plain.updChan inst fun x => { x with offDue := x.mode != .off }
    | 0x31 => plain.kick
    | 0x42 => if was == on then plain else plain.shedPass false
    | _ => plain

/-- A write of PAGE_CTRL. -/
def State.writePageCtrl (s : State) (ty inst pg : Nat) (v : Word) : State :=
  let s := s.writeEnable ty inst pg (bitAt v.toNat 0)
  if bitAt v.toNat 1 then s.startSoftReset ty pg else s

/-- A write of a header register; in a slice window PAGE_OWNER and PAGE_LOCK take no write. -/
def writeHeader (r : Req) (ty inst pg off : Nat) (v : Word) (s : State) : State :=
  match off with
  | 0x008 => s.writePageCtrl ty inst pg v
  | 0x010 => doEventClear pg v s
  | 0x014 => doEventEnable pg v s
  | 0x018 => doEventForce pg v s
  | 0x01C => if 0x100 ≤ ty then s else doPageOwner r pg v s
  | 0x020 => if 0x100 ≤ ty || !bitAt v.toNat 0 then s else s.put (pg + 0x20) ⟨0, 0⟩ 1
  | _ => s

/-! ### Writes to block registers -/

/-- A write of a ring's control word: setting enable sets head and tail to 0 (09_capacitive_touch.md R288, R292). -/
def ringCtrl (a pos : Nat) (v : Word) (s : State) : State :=
  let was := bitAt (s.num a) 0
  let s := s.plainWrite a v
  if !was && bitAt v.toNat 0 then s.wr pos 0#32 else s

/-- A write of a register of the host-interface pages. -/
def writeHifReg (p off : Nat) (v : Word) (s : State) : State :=
  match p, off with
  | 0, 0x074 => doReattach v s
  | 1, k => doCmdPage 256 k v s
  | 2, 0x048 => s.wr (K.moderation (s.fld R.hifModSel ⟨10, 0⟩)) (v &&& 0x3FF#32)
  | p, k => s.plainWrite (pageBase 0x10 p + k) v

/-- A write of a register of the clock pages (14_clock_generation.md R398, R403, R404, R407, R409). -/
def writeClkReg (r : Req) (p off : Nat) (v : Word) (s : State) : State :=
  if p = 0 then
    if 0x080 ≤ off ∧ off < 0x0A8 then doGateOpen ((off - 0x080) / 4) v s
    else if 0x0C0 ≤ off ∧ off < 0x0E8 then doGateClose r ((off - 0x0C0) / 4) v s
    else s.plainWrite (pageBase 0xA0 0 + off) v
  else match off with
  | 0x04C => doPllRestart r v s
  | 0x054 => doRatioWrite r v s
  | 0x060 => doClkOut v s
  | k => s.plainWrite (pageBase 0xA0 1 + k) v

/-- A write of a register of the power pages (16_power_resets_and_start_up.md R454, R455, R461, R462). -/
def writePwrReg (r : Req) (p off : Nat) (v : Word) (s : State) : State :=
  match p, off with
  | 0, 0x040 => doPwrState r v s
  | 0, 0x048 => doWakeHi v s
  | 1, 0x040 => doPwrReset v s
  | 1, 0x048 => doDogCtrl v s
  | 1, 0x04C => doDogKick v s
  | p, k => s.plainWrite (pageBase 0xA1 p + k) v

/-- A write of a register of the BOOT page (16_power_resets_and_start_up.md R469, R470, R477, R478). -/
def writeBootReg (r : Req) (off : Nat) (v : Word) (s : State) : State :=
  match off with
  | 0x044 => doBootCtrl r v s
  | 0x04C => doFlashCmd r v s
  | 0x054 => doBuf v s
  | 0x058 => doCoreCtrl r v s
  | k => s.plainWrite (pageBase 0xC0 0 + k) v

/-- A write of a register of a slice administration page (03_slices.md R97 to R116). -/
def writeAdmReg (sl off : Nat) (v : Word) (s : State) : State :=
  State.kick <| State.reattachGoesOn <|
    match off with
    | 0x040 => doAdmPasid sl v s
    | 0x044 => doAdmCtrl sl v s
    | 0x04C => doAdmPerm sl v s
    | 0x054 => doAdmMig sl v s
    | 0x068 => doDlogCtrl sl v s
    | 0x070 => doDlogHead sl v s
    | k => s.plainWrite (pageBase 0x20 sl + k) v

/-- A write of an output's register (07_scanout_and_display_links.md R208, R226, R231). -/
def writeOutReg (o off : Nat) (v : Word) (s : State) : State :=
  match off with
  | 0x040 => doOutCtrl o v s
  | 0x0C0 => doLinkCtrl o v s
  | 0x0E0 => doAuxCmd o v s
  | k =>
    if 0x044 ≤ k ∧ k ≤ 0x070 then doOutTiming o (pageBase 0x41 o + k) v s else s.plainWrite (pageBase 0x41 o + k) v

/-- A write of a layer slot's register (06_layer_composition.md R179, R184, R203). -/
def writeLyrReg (r : Req) (n off : Nat) (v : Word) (s : State) : State :=
  match off with
  | 0x040 => doLyrAssign r n v s
  | 0x044 => doImgSel n v s
  | 0x048 => doImgData r n v s
  | 0x050 => doCapCtrl r n v s
  | k => s.plainWrite (lyrPage n + k) v

/-- A write of a touch-pool register; the protected registers take writes from PROTECTED only (09_capacitive_touch.md R292). -/
def writePoolReg (r : Req) (off : Nat) (v : Word) (s : State) : State :=
  if pwTouchReg off && !s.reqProtected r then s
  else match off with
  | 0x044 => doPinCfg v s
  | 0x064 => ringCtrl R.tcpPwCtrl R.tcpPwPos v s
  | 0x074 => doPwRfxData v s
  | k => s.plainWrite (pageBase 0x60 0 + k) v

/-- A write of a panel's register (09_capacitive_touch.md R264 to R276, R295). -/
def writePanelReg (n off : Nat) (v : Word) (s : State) : State :=
  match off with
  | 0x040 => doTchCtrl n v s
  | 0x068 => doHopset n v s
  | 0x074 => doRef n v s
  | 0x080 => doTchRb n v s
  | 0x0A0 => doDiagSel n v s
  | k => s.plainWrite (tchPage n + k) v

/-- A write of a haptic channel's register (10_haptic_and_acoustic_feedback.md R299, R304, R305, R310, R312). A set-up
transaction that no ACC_RAW_TRANSACTION command describes has an open reply (log 1). -/
def writeHapReg (r : Req) (n off : Nat) (v : Word) (s : State) : State :=
  match off with
  | 0x054 => doHapBudget n v s
  | 0x068 =>
    let (x, s) := s.free (2 ^ 24)
    doAccRaw n v (BitVec.ofNat 24 x) s
  | 0x078 => doHapCmd r n v s
  | 0x0A0 => doHapRb n v s
  | 0x0C0 => if n = 0 then doStoreCtrl v s else s
  | 0x0C8 => if n = 0 then doStoreData v s else s
  | k => s.plainWrite (hapPage n + k) v

/-- A write of WLD_PW_CTRL with its self reset (11_control_cores_and_the_protected_world.md R351). -/
def writePwCtrl (v : Word) (s : State) : State :=
  let s := s.pwCtrl v
  State.settleNotice <| if bitAt v.toNat 31 then s.worldReset 2 else s

/-- A write of a register of the worlds pages (11_control_cores_and_the_protected_world.md R334 to R351). -/
def writeWldReg (p off : Nat) (v : Word) (s : State) : State :=
  match p, off with
  | 0, 0x044 => writePwCtrl v s
  | 0, 0x04C => doWorldKick v s
  | 0, 0x064 => doCacheWays v s
  | 1, 0x044 => doGuardWrite false v s
  | 1, 0x048 => doGuardWrite true v s
  | 2, 0x048 => doGateEntry v s
  | 2, 0x064 => doMboxWrite v s
  | 3, 0x040 => doAssign v s
  | 3, 0x04C => doPwrNotice v s
  | p, k =>
    if p = 3 ∧ 0x060 ≤ k ∧ k < 0x098 then doSrcWorld ((k - 0x060) / 4) v s else s.plainWrite (pageBase 0x80 p + k) v

/-- A write of a register of the interrupt controller (12_interrupt_delivery.md R357 to R363). -/
def writeCicReg (r : Req) (p off : Nat) (v : Word) (s : State) : State :=
  if p = 0 then if off = 0x044 then doSrcCfg r v s else s.plainWrite (pageBase 0x81 0 + off) v
  else if off = 0x040 then doComplete r v s
  else if 0x050 ≤ off ∧ off < 0x060 then doThresh r ((off - 0x050) / 4) v s
  else if off = 0x060 then doSwi v s
  else if 0x070 ≤ off ∧ off < 0x090 then
    (if (off - 0x070) % 8 = 0 then doTimerLow ((off - 0x070) / 8) v s else doTimerCompare ((off - 0x070) / 8) v s)
  else s.plainWrite (pageBase 0x81 1 + off) v

/-- A write of a register of the DRAM controller (13_memory_controller.md R374 to R392). -/
def writeDmcReg (r : Req) (off : Nat) (v : Word) (s : State) : State :=
  match off with
  | 0x040 => doDmcCtrl v s
  | 0x070 => doDmcWq v s
  | 0x090 => doEccInject r v s
  | k => if 0x060 ≤ k ∧ k < 0x070 then doDmcHash ((k - 0x060) / 4) v s else s.plainWrite (pageBase 0x90 0 + k) v

/-- A write of PAIR_CTRL (15_pairs_and_live_insertion.md R441, R449). -/
def writePairCtrl (v : Word) (s : State) : State :=
  let s := if bitAt v.toNat 29 then s.clrF R.pairCtrl F.pairCtrl_refused else s
  let s := if bitAt v.toNat 31 && !s.flag R.pairCtrl F.pairCtrl_handover then s.startHandover false false else s
  if bitAt v.toNat 30 then s.feedHome else s

/-- A write of a block register of page `p` of a slice window (03_slices.md R94). -/
def writeWindow (sl p off : Nat) (v : Word) (s : State) : State :=
  match p, off with
  | 0, k => doCmdPage sl k v s
  | 3, 0x040 => doLyrSel sl v s
  | 3, 0x044 => doLyrData sl v s
  | 3, 0x048 => doLyrCtrl sl v s
  | 4, 0x040 => doCvSel sl v s
  | 4, 0x044 => doCvData sl v s
  | 5, 0x040 => ringCtrl (R.slcTrBaseLo sl) (R.slcTrPos sl) v s
  | 6, 0x044 => doRfxData sl v s
  | 7, 0x044 => doHapData sl v s
  | 7, 0x048 => doHapTrig sl v s
  | 8, 0x044 => doAudData sl v s
  | p, k => s.plainWrite (winPage sl p + k) v

/-- A write of a block register of a page. -/
def writeBlock (r : Req) (ty inst off : Nat) (v : Word) (s : State) : State :=
  match ty with
  | 0x03 => if off = 0x060 then doTickCtrl v s else s
  | 0x10 => writeHifReg inst off v s
  | 0xA0 => writeClkReg r inst off v s
  | 0xA1 => writePwrReg r inst off v s
  | 0xC0 => writeBootReg r off v s
  | 0x20 => writeAdmReg inst off v s
  | 0x30 => if inst = 1 ∧ off = 0x044 then doSrfQuery v s else s.plainWrite (pageBase 0x30 inst + off) v
  | 0x40 =>
    if off = 0x040 then doShareWrite inst v s else if off = 0x060 then doPlanSnap inst v s
    else s.plainWrite (pageBase 0x40 inst + off) v
  | 0x41 => writeOutReg inst off v s
  | 0x43 =>
    if off = 0x048 then doFloorColour r inst v s else if off = 0x054 then doFloorSrc r inst v s
    else s.plainWrite (pageBase 0x43 inst + off) v
  | 0x42 => writeLyrReg r inst off v s
  | 0x50 => if 0x040 ≤ off ∧ off < 0x054 then doCvuPage r inst ((off - 0x040) / 4) v s else s
  | 0x51 =>
    if 0x040 ≤ off ∧ off < 0x050 then doRegionShadow r inst ((off - 0x040) / 4) v s
    else s.plainWrite (pageBase 0x51 inst + off) v
  | 0x60 => writePoolReg r off v s
  | 0x61 => writePanelReg inst off v s
  | 0x70 => writeHapReg r inst off v s
  | 0x71 => if off = 0x044 then doRouteData v s else s.plainWrite (pageBase 0x71 0 + off) v
  | 0x80 => writeWldReg inst off v s
  | 0x81 => writeCicReg r inst off v s
  | 0x90 => writeDmcReg r off v s
  | 0xB0 => if inst = 0 ∧ off = 0x040 then writePairCtrl v s else s.plainWrite (pageBase 0xB0 inst + off) v
  | ty => if 0x100 ≤ ty then writeWindow inst (ty - 0x100) off v s else s.plainWrite (pageBase ty inst + off) v

/-- A write of a register at a BAR0 offset of a page that answers. -/
def writeReg (r : Req) (ty inst off : Nat) (v : Word) (s : State) : State :=
  if off % 0x1000 < 0x040 then writeHeader r ty inst (pageOf off) (off % 0x1000) v s
  else writeBlock r ty inst (off % 0x1000) v s

/-- A read of a register at a BAR0 offset of a page that answers. -/
def readReg (r : Req) (ty inst off : Nat) (s : State) : Word × State :=
  if off % 0x1000 < 0x040 then (s.headerWord ty inst (pageOf off) (off % 0x1000), s)
  else readBlock r ty inst (off % 0x1000) s

/-! ### Which page answers -/

/-- While a STATION or WATCHDOG reset runs, and in RECOVERY, only the station identity page, PWR_1 and the BOOT page answer
the host (16_power_resets_and_start_up.md R464, R475). -/
def State.restricted (s : State) (pg : Nat) : Bool :=
  (s.pwr.resetting || s.stage == 0xF) && !(pg == 0 || pg == 0x23000 || pg == 0x24000)

/-- A control core makes accesses: it runs, and in MONITOR it reaches no page but WLD_2
(11_control_cores_and_the_protected_world.md R333). -/
def State.coreReaches (s : State) (c pg : Nat) : Bool :=
  (s.core c).runs && pg < 0x1000000 && ((s.core c).st != 2 || pg == 0x282000)

/-- The page at a BAR0 offset as a requester reaches it: none where it is absent, its gate is closed, or it does not answer
now (00_scope.md R7; 14_clock_generation.md R405). -/
def State.reach (s : State) (r : Req) (off : Nat) : Option (Nat × Nat) :=
  let pg := pageOf off
  let ok :=
    match r with
    | .host _ => s.answers && !s.restricted pg
    | .core c => s.coreReaches c.val pg
  if !ok then none
  else (pageAt off).bind fun (ty, inst) =>
    match gateOf ty inst with
    | some g => if s.gateOpen g then some (ty, inst) else none
    | none => some (ty, inst)

/-- The slice window of a BAR0 offset. -/
def windowOf (off : Nat) : Option Nat :=
  if 0x1000000 ≤ off ∧ off < 0x2000000 then some ((off - 0x1000000) / 0x10000) else none

/-- The host's PASID is the one that the address wants (02_host_interface.md R66). -/
def State.pasidOk (s : State) (pasid : Option (BitVec 20)) (off : Nat) : Bool :=
  match windowOf off with
  | some sl => (s.slice sl).st != .unbound && pasid == some (s.slice sl).pasid
  | none => pasid.isNone

/-- A register write or read has a size and alignment that R52 allows. -/
def sizeOk (write : Bool) (off len : Nat) : Bool :=
  if write then (len == 4 || len == 8) && off % len == 0 else 0 < len && off % 8 + len ≤ 8

/-- The window is frozen: its block registers take no write (03_slices.md R95). -/
def State.windowFrozen (s : State) (sl : Nat) : Bool :=
  match (s.slice sl).st with
  | .freezing => true
  | .frozen => true
  | .resetting => true
  | _ => false


/-- Forward an accepted write, or the read of a read-clear field, to the secondary (15_pairs_and_live_insertion.md R430). -/
def State.mirrorReg (s : State) (off : Nat) (v : Word) (clear : Bool) : State :=
  if localPage off then s else s.mirror (.writeReg off v (if clear then .readClear else .write))

/-! ### Accesses -/

/-- One register of a write that the page accepts: it acts, and goes to the secondary. A secondary's own cores change no
mirrored page (15_pairs_and_live_insertion.md R431). -/
def State.writeOne (s : State) (r : Req) (ty inst off : Nat) (v : Word) : State :=
  if s.softResetting (pageOf off) && 0x040 ≤ off % 0x1000 then s
  else if s.secondary && !localPage off then s
  else (writeReg r ty inst off v s).mirrorReg off v false

/-- The words of a write, lower address first (02_host_interface.md R52). -/
def dataWords (data : List Byte) : List Word :=
  (List.range (data.length / 4)).map fun i => w32 (blobNum data (4 * i) 4)

/-- The registers of a write in address order. -/
def State.writeAll (s : State) (r : Req) (ty inst off : Nat) : List Word → State
  | [] => s
  | v :: l => (s.writeOne r ty inst off v).writeAll r ty inst (off + 4) l

/-- A write that has reached a page of its size and alignment (02_host_interface.md R53, R63; 03_slices.md R95;
11_control_cores_and_the_protected_world.md R350). -/
def State.writeAt (s : State) (r : Req) (ty inst off : Nat) (data : List Byte) (poisoned : Bool) : State :=
  let len := data.length
  let pg := pageOf off
  if poisoned then (if r.isHost then s.accessRefused true 1 off len else s)
  else if ty < 0x100 && s.pageWorld1 pg && !s.reqProtected r then
    (if r.isHost then s.accessRefused true 2 off len else s).xwDenied r 0 pg
  else if 0x100 ≤ ty && 0x040 ≤ off % 0x1000 && s.windowFrozen inst then s.accessRefused true 3 off len
  else s.writeAll r ty inst off (dataWords data)

/-- A BAR0 write by the host, or a write of a station page by a core. A page that is absent, or whose gate is closed, answers
Unsupported Request (00_scope.md R7; 02_host_interface.md R58), or is a bus error of the core, which takes the access fault
(14_clock_generation.md R405). -/
def busWrite (r : Req) (off : Nat) (data : List Byte) (poisoned : Bool) (s : State) : State :=
  let refused (s : State) : State := { s.busFault r true off with resp := if r.isHost then .done else .busError }
  let absent (s : State) : State := { s.busFault r true off with resp := if r.isHost then .unsupported else .busError }
  let wrongPasid :=
    match r with
    | .host p => s.answers && off < 0x2000000 && !s.pasidOk p off
    | .core _ => false
  if wrongPasid then
    refused (s.pasidRefused (match r with | .host p => p | .core _ => none) true true ((windowOf off).getD 0) off)
  else match s.reach r off with
  | none => absent s
  | some (ty, inst) =>
    if !sizeOk true off data.length then
      refused (if r.isHost then s.accessRefused true 0 off data.length else s)
    else { s.writeAt r ty inst off data poisoned with resp := .done }

/-- One register of a read: a block register of a page in its soft reset, or read by the host in a world-1 page, reads 0
(02_host_interface.md R62, R63). A host read of a read-clear field goes to the secondary. -/
def State.readOne (s : State) (r : Req) (ty inst off : Nat) : Word × State :=
  let pg := pageOf off
  let block := 0x040 ≤ off % 0x1000
  if block && (s.softResetting pg || (r.isHost && ty < 0x100 && s.pageWorld1 pg)) then (0#32, s)
  else
    let (v, s) := readReg r ty inst off s
    (v, if r.isHost && block && hasReadClear ty inst (off % 0x1000) then s.mirrorReg off 0#32 true else s)

/-- The bytes of `n` registers in address order. -/
def State.readAll (s : State) (r : Req) (ty inst : Nat) : Nat → Nat → List Byte × State
  | _, 0 => ([], s)
  | off, n + 1 =>
    let (v, s) := s.readOne r ty inst off
    let (l, s) := s.readAll r ty inst (off + 4) n
    (leBytes 4 v.toNat ++ l, s)

/-- A BAR0 read by the host, or a read of a station page by a core: every register that it touches is read. -/
def busRead (r : Req) (off len : Nat) (s : State) : State :=
  let refused (s : State) : State := { s.busFault r false off with resp := if r.isHost then .unsupported else .busError }
  let wrongPasid :=
    match r with
    | .host p => s.answers && off < 0x2000000 && !s.pasidOk p off
    | .core _ => false
  if wrongPasid then
    refused (s.pasidRefused (match r with | .host p => p | .core _ => none) false true ((windowOf off).getD 0) off)
  else match s.reach r off with
  | none => refused s
  | some (ty, inst) =>
    if !sizeOk false off len then refused (if r.isHost then s.accessRefused false 0 off len else s)
    else
      let first := off / 4 * 4
      let (l, s) := s.readAll r ty inst first ((off + len - first + 3) / 4)
      { s with resp := .data ((l.drop (off - first)).take len) }

/-- A write of one register as a whole word. -/
def writeWord (r : Req) (off : Nat) (v : Word) (s : State) : State := busWrite r off (leBytes 4 v.toNat) false s

/-- A BAR4 access of the host (02_host_interface.md R50, R53, R66). Cores do not reach BAR4. -/
def bar4Bus (r : Req) (off len : Nat) (data : Option (List Byte)) (poisoned : Bool) (s : State) : State :=
  match r with
  | .core _ => { s with resp := .busError }
  | .host p =>
    let (ok, s) := bar4Access p off len data.isSome s
    match data with
    | some d =>
      let s :=
        if !ok then s
        else if poisoned then s.poisonRefused len
        else State.each s ((List.range (len / 4)).map fun i => off + 4 * i) fun s a =>
          s.bar4Write a (w32 (blobNum d (a - off) 4))
      { s with resp := .done }
    | none =>
      { s with resp := if ok then .data ((List.range (len / 4)).flatMap fun i => leBytes 4 (s.bar4Word (off + 4 * i)).toNat)
                       else .unsupported }

/-- A configuration access of the host: with the link up, and past the retries of the start
(16_power_resets_and_start_up.md R463). A write may let waiting reads go on. A poisoned one is discarded and logged
(02_host_interface.md R53). -/
def configBus (r : Req) (f : CfgField) (len : Nat) (data : Option (List Byte)) (poisoned : Bool) (s : State) : State :=
  if !r.isHost then { s with resp := .busError }
  else if !s.hif.linkUp then { s with resp := .unsupported }
  else if s.hif.retry then { s with resp := .retry }
  else match data with
  | some d =>
    if poisoned then { s.poisonRefused len with resp := .done }
    else if f = .initiateFlr ∧ leNat d % 2 = 1 then { doFlr s with resp := .done }
    else { (doConfigWrite f d s).kick with resp := .done }
  | none => { s with resp := .data (leBytes len (s.configValue f)) }

/-- A register access to its target (00_scope.md R12). -/
def targetWrite (r : Req) (t : Target) (data : List Byte) (poisoned : Bool) (s : State) : State :=
  match t with
  | .bar0 off => busWrite r off data poisoned s
  | .bar4 off => bar4Bus r off data.length (some data) poisoned s
  | .config f => configBus r f data.length (some data) poisoned s
  | .csr n => doCsrWrite r n.toNat (w32 (leNat data)) s

def targetRead (r : Req) (t : Target) (len : Nat) (s : State) : State :=
  match t with
  | .bar0 off => busRead r off len s
  | .bar4 off => bar4Bus r off len none false s
  | .config f => configBus r f len none false s
  | .csr n => doCsrRead r n.toNat s

/-- A write of one register reaches it and acts: every check of a write passes. -/
def State.serves (s : State) (r : Req) (off : Nat) : Bool :=
  (match r with | .host p => s.pasidOk p off | .core _ => true) &&
  match s.reach r off with
  | none => false
  | some (ty, inst) =>
    !(ty < 0x100 && s.pageWorld1 (pageOf off) && !s.reqProtected r) &&
      !(0x100 ≤ ty && s.windowFrozen inst) && !s.softResetting (pageOf off) && !(s.secondary && !localPage off)

/-- The eight arguments and then the opcode with its flags, written to a command page (02_host_interface.md R70, R73). -/
def writeCmd (r : Req) (sp op : Nat) (a : CmdArgs) (s : State) : State :=
  let s := State.each s ((List.range 8).zip a.words) fun s e => writeWord r (R.cmdArg sp e.1) e.2 s
  writeWord r (R.cmdOp sp) (w32 (op + b2n a.fence * 256 + b2n a.noInt * 512)) s

/-- A set-up transaction of an accelerometer with the reply that its chip gives (10_haptic_and_acoustic_feedback.md R299). -/
def writeAccRaw (r : Req) (n : Nat) (v : Word) (reply : BitVec 24) (s : State) : State :=
  let a := R.hapAccRaw n
  if bitAt v.toNat 31 && s.serves r a then
    let s := (doAccRaw n v reply s).mirrorReg a v false
    { s with resp := .done }
  else writeWord r a v s

/-- Word `w` of a stream: the selection, then the data (10_haptic_and_acoustic_feedback.md R313, R314, R317). -/
def writeStream (r : Req) (sl : Nat) (ch : Option Nat) (w : Nat) (v : Word) (s : State) : State :=
  match ch with
  | some c => writeWord r (R.slcHapData sl) v (writeWord r (R.slcHapSel sl) (w32 (c * 256 + w)) s)
  | none => writeWord r (R.slcAudData sl) v (writeWord r (R.slcAudSel sl) (w32 w) s)

/-! ### The block soft reset (02_host_interface.md R62, R505) -/

/-- The registers of a page by offset. -/
def pageRegs (ty inst : Nat) : List Nat :=
  (regsOf ty inst).flatMap fun d => (List.range d.n).map fun i => d.off + d.stride * i

/-- A register keeps its value at a soft reset because a write could not change it now, because the rule names it, or because it
shows what goes on running: the frame counter and rate of an output, the capacity, the floor image in its slot (log 51). -/
def State.keptBySoftReset (s : State) (ty inst off : Nat) : Bool :=
  match ty with
  | 0x30 => inst == 0 && off == 0x040
  | 0x40 => off == 0x040 || off == 0x080
  | 0x41 =>
    (0x044 ≤ off && off ≤ 0x070 && s.timingLocked inst) || off == 0x080 || off == 0x090 ||
      (off == 0x0C0 && s.flag (R.outCtrl inst) F.outCtrl_tx)
  | 0x42 => off == 0x040
  | 0x43 => off == 0x040 || off == 0x044
  | 0x50 => s.cvBusy inst
  | 0x70 => (!regHere ty inst off) || (off == 0x054 && 12000 < s.floorSum + 1500 - s.floorMw inst)
  | _ => false

/-- A field keeps its value at a soft reset: lockable fields, set-only bits, which read 1 only while an operation is in progress
that no write changes, an output's run, tx and frozen depth, and what shows a rail or a link that goes on (log 51). -/
def State.fieldKept (s : State) (ty inst off : Nat) (f : FldDesc) : Bool :=
  f.acc == .rwl || f.acc == .w1s ||
    (ty == 0x41 && off == 0x040 && (f.fld.hi ≤ 1 || (f.fld.hi == 7 && s.timingLocked inst))) ||
    (ty == 0x41 && off == 0x0C8 && f.acc == .ro) || (ty == 0x41 && off == 0x0C4 && f.fld.lo != 8) || (ty == 0x70 && off == 0x0D0 && f.acc == .ro)

/-- The word of a register after a soft reset. -/
def State.softWord (s : State) (ty inst off : Nat) : Word :=
  (fieldsAt ty inst off).foldl
    (fun w f => if s.fieldKept ty inst off f then f.fld.put w (f.fld.get (s.rd (pageBase ty inst + off))) else w)
    (w32 (regReset ty inst off))

/-- The words behind the data windows of a page return to their reset values. -/
def State.softTables (s : State) (ty inst : Nat) : State :=
  match ty with
  | 0x31 => s.setEngine inst { s.engine inst with bytes := 0 }
  | 0x40 => s.updOut inst fun x => { x with rb := [] }
  | 0x42 =>
    let o := s.slotOut inst
    (s.updLayer inst fun x => { x with shadow := [], snap := [] }).askResetRemoval o (.layer inst) fun c => c.coversSlot inst
  | 0x50 => if s.cvBusy inst then s else s.cvReset inst
  | 0x51 =>
    (s.clearRegionShadow inst).askResetRemoval (regionOut inst) (.region inst false) fun c =>
      c.regions.any fun e => e.1 == inst
  | 0x60 =>
    let free (p : Nat) : Bool :=
      let w := s.num (K.pin p)
      bitsOf w 11 10 == 0 || !s.enabled (tchPage (bitsOf w 9 7))
    let s := s.resetKeys fun a => K.pin 0 ≤ a && a < K.pin 512 && free (a - K.pin 0)
    { s.resetKeys (fun a => K.reflex 256 0 0 ≤ a && a < K.reflex 257 0 0) with reflexDirty := true }
  | 0x61 =>
    let s := s.resetKeys fun a => K.ref inst 0 ≤ a && a < K.ref (inst + 1) 0
    let s := if s.enabled (tchPage inst) then s else s.resetKeys fun a => K.hop inst 0 ≤ a && a < K.hop (inst + 1) 0
    s.updPanel inst fun x => { x with rb := [], rbNext := false, rbScan := 0, diag := [] }
  | 0x70 => s.updChan inst fun x => { x with rb := [], cmdResult := 0 }
  | 0x71 => s.resetKeys fun a => K.route 0 ≤ a && a < K.route 256
  | _ => s

/-- SOFT_RESET_DONE: the page's block registers return to their reset values but for those kept. -/
def doSoftResetDone (pg : Nat) (s : State) : State :=
  if !s.softResetting pg then s
  else match pageAt pg with
  | none => s
  | some (ty, inst) =>
    let s := { s with hif := { s.hif with softReset := s.hif.softReset.filter (· ≠ pg) } }
    let t := s.each ((pageRegs ty inst).filter fun k => !s.keptBySoftReset ty inst k) fun t k =>
      t.wr (pg + k) (s.softWord ty inst k)
    t.softTables ty inst

end Sys2Proof.Machine
end

