-- ==== Sys2Proof/Machine/Mirror.lean ====
section
/-!
DEFINITION. What a secondary does with the register writes and the decisions of its primary
(15_pairs_and_live_insertion.md R430). What a decision carries beyond the table's words is internal to the module (log 40).
-/

namespace Sys2Proof.Machine

/-! ### WRITE_REG -/

/-- Act with the rights of the protected world, which made the write that is mirrored (log 42). -/
def asProtected (f : State → State) (s : State) : State :=
  let st := (s.core 0).st
  let t := f (s.updCore 0 fun x => { x with st := 1 })
  t.updCore 0 fun x => { x with st := if x.st = 1 then st else x.st }

/-- A mirrored write of SLC_CMD_OP: the decision before it has issued or refused the command. -/
def State.mirrorCmdOp (s : State) (sp : Nat) : State :=
  let (handle, status) := s.pair.lastIssue
  (s.wrN (R.cmdResult sp) handle).wrN (R.cmdRefusal sp) status

/-- The command space of a command page's SLC_CMD_OP. -/
def cmdOpSpace (ty inst off : Nat) : Option Nat :=
  if off % 0x1000 ≠ 0x060 then none
  else if ty = 0x100 then some inst
  else if ty = 0x10 ∧ inst = 1 then some 256 else none

/-- The copy of a register word in a catch-up (R451). A domain's ratio travels with the domain's number in bits [31:24]. -/
def copyEffect (off : Nat) (v : Word) (s : State) : State :=
  if !s.secondary then s
  else if off = R.clkDomCfg then s.setRatio (v.toNat / 2 ^ 24) (v.toNat % 32)
  else if catchupCell off then s.wr off v else s

/-- WRITE_REG: the register takes the value, a read clears its read-clear fields, or a catch-up copies its word. -/
def regEffect (off : Nat) (v : Word) (how : RegMsg) (s : State) : State :=
  if how = .copy then copyEffect off v s
  else match s.secondary, pageAt off with
  | true, some (ty, inst) =>
    if how = .readClear then s.wr off (clearRead (fieldsAt ty inst (off % 0x1000)) (s.rd off))
    else match cmdOpSpace ty inst off with
    | some sp => s.mirrorCmdOp sp
    | none =>
      if ty ≠ 0x80 && ((ty < 0x100 && s.pageWorld1 (pageOf off)) || (ty == 0x60 && pwTouchReg (off % 0x1000))) then
        asProtected (writeReg (.core 0) ty inst off v) s
      else writeReg (.host none) ty inst off v s
  | _, _ => s

/-! ### Commands and records -/

/-- The handle is in use, and the next one follows it. -/
def State.noteHandle (s : State) (sp handle : Nat) : State :=
  let i := handleIndex handle
  s.updSpace sp fun x => { x with gens := Tab.set 0 x.gens i (handle / 2 ^ 20), cursor := (i + 1) % 4096 }

/-- The commands whose start changes the secondary's own state: SURF_RELEASE, COMMIT and FLOOR_LOAD. The others wait there for
their record. -/
def Cmd.startsMirrored (c : Cmd) : Bool := c.op == 3 || c.op == 4 || c.op == 0x12

/-- Start what the primary has started of a space, in issue order. -/
def State.followFrom (sp : Nat) : Nat → Nat → State → State
  | 0, _, s => s
  | fuel + 1, i, s =>
    let cmds := (s.space sp).cmds
    match cmds[i]? with
    | none => s
    | some c =>
      if c.phase = .waiting && c.startsMirrored && c.mayStart (cmds.take i) then
        let s := s.updSpace sp fun x => { x with cmds := x.cmds.map fun d =>
          if d.handle = c.handle then { d with phase := .running } else d }
        State.followFrom sp fuel (i + 1) (s.startCmd sp { c with phase := .running })
      else if c.blocks (cmds.take i) then s
      else State.followFrom sp fuel (i + 1) s

/-- A command of the primary joins its space. -/
def issuedEffect (sp handle op : Nat) (ws : List Word) (fence noInt : Bool) (s : State) : State :=
  let s := (s.noteHandle sp handle).joinSpace sp handle op ws fence noInt
  let s := s.updPair fun p => { p with lastIssue := (handle, 0) }
  State.followFrom sp (s.space sp).cmds.length 0 s

/-- The commit of a handle leaves the lists it stands in: its verdict did not come from the fit check, or it did not latch. -/
def State.endMirrored (s : State) (sp handle status : Nat) : State :=
  let mine (c : Commit) : Bool := c.owner == sp && c.handle == handle
  s.each (List.range 8) fun s o =>
    let x := s.out o
    let ok := status == 0 || status == 1
    if !(x.commits.any mine) then s
    else
      let s := s.setOut o { x with
        queue := x.queue.filter fun e => match e with | .commit c => !mine c | .share _ => true,
        fenced := x.fenced.filter fun c => !mine c,
        accepted := if ok then x.accepted else x.accepted.filter fun c => !mine c,
        deferred := if ok then x.deferred else x.deferred.filter fun c => !mine c }
      if ok then s else s.endCommitHolds o sp handle

/-- The version that a failed import was filling is free again, and an identifier that it created is stale
(04_surfaces_and_haul.md R142). -/
def State.importEnds (s : State) (sp : Nat) (c : Cmd) : State :=
  let target := argOf c.words 5
  let dims (f : Surface) : Bool := f.w + f.h * 65536 == argOf c.words 0 && f.fmt == argOf c.words 1 % 256
  let mine (v : Version) : Bool :=
    v.slice == sp && v.lease == .filling &&
      (if target = 0 then match s.surface sp v.ident with
        | some f => f.cur.isNone && dims f
        | none => false
       else v.ident == target)
  match (s.versionsWith mine).head? with
  | none => s
  | some (vid, v) => (if target = 0 then s.putSurface sp v.ident none else s).freeVersion vid

/-- A floor load of the primary ends (08_check_values_core_samples_and_floor_images.md R255). -/
def State.floorEnds (s : State) (handle : Nat) (r : Rec) : State :=
  match s.floorOf handle with
  | none => s
  | some o => if r.status = 0 then s.floorValid o (blobNum r.result 0 4) else s.floorFailed o r.status 0

/-- A record of the primary's ring: the tail moves on, and its command is over. -/
def recordEffect (sp n : Nat) (r : Rec) (s : State) : State :=
  let s := if s.cqOn sp then s.wrN (R.cqTail sp) (n + 1) else s
  if r.event then s
  else
    let cmd := (s.space sp).cmds.find? fun c => c.handle == r.handle && c.inProgress
    let s := s.setSpace sp ((s.space sp).markWritten r.handle n)
    let s := s.endMirrored sp r.handle r.status
    let s := match cmd with
      | some c =>
        if c.op = 1 ∧ r.status ≠ 0 then s.importEnds sp c else if c.op = 0x12 then s.floorEnds r.handle r else s
      | none => s
    State.followFrom sp (s.space sp).cmds.length 0 s

/-! ### Surfaces -/

/-- An identifier of the primary; a restored one keeps the version it replaces until the new one is current. -/
def identEffect (sl ident w h fmt colour : Nat) (s : State) : State :=
  let i := ident % 65536
  let old := (Tab.get none s.haul.surfaces (K.surf sl i)).bind (·.cur)
  let s := s.updHaul fun x => { x with idGens := Tab.set 0 x.idGens (K.surf sl i) (ident / 65536) }
  s.putSurface sl ident (some { ident := ident, w := w, h := h, fmt := fmt, colour := colour, cur := old })

/-- A version of the primary at its place in DRAM. -/
def versionEffect (sl ident vid unit0 units : Nat) (s : State) : State :=
  let s := s.updHaul fun h => { h with nextVid := max h.nextVid (vid + 1) }
  s.putVersion vid (some { slice := sl, ident := ident, unit0 := unit0, units := units })

/-- A version becomes current (04_surfaces_and_haul.md R137, R154). -/
def currentEffect (sl ident vid : Nat) (s : State) : State :=
  match s.surface sl ident with
  | none => s
  | some f =>
    let ic := (f.importCount + 1) % 65536
    let s := s.putSurface sl ident (some { f with cur := some vid, importCount := ic })
    let s := match s.version vid with
      | some v => s.putVersion vid (some { v with lease := .current, importCount := ic })
      | none => s
    let s := match f.cur with | some old => s.retire old | none => s
    s.markDirty sl ident

/-! ### The fit check -/

/-- The slots that an output's next plan sheds. -/
def State.shedNow (s : State) (o : Nat) : List Nat :=
  match (s.out o).next.or (s.out o).plan with
  | some p => p.shed
  | none => []

/-- A commit that the primary has accepted (05_bench_plan_and_fit_check.md R160, R172). -/
def State.acceptMirrored (s : State) (o : Nat) (c : Commit) : State :=
  let s := s.count (R.bplAccepted o) ⟨31, 0⟩
  let s :=
    if c.owner = 256 then s.clrF (R.lyrCapCtrl c.capSlot) F.lyrCapCtrl_commit
    else s.each c.bound fun s l => match l.vid with
      | some vid => s.hold vid (.commit o c.owner c.handle)
      | none => s
  if s.inFreeze o then s.updOut o fun x => { x with deferred := x.deferred ++ [c] }
  else
    let s := s.accept o c
    s.recompile o (s.shedNow o) (s.fld (R.bplCapacity 0) F.bplCapacity_causes % 16 + 16)

/-- A verdict of the primary on the entry at the head of the queue; a QUEUE_FULL entry never entered it (R157, R164). -/
def verdictEffect (o : Nat) (accepted : Bool) (reason : Nat) (s : State) : State :=
  let x := s.out o
  if !accepted && reason == 8 then s
  else match x.queue with
  | [] => s
  | .share w :: rest =>
    let s := s.setOut o { x with queue := rest }
    if accepted then s.wr (R.bplShare o) (w &&& 0xFFFFFF00#32) else s.setF (R.bplCheck o) F.bplCheck_share_refused
  | .commit c :: rest =>
    let s := s.setOut o { x with queue := rest }
    if !accepted then s.refuse o c { reason := reason, line := 0xFFFF, layer := none }
    else match s.bindLayers c.owner c.enabled with
      | .error _ => s
      | .ok ls => s.acceptMirrored o { c with bound := ls }

/-- An accepted commit is superseded (R160). -/
def supersededEffect (o handle : Nat) (s : State) : State :=
  let (mine, rest) := (s.out o).accepted.partition fun c => c.handle == handle
  let s := if mine.isEmpty then s else s.updOut o fun x => { x with accepted := rest }
  s.each mine fun s c => s.endCommitHolds o c.owner c.handle

/-! ### Decisions -/

/-- A decision of the primary acts on the secondary (R430). -/
def applyDecision (d : PairDecision) (s : State) : State :=
  match d with
  | .commandIssued sp handle op ws fence noInt => issuedEffect sp.val handle op ws fence noInt s
  | .commandRefused _ status => s.updPair fun p => { p with lastIssue := (0, status) }
  | .entryTaken sp head => s.wr (R.sqHead sp.val) head
  | .identifierIssued sl ident w h fmt colour => identEffect sl.val ident w h fmt colour s
  | .versionAllocated sl ident vid u n => versionEffect sl.val ident vid u n s
  | .versionCurrent sl ident vid => currentEffect sl.val ident vid s
  | .verdict o accepted reason => verdictEffect o.val accepted reason s
  | .superseded o handle => supersededEffect o.val handle s
  | .shedSet o slots => s.recompile o.val slots (s.fld (R.bplCapacity 0) F.bplCapacity_causes % 16)
  | .causes bits => s.put (R.bplCapacity 0) F.bplCapacity_causes bits.toNat
  | .recordWritten sp n r => recordEffect sp.val n.toNat r s
  | .touchReport sl tail => s.put (R.slcTrPos sl.val) ⟨31, 16⟩ tail.toNat
  | .dirtyLog sl tail => s.wr (R.slcAdmDlogTail sl.val) tail
  | .flr => doFlr s

/-- DECISION: only a secondary follows. -/
def decisionEffect (d : PairDecision) (s : State) : State := if s.secondary then applyDecision d s else s

/-- A frame of the bulk channel acts, and with it the LATCH messages whose fence it reaches (R429). -/
def bulkFrame (h : FrameHdr) (f : State → State) (s : State) : State := (s.receive h true f).applyFenced

/-! ### Commands that join two chapters -/

/-- The host asks for a function-level reset while the function answers configuration requests
(16_power_resets_and_start_up.md R463, R465). -/
def flrNow (s : State) : State := if s.hif.linkUp && !s.hif.retry then doFlr s else s

end Sys2Proof.Machine
end

