-- ==== Sys2Proof/Machine/CoreMem.lean ====
section
/-!
DEFINITION. What the cores do between the entries: their memory accesses and the caches they fill, access faults and other
exceptions, interrupts through the bank of the current world, MRET, WFI and FENCE.I
(11_control_cores_and_the_protected_world.md R320, R321, R332, R337 to R343; 12_interrupt_delivery.md R360, R365;
13_memory_controller.md R371, R381, R382).
-/

namespace Sys2Proof.Machine

/-! ### Kinds of access -/

/-- The access-fault cause of an access kind (11_control_cores_and_the_protected_world.md R321). -/
def faultCause : AccessKind → Nat
  | .fetch _ => 1
  | .load _ => 5
  | .store _ => 7

/-- The access writes. -/
def AccessKind.isStore : AccessKind → Bool
  | .store _ => true
  | _ => false

/-- The access fetches. -/
def AccessKind.isFetch : AccessKind → Bool
  | .fetch _ => true
  | _ => false

/-- The bytes that the access addresses, at least one. -/
def AccessKind.len : AccessKind → Nat
  | .fetch n => max 1 n
  | .load n => max 1 n
  | .store d => max 1 d.length

/-- The permission bit of a PMP entry that allows the access. -/
def AccessKind.perm : AccessKind → Nat
  | .load _ => 0
  | .store _ => 1
  | .fetch _ => 2

/-! ### Access faults -/

/-- The mode whose rights an access has: MPP's for loads and stores while MPRV is set (R320; log 9). -/
def CoreSt.accessUser (x : CoreSt) (k : AccessKind) : Bool :=
  let st := (Tab.get 0#32 x.bank csr.mstatus).toNat
  if bitAt st 17 && !(AccessKind.isFetch k) then bitsOf st 12 11 != 3 else x.user

/-- The DRAM offset of an address in the DRAM window (R321; WLD_WDWIN). -/
def CoreSt.windowOff (x : CoreSt) (a : Nat) : Nat :=
  (min 12 (bitsOf (Tab.get 0#32 x.bank csr.wdwin).toNat 3 0)) * 0x20000000 + (a - 0x80000000)

/-- A range of bytes lies in a range of addresses. -/
def inArea (a len lo hi : Nat) : Bool := lo ≤ a && a + len ≤ hi

/-- The bytes that a core in MONITOR reaches: the boot ROM for fetches; its monitor page and the mailbox registers of WLD_2 for
data (11_control_cores_and_the_protected_world.md R333). -/
def monitorReaches (c a len : Nat) (fetch : Bool) : Bool :=
  if fetch then inArea a len 0 0x10000
  else inArea a len (0x10300000 + c * 0x1000) (0x10301000 + c * 0x1000) || inArea a len 0x20282060 0x20282068

/-- A station page answers a core: it is present and its clock gate is open (00_scope.md R7; 14_clock_generation.md R405). -/
def State.pageAnswersCore (s : State) (off : Nat) : Bool :=
  match stationPageAt off with
  | none => false
  | some (ty, inst) => match gateOf ty inst with
    | none => true
    | some g => s.gateOpen g

/-- Whether an access of a core faults by its address, whatever its data: an address that is not listed, a PMP entry, a closed
page, a store to a read-only area, a protected area; and the state that has logged a denial. Every byte of the access counts
(11_control_cores_and_the_protected_world.md R320, R321, R333, R338, R339; 13_memory_controller.md R371; 14_clock_generation.md
R405). -/
def State.accessFault (s : State) (c a : Nat) (k : AccessKind) : Bool × State :=
  let x := s.core c
  let w0 := x.st == 0
  let wr := AccessKind.isStore k
  let len := AccessKind.len k
  let deny (g off : Nat) : Bool × State := (true, s.denial wr g c off)
  if x.st = 2 then (!monitorReaches c a len (AccessKind.isFetch k), s)
  else if !x.pmpOk (x.accessUser k) (AccessKind.perm k) a len then (true, s)
  else if inArea a len 0 0x10000 then
    if w0 then deny 1 a else (wr, s)
  else if inArea a len 0x10000000 0x10400000 || inArea a len 0x11000000 0x11040000 then
    if w0 && ((0x10300000 < a + len && a < 0x10400000) || s.inGuard 1 (a - 0x10000000) len) then deny 1 (a - 0x10000000)
    else (false, s)
  else if inArea a len 0x20000000 0x21000000 then (!s.pageAnswersCore (a - 0x20000000), s)
  else if inArea a len 0x30000000 0x34000000 then
    if w0 && s.inGuard 2 (a - 0x30000000) len then deny 2 (a - 0x30000000) else (wr, s)
  else if inArea a len 0x80000000 0x100000000 then
    let off := x.windowOff a
    if dramEnd < off + len || s.dmc.selfRefresh then (true, s)
    else if w0 && s.dramProtected off len then deny 0 off
    else (false, s)
  else (true, s)

/-! ### Cache lines (11_control_cores_and_the_protected_world.md R342, R343; log 21) -/

/-- The sets of a cache: 32 KiB L1 caches of 8 ways, a 512 KiB L2 of 16 ways (01_the_w880_at_a_glance.md R45). -/
def cacheSets (cache : Nat) : Nat := if cache = 4 then 512 else 64

/-- The ways of a cache that hold lines of a world. -/
def State.waysOf (s : State) (cache : Nat) (instr prot : Bool) : List Nat :=
  (List.range (if cache = 4 then 16 else 8)).filter fun w =>
    s.wayProtected { core := cache, instr := instr, way := w, addr := 0, dirty := false, data := [] } == prot

/-- The line of a block in a cache. -/
def State.lineOf (s : State) (cache : Nat) (instr : Bool) (d : Nat) : Option Line :=
  s.wld.lines.find? fun l => l.core == cache && l.instr == instr && l.addr == d * 64

/-- Fill a line by the world of its address, in a way that is a free value; the line that stood there is written back first
(11_control_cores_and_the_protected_world.md R343). -/
def State.fillLine (s : State) (cache : Nat) (instr : Bool) (d : Nat) (data : List Byte) : State :=
  let ways := s.waysOf cache instr (s.dramProtected (d * 64) 64)
  let (v, s) := s.free ways.length
  let way := (ways[v]?).getD 0
  let there (l : Line) : Bool := l.core == cache && l.instr == instr && l.way == way &&
    l.addr / 64 % cacheSets cache == d % cacheSets cache
  let s := (s.cleanLines there).dropLines there
  { s with wld := { s.wld with lines := s.wld.lines ++
      [{ core := cache, instr := instr, way := way, addr := d * 64, dirty := false, data := data }] } }

/-- The other cores' dirty copies of a block are written back before it is read (log 21). -/
def State.snoop (s : State) (c : Nat) (instr : Bool) (d : Nat) : State :=
  s.cleanLines fun l => l.core != 4 && !l.instr && l.addr == d * 64 && (l.core != c || instr)

/-- The bytes of a block in the L2, filled from DRAM on a miss; none where the DRAM read is uncorrectable, and the L2 does not
keep the line (13_memory_controller.md R382). -/
def State.l2Line (s : State) (c d : Nat) (ecc : Ecc) : Option (List Byte) × State :=
  match s.lineOf 4 false d with
  | some l => (some l.data, s)
  | none =>
    let (ok, s) := s.readBlock d c 0 false (eccFound ecc d)
    let data := Mem.read 0 s.mem.dram (d * 64) 64
    if ok then (some data, s.fillLine 4 false d data) else (none, s)

/-- The bytes of a block in an L1 cache of a core, filled through the L2 on a miss. -/
def State.l1Line (s : State) (c : Nat) (instr : Bool) (d : Nat) (ecc : Ecc) : Option (List Byte) × State :=
  match s.lineOf c instr d with
  | some l => (some l.data, s)
  | none => match (s.snoop c instr d).l2Line c d ecc with
    | (some data, s) => (some data, s.fillLine c instr d data)
    | (none, s) => (none, s)

/-- Cached bytes of a range; none where a block of it fails. -/
def State.cachedRead (s : State) (c a len : Nat) (instr : Bool) (ecc : Ecc) : Option (List Byte) × State :=
  let (r, s) := (blocksOf a len).foldl (fun (r, s) d =>
    let (b, s) := State.l1Line s c instr d ecc
    (match r, b with
     | some l, some b => some (l ++ b)
     | _, _ => none, s)) (some ([] : List Byte), s)
  (r.map fun l => (l.drop (a % 64)).take len, s)

/-- The part of a write that falls into a block, as its offset in the block and its bytes. -/
def partIn (a : Nat) (data : List Byte) (d : Nat) : Nat × List Byte :=
  let lo := max a (d * 64)
  (lo - d * 64, (data.drop (lo - a)).take (d * 64 + 64 - lo))

/-- Bytes with some of them replaced. -/
def spliceBytes (l : List Byte) (at_ : Nat) (b : List Byte) : List Byte := l.take at_ ++ b ++ l.drop (at_ + b.length)

/-- A cached write to one block: the line takes the bytes and the other cores' copies go. Where the fill is uncorrectable the
bytes go to DRAM as an uncached partial write (13_memory_controller.md R381, R382; log 21). -/
def State.cachedStore (s : State) (c : Nat) (ecc : Ecc) (at_ : Nat) (b : List Byte) (d : Nat) (world1 : Bool) : State :=
  match s.l1Line c false d ecc with
  | (none, s) => s.coreDramWrite c (d * 64 + at_) b world1
  | (some _, s) =>
    let s := s.dropLines fun l => l.core != 4 && !l.instr && l.core != c && l.addr == d * 64
    { s with wld := { s.wld with lines := s.wld.lines.map fun l =>
        if l.core == c && !l.instr && l.addr == d * 64 then { l with data := spliceBytes l.data at_ b, dirty := true } else l } }

/-! ### Accesses -/

/-- What an access that faults by its data or at its page answers: faulted, and the state. -/
abbrev AccessOut := Bool × State

/-- A DRAM access (11_control_cores_and_the_protected_world.md R321, R343; 13_memory_controller.md R381, R382). In a secondary a
write is discarded (15_pairs_and_live_insertion.md R431). -/
def State.coreDram (s : State) (c off : Nat) (k : AccessKind) (cached : Bool) (ecc : Ecc) : AccessOut :=
  let w1 := (s.core c).st != 0
  match k with
  | .store data =>
    (false,
      if s.secondary then s
      else if cached then (blocksOf off data.length).foldl (fun s d =>
        let p := partIn off data d
        State.cachedStore s c ecc p.1 p.2 d w1) s
      else s.coreDramWrite c off data w1)
  | _ =>
    let (r, s) :=
      if cached then s.cachedRead c off (AccessKind.len k) (AccessKind.isFetch k) ecc
      else
        let (data, fails, s) := s.dramRead off (AccessKind.len k) c 0 ecc
        (if fails.isEmpty then some data else none, s)
    match r with
    | some data => (false, { s with resp := .data data })
    | none => (true, s)

/-- A write to control-core or retention memory; the save areas discard it (11_control_cores_and_the_protected_world.md R329). -/
def State.ctlStore (s : State) (off : Nat) (data : List Byte) : State :=
  let kept := (data.zip (Mem.read 0 s.mem.ctl off data.length)).zipIdx.map fun e =>
    if saveArea 0 ≤ off + e.2 && off + e.2 < saveArea 4 then e.1.2 else e.1.1
  { s with mem := { s.mem with ctl := Mem.write 0 s.mem.ctl off kept } }

/-- An access to control-core or retention memory. -/
def State.coreCtl (s : State) (off : Nat) (k : AccessKind) : State :=
  match k with
  | .store data => s.ctlStore off data
  | _ => { s with resp := .data (Mem.read 0 s.mem.ctl off (AccessKind.len k)) }

/-- An access to a station page: a register access of the core; where the bus refuses it, a fetch faults as a fetch. -/
def State.corePage (s : State) (c : Fin 4) (off : Nat) (k : AccessKind) : AccessOut :=
  if AccessKind.isFetch k && !sizeOk false off (AccessKind.len k) then (true, s)
  else
  let s :=
    match k with
    | .store data => busWrite (.core c) off data false s
    | _ => busRead (.core c) off (AccessKind.len k) s
  (false, s)

/-- The boot ROM's bytes, which the spec does not give: free values (log 1). -/
def State.romRead (s : State) (len : Nat) : State :=
  let (l, s) := (List.range len).foldl (fun (l, s) _ =>
    let (v, s) := State.free s 256
    (l ++ [BitVec.ofNat 8 v], s)) (([] : List Byte), s)
  { s with resp := .data l }

/-- An access that does not fault by its address acts, and answers whether it faults by its data. -/
def State.coreAccess (s : State) (c : Fin 4) (a : Nat) (k : AccessKind) (cached : Bool) (ecc : Ecc) : AccessOut :=
  if a < 0x10000 then (false, s.romRead (AccessKind.len k))
  else if a < 0x20000000 then (false, s.coreCtl (a - 0x10000000) k)
  else if a < 0x30000000 then s.corePage c (a - 0x20000000) k
  else if a < 0x80000000 then (false, { s with resp := .data (s.flash (a - 0x30000000) (AccessKind.len k)) })
  else s.coreDram c.val ((s.core c.val).windowOff a) k cached ecc

/-! ### Exceptions and interrupts -/

/-- An access: it acts, or it takes the access fault of its kind with the address in mtval
(11_control_cores_and_the_protected_world.md R321, R339; 13_memory_controller.md R382). -/
def State.accessOrFault (s : State) (c : Fin 4) (a : Word) (k : AccessKind) (cached : Bool) (ecc : Ecc) : State :=
  let (f, s) := s.accessFault c.val a.toNat k
  let (f, s) := if f then (true, s) else s.coreAccess c a.toNat k cached ecc
  if f then s.takeException c.val (faultCause k) a else s

/-- An external interrupt of the current world that its bank does not mask is taken as the privileged specification defines
(11_control_cores_and_the_protected_world.md R328; 12_interrupt_delivery.md R360, R365). -/
def State.takeInterrupt (s : State) (c : Nat) : State :=
  let x := s.core c
  let st := (Tab.get 0#32 x.bank csr.mstatus).toNat
  if x.st != 2 && s.meip c (x.st != 0) && bitAt (Tab.get 0#32 x.bank csr.mie).toNat 11 && (x.user || bitAt st 3) then
    s.setCore c (x.trap true 11 x.pc 0#32)
  else s

/-- MRET in machine mode returns within the current world (11_control_cores_and_the_protected_world.md R332; log 9). -/
def CoreSt.mret (x : CoreSt) : CoreSt :=
  let st := (Tab.get 0#32 x.bank csr.mstatus).toNat
  let m := bitsOf st 12 11
  let w := Fld.put ⟨3, 3⟩ (w32 st) (bitsOf st 7 7)
  let w := Fld.put ⟨7, 7⟩ w 1
  let w := Fld.put ⟨12, 11⟩ w 0
  let w := if m = 3 then w else Fld.put ⟨17, 17⟩ w 0
  { x.setCsr csr.mstatus w with pc := Tab.get 0#32 x.bank csr.mepc, user := m != 3 }

/-- WFI: the core sleeps at the instruction after it until a source of either world is delivered; in user mode it is illegal
while TW is set (12_interrupt_delivery.md R365; log 9). -/
def State.execWfi (s : State) (c : Nat) : State :=
  let x := s.core c
  if x.user && bitAt (Tab.get 0#32 x.bank csr.mstatus).toNat 21 then s.illegal c
  else (s.setCore c { x.next with wfi := true }).wake

/-- FENCE.I: what the core has stored reaches its fetches; in GENERAL it acts on general ways only
(11_control_cores_and_the_protected_world.md R343; log 21). -/
def State.fenceI (s : State) (c : Nat) : State :=
  let mine (instr : Bool) (l : Line) : Bool :=
    l.core == c && l.instr == instr && ((s.core c).st == 1 || !s.wayProtected l)
  ((s.cleanLines (mine false)).dropLines (mine true)).updCore c CoreSt.next

/-- An event of a core: an access that acts or faults, another RISC-V exception, an interrupt, MRET, WFI or FENCE.I
(11_control_cores_and_the_protected_world.md R321, R332). -/
def doCoreException (c : Fin 4) (e : CoreExc) (s : State) : State :=
  if !(s.core c.val).runs then s
  else match e with
    | .access a k cached ecc => s.accessOrFault c a k cached ecc
    | .other cause tval => s.takeException c.val cause tval
    | .interrupt => s.takeInterrupt c.val
    | .mret => if (s.core c.val).user then s.illegal c.val else s.updCore c.val CoreSt.mret
    | .wfi => s.execWfi c.val
    | .fenceI => s.fenceI c.val

end Sys2Proof.Machine
end

