-- ==== Sys2Proof/Machine/ExecCore.lean ====
section
/-!
DEFINITION. The meanings of the commands of the control cores and the protected world, interrupts, memory and clocks,
one definition each. A command that is a register access is that access on the bus, with every check of Bus.lean.
-/

namespace Sys2Proof.Machine

/-- GATE_CALL (11_control_cores_and_the_protected_world.md R327). -/
def execGateCall (c : Fin 4) (rd : Fin 32) (rs1 : Word) (s : State) : Host.Outcome State Fault Refusal :=
  .next (doGateCall c.val rd.val rs1 s.begin)

/-- WORLD_EXIT (11_control_cores_and_the_protected_world.md R330). -/
def execWorldExit (c : Fin 4) (_v : Word) (s : State) : Host.Outcome State Fault Refusal :=
  .next (exitWorld c.val s.begin)

/-- FORCED_ENTRY (11_control_cores_and_the_protected_world.md R328). -/
def execForcedEntry (c : Fin 4) (s : State) : Host.Outcome State Fault Refusal :=
  .next (doForcedEntry c.val s.begin)

/-- RESTART_ENTRY (11_control_cores_and_the_protected_world.md R355). -/
def execRestartEntry (s : State) : Host.Outcome State Fault Refusal :=
  .next (doRestartEntry s.begin)

/-- QUERY (11_control_cores_and_the_protected_world.md R333). -/
def execQuery (c : Fin 4) (s : State) : Host.Outcome State Fault Refusal :=
  .next (State.monitorCall s.begin c.val (monQuery c.val))

/-- POST (11_control_cores_and_the_protected_world.md R334). -/
def execPost (c : Fin 4) (s : State) : Host.Outcome State Fault Refusal :=
  .next (State.monitorCall s.begin c.val (monPost c.val))

/-- POLL (11_control_cores_and_the_protected_world.md R334). -/
def execPoll (c : Fin 4) (s : State) : Host.Outcome State Fault Refusal :=
  .next (State.monitorCall s.begin c.val (monPoll c.val))

/-- MONITOR_RESERVED_FUNCTION (11_control_cores_and_the_protected_world.md R333). -/
def execMonitorReservedFunction (c : Fin 4) (s : State) : Host.Outcome State Fault Refusal :=
  .next (State.monitorCall s.begin c.val monReserved)

/-- CORE_EXCEPTION (11_control_cores_and_the_protected_world.md R332). -/
def execCoreException (c : Fin 4) (e : CoreExc) (s : State) : Host.Outcome State Fault Refusal :=
  .next ((doCoreException c e s.begin).settleNotice)

/-- MAILBOX_DONE_WRITE (11_control_cores_and_the_protected_world.md R335). -/
def execMailboxDoneWrite (r : Req) (v : Word) (s : State) : Host.Outcome State Fault Refusal :=
  .next (writeWord r (R.wldMboxData) v s.begin)

/-- WLD_ASSIGN_WRITE (11_control_cores_and_the_protected_world.md R344). -/
def execWldAssignWrite (r : Req) (v : Word) (s : State) : Host.Outcome State Fault Refusal :=
  .next (writeWord r (R.wldAssign) v s.begin)

/-- CACHE_WAYS_WRITE (11_control_cores_and_the_protected_world.md R342). -/
def execCacheWaysWrite (r : Req) (v : Word) (s : State) : Host.Outcome State Fault Refusal :=
  .next (writeWord r (R.wldCacheWays) v s.begin)

/-- CLEAN_L1D (11_control_cores_and_the_protected_world.md R343). -/
def execCleanL1d (c : Fin 4) (pw : Bool) (s : State) : Host.Outcome State Fault Refusal :=
  .next (doCleanL1d c.val pw s.begin)

/-- INV_L1D (11_control_cores_and_the_protected_world.md R343). -/
def execInvL1d (c : Fin 4) (pw : Bool) (s : State) : Host.Outcome State Fault Refusal :=
  .next (doInvL1d c.val pw s.begin)

/-- INV_L1I (11_control_cores_and_the_protected_world.md R343). -/
def execInvL1i (c : Fin 4) (pw : Bool) (s : State) : Host.Outcome State Fault Refusal :=
  .next (doInvL1i c.val pw s.begin)

/-- CLEAN_L2 (11_control_cores_and_the_protected_world.md R343). -/
def execCleanL2 (c : Fin 4) (pw : Bool) (s : State) : Host.Outcome State Fault Refusal :=
  .next (doCleanL2 c.val pw s.begin)

/-- INV_L2 (11_control_cores_and_the_protected_world.md R343). -/
def execInvL2 (c : Fin 4) (pw : Bool) (s : State) : Host.Outcome State Fault Refusal :=
  .next (doInvL2 c.val pw s.begin)

/-- WDOG_KICK (11_control_cores_and_the_protected_world.md R351). -/
def execWdogKick (r : Req) (v : Word) (s : State) : Host.Outcome State Fault Refusal :=
  .next (writeWord r (R.wldWdogKick) v s.begin)

/-- PW_WATCHDOG_EXPIRY (11_control_cores_and_the_protected_world.md R351). -/
def execPwWatchdogExpiry (s : State) : Host.Outcome State Fault Refusal :=
  .next ((State.worldDogExpires s.begin).settleNotice)

/-- SELF_RESET (11_control_cores_and_the_protected_world.md R351). -/
def execSelfReset (r : Req) (s : State) : Host.Outcome State Fault Refusal :=
  .next (writeWord r R.wldPwCtrl ((s.rd R.wldPwCtrl &&& 0xF0#32) ||| 0x80000000#32) s.begin)

/-- PW_RESET_COMPLETE (11_control_cores_and_the_protected_world.md R352). -/
def execPwResetComplete (s : State) : Host.Outcome State Fault Refusal :=
  .next ((doWorldResetDone s.begin).settleNotice)

/-- POWER_NOTICE_READY (11_control_cores_and_the_protected_world.md R349). -/
def execPowerNoticeReady (r : Req) (s : State) : Host.Outcome State Fault Refusal :=
  .next (writeWord r R.wldPwrNotice 0x40000000#32 s.begin)

/-- POWER_NOTICE_TIMEOUT (11_control_cores_and_the_protected_world.md R349). -/
def execPowerNoticeTimeout (s : State) : Host.Outcome State Fault Refusal :=
  .next (doNoticeTimeout s.begin)

/-- CIC_CLAIM (12_interrupt_delivery.md R361). -/
def execCicClaim (r : Req) (s : State) : Host.Outcome State Fault Refusal :=
  .next (busRead r R.cicClaim 4 s.begin)

/-- CIC_COMPLETE (12_interrupt_delivery.md R362). -/
def execCicComplete (r : Req) (v : Word) (s : State) : Host.Outcome State Fault Refusal :=
  .next (writeWord r (R.cicClaim) v s.begin)

/-- CIC_SRC_CFG_WRITE (12_interrupt_delivery.md R363). -/
def execCicSrcCfgWrite (r : Req) (v : Word) (s : State) : Host.Outcome State Fault Refusal :=
  .next (writeWord r (R.cicSrcCfg) v s.begin)

/-- CIC_SWI (12_interrupt_delivery.md R359). -/
def execCicSwi (r : Req) (v : Word) (s : State) : Host.Outcome State Fault Refusal :=
  .next (writeWord r (R.cicSwi) v s.begin)

/-- TIMER_COMPARE_WRITE (12_interrupt_delivery.md R357). -/
def execTimerCompareWrite (r : Req) (n : Fin 4) (v : Word) (s : State) : Host.Outcome State Fault Refusal :=
  .next (writeWord r (R.cicTcmpHi n.val) v s.begin)

/-- CORE_TIMER_ASSERT (12_interrupt_delivery.md R357). -/
def execCoreTimerAssert (n : Fin 4) (s : State) : Host.Outcome State Fault Refusal :=
  .next (doTimerAssert n.val s.begin)

/-- SET_POINT_REQUEST (13_memory_controller.md R378). -/
def execSetPointRequest (r : Req) (v : Word) (s : State) : Host.Outcome State Fault Refusal :=
  .next (writeWord r (R.dmcCtrl) v s.begin)

/-- SET_POINT_CHANGE_DONE (13_memory_controller.md R378). -/
def execSetPointChangeDone (s : State) : Host.Outcome State Fault Refusal :=
  .next (doSetPointDone s.begin)

/-- PATROL_SCRUB_READ (13_memory_controller.md R384). -/
def execPatrolScrubRead (res : EccRes) (s : State) : Host.Outcome State Fault Refusal :=
  .next (doScrub res s.begin)

/-- TEMPERATURE_MEASUREMENT (13_memory_controller.md R389). -/
def execTemperatureMeasurement (temps : List Int) (s : State) : Host.Outcome State Fault Refusal :=
  .next (doTemperature temps s.begin)

/-- TRACKING_STEP (13_memory_controller.md R377). -/
def execTrackingStep (ch : Fin 8) (s : State) : Host.Outcome State Fault Refusal :=
  .next (doTracking ch.val s.begin)

/-- REFRESH (13_memory_controller.md R388). -/
def execRefresh (ch : Fin 8) (act : RefreshAct) (s : State) : Host.Outcome State Fault Refusal :=
  .next (doRefresh ch.val act s.begin)

/-- WRITE_QUEUE_DRAIN (13_memory_controller.md R387). -/
def execWriteQueueDrain (ch : Fin 8) (readPending : Bool) (s : State) : Host.Outcome State Fault Refusal :=
  .next (doDrain ch.val readPending s.begin)

/-- ROW_HAMMER_THRESHOLD (13_memory_controller.md R391). -/
def execRowHammerThreshold (ch : Fin 8) (bank : Fin 16) (row : Fin 32768) (req : DramReq) (s : State) :
    Host.Outcome State Fault Refusal :=
  .next (doHammer ch.val bank.val row.val req s.begin)

/-- THROTTLE_END (13_memory_controller.md R392). -/
def execThrottleEnd (req : DramReq) (s : State) : Host.Outcome State Fault Refusal :=
  .next (doThrottleEnd req s.begin)

/-- ECC_INJECT (13_memory_controller.md R383). -/
def execEccInject (r : Req) (v : Word) (s : State) : Host.Outcome State Fault Refusal :=
  .next (writeWord r (R.dmcEccInject) v s.begin)

/-- GATE_OPEN (14_clock_generation.md R403). -/
def execGateOpen (r : Req) (i : Fin 10) (v : Word) (s : State) : Host.Outcome State Fault Refusal :=
  .next (writeWord r (R.clkGateOpen i.val) v s.begin)

/-- GATE_CLOSE (14_clock_generation.md R404). -/
def execGateClose (r : Req) (i : Fin 10) (v : Word) (s : State) : Host.Outcome State Fault Refusal :=
  .next (writeWord r (R.clkGateClose i.val) v s.begin)

/-- GATE_CLOSE_DONE (14_clock_generation.md R406). -/
def execGateCloseDone (g : Fin 320) (s : State) : Host.Outcome State Fault Refusal :=
  .next (doGateCloseDone g.val s.begin)

/-- RATIO_WRITE (14_clock_generation.md R398). -/
def execRatioWrite (r : Req) (v : Word) (s : State) : Host.Outcome State Fault Refusal :=
  .next (writeWord r (R.clkDomCfg) v s.begin)

/-- RATIO_RAMP_STEP (14_clock_generation.md R398). -/
def execRatioRampStep (d : Fin 19) (s : State) : Host.Outcome State Fault Refusal :=
  .next (doRampStep d.val s.begin)

/-- CLOCK_ESCAPE (14_clock_generation.md R399). -/
def execClockEscape (d : Fin 19) (s : State) : Host.Outcome State Fault Refusal :=
  .next (doEscape d.val s.begin)

/-- REFERENCE_FAILURE (14_clock_generation.md R408). -/
def execReferenceFailure (s : State) : Host.Outcome State Fault Refusal :=
  .next (doRefFailure s.begin)

/-- XO32_WINDOW (14_clock_generation.md R408). -/
def execXo32Window (edges : BitVec 20) (s : State) : Host.Outcome State Fault Refusal :=
  .next (doXoWindow edges.toNat s.begin)

/-- XO32_LOST (14_clock_generation.md R408). -/
def execXo32Lost (s : State) : Host.Outcome State Fault Refusal :=
  .next (doXoLost s.begin)

/-- PLL_LOSS_OF_LOCK (14_clock_generation.md R409). -/
def execPllLossOfLock (i : Fin 14) (s : State) : Host.Outcome State Fault Refusal :=
  .next (doPllLoss i.val s.begin)

/-- PLL_LOCKED (14_clock_generation.md R409). -/
def execPllLocked (i : Fin 14) (s : State) : Host.Outcome State Fault Refusal :=
  .next (doPllLocked i.val s.begin)

/-- PLL_RESTART (14_clock_generation.md R409). -/
def execPllRestart (r : Req) (v : Word) (s : State) : Host.Outcome State Fault Refusal :=
  .next (writeWord r (R.clkPllFailed) v s.begin)

/-- HOLDOVER_EXPIRY (14_clock_generation.md R413). -/
def execHoldoverExpiry (s : State) : Host.Outcome State Fault Refusal :=
  .next (doHoldoverExpiry s.begin)

/-- REFERENCE_RECOVERED (14_clock_generation.md R415). -/
def execReferenceRecovered (s : State) : Host.Outcome State Fault Refusal :=
  .next (doRefRecovered s.begin)

/-- CLK_OUT_CTRL_WRITE (14_clock_generation.md R407). -/
def execClkOutCtrlWrite (r : Req) (v : Word) (s : State) : Host.Outcome State Fault Refusal :=
  .next (writeWord r (R.clkOutCtrl) v s.begin)

end Sys2Proof.Machine
end

