-- ==== Sys2Proof/Machine/ExecDisplay.lean ====
section
/-!
DEFINITION. The meanings of the commands of surfaces, the fit check, layers, outputs, check values and floor images,
one definition each. A command that is a register access is that access on the bus, with every check of Bus.lean.
-/

namespace Sys2Proof.Machine

/-- SRF_QUERY (04_surfaces_and_haul.md R128). -/
def execSrfQuery (r : Req) (v : Word) (s : State) : Host.Outcome State Fault Refusal :=
  .next (writeWord r (R.srfQueryId) v s.begin)

/-- FIT_CHECK_TAKE_UP (05_bench_plan_and_fit_check.md R157). -/
def execFitCheckTakeUp (o : Fin 8) (s : State) : Host.Outcome State Fault Refusal :=
  .next ((doTakeUp o.val s.begin).kick)

/-- FIT_CHECK_VERDICT (05_bench_plan_and_fit_check.md R172). -/
def execFitCheckVerdict (o : Fin 8) (s : State) : Host.Outcome State Fault Refusal :=
  .next (((doVerdict o.val s.begin).announce o.val).kick)

/-- BPL_SHARE_WRITE (05_bench_plan_and_fit_check.md R164). -/
def execBplShareWrite (r : Req) (o : Fin 8) (v : Word) (s : State) : Host.Outcome State Fault Refusal :=
  .next (writeWord r (R.bplShare o.val) v s.begin)

/-- CAPACITY_REDUCTION_APPLY (05_bench_plan_and_fit_check.md R176). -/
def execCapacityReductionApply (s : State) : Host.Outcome State Fault Refusal :=
  .next (doCapacityApply s.begin)

/-- BPL_RB_SNAP (05_bench_plan_and_fit_check.md R178). -/
def execBplRbSnap (r : Req) (o : Fin 8) (v : Word) (s : State) : Host.Outcome State Fault Refusal :=
  .next (writeWord r (R.bplRbCtrl o.val) v s.begin)

/-- LYR_ASSIGN_WRITE (06_layer_composition.md R179). -/
def execLyrAssignWrite (r : Req) (n : Fin 64) (v : Word) (s : State) : Host.Outcome State Fault Refusal :=
  .next (writeWord r (R.lyrAssign n.val) v s.begin)

/-- SLC_LYR_SEL_WRITE (06_layer_composition.md R184). -/
def execSlcLyrSelWrite (r : Req) (sl : Fin 256) (v : Word) (s : State) : Host.Outcome State Fault Refusal :=
  .next (writeWord r (R.slcLyrSel sl.val) v s.begin)

/-- SLC_LYR_DATA_WRITE (06_layer_composition.md R184). -/
def execSlcLyrDataWrite (r : Req) (sl : Fin 256) (v : Word) (s : State) : Host.Outcome State Fault Refusal :=
  .next (writeWord r (R.slcLyrData sl.val) v s.begin)

/-- LAYER_CLEAR (06_layer_composition.md R185). -/
def execLayerClear (r : Req) (sl : Fin 256) (s : State) : Host.Outcome State Fault Refusal :=
  .next (writeWord r (R.slcLyrCtrl sl.val) 2#32 s.begin)

/-- LAYER_COPY (06_layer_composition.md R185). -/
def execLayerCopy (r : Req) (sl : Fin 256) (s : State) : Host.Outcome State Fault Refusal :=
  .next (writeWord r (R.slcLyrCtrl sl.val) 1#32 s.begin)

/-- CAPSTONE_COMMIT (06_layer_composition.md R203). -/
def execCapstoneCommit (r : Req) (n : Fin 64) (s : State) : Host.Outcome State Fault Refusal :=
  .next (writeWord r (R.lyrCapCtrl n.val) 1#32 s.begin)

/-- FRAME_TICK (01_the_w880_at_a_glance.md R32). -/
def execFrameTick (o : Fin 8) (s : State) : Host.Outcome State Fault Refusal :=
  .next ((doFrameTick o.val s.begin).kick)

/-- LINE_START (07_scanout_and_display_links.md R206). -/
def execLineStart (o : Fin 8) (late : Option Nat) (ecc : Ecc) (s : State) : Host.Outcome State Fault Refusal :=
  .next (doLine o.val late ecc s.begin)

/-- OUTPUT_RUN (07_scanout_and_display_links.md R208). -/
def execOutputRun (r : Req) (o : Fin 8) (v : Word) (s : State) : Host.Outcome State Fault Refusal :=
  .next (writeWord r (R.outCtrl o.val) v s.begin)

/-- OUTPUT_START (07_scanout_and_display_links.md R210). -/
def execOutputStart (o : Fin 8) (s : State) : Host.Outcome State Fault Refusal :=
  .next ((doStart o.val s.begin).kick)

/-- OUTPUT_STOP (07_scanout_and_display_links.md R211). -/
def execOutputStop (r : Req) (o : Fin 8) (v : Word) (s : State) : Host.Outcome State Fault Refusal :=
  .next (writeWord r (R.outCtrl o.val) v s.begin)

/-- TX_ENABLE (07_scanout_and_display_links.md R227). -/
def execTxEnable (r : Req) (o : Fin 8) (v : Word) (s : State) : Host.Outcome State Fault Refusal :=
  .next (writeWord r (R.outCtrl o.val) v s.begin)

/-- TX_DISABLE (07_scanout_and_display_links.md R233). -/
def execTxDisable (r : Req) (o : Fin 8) (v : Word) (s : State) : Host.Outcome State Fault Refusal :=
  .next (writeWord r (R.outCtrl o.val) v s.begin)

/-- HPD_PLUG (07_scanout_and_display_links.md R230). -/
def execHpdPlug (o : Fin 8) (s : State) : Host.Outcome State Fault Refusal :=
  .next (doPlug o.val s.begin)

/-- HPD_UNPLUG (07_scanout_and_display_links.md R230). -/
def execHpdUnplug (o : Fin 8) (s : State) : Host.Outcome State Fault Refusal :=
  .next (doUnplug o.val s.begin)

/-- IRQ_HPD (07_scanout_and_display_links.md R230). -/
def execIrqHpd (o : Fin 8) (lost : Bool) (s : State) : Host.Outcome State Fault Refusal :=
  .next (doIrqHpd o.val lost s.begin)

/-- TRAINING_ATTEMPT_DONE (07_scanout_and_display_links.md R227). -/
def execTrainingAttemptDone (o : Fin 8) (ok : Bool) (drive : BitVec 16) (sink : SinkCaps) (s : State) :
    Host.Outcome State Fault Refusal :=
  .next (doTrainingDone o.val ok drive sink s.begin)

/-- FIXED_SEQUENCE_DONE (07_scanout_and_display_links.md R232). -/
def execFixedSequenceDone (o : Fin 8) (s : State) : Host.Outcome State Fault Refusal :=
  .next (doFixedDone o.val s.begin)

/-- AUX_TRANSACTION (07_scanout_and_display_links.md R231). -/
def execAuxTransaction (r : Req) (o : Fin 8) (v : Word) (s : State) : Host.Outcome State Fault Refusal :=
  .next (writeWord r (R.outAuxCmd o.val) v s.begin)

/-- AUX_TRANSACTION_DONE (07_scanout_and_display_links.md R231). -/
def execAuxTransactionDone (o : Fin 8) (result : AuxResult) (data : List Byte) (s : State) :
    Host.Outcome State Fault Refusal :=
  .next (doAuxDone o.val result data s.begin)

/-- PIXEL_CLOCK_RETUNE_DONE (14_clock_generation.md R411). -/
def execPixelClockRetuneDone (o : Fin 8) (s : State) : Host.Outcome State Fault Refusal :=
  .next (doRetuneDone o.val s.begin)

/-- CVU_CONFIG_WRITE (08_check_values_core_samples_and_floor_images.md R238). -/
def execCvuConfigWrite (r : Req) (n : Fin 32) (reg : Fin 5) (v : Word) (s : State) :
    Host.Outcome State Fault Refusal :=
  .next (writeWord r (pageBase 0x50 n.val + 0x040 + 4 * reg.val) v s.begin)

/-- SLC_CV_SEL_WRITE (08_check_values_core_samples_and_floor_images.md R241). -/
def execSlcCvSelWrite (r : Req) (sl : Fin 256) (v : Word) (s : State) : Host.Outcome State Fault Refusal :=
  .next (writeWord r (R.slcCvSel sl.val) v s.begin)

/-- FLOOR_SRC_LOAD (08_check_values_core_samples_and_floor_images.md R255). -/
def execFloorSrcLoad (r : Req) (o : Fin 8) (v : Word) (s : State) : Host.Outcome State Fault Refusal :=
  .next (writeWord r (R.outFloorSrc o.val) v s.begin)

/-- FLOOR_COPY_DONE (08_check_values_core_samples_and_floor_images.md R255). -/
def execFloorCopyDone (o : Fin 8) (ecc : Ecc) (s : State) : Host.Outcome State Fault Refusal :=
  .next (doFloorCopyDone o.val ecc s.begin)

end Sys2Proof.Machine
end

