-- ==== Sys2Proof/Machine/ExecHost.lean ====
section
/-!
DEFINITION. The meanings of the commands of the host interface, the slices and their commands,
one definition each. A command that is a register access is that access on the bus, with every check of Bus.lean.
-/

namespace Sys2Proof.Machine

/-- REGISTER_WRITE (00_scope.md R12). -/
def execRegisterWrite (r : Req) (t : Target) (data : List Byte) (poisoned : Bool) (s : State) :
    Host.Outcome State Fault Refusal :=
  .next (targetWrite r t data poisoned s.begin)

/-- BAR2_ACCESS (02_host_interface.md R54). -/
def execBar2Access (r : Req) (off : Nat) (acc : Bar2Op) (ecc : Ecc) (s : State) :
    Host.Outcome State Fault Refusal :=
  .next (doBar2 r off acc ecc s.begin)

/-- STATION_TIME_READ (01_the_w880_at_a_glance.md R29). -/
def execStationTimeRead (r : Req) (s : State) : Host.Outcome State Fault Refusal :=
  .next (busRead r R.stnTimeLo 4 s.begin)

/-- SOFT_RESET (02_host_interface.md R62). -/
def execSoftReset (r : Req) (page : Fin 8192) (s : State) : Host.Outcome State Fault Refusal :=
  .next (writeWord r (page.val * 0x1000 + 0x08) (w32 (2 + b2n (s.enabled (page.val * 0x1000)))) s.begin)

/-- SOFT_RESET_DONE (02_host_interface.md R505). -/
def execSoftResetDone (page : Fin 8192) (s : State) : Host.Outcome State Fault Refusal :=
  .next (doSoftResetDone (page.val * 0x1000) s.begin)

/-- PAGE_EVENT_FORCE (02_host_interface.md R64). -/
def execPageEventForce (r : Req) (page : Fin 8192) (v : Word) (s : State) : Host.Outcome State Fault Refusal :=
  .next (writeWord r (page.val * 0x1000 + 0x18) v s.begin)

/-- PAGE_EVENT_CLEAR (12_interrupt_delivery.md R368). -/
def execPageEventClear (r : Req) (page : Fin 8192) (v : Word) (s : State) : Host.Outcome State Fault Refusal :=
  .next (writeWord r (page.val * 0x1000 + 0x10) v s.begin)

/-- MSIX_PENDING_SEND (12_interrupt_delivery.md R369). -/
def execMsixPendingSend (vec : Fin 2048) (s : State) : Host.Outcome State Fault Refusal :=
  .next (doMsixPending vec.val s.begin)

/-- MODERATION_INTERVAL_END (12_interrupt_delivery.md R370). -/
def execModerationIntervalEnd (vec : Fin 2048) (s : State) : Host.Outcome State Fault Refusal :=
  .next (doModerationEnd vec.val s.begin)

/-- PAGE_OWNER_WRITE (03_slices.md R103). -/
def execPageOwnerWrite (r : Req) (page : Fin 4096) (v : Word) (s : State) : Host.Outcome State Fault Refusal :=
  .next (writeWord r (page.val * 0x1000 + 0x1C) v s.begin)

/-- DMA_READ_COMPLETION (02_host_interface.md R48). -/
def execDmaReadCompletion (tag : Nat) (res : DmaRes) (s : State) : Host.Outcome State Fault Refusal :=
  .next (doReadCompletion tag res s.begin)

/-- COMPLETION_TIMEOUT (02_host_interface.md R49). -/
def execCompletionTimeout (tag : Nat) (s : State) : Host.Outcome State Fault Refusal :=
  .next (doCompletionTimeout tag s.begin)

/-- SURF_IMPORT (04_surfaces_and_haul.md R135). -/
def execSurfImport (r : Req) (sl : Fin 256) (a : CmdArgs) (s : State) : Host.Outcome State Fault Refusal :=
  .next (writeCmd r sl.val 0x01 a s.begin)

/-- SURF_EXPORT (04_surfaces_and_haul.md R139). -/
def execSurfExport (r : Req) (sl : Fin 256) (a : CmdArgs) (s : State) : Host.Outcome State Fault Refusal :=
  .next (writeCmd r sl.val 0x02 a s.begin)

/-- SURF_RELEASE (04_surfaces_and_haul.md R143). -/
def execSurfRelease (r : Req) (sl : Fin 256) (a : CmdArgs) (s : State) : Host.Outcome State Fault Refusal :=
  .next (writeCmd r sl.val 0x03 a s.begin)

/-- COMMIT (05_bench_plan_and_fit_check.md R155). -/
def execCommit (r : Req) (sl : Fin 256) (a : CmdArgs) (s : State) : Host.Outcome State Fault Refusal :=
  .next (writeCmd r sl.val 0x04 a s.begin)

/-- CV_SEED (08_check_values_core_samples_and_floor_images.md R239). -/
def execCvSeed (r : Req) (sp : Fin 257) (a : CmdArgs) (s : State) : Host.Outcome State Fault Refusal :=
  .next (writeCmd r sp.val 0x05 a s.begin)

/-- NOP (02_host_interface.md R71). -/
def execNop (r : Req) (sp : Fin 257) (a : CmdArgs) (s : State) : Host.Outcome State Fault Refusal :=
  .next (writeCmd r sp.val 0x06 a s.begin)

/-- SLICE_CAPTURE (03_slices.md R117). -/
def execSliceCapture (r : Req) (a : CmdArgs) (s : State) : Host.Outcome State Fault Refusal :=
  .next (writeCmd r 256 0x10 a s.begin)

/-- SLICE_RESTORE (03_slices.md R121). -/
def execSliceRestore (r : Req) (a : CmdArgs) (s : State) : Host.Outcome State Fault Refusal :=
  .next (writeCmd r 256 0x11 a s.begin)

/-- FLOOR_LOAD (08_check_values_core_samples_and_floor_images.md R254). -/
def execFloorLoad (r : Req) (a : CmdArgs) (s : State) : Host.Outcome State Fault Refusal :=
  .next (writeCmd r 256 0x12 a s.begin)

/-- RESERVED_OPCODE (02_host_interface.md R71). -/
def execReservedOpcode (r : Req) (sp : Fin 257) (op : Fin 256) (a : CmdArgs) (s : State) :
    Host.Outcome State Fault Refusal :=
  .next (writeCmd r sp.val op.val a s.begin)

/-- SQ_DOORBELL (02_host_interface.md R72). -/
def execSqDoorbell (r : Req) (sp : Fin 257) (v : Word) (s : State) : Host.Outcome State Fault Refusal :=
  .next (writeWord r (R.sqTail sp.val) v s.begin)

/-- SUBMISSION_ENTRY (02_host_interface.md R75). -/
def execSubmissionEntry (sp : Fin 257) (s : State) : Host.Outcome State Fault Refusal :=
  .next (doSubmissionEntry sp.val s.begin)

/-- HANDLE_QUERY (02_host_interface.md R78). -/
def execHandleQuery (r : Req) (sp : Fin 257) (v : Word) (s : State) : Host.Outcome State Fault Refusal :=
  .next (writeWord r (R.handleQuery sp.val) v s.begin)

/-- CQ_ENABLE (02_host_interface.md R80). -/
def execCqEnable (r : Req) (sp : Fin 257) (v : Word) (s : State) : Host.Outcome State Fault Refusal :=
  .next (writeWord r (R.cqCtrl sp.val) v s.begin)

/-- CQ_DISABLE (02_host_interface.md R85). -/
def execCqDisable (r : Req) (sp : Fin 257) (v : Word) (s : State) : Host.Outcome State Fault Refusal :=
  .next (writeWord r (R.cqCtrl sp.val) v s.begin)

/-- CQ_HEAD_WRITE (02_host_interface.md R85). -/
def execCqHeadWrite (r : Req) (sp : Fin 257) (v : Word) (s : State) : Host.Outcome State Fault Refusal :=
  .next (writeWord r (R.cqHead sp.val) v s.begin)

/-- DATA_LINK_DOWN (02_host_interface.md R90). -/
def execDataLinkDown (s : State) : Host.Outcome State Fault Refusal :=
  .next (doLinkDown s.begin)

/-- DATA_LINK_UP (02_host_interface.md R90). -/
def execDataLinkUp (s : State) : Host.Outcome State Fault Refusal :=
  .next ((doLinkUp s.begin).kick)

/-- REATTACH (02_host_interface.md R91). -/
def execReattach (r : Req) (v : Word) (s : State) : Host.Outcome State Fault Refusal :=
  .next (writeWord r (R.hifLinkCtrl) v s.begin)

/-- BIND (03_slices.md R99). -/
def execBind (r : Req) (sl : Fin 256) (s : State) : Host.Outcome State Fault Refusal :=
  .next (writeWord r (R.slcAdmCtrl sl.val) (w32 1) s.begin)

/-- RESET (03_slices.md R106). -/
def execReset (r : Req) (sl : Fin 256) (discard : Bool) (s : State) : Host.Outcome State Fault Refusal :=
  .next (writeWord r (R.slcAdmCtrl sl.val) (w32 (2 + b2n discard * 256)) s.begin)

/-- UNBIND (03_slices.md R100). -/
def execUnbind (r : Req) (sl : Fin 256) (discard : Bool) (s : State) : Host.Outcome State Fault Refusal :=
  .next (writeWord r (R.slcAdmCtrl sl.val) (w32 (3 + b2n discard * 256)) s.begin)

/-- FREEZE (03_slices.md R111). -/
def execFreeze (r : Req) (sl : Fin 256) (s : State) : Host.Outcome State Fault Refusal :=
  .next (writeWord r (R.slcAdmCtrl sl.val) (w32 4) s.begin)

/-- THAW (03_slices.md R112). -/
def execThaw (r : Req) (sl : Fin 256) (s : State) : Host.Outcome State Fault Refusal :=
  .next (writeWord r (R.slcAdmCtrl sl.val) (w32 5) s.begin)

/-- RESERVED_SLICE_COMMAND (03_slices.md R97). -/
def execReservedSliceCommand (r : Req) (sl : Fin 256) (v : Word) (s : State) : Host.Outcome State Fault Refusal :=
  .next (writeWord r (R.slcAdmCtrl sl.val) v s.begin)

/-- RESET_END (03_slices.md R109). -/
def execResetEnd (sl : Fin 256) (s : State) : Host.Outcome State Fault Refusal :=
  .next ((doResetEnd sl.val s.begin).kick)

/-- FREEZE_COMPLETE (03_slices.md R111). -/
def execFreezeComplete (sl : Fin 256) (s : State) : Host.Outcome State Fault Refusal :=
  .next ((doFreezeComplete sl.val s.begin).kick)

/-- SLC_ADM_PERM_WRITE (03_slices.md R105). -/
def execSlcAdmPermWrite (r : Req) (sl : Fin 256) (v : Word) (s : State) : Host.Outcome State Fault Refusal :=
  .next (writeWord r (R.slcAdmPerm sl.val) v s.begin)

/-- SLC_ADM_MIG_WRITE (03_slices.md R110). -/
def execSlcAdmMigWrite (r : Req) (sl : Fin 256) (v : Word) (s : State) : Host.Outcome State Fault Refusal :=
  .next (writeWord r (R.slcAdmMig sl.val) v s.begin)

/-- GRANT_QUERY (03_slices.md R102). -/
def execGrantQuery (r : Req) (sl : Fin 256) (v : Word) (s : State) : Host.Outcome State Fault Refusal :=
  .next (writeWord r (R.slcGrantQuery sl.val) v s.begin)

/-- SLC_ADM_MAP (03_slices.md R102). -/
def execSlcAdmMap (r : Req) (sl : Fin 256) (v : Word) (s : State) : Host.Outcome State Fault Refusal :=
  .next (writeWord r (R.slcAdmMap sl.val) v s.begin)

/-- DLOG_ENABLE (03_slices.md R113). -/
def execDlogEnable (r : Req) (sl : Fin 256) (v : Word) (s : State) : Host.Outcome State Fault Refusal :=
  .next (writeWord r (R.slcAdmDlogCtrl sl.val) v s.begin)

/-- DLOG_HEAD_WRITE (03_slices.md R116). -/
def execDlogHeadWrite (r : Req) (sl : Fin 256) (v : Word) (s : State) : Host.Outcome State Fault Refusal :=
  .next (writeWord r (R.slcAdmDlogHead sl.val) v s.begin)

/-- HAUL_SEGMENT_DONE (04_surfaces_and_haul.md R145). -/
def execHaulSegmentDone (e : Fin 4) (ecc : Ecc) (s : State) : Host.Outcome State Fault Refusal :=
  .next (doSegmentDone e.val ecc s.begin)

end Sys2Proof.Machine
end

