-- ==== Sys2Proof/Machine/ExecPanel.lean ====
section
/-!
DEFINITION. The meanings of the commands of touch, haptics and sound,
one definition each. A command that is a register access is that access on the bus, with every check of Bus.lean.
-/

namespace Sys2Proof.Machine

/-- TCP_PIN_CFG_WRITE (09_capacitive_touch.md R258). -/
def execTcpPinCfgWrite (r : Req) (v : Word) (s : State) : Host.Outcome State Fault Refusal :=
  .next (writeWord r (R.tcpPinCfg) v s.begin)

/-- PANEL_ENABLE (09_capacitive_touch.md R259). -/
def execPanelEnable (r : Req) (n : Fin 8) (s : State) : Host.Outcome State Fault Refusal :=
  .next (writeWord r (tchPage n.val + 0x08) 1#32 s.begin)

/-- PANEL_DISABLE (09_capacitive_touch.md R266). -/
def execPanelDisable (r : Req) (n : Fin 8) (s : State) : Host.Outcome State Fault Refusal :=
  .next (writeWord r (tchPage n.val + 0x08) 0#32 s.begin)

/-- STATION_TICK (01_the_w880_at_a_glance.md R27). -/
def execStationTick (frames : List TouchFrame) (s : State) : Host.Outcome State Fault Refusal :=
  .next (doStationTick frames s.begin)

/-- STATION_TICK_RATE_CHANGE (01_the_w880_at_a_glance.md R33). -/
def execStationTickRateChange (s : State) : Host.Outcome State Fault Refusal :=
  .next (doRateChange s.begin)

/-- CAPTURE_REF (09_capacitive_touch.md R273). -/
def execCaptureRef (r : Req) (n : Fin 8) (s : State) : Host.Outcome State Fault Refusal :=
  .next (writeWord r (R.tchCtrl n.val) ((s.rd (R.tchCtrl n.val) &&& 0xF33#32) ||| 0x20000000#32) s.begin)

/-- REBASE (09_capacitive_touch.md R276). -/
def execRebase (r : Req) (n : Fin 8) (s : State) : Host.Outcome State Fault Refusal :=
  .next (writeWord r (R.tchCtrl n.val) ((s.rd (R.tchCtrl n.val) &&& 0xF33#32) ||| 0x10000000#32) s.begin)

/-- TCH_RB_SNAP (09_capacitive_touch.md R267). -/
def execTchRbSnap (r : Req) (n : Fin 8) (v : Word) (s : State) : Host.Outcome State Fault Refusal :=
  .next (writeWord r (R.tchRbCtrl n.val) v s.begin)

/-- TCH_DIAG_SEL_WRITE (06_layer_composition.md R184). -/
def execTchDiagSelWrite (r : Req) (n : Fin 8) (v : Word) (s : State) : Host.Outcome State Fault Refusal :=
  .next (writeWord r (R.tchDiagSel n.val) v s.begin)

/-- LOOP_TICK (10_haptic_and_acoustic_feedback.md R302). -/
def execLoopTick (polls : List AccPoll) (rail : BitVec 12) (s : State) : Host.Outcome State Fault Refusal :=
  .next (doLoopTick polls rail.toNat s.begin)

/-- HAPTIC_ENABLE (10_haptic_and_acoustic_feedback.md R296). -/
def execHapticEnable (r : Req) (n : Fin 8) (s : State) : Host.Outcome State Fault Refusal :=
  .next (writeWord r (hapPage n.val + 0x08) 1#32 s.begin)

/-- HAPTIC_DISABLE (10_haptic_and_acoustic_feedback.md R296). -/
def execHapticDisable (r : Req) (n : Fin 8) (s : State) : Host.Outcome State Fault Refusal :=
  .next (writeWord r (hapPage n.val + 0x08) 0#32 s.begin)

/-- SLICE_TRIGGER_START (10_haptic_and_acoustic_feedback.md R305). -/
def execSliceTriggerStart (r : Req) (sl : Fin 256) (v : Word) (s : State) : Host.Outcome State Fault Refusal :=
  .next (writeWord r (R.slcHapTrig sl.val) v s.begin)

/-- SLICE_TRIGGER_STOP (10_haptic_and_acoustic_feedback.md R305). -/
def execSliceTriggerStop (r : Req) (sl : Fin 256) (v : Word) (s : State) : Host.Outcome State Fault Refusal :=
  .next (writeWord r (R.slcHapTrig sl.val) v s.begin)

/-- HAP_CMD_START (10_haptic_and_acoustic_feedback.md R305). -/
def execHapCmdStart (r : Req) (n : Fin 8) (v : Word) (s : State) : Host.Outcome State Fault Refusal :=
  .next (writeWord r (R.hapCmd n.val) v s.begin)

/-- HAP_CMD_STOP (10_haptic_and_acoustic_feedback.md R305). -/
def execHapCmdStop (r : Req) (n : Fin 8) (v : Word) (s : State) : Host.Outcome State Fault Refusal :=
  .next (writeWord r (R.hapCmd n.val) v s.begin)

/-- EFFECT_END (10_haptic_and_acoustic_feedback.md R305). -/
def execEffectEnd (n : Fin 8) (s : State) : Host.Outcome State Fault Refusal :=
  .next (doEffectEnd n.val s.begin)

/-- BRAKING_END (10_haptic_and_acoustic_feedback.md R308). -/
def execBrakingEnd (n : Fin 8) (s : State) : Host.Outcome State Fault Refusal :=
  .next (doBrakingEnd n.val s.begin)

/-- PENDING_START_EXPIRY (10_haptic_and_acoustic_feedback.md R307). -/
def execPendingStartExpiry (n : Fin 8) (s : State) : Host.Outcome State Fault Refusal :=
  .next (doPendingExpiry n.val s.begin)

/-- SENSOR_FAULT (10_haptic_and_acoustic_feedback.md R301). -/
def execSensorFault (n : Fin 8) (s : State) : Host.Outcome State Fault Refusal :=
  .next (doSensorFault n.val s.begin)

/-- RAIL_FAULT (10_haptic_and_acoustic_feedback.md R311). -/
def execRailFault (s : State) : Host.Outcome State Fault Refusal :=
  .next (doRailFault s.begin)

/-- RAIL_RECOVERY (10_haptic_and_acoustic_feedback.md R311). -/
def execRailRecovery (s : State) : Host.Outcome State Fault Refusal :=
  .next (doRailRecovery s.begin)

/-- ACC_RAW_TRANSACTION (10_haptic_and_acoustic_feedback.md R299). -/
def execAccRawTransaction (r : Req) (n : Fin 8) (v : Word) (reply : BitVec 24) (s : State) :
    Host.Outcome State Fault Refusal :=
  .next (writeAccRaw r n.val v reply s.begin)

/-- STORE_PUBLISH (10_haptic_and_acoustic_feedback.md R304). -/
def execStorePublish (r : Req) (s : State) : Host.Outcome State Fault Refusal :=
  .next (writeWord r (R.hapStoreCtrl 0) 1#32 s.begin)

/-- STORE_DATA_ACCESS (10_haptic_and_acoustic_feedback.md R304). -/
def execStoreDataAccess (r : Req) (w : Option Word) (s : State) : Host.Outcome State Fault Refusal :=
  .next <|
    match w with
    | some v => writeWord r (R.hapStoreData 0) v s.begin
    | none => busRead r (R.hapStoreData 0) 4 s.begin

/-- HAP_BUDGET_WRITE (10_haptic_and_acoustic_feedback.md R310). -/
def execHapBudgetWrite (r : Req) (n : Fin 8) (v : Word) (s : State) : Host.Outcome State Fault Refusal :=
  .next (writeWord r (R.hapBudget n.val) v s.begin)

/-- HAP_RB_SNAP (10_haptic_and_acoustic_feedback.md R312). -/
def execHapRbSnap (r : Req) (n : Fin 8) (v : Word) (s : State) : Host.Outcome State Fault Refusal :=
  .next (writeWord r (R.hapRbCtrl n.val) v s.begin)

/-- STREAM_SAMPLE_TICK (10_haptic_and_acoustic_feedback.md R306). -/
def execStreamSampleTick (s : State) : Host.Outcome State Fault Refusal :=
  .next (doStreamSampleTick s.begin)

/-- STREAM_ENABLE (10_haptic_and_acoustic_feedback.md R314). -/
def execStreamEnable (r : Req) (sl : Fin 256) (ch : Option (Fin 8)) (v : Word) (s : State) :
    Host.Outcome State Fault Refusal :=
  .next (writeStream r sl.val (ch.map (·.val)) 0 v s.begin)

/-- STREAM_WRITE_POSITION (10_haptic_and_acoustic_feedback.md R314). -/
def execStreamWritePosition (r : Req) (sl : Fin 256) (ch : Option (Fin 8)) (v : Word) (s : State) :
    Host.Outcome State Fault Refusal :=
  .next (writeStream r sl.val (ch.map (·.val)) 3 v s.begin)

/-- SAMPLE_TICK (10_haptic_and_acoustic_feedback.md R318). -/
def execSampleTick (s : State) : Host.Outcome State Fault Refusal :=
  .next (doSampleTick s.begin)

/-- TDM_FRAME_SYNC (10_haptic_and_acoustic_feedback.md R319). -/
def execTdmFrameSync (p : Fin 4) (s : State) : Host.Outcome State Fault Refusal :=
  .next (doTdmSync p.val s.begin)

/-- TDM_CLOCK_LOST (10_haptic_and_acoustic_feedback.md R319). -/
def execTdmClockLost (p : Fin 4) (s : State) : Host.Outcome State Fault Refusal :=
  .next (doTdmLost p.val s.begin)

end Sys2Proof.Machine
end

