-- ==== Sys2Proof/Machine/ExecStation.lean ====
section
/-!
DEFINITION. The meanings of the commands of pairs, power, resets and start-up, and register reads,
one definition each. A command that is a register access is that access on the bus, with every check of Bus.lean.
-/

namespace Sys2Proof.Machine

/-- ELECTION (15_pairs_and_live_insertion.md R421). -/
def execElection (s : State) : Host.Outcome State Fault Refusal :=
  .next (doElection s.begin)

/-- ELECTION_DONE (15_pairs_and_live_insertion.md R421). -/
def execElectionDone (partner : BitVec 64) (s : State) : Host.Outcome State Fault Refusal :=
  .next (doElectionDone partner.toNat s.begin)

/-- HAUL_LINK_TRAINED (15_pairs_and_live_insertion.md R424). -/
def execHaulLinkTrained (s : State) : Host.Outcome State Fault Refusal :=
  .next (doLinkTrained s.begin)

/-- HAUL_LINK_DOWN (15_pairs_and_live_insertion.md R429). -/
def execHaulLinkDown (s : State) : Host.Outcome State Fault Refusal :=
  .next (State.haulDown s.begin)

/-- HAUL_LINK_RETRY (15_pairs_and_live_insertion.md R424). -/
def execHaulLinkRetry (s : State) : Host.Outcome State Fault Refusal :=
  .next (doLinkRetry s.begin)

/-- BAD_FRAME (15_pairs_and_live_insertion.md R426). -/
def execBadFrame (s : State) : Host.Outcome State Fault Refusal :=
  .next (doBadFrame s.begin)

/-- FRAME_REPLAY (15_pairs_and_live_insertion.md R426). -/
def execFrameReplay (bulk : Bool) (_nak : Bool) (s : State) : Host.Outcome State Fault Refusal :=
  .next (doReplay bulk s.begin)

/-- IDLE (15_pairs_and_live_insertion.md R427). -/
def execIdle (rx : Option FrameHdr) (s : State) : Host.Outcome State Fault Refusal :=
  .next (doIdle rx s.begin)

/-- HELLO (15_pairs_and_live_insertion.md R451). -/
def execHello (h : FrameHdr) (key : BitVec 64) (digest : Word) (family : Word) (capsMem : Word) (st : Fin 8) (s : State) :
    Host.Outcome State Fault Refusal :=
  .next (bulkFrame h (helloEffect key.toNat digest family capsMem st.val) s.begin)

/-- TIME (15_pairs_and_live_insertion.md R436). -/
def execTime (h : FrameHdr) (t : BitVec 64) (starts : List (Nat×Nat)) (s : State) :
    Host.Outcome State Fault Refusal :=
  .next (State.receive s.begin h false (timeEffect t.toNat starts))

/-- LINE_CV (15_pairs_and_live_insertion.md R440). -/
def execLineCv (h : FrameHdr) (o : Fin 8) (flags : BitVec 8) (line : BitVec 16) (frame : Word) (cv : Word) (s : State) :
    Host.Outcome State Fault Refusal :=
  .next <|
    State.receive s.begin h false (lineCvEffect { o := o.val, line := line.toNat, frame := frame.toNat, flags := flags.toNat, cv := cv.toNat })

/-- LATCH (15_pairs_and_live_insertion.md R434). -/
def execLatch (h : FrameHdr) (o : Fin 8) (frame : Word) (fence : BitVec 24) (crc : Word) (s : State) :
    Host.Outcome State Fault Refusal :=
  .next (State.receive s.begin h false (latchEffect o.val frame.toNat fence.toNat crc.toNat))

/-- LATCH_ACK (15_pairs_and_live_insertion.md R434). -/
def execLatchAck (h : FrameHdr) (o : Fin 8) (frame : Word) (late : Bool) (s : State) :
    Host.Outcome State Fault Refusal :=
  .next (State.receive s.begin h false (latchAckEffect o.val frame.toNat late))

/-- WRITE_REG (15_pairs_and_live_insertion.md R430). -/
def execWriteReg (h : FrameHdr) (addr : Nat) (v : Word) (how : RegMsg) (s : State) :
    Host.Outcome State Fault Refusal :=
  .next (bulkFrame h (regEffect addr v how) s.begin)

/-- WRITE_DRAM (15_pairs_and_live_insertion.md R432). -/
def execWriteDram (h : FrameHdr) (off : Nat) (data : List Byte) (world1 : Bool) (poisoned : Bool) (s : State) :
    Host.Outcome State Fault Refusal :=
  .next (bulkFrame h (writeDramEffect off data world1 poisoned) s.begin)

/-- DECISION (15_pairs_and_live_insertion.md R430). -/
def execDecision (h : FrameHdr) (d : PairDecision) (s : State) : Host.Outcome State Fault Refusal :=
  .next (bulkFrame h (decisionEffect d) s.begin)

/-- TOUCH_STATE (15_pairs_and_live_insertion.md R430). -/
def execTouchState (h : FrameHdr) (n : Fin 8) (scan : BitVec 16) (st : TouchMirror) (s : State) :
    Host.Outcome State Fault Refusal :=
  .next (State.receive s.begin h false (touchEffect n.val scan.toNat st))

/-- HAPTIC_STATE (15_pairs_and_live_insertion.md R430). -/
def execHapticState (h : FrameHdr) (chs : List HapMirror) (s : State) : Host.Outcome State Fault Refusal :=
  .next (State.receive s.begin h false (hapticEffect chs))

/-- STREAM_DATA (15_pairs_and_live_insertion.md R430). -/
def execStreamData (h : FrameHdr) (sl : Fin 256) (ch : Option (Fin 8)) (pos : Word) (samples : List Int) (s : State) :
    Host.Outcome State Fault Refusal :=
  .next (bulkFrame h (streamEffect sl.val (ch.map (·.val)) pos.toNat samples) s.begin)

/-- FEED (15_pairs_and_live_insertion.md R428). -/
def execFeed (h : FrameHdr) (o : Fin 8) (t : BitVec 64) (toPrimary : Bool) (s : State) :
    Host.Outcome State Fault Refusal :=
  .next (State.receive s.begin h false (feedEffect o.val t.toNat toPrimary))

/-- HANDOVER (15_pairs_and_live_insertion.md R449). -/
def execHandover (h : FrameHdr) (t : BitVec 64) (s : State) : Host.Outcome State Fault Refusal :=
  .next (State.receive s.begin h false (handoverEffect t.toNat))

/-- YIELD (15_pairs_and_live_insertion.md R445). -/
def execYield (h : FrameHdr) (cause : Fin 16) (s : State) : Host.Outcome State Fault Refusal :=
  .next (State.receive s.begin h false (yieldEffect cause.val))

/-- CATCHUP_DONE (15_pairs_and_live_insertion.md R451). -/
def execCatchupDone (h : FrameHdr) (_last : BitVec 24) (s : State) : Host.Outcome State Fault Refusal :=
  .next (bulkFrame h (catchupDoneEffect) s.begin)

/-- HELLO_RETRY (15_pairs_and_live_insertion.md R451). -/
def execHelloRetry (s : State) : Host.Outcome State Fault Refusal :=
  .next (doHelloRetry s.begin)

/-- CATCHUP_RETRY (15_pairs_and_live_insertion.md R451). -/
def execCatchupRetry (s : State) : Host.Outcome State Fault Refusal :=
  .next (doCatchupRetry s.begin)

/-- PAIR_SYNC_EDGE (15_pairs_and_live_insertion.md R419). -/
def execPairSyncEdge (s : State) : Host.Outcome State Fault Refusal :=
  .next (doSyncEdge s.begin)

/-- PAIR_GUARD_TRIP (15_pairs_and_live_insertion.md R420). -/
def execPairGuardTrip (s : State) : Host.Outcome State Fault Refusal :=
  .next (doGuardTrip s.begin)

/-- PARTNER_LOSS (15_pairs_and_live_insertion.md R444). -/
def execPartnerLoss (s : State) : Host.Outcome State Fault Refusal :=
  .next (doPartnerLoss s.begin)

/-- PLANNED_HANDOVER (15_pairs_and_live_insertion.md R449). -/
def execPlannedHandover (cause : HandoverCause) (s : State) : Host.Outcome State Fault Refusal :=
  .next <|
    match cause with
    | .request r => writeWord r R.pairCtrl 0x80000000#32 s.begin
    | .yieldFault => State.startHandover s.begin true false
    | .modEnFall => State.startHandover s.begin false true

/-- HANDOVER_ROLE_RELEASE (15_pairs_and_live_insertion.md R449). -/
def execHandoverRoleRelease (s : State) : Host.Outcome State Fault Refusal :=
  .next (doRoleRelease s.begin)

/-- PAIR_TAKEOVER_RESET (15_pairs_and_live_insertion.md R450). -/
def execPairTakeoverReset (s : State) : Host.Outcome State Fault Refusal :=
  .next (doTakeoverReset s.begin)

/-- FEED_HOME (15_pairs_and_live_insertion.md R441). -/
def execFeedHome (r : Req) (s : State) : Host.Outcome State Fault Refusal :=
  .next (writeWord r R.pairCtrl 0x40000000#32 s.begin)

/-- REQUEST_RUN (16_power_resets_and_start_up.md R454). -/
def execRequestRun (r : Req) (s : State) : Host.Outcome State Fault Refusal :=
  .next (writeWord r R.pwrState (w32 0) s.begin)

/-- REQUEST_DIM (16_power_resets_and_start_up.md R457). -/
def execRequestDim (r : Req) (s : State) : Host.Outcome State Fault Refusal :=
  .next (writeWord r R.pwrState (w32 1) s.begin)

/-- REQUEST_RETAIN (16_power_resets_and_start_up.md R458). -/
def execRequestRetain (r : Req) (s : State) : Host.Outcome State Fault Refusal :=
  .next (writeWord r R.pwrState (w32 2) s.begin)

/-- REQUEST_STANDBY (16_power_resets_and_start_up.md R460). -/
def execRequestStandby (r : Req) (s : State) : Host.Outcome State Fault Refusal :=
  .next (writeWord r R.pwrState (w32 3) s.begin)

/-- REQUEST_OFF (16_power_resets_and_start_up.md R460). -/
def execRequestOff (r : Req) (s : State) : Host.Outcome State Fault Refusal :=
  .next (writeWord r R.pwrState (w32 4) s.begin)

/-- RETAIN_EXIT (16_power_resets_and_start_up.md R459). -/
def execRetainExit (edges : Nat) (s : State) : Host.Outcome State Fault Refusal :=
  .next (doRetainExit edges s.begin)

/-- WAKE_TIME (16_power_resets_and_start_up.md R455). -/
def execWakeTime (edges : Nat) (s : State) : Host.Outcome State Fault Refusal :=
  .next (doWakeTime edges s.begin)

/-- MOD_EN_RISE (16_power_resets_and_start_up.md R454). -/
def execModEnRise (s : State) : Host.Outcome State Fault Refusal :=
  .next (doModEnRise s.begin)

/-- MOD_EN_FALL (17_connectors_and_electrical_characteristics.md R490). -/
def execModEnFall (s : State) : Host.Outcome State Fault Refusal :=
  .next (doModEnFall s.begin)

/-- MOD_EN_LOW_TIMEOUT (16_power_resets_and_start_up.md R454). -/
def execModEnLowTimeout (s : State) : Host.Outcome State Fault Refusal :=
  .next (doModEnTimeout s.begin)

/-- VSTBY_RISE (16_power_resets_and_start_up.md R454). -/
def execVstbyRise (s : State) : Host.Outcome State Fault Refusal :=
  .next (doVstbyRise s.begin)

/-- VSTBY_FALL (16_power_resets_and_start_up.md R454). -/
def execVstbyFall (s : State) : Host.Outcome State Fault Refusal :=
  .next (doVstbyFall s.begin)

/-- PERST_ASSERT (16_power_resets_and_start_up.md R463). -/
def execPerstAssert (s : State) : Host.Outcome State Fault Refusal :=
  .next (doPerstAssert s.begin)

/-- PERST_DEASSERT (16_power_resets_and_start_up.md R463). -/
def execPerstDeassert (s : State) : Host.Outcome State Fault Refusal :=
  .next (doPerstDeassert s.begin)

/-- HOST_READY_LATE (16_power_resets_and_start_up.md R463). -/
def execHostReadyLate (s : State) : Host.Outcome State Fault Refusal :=
  .next (doHostReadyLate s.begin)

/-- STATION (16_power_resets_and_start_up.md R461). -/
def execStation (r : Req) (v : Word) (s : State) : Host.Outcome State Fault Refusal :=
  .next (writeWord r (R.pwrReset) v s.begin)

/-- STATION_WATCHDOG_EXPIRY (16_power_resets_and_start_up.md R461). -/
def execStationWatchdogExpiry (s : State) : Host.Outcome State Fault Refusal :=
  .next (doDogExpiry s.begin)

/-- STATION_WATCHDOG_KICK (16_power_resets_and_start_up.md R462). -/
def execStationWatchdogKick (r : Req) (v : Word) (s : State) : Host.Outcome State Fault Refusal :=
  .next (writeWord r (R.pwrWdogKick) v s.begin)

/-- FLR (16_power_resets_and_start_up.md R465). -/
def execFlr (s : State) : Host.Outcome State Fault Refusal :=
  .next (flrNow s.begin)

/-- BROWN_OUT_WARNING (16_power_resets_and_start_up.md R480). -/
def execBrownOutWarning (mv : BitVec 16) (pinLow : Bool) (s : State) : Host.Outcome State Fault Refusal :=
  .next (doWarning mv.toNat pinLow s.begin)

/-- WARNING_CLEAR (16_power_resets_and_start_up.md R480). -/
def execWarningClear (mv : BitVec 16) (s : State) : Host.Outcome State Fault Refusal :=
  .next (doWarningClear mv.toNat s.begin)

/-- BROWN_OUT (16_power_resets_and_start_up.md R479). -/
def execBrownOut (mv : BitVec 16) (s : State) : Host.Outcome State Fault Refusal :=
  .next (doBrownOut mv.toNat s.begin)

/-- BROWN_OUT_RECOVERY (16_power_resets_and_start_up.md R479). -/
def execBrownOutRecovery (mv : BitVec 16) (s : State) : Host.Outcome State Fault Refusal :=
  .next (doBrownOutRecovery mv.toNat s.begin)

/-- BANK_FAULT (16_power_resets_and_start_up.md R479). -/
def execBankFault (bankB : Bool) (recovered : Bool) (s : State) : Host.Outcome State Fault Refusal :=
  .next (doBankFault bankB recovered s.begin)

/-- BOOT_CONFIRM (16_power_resets_and_start_up.md R469). -/
def execBootConfirm (r : Req) (s : State) : Host.Outcome State Fault Refusal :=
  .next (writeWord r R.bootCtrl 0x40000000#32 s.begin)

/-- BOOT_RELEASE (16_power_resets_and_start_up.md R470). -/
def execBootRelease (r : Req) (v : Word) (s : State) : Host.Outcome State Fault Refusal :=
  .next (writeWord r R.bootCtrl (v &&& 0xE#32) s.begin)

/-- HOST_READY (16_power_resets_and_start_up.md R463). -/
def execHostReady (r : Req) (s : State) : Host.Outcome State Fault Refusal :=
  .next (writeWord r R.bootCtrl 0x80000000#32 s.begin)

/-- CORE_HALT (16_power_resets_and_start_up.md R478). -/
def execCoreHalt (r : Req) (v : Word) (s : State) : Host.Outcome State Fault Refusal :=
  .next (writeWord r R.bootCoreCtrl (v &&& 0xF0#32) s.begin)

/-- CORE_RESUME (16_power_resets_and_start_up.md R478). -/
def execCoreResume (r : Req) (v : Word) (s : State) : Host.Outcome State Fault Refusal :=
  .next (writeWord r R.bootCoreCtrl (v &&& 0xF00#32) s.begin)

/-- CORE_RESET (16_power_resets_and_start_up.md R478). -/
def execCoreReset (r : Req) (v : Word) (s : State) : Host.Outcome State Fault Refusal :=
  .next (writeWord r R.bootCoreCtrl (v &&& 0xF#32) s.begin)

/-- FLASH_READ (11_control_cores_and_the_protected_world.md R341). -/
def execFlashRead (r : Req) (s : State) : Host.Outcome State Fault Refusal :=
  .next (writeWord r R.bootFlashCmd (w32 (0x80000000 + 0)) s.begin)

/-- FLASH_PROGRAM (11_control_cores_and_the_protected_world.md R341). -/
def execFlashProgram (r : Req) (s : State) : Host.Outcome State Fault Refusal :=
  .next (writeWord r R.bootFlashCmd (w32 (0x80000000 + 1)) s.begin)

/-- FLASH_ERASE (11_control_cores_and_the_protected_world.md R341). -/
def execFlashErase (r : Req) (s : State) : Host.Outcome State Fault Refusal :=
  .next (writeWord r R.bootFlashCmd (w32 (0x80000000 + 2)) s.begin)

/-- FLASH_OPERATION_DONE (11_control_cores_and_the_protected_world.md R341). -/
def execFlashOperationDone (verified : Bool) (s : State) : Host.Outcome State Fault Refusal :=
  .next (doFlashDone verified s.begin)

/-- JUNCTION_MEASUREMENT (17_connectors_and_electrical_characteristics.md R501). -/
def execJunctionMeasurement (t : Int) (s : State) : Host.Outcome State Fault Refusal :=
  .next (doJunction t s.begin)

/-- HV_INTERLOCK_OPEN (17_connectors_and_electrical_characteristics.md R491). -/
def execHvInterlockOpen (s : State) : Host.Outcome State Fault Refusal :=
  .next (doInterlockOpen s.begin)

/-- HV_INTERLOCK_CLOSED (17_connectors_and_electrical_characteristics.md R491). -/
def execHvInterlockClosed (s : State) : Host.Outcome State Fault Refusal :=
  .next (doInterlockClosed s.begin)

/-- REGISTER_READ (00_scope.md R12). -/
def execRegisterRead (r : Req) (t : Target) (len : Nat) (s : State) : Host.Outcome State Fault Refusal :=
  .next (targetRead r t len s.begin)

/-- XO32_PRESENT (14_clock_generation.md R408). -/
def execXo32Present (s : State) : Host.Outcome State Fault Refusal :=
  .next (doXoPresent s.begin)

/-- ROLE_HELD_BY_PRIMARY (15_pairs_and_live_insertion.md R421). -/
def execRoleHeldByPrimary (s : State) : Host.Outcome State Fault Refusal :=
  .next (doRoleHeld s.begin)

/-- RETAIN_WFI_TIMEOUT (16_power_resets_and_start_up.md R456). -/
def execRetainWfiTimeout (s : State) : Host.Outcome State Fault Refusal :=
  .next (doWfiTimeout s.begin)

/-- RETAIN_ENTRY_COMPLETE (16_power_resets_and_start_up.md R458). -/
def execRetainEntryComplete (s : State) : Host.Outcome State Fault Refusal :=
  .next (doRetainEntry s.begin)

/-- ROW_ACTIVATION_WINDOW (13_memory_controller.md R391). -/
def execRowActivationWindow (s : State) : Host.Outcome State Fault Refusal :=
  .next (doActivationWindow s.begin)

end Sys2Proof.Machine
end

