-- ==== Sys2Proof/Machine/Dispatch.lean ====
section
/-!
DEFINITION. One arm per command: its meaning, called with the command's operands.
-/

namespace Sys2Proof.Machine

def exec (i : Instr) (s : State) : Host.Outcome State Fault Refusal :=
  match i with
  | .registerWrite r t data poisoned => Sys2Proof.Machine.execRegisterWrite r t data poisoned s
  | .bar2Access r off acc ecc => Sys2Proof.Machine.execBar2Access r off acc ecc s
  | .stationTimeRead r => Sys2Proof.Machine.execStationTimeRead r s
  | .softReset r page => Sys2Proof.Machine.execSoftReset r page s
  | .softResetDone page => Sys2Proof.Machine.execSoftResetDone page s
  | .pageEventForce r page v => Sys2Proof.Machine.execPageEventForce r page v s
  | .pageEventClear r page v => Sys2Proof.Machine.execPageEventClear r page v s
  | .msixPendingSend vec => Sys2Proof.Machine.execMsixPendingSend vec s
  | .moderationIntervalEnd vec => Sys2Proof.Machine.execModerationIntervalEnd vec s
  | .pageOwnerWrite r page v => Sys2Proof.Machine.execPageOwnerWrite r page v s
  | .dmaReadCompletion tag res => Sys2Proof.Machine.execDmaReadCompletion tag res s
  | .completionTimeout tag => Sys2Proof.Machine.execCompletionTimeout tag s
  | .surfImport r sl a => Sys2Proof.Machine.execSurfImport r sl a s
  | .surfExport r sl a => Sys2Proof.Machine.execSurfExport r sl a s
  | .surfRelease r sl a => Sys2Proof.Machine.execSurfRelease r sl a s
  | .commit r sl a => Sys2Proof.Machine.execCommit r sl a s
  | .cvSeed r sp a => Sys2Proof.Machine.execCvSeed r sp a s
  | .nop r sp a => Sys2Proof.Machine.execNop r sp a s
  | .sliceCapture r a => Sys2Proof.Machine.execSliceCapture r a s
  | .sliceRestore r a => Sys2Proof.Machine.execSliceRestore r a s
  | .floorLoad r a => Sys2Proof.Machine.execFloorLoad r a s
  | .reservedOpcode r sp op a => Sys2Proof.Machine.execReservedOpcode r sp op a s
  | .sqDoorbell r sp v => Sys2Proof.Machine.execSqDoorbell r sp v s
  | .submissionEntry sp => Sys2Proof.Machine.execSubmissionEntry sp s
  | .handleQuery r sp v => Sys2Proof.Machine.execHandleQuery r sp v s
  | .cqEnable r sp v => Sys2Proof.Machine.execCqEnable r sp v s
  | .cqDisable r sp v => Sys2Proof.Machine.execCqDisable r sp v s
  | .cqHeadWrite r sp v => Sys2Proof.Machine.execCqHeadWrite r sp v s
  | .dataLinkDown => Sys2Proof.Machine.execDataLinkDown s
  | .dataLinkUp => Sys2Proof.Machine.execDataLinkUp s
  | .reattach r v => Sys2Proof.Machine.execReattach r v s
  | .bind r sl => Sys2Proof.Machine.execBind r sl s
  | .reset r sl discard => Sys2Proof.Machine.execReset r sl discard s
  | .unbind r sl discard => Sys2Proof.Machine.execUnbind r sl discard s
  | .freeze r sl => Sys2Proof.Machine.execFreeze r sl s
  | .thaw r sl => Sys2Proof.Machine.execThaw r sl s
  | .reservedSliceCommand r sl v => Sys2Proof.Machine.execReservedSliceCommand r sl v s
  | .resetEnd sl => Sys2Proof.Machine.execResetEnd sl s
  | .freezeComplete sl => Sys2Proof.Machine.execFreezeComplete sl s
  | .slcAdmPermWrite r sl v => Sys2Proof.Machine.execSlcAdmPermWrite r sl v s
  | .slcAdmMigWrite r sl v => Sys2Proof.Machine.execSlcAdmMigWrite r sl v s
  | .grantQuery r sl v => Sys2Proof.Machine.execGrantQuery r sl v s
  | .slcAdmMap r sl v => Sys2Proof.Machine.execSlcAdmMap r sl v s
  | .dlogEnable r sl v => Sys2Proof.Machine.execDlogEnable r sl v s
  | .dlogHeadWrite r sl v => Sys2Proof.Machine.execDlogHeadWrite r sl v s
  | .haulSegmentDone e ecc => Sys2Proof.Machine.execHaulSegmentDone e ecc s
  | .srfQuery r v => Sys2Proof.Machine.execSrfQuery r v s
  | .fitCheckTakeUp o => Sys2Proof.Machine.execFitCheckTakeUp o s
  | .fitCheckVerdict o => Sys2Proof.Machine.execFitCheckVerdict o s
  | .bplShareWrite r o v => Sys2Proof.Machine.execBplShareWrite r o v s
  | .capacityReductionApply => Sys2Proof.Machine.execCapacityReductionApply s
  | .bplRbSnap r o v => Sys2Proof.Machine.execBplRbSnap r o v s
  | .lyrAssignWrite r n v => Sys2Proof.Machine.execLyrAssignWrite r n v s
  | .slcLyrSelWrite r sl v => Sys2Proof.Machine.execSlcLyrSelWrite r sl v s
  | .slcLyrDataWrite r sl v => Sys2Proof.Machine.execSlcLyrDataWrite r sl v s
  | .layerClear r sl => Sys2Proof.Machine.execLayerClear r sl s
  | .layerCopy r sl => Sys2Proof.Machine.execLayerCopy r sl s
  | .capstoneCommit r n => Sys2Proof.Machine.execCapstoneCommit r n s
  | .frameTick o => Sys2Proof.Machine.execFrameTick o s
  | .lineStart o late ecc => Sys2Proof.Machine.execLineStart o late ecc s
  | .outputRun r o v => Sys2Proof.Machine.execOutputRun r o v s
  | .outputStart o => Sys2Proof.Machine.execOutputStart o s
  | .outputStop r o v => Sys2Proof.Machine.execOutputStop r o v s
  | .txEnable r o v => Sys2Proof.Machine.execTxEnable r o v s
  | .txDisable r o v => Sys2Proof.Machine.execTxDisable r o v s
  | .hpdPlug o => Sys2Proof.Machine.execHpdPlug o s
  | .hpdUnplug o => Sys2Proof.Machine.execHpdUnplug o s
  | .irqHpd o lost => Sys2Proof.Machine.execIrqHpd o lost s
  | .trainingAttemptDone o ok drive sink => Sys2Proof.Machine.execTrainingAttemptDone o ok drive sink s
  | .fixedSequenceDone o => Sys2Proof.Machine.execFixedSequenceDone o s
  | .auxTransaction r o v => Sys2Proof.Machine.execAuxTransaction r o v s
  | .auxTransactionDone o result data => Sys2Proof.Machine.execAuxTransactionDone o result data s
  | .pixelClockRetuneDone o => Sys2Proof.Machine.execPixelClockRetuneDone o s
  | .cvuConfigWrite r n reg v => Sys2Proof.Machine.execCvuConfigWrite r n reg v s
  | .slcCvSelWrite r sl v => Sys2Proof.Machine.execSlcCvSelWrite r sl v s
  | .floorSrcLoad r o v => Sys2Proof.Machine.execFloorSrcLoad r o v s
  | .floorCopyDone o ecc => Sys2Proof.Machine.execFloorCopyDone o ecc s
  | .tcpPinCfgWrite r v => Sys2Proof.Machine.execTcpPinCfgWrite r v s
  | .panelEnable r n => Sys2Proof.Machine.execPanelEnable r n s
  | .panelDisable r n => Sys2Proof.Machine.execPanelDisable r n s
  | .stationTick frames => Sys2Proof.Machine.execStationTick frames s
  | .stationTickRateChange => Sys2Proof.Machine.execStationTickRateChange s
  | .captureRef r n => Sys2Proof.Machine.execCaptureRef r n s
  | .rebase r n => Sys2Proof.Machine.execRebase r n s
  | .tchRbSnap r n v => Sys2Proof.Machine.execTchRbSnap r n v s
  | .tchDiagSelWrite r n v => Sys2Proof.Machine.execTchDiagSelWrite r n v s
  | .loopTick polls rail => Sys2Proof.Machine.execLoopTick polls rail s
  | .hapticEnable r n => Sys2Proof.Machine.execHapticEnable r n s
  | .hapticDisable r n => Sys2Proof.Machine.execHapticDisable r n s
  | .sliceTriggerStart r sl v => Sys2Proof.Machine.execSliceTriggerStart r sl v s
  | .sliceTriggerStop r sl v => Sys2Proof.Machine.execSliceTriggerStop r sl v s
  | .hapCmdStart r n v => Sys2Proof.Machine.execHapCmdStart r n v s
  | .hapCmdStop r n v => Sys2Proof.Machine.execHapCmdStop r n v s
  | .effectEnd n => Sys2Proof.Machine.execEffectEnd n s
  | .brakingEnd n => Sys2Proof.Machine.execBrakingEnd n s
  | .pendingStartExpiry n => Sys2Proof.Machine.execPendingStartExpiry n s
  | .sensorFault n => Sys2Proof.Machine.execSensorFault n s
  | .railFault => Sys2Proof.Machine.execRailFault s
  | .railRecovery => Sys2Proof.Machine.execRailRecovery s
  | .accRawTransaction r n v reply => Sys2Proof.Machine.execAccRawTransaction r n v reply s
  | .storePublish r => Sys2Proof.Machine.execStorePublish r s
  | .storeDataAccess r w => Sys2Proof.Machine.execStoreDataAccess r w s
  | .hapBudgetWrite r n v => Sys2Proof.Machine.execHapBudgetWrite r n v s
  | .hapRbSnap r n v => Sys2Proof.Machine.execHapRbSnap r n v s
  | .streamSampleTick => Sys2Proof.Machine.execStreamSampleTick s
  | .streamEnable r sl ch v => Sys2Proof.Machine.execStreamEnable r sl ch v s
  | .streamWritePosition r sl ch v => Sys2Proof.Machine.execStreamWritePosition r sl ch v s
  | .sampleTick => Sys2Proof.Machine.execSampleTick s
  | .tdmFrameSync p => Sys2Proof.Machine.execTdmFrameSync p s
  | .tdmClockLost p => Sys2Proof.Machine.execTdmClockLost p s
  | .gateCall c rd rs1 => Sys2Proof.Machine.execGateCall c rd rs1 s
  | .worldExit c v => Sys2Proof.Machine.execWorldExit c v s
  | .forcedEntry c => Sys2Proof.Machine.execForcedEntry c s
  | .restartEntry => Sys2Proof.Machine.execRestartEntry s
  | .query c => Sys2Proof.Machine.execQuery c s
  | .post c => Sys2Proof.Machine.execPost c s
  | .poll c => Sys2Proof.Machine.execPoll c s
  | .monitorReservedFunction c => Sys2Proof.Machine.execMonitorReservedFunction c s
  | .coreException c e => Sys2Proof.Machine.execCoreException c e s
  | .mailboxDoneWrite r v => Sys2Proof.Machine.execMailboxDoneWrite r v s
  | .wldAssignWrite r v => Sys2Proof.Machine.execWldAssignWrite r v s
  | .cacheWaysWrite r v => Sys2Proof.Machine.execCacheWaysWrite r v s
  | .cleanL1d c pw => Sys2Proof.Machine.execCleanL1d c pw s
  | .invL1d c pw => Sys2Proof.Machine.execInvL1d c pw s
  | .invL1i c pw => Sys2Proof.Machine.execInvL1i c pw s
  | .cleanL2 c pw => Sys2Proof.Machine.execCleanL2 c pw s
  | .invL2 c pw => Sys2Proof.Machine.execInvL2 c pw s
  | .wdogKick r v => Sys2Proof.Machine.execWdogKick r v s
  | .pwWatchdogExpiry => Sys2Proof.Machine.execPwWatchdogExpiry s
  | .selfReset r => Sys2Proof.Machine.execSelfReset r s
  | .pwResetComplete => Sys2Proof.Machine.execPwResetComplete s
  | .powerNoticeReady r => Sys2Proof.Machine.execPowerNoticeReady r s
  | .powerNoticeTimeout => Sys2Proof.Machine.execPowerNoticeTimeout s
  | .cicClaim r => Sys2Proof.Machine.execCicClaim r s
  | .cicComplete r v => Sys2Proof.Machine.execCicComplete r v s
  | .cicSrcCfgWrite r v => Sys2Proof.Machine.execCicSrcCfgWrite r v s
  | .cicSwi r v => Sys2Proof.Machine.execCicSwi r v s
  | .timerCompareWrite r n v => Sys2Proof.Machine.execTimerCompareWrite r n v s
  | .coreTimerAssert n => Sys2Proof.Machine.execCoreTimerAssert n s
  | .setPointRequest r v => Sys2Proof.Machine.execSetPointRequest r v s
  | .setPointChangeDone => Sys2Proof.Machine.execSetPointChangeDone s
  | .patrolScrubRead res => Sys2Proof.Machine.execPatrolScrubRead res s
  | .temperatureMeasurement temps => Sys2Proof.Machine.execTemperatureMeasurement temps s
  | .trackingStep ch => Sys2Proof.Machine.execTrackingStep ch s
  | .refresh ch act => Sys2Proof.Machine.execRefresh ch act s
  | .writeQueueDrain ch readPending => Sys2Proof.Machine.execWriteQueueDrain ch readPending s
  | .rowHammerThreshold ch bank row req => Sys2Proof.Machine.execRowHammerThreshold ch bank row req s
  | .throttleEnd req => Sys2Proof.Machine.execThrottleEnd req s
  | .eccInject r v => Sys2Proof.Machine.execEccInject r v s
  | .gateOpen r ix v => Sys2Proof.Machine.execGateOpen r ix v s
  | .gateClose r ix v => Sys2Proof.Machine.execGateClose r ix v s
  | .gateCloseDone g => Sys2Proof.Machine.execGateCloseDone g s
  | .ratioWrite r v => Sys2Proof.Machine.execRatioWrite r v s
  | .ratioRampStep d => Sys2Proof.Machine.execRatioRampStep d s
  | .clockEscape d => Sys2Proof.Machine.execClockEscape d s
  | .referenceFailure => Sys2Proof.Machine.execReferenceFailure s
  | .xo32Window edges => Sys2Proof.Machine.execXo32Window edges s
  | .xo32Lost => Sys2Proof.Machine.execXo32Lost s
  | .pllLossOfLock ix => Sys2Proof.Machine.execPllLossOfLock ix s
  | .pllLocked ix => Sys2Proof.Machine.execPllLocked ix s
  | .pllRestart r v => Sys2Proof.Machine.execPllRestart r v s
  | .holdoverExpiry => Sys2Proof.Machine.execHoldoverExpiry s
  | .referenceRecovered => Sys2Proof.Machine.execReferenceRecovered s
  | .clkOutCtrlWrite r v => Sys2Proof.Machine.execClkOutCtrlWrite r v s
  | .election => Sys2Proof.Machine.execElection s
  | .electionDone partner => Sys2Proof.Machine.execElectionDone partner s
  | .haulLinkTrained => Sys2Proof.Machine.execHaulLinkTrained s
  | .haulLinkDown => Sys2Proof.Machine.execHaulLinkDown s
  | .haulLinkRetry => Sys2Proof.Machine.execHaulLinkRetry s
  | .badFrame => Sys2Proof.Machine.execBadFrame s
  | .frameReplay bulk nak => Sys2Proof.Machine.execFrameReplay bulk nak s
  | .idle rx => Sys2Proof.Machine.execIdle rx s
  | .hello h key digest family capsMem st => Sys2Proof.Machine.execHello h key digest family capsMem st s
  | .time h t starts => Sys2Proof.Machine.execTime h t starts s
  | .lineCv h o flags line frame cv => Sys2Proof.Machine.execLineCv h o flags line frame cv s
  | .latch h o frame fence crc => Sys2Proof.Machine.execLatch h o frame fence crc s
  | .latchAck h o frame late => Sys2Proof.Machine.execLatchAck h o frame late s
  | .writeReg h addr v how => Sys2Proof.Machine.execWriteReg h addr v how s
  | .writeDram h off data world1 poisoned => Sys2Proof.Machine.execWriteDram h off data world1 poisoned s
  | .decision h d => Sys2Proof.Machine.execDecision h d s
  | .touchState h n scan st => Sys2Proof.Machine.execTouchState h n scan st s
  | .hapticState h chs => Sys2Proof.Machine.execHapticState h chs s
  | .streamData h sl ch pos samples => Sys2Proof.Machine.execStreamData h sl ch pos samples s
  | .feed h o t toPrimary => Sys2Proof.Machine.execFeed h o t toPrimary s
  | .handover h t => Sys2Proof.Machine.execHandover h t s
  | .yield h cause => Sys2Proof.Machine.execYield h cause s
  | .catchupDone h last => Sys2Proof.Machine.execCatchupDone h last s
  | .helloRetry => Sys2Proof.Machine.execHelloRetry s
  | .catchupRetry => Sys2Proof.Machine.execCatchupRetry s
  | .pairSyncEdge => Sys2Proof.Machine.execPairSyncEdge s
  | .pairGuardTrip => Sys2Proof.Machine.execPairGuardTrip s
  | .partnerLoss => Sys2Proof.Machine.execPartnerLoss s
  | .plannedHandover cause => Sys2Proof.Machine.execPlannedHandover cause s
  | .handoverRoleRelease => Sys2Proof.Machine.execHandoverRoleRelease s
  | .pairTakeoverReset => Sys2Proof.Machine.execPairTakeoverReset s
  | .feedHome r => Sys2Proof.Machine.execFeedHome r s
  | .requestRun r => Sys2Proof.Machine.execRequestRun r s
  | .requestDim r => Sys2Proof.Machine.execRequestDim r s
  | .requestRetain r => Sys2Proof.Machine.execRequestRetain r s
  | .requestStandby r => Sys2Proof.Machine.execRequestStandby r s
  | .requestOff r => Sys2Proof.Machine.execRequestOff r s
  | .retainExit edges => Sys2Proof.Machine.execRetainExit edges s
  | .wakeTime edges => Sys2Proof.Machine.execWakeTime edges s
  | .modEnRise => Sys2Proof.Machine.execModEnRise s
  | .modEnFall => Sys2Proof.Machine.execModEnFall s
  | .modEnLowTimeout => Sys2Proof.Machine.execModEnLowTimeout s
  | .vstbyRise => Sys2Proof.Machine.execVstbyRise s
  | .vstbyFall => Sys2Proof.Machine.execVstbyFall s
  | .perstAssert => Sys2Proof.Machine.execPerstAssert s
  | .perstDeassert => Sys2Proof.Machine.execPerstDeassert s
  | .hostReadyLate => Sys2Proof.Machine.execHostReadyLate s
  | .station r v => Sys2Proof.Machine.execStation r v s
  | .stationWatchdogExpiry => Sys2Proof.Machine.execStationWatchdogExpiry s
  | .stationWatchdogKick r v => Sys2Proof.Machine.execStationWatchdogKick r v s
  | .flr => Sys2Proof.Machine.execFlr s
  | .brownOutWarning mv pinLow => Sys2Proof.Machine.execBrownOutWarning mv pinLow s
  | .warningClear mv => Sys2Proof.Machine.execWarningClear mv s
  | .brownOut mv => Sys2Proof.Machine.execBrownOut mv s
  | .brownOutRecovery mv => Sys2Proof.Machine.execBrownOutRecovery mv s
  | .bankFault bankB recovered => Sys2Proof.Machine.execBankFault bankB recovered s
  | .bootConfirm r => Sys2Proof.Machine.execBootConfirm r s
  | .bootRelease r v => Sys2Proof.Machine.execBootRelease r v s
  | .hostReady r => Sys2Proof.Machine.execHostReady r s
  | .coreHalt r v => Sys2Proof.Machine.execCoreHalt r v s
  | .coreResume r v => Sys2Proof.Machine.execCoreResume r v s
  | .coreReset r v => Sys2Proof.Machine.execCoreReset r v s
  | .flashRead r => Sys2Proof.Machine.execFlashRead r s
  | .flashProgram r => Sys2Proof.Machine.execFlashProgram r s
  | .flashErase r => Sys2Proof.Machine.execFlashErase r s
  | .flashOperationDone verified => Sys2Proof.Machine.execFlashOperationDone verified s
  | .junctionMeasurement t => Sys2Proof.Machine.execJunctionMeasurement t s
  | .hvInterlockOpen => Sys2Proof.Machine.execHvInterlockOpen s
  | .hvInterlockClosed => Sys2Proof.Machine.execHvInterlockClosed s
  | .registerRead r t len => Sys2Proof.Machine.execRegisterRead r t len s
  | .xo32Present => Sys2Proof.Machine.execXo32Present s
  | .roleHeldByPrimary => Sys2Proof.Machine.execRoleHeldByPrimary s
  | .retainWfiTimeout => Sys2Proof.Machine.execRetainWfiTimeout s
  | .retainEntryComplete => Sys2Proof.Machine.execRetainEntryComplete s
  | .rowActivationWindow => Sys2Proof.Machine.execRowActivationWindow s

end Sys2Proof.Machine
end

