-- ==== Sys2Proof/Machine/Step.lean ====
section
/-!
DEFINITION. One step: the command at the front of the queue acts on the state with the rest of the queue; on an empty
queue the block lets one period of its time counter pass (log 18).
-/

namespace Sys2Proof.Machine

/-- Take the command at the front of the queue and give its outcome. With no command waiting, station time goes on by one
count of its counter (01_the_w880_at_a_glance.md R28; log 18). -/
def step (s : State) : Host.Outcome State Fault Refusal :=
  match s.pending with
  | c :: rest => exec c { s with pending := rest }
  | [] => .next (Sys2Proof.Machine.idleStep s)

/-- The state with the command that a word spells put at the front of its queue; unchanged where it spells none (log 17). -/
def State.withFetchWord (s : State) (nbits w : Nat) : State :=
  match Sys2Proof.decodeTableWord nbits w with
  | some c => { s with pending := c :: s.pending }
  | none => s

end Sys2Proof.Machine
end

