-- ==== Sys2Proof/Safety.lean ====
section
/-!
DEFINITION. The words in which statements speak of whole states: the parts of State, which parts a command keeps, and the
canonical form of the register table, the memories and the tables of State.
-/

namespace Sys2Proof.Machine

/-- The parts of State but for the queue. -/
inductive Field where
  | time
  | ticks
  | rate
  | cells
  | latches
  | hif
  | cmds
  | slices
  | haul
  | outs
  | lyr
  | lyrSnap
  | csr
  | cvu
  | floor
  | cvSnap
  | tch
  | reflexDirty
  | pwResync
  | hap
  | hapShared
  | hst
  | ast
  | tdm
  | wld
  | cic
  | dmc
  | reductions
  | clk
  | pair
  | pwr
  | mem
  | freeCtr
  | emits
  | resp
deriving DecidableEq, Repr

/-- Two states agree in a part. -/
def Field.same (f : Field) (s t : State) : Prop :=
  match f with
  | .time => t.time = s.time
  | .ticks => t.ticks = s.ticks
  | .rate => t.rate = s.rate
  | .cells => t.cells = s.cells
  | .latches => t.latches = s.latches
  | .hif => t.hif = s.hif
  | .cmds => t.cmds = s.cmds
  | .slices => t.slices = s.slices
  | .haul => t.haul = s.haul
  | .outs => t.outs = s.outs
  | .lyr => t.lyr = s.lyr
  | .lyrSnap => t.lyrSnap = s.lyrSnap
  | .csr => t.csr = s.csr
  | .cvu => t.cvu = s.cvu
  | .floor => t.floor = s.floor
  | .cvSnap => t.cvSnap = s.cvSnap
  | .tch => t.tch = s.tch
  | .reflexDirty => t.reflexDirty = s.reflexDirty
  | .pwResync => t.pwResync = s.pwResync
  | .hap => t.hap = s.hap
  | .hapShared => t.hapShared = s.hapShared
  | .hst => t.hst = s.hst
  | .ast => t.ast = s.ast
  | .tdm => t.tdm = s.tdm
  | .wld => t.wld = s.wld
  | .cic => t.cic = s.cic
  | .dmc => t.dmc = s.dmc
  | .reductions => t.reductions = s.reductions
  | .clk => t.clk = s.clk
  | .pair => t.pair = s.pair
  | .pwr => t.pwr = s.pwr
  | .mem => t.mem = s.mem
  | .freeCtr => t.freeCtr = s.freeCtr
  | .emits => t.emits = s.emits
  | .resp => t.resp = s.resp

/-- Every memory is in its one canonical form: addresses strictly rising, no byte equal to what an unlisted address reads as
(log 10, log 11). -/
def Mems.wf (m : Mems) : Bool :=
  Tab.wf (fun _ => 0#8) m.dram && Tab.wf (fun _ => 0#8) m.ctl && Tab.wf (fun _ => 0xFF#8) m.flash &&
    Tab.wf (fun _ => 0#8) m.store && Tab.wf (fun _ => 0#8) m.floor

/-- A part of State is in canonical form; a part that is no table always is. -/
def Field.canon (f : Field) (s : State) : Bool :=
  match f with
  | .cells => Tab.wf cellReset s.cells
  | .latches => Tab.wf (fun _ => 0#32) s.latches
  | .cmds => Tab.wf (fun _ => {}) s.cmds
  | .slices => Tab.wf (fun _ => {}) s.slices
  | .outs => Tab.wf (fun _ => {}) s.outs
  | .lyr => Tab.wf (fun _ => {}) s.lyr
  | .lyrSnap => Tab.wf (fun _ => []) s.lyrSnap
  | .csr => Tab.wf (fun _ => {}) s.csr
  | .cvu => Tab.wf (fun _ => .idle) s.cvu
  | .floor => Tab.wf (fun _ => {}) s.floor
  | .cvSnap => Tab.wf (fun _ => []) s.cvSnap
  | .tch => Tab.wf (fun _ => {}) s.tch
  | .hap => Tab.wf (fun _ => {}) s.hap
  | .hst => Tab.wf (fun _ => {}) s.hst
  | .ast => Tab.wf (fun _ => {}) s.ast
  | .tdm => Tab.wf (fun _ => {}) s.tdm
  | .wld => Tab.wf (fun _ => {}) s.wld.cores
  | .cic => Tab.wf (fun _ => {}) s.cic.srcs
  | .mem => s.mem.wf
  | .time => true
  | .ticks => true
  | .rate => true
  | .hif => true
  | .haul => true
  | .reflexDirty => true
  | .pwResync => true
  | .hapShared => true
  | .dmc => true
  | .reductions => true
  | .clk => true
  | .pair => true
  | .pwr => true
  | .freeCtr => true
  | .emits => true
  | .resp => true

/-- The parts of State, each once. -/
def Field.list : List Field :=
  [.time, .ticks, .rate, .cells, .latches, .hif, .cmds, .slices, .haul, .outs,
   .lyr, .lyrSnap, .csr, .cvu, .floor, .cvSnap, .tch, .reflexDirty, .pwResync, .hap,
   .hapShared, .hst, .ast, .tdm, .wld, .cic, .dmc, .reductions, .clk, .pair,
   .pwr, .mem, .freeCtr, .emits, .resp]

/-- Every table of State is in its one canonical form, so that states that read alike are equal data. -/
def State.wf (s : State) : Bool := Field.list.all fun f => f.canon s

/-- From `s` to `t` the queue and every part that is not named stay, and no part leaves its canonical form. -/
structure Keeps (l : List Field) (s t : State) : Prop where
  queue : t.pending = s.pending
  same : ∀ f, l.contains f = false → f.same s t
  canon : ∀ f : Field, f.canon s = true → f.canon t = true

/-- From `s` to `t` the queue and every part that is not named stay, and so does every register that is not named. -/
def Leaves (l : List Field) (regs : List Nat) (s t : State) : Prop :=
  Keeps (.cells :: l) s t ∧ ∀ a, regs.contains a = false → t.rd a = s.rd a

/-- The registers that an event of the page at `pg` reaches: the page's event bits, the causes of the station's vectors and the
pending bits of the vectors (02_host_interface.md R59, R87; 12_interrupt_delivery.md R366, R369). -/
def told (pg a : Nat) : Bool := a == pg + 0x10 || a == R.hifVecCause || (K.pba 0 ≤ a && a < K.pba 64)

/-- From `s` to `t` the queue and every part that is not named stay, and so does every register that is not named and that no
event of the pages named reaches. -/
def Tells (l : List Field) (regs pgs : List Nat) (s t : State) : Prop :=
  Keeps (.cells :: l) s t ∧ ∀ a, regs.contains a = false → pgs.any (fun pg => told pg a) = false → t.rd a = s.rd a

/-- The state after a register write that the bus serves, where the register's own effect leads to `u`: the write goes to the
secondary of a pair (15_pairs_and_live_insertion.md R430), and its requester has its completion. -/
def State.answered (u : State) (off : Nat) (v : Word) : State := { u.mirrorReg off v false with resp := .done }

/-- A command that is a register write of `v` at `off` completes in `s` whenever the bus serves that write: its own effect
leads to a state `u` of which `P` holds, and what the block does after every such effect, `g`, and the completion follow. -/
def WriteThen (c : Instr) (r : Req) (off : Nat) (v : Word) (s : State) (g : State → State) (P : State → Prop) : Prop :=
  s.serves r off = true → ∃ u : State, exec c s = .next ((g u).answered off v) ∧ P u

/-- The same where nothing follows the effect but the completion. -/
def WriteDoes (c : Instr) (r : Req) (off : Nat) (v : Word) (s : State) (P : State → Prop) : Prop :=
  WriteThen c r off v s id P

/-- A run is safe while the block answers a next state: the spec gives it no stop. -/
def Safe (s : State) : Prop := ∃ t, step s = .next t

end Sys2Proof.Machine
end

