-- ==== Sys2Proof/Certificates/Slice0/Obligations.lean ====
section
/-!
DEFINITION. The statements for the provers, each formalising what the spec says the block does.
-/

open Sys2Proof Sys2Proof.Machine
/-! ### Every step and every command -/

/-- A step runs the command at the front of the queue on the state with the queue's rest; on an empty queue it is the tick of
the block's own clock (log 18). -/
def Obligations.StepRunsTheFrontCommand : Prop :=
  ∀ (s : State) (c : Instr) (l : List Instr),
    (s.pending = c :: l → step s = exec c { s with pending := l }) ∧
    (s.pending = [] → step s = .next (idleStep s))

/-- Every command completes with a next state and leaves the queue alone: the block stops on none and refuses none. -/
def Obligations.EveryCommandCompletes : Prop :=
  ∀ (c : Instr) (s : State), ∃ t, exec c s = .next t ∧ t.pending = s.pending

/-- Every step keeps every register table, memory and table of State in its one canonical form. -/
def Obligations.StepKeepsCanonicalForm : Prop :=
  ∀ s t : State, s.wf = true → step s = .next t → t.wf = true

/-- Reset is in canonical form, with no command waiting. -/
def Obligations.ResetIsCanonical : Prop := State.reset.wf = true ∧ State.reset.pending = []

/-- After reset station time is 0, every register reads its Reset column, every slice is UNBOUND, every clock gate is closed,
no output runs, and core 0 alone is released, in PROTECTED with the token. -/
def Obligations.ResetLeavesTheResetValues : Prop :=
  State.reset.time = 0 ∧
  (∀ a, State.reset.rd a = cellReset a) ∧
  (∀ i, (State.reset.slice i).st = .unbound) ∧
  (∀ g, g < 320 → State.reset.gateBit g = false) ∧
  (∀ o, (State.reset.out o).gen = .stopped) ∧
  (∀ c, (State.reset.core c).held = false ↔ c = 0) ∧ (State.reset.core 0).st = 1 ∧ State.reset.wld.token = some 0

/-! ### Fields and accesses -/

/-- A write reaches the fields of a register by their access codes: an unlocked RWL field and an RW field take a legal value
and keep their old one otherwise, a locked RWL field stays, ones written to a W1C field clear its bits and to a W1S field set
them, and RO, WO and RC fields stay. The fields of one access are written each by itself. -/
def Obligations.WritesFollowTheAccessCodes : Prop :=
  ∀ (f : FldDesc) (locked : Bool) (old v : Word), f.fld.lo ≤ f.fld.hi → f.fld.hi ≤ 31 →
    (f.acc = .rw → f.fld.get (f.write locked old v) = if f.ok (f.fld.get v) then f.fld.get v else f.fld.get old) ∧
    (f.acc = .rwl → f.fld.get (f.write locked old v) =
      if locked then f.fld.get old else if f.ok (f.fld.get v) then f.fld.get v else f.fld.get old) ∧
    (f.acc = .w1c → ∀ i, bitAt (f.fld.get (f.write locked old v)) i =
      (bitAt (f.fld.get old) i && !bitAt (f.fld.get v) i)) ∧
    (f.acc = .w1s → ∀ i, bitAt (f.fld.get (f.write locked old v)) i =
      (bitAt (f.fld.get old) i || bitAt (f.fld.get v) i)) ∧
    (f.acc = .ro ∨ f.acc = .wo ∨ f.acc = .rc → f.write locked old v = old) ∧
    (∀ g : Fld, g.lo ≤ g.hi → g.hi ≤ 31 → (g.hi < f.fld.lo ∨ f.fld.hi < g.lo) →
      g.get (f.write locked old v) = g.get old) ∧
    (∀ l : List FldDesc, f ∈ l → l.Pairwise (fun a b => a.fld.hi < b.fld.lo ∨ b.fld.hi < a.fld.lo) →
      (∀ g ∈ l, g.fld.lo ≤ g.fld.hi ∧ g.fld.hi ≤ 31) →
      f.fld.get (writeFields l locked old v) = f.fld.get (f.write locked old v))

/-- A register write of one word that the bus serves acts once with the word's value, goes to the secondary, and completes. -/
def Obligations.ServedWriteActs : Prop :=
  ∀ (r : Req) (off ty inst : Nat) (v : Word) (s : State), off % 4 = 0 → s.reach r off = some (ty, inst) →
    WriteDoes (.registerWrite r (.bar0 off) (leBytes 4 v.toNat) false) r off v s fun u =>
      u = writeReg r ty inst off v s.begin

/-- The requests that the bus turns away: no page answers, which is Unsupported Request to the host and the access fault of a
core; a wrong size or alignment; the host on a world-1 page; a slice's block registers while it is frozen; and a poisoned
payload, whatever it is sent to (to BAR2 while that is off, the model logs it too: log 27). None changes a register of its
target, and the host's are logged in HIF_0 with the kind of the refusal.
A refused request counts in HIF_0 and its first capture stays: the count rises by one, saturating, and where the capture
is empty it takes the write bit, the kind and, of a request to BAR0, the offset; no other register changes but those that the
event of HIF_0 reaches. -/
def Obligations.RefusedAccessesAreLoggedAndChangeNothing : Prop :=
  (∀ (p : Option (BitVec 20)) (c : Fin 4) (off ty inst : Nat) (data : List Byte) (poisoned : Bool) (s : State),
      (s.pasidOk p off = true → s.reach (.host p) off = none →
        exec (.registerWrite (.host p) (.bar0 off) data poisoned) s = .next { s.begin with resp := .unsupported }) ∧
      (s.reach (.core c) off = none →
        exec (.registerWrite (.core c) (.bar0 off) data poisoned) s =
          .next { s.begin.busFault (.core c) true off with resp := .busError }) ∧
      (s.pasidOk p off = true → s.reach (.host p) off = some (ty, inst) →
        (sizeOk true off data.length = false →
          exec (.registerWrite (.host p) (.bar0 off) data poisoned) s =
            .next { s.begin.accessRefused true 0 off data.length with resp := .done }) ∧
        (sizeOk true off data.length = true → poisoned = true →
          exec (.registerWrite (.host p) (.bar0 off) data poisoned) s =
            .next { s.begin.accessRefused true 1 off data.length with resp := .done }) ∧
        (sizeOk true off data.length = true → poisoned = false → ty < 0x100 → s.pageWorld1 (pageOf off) = true →
          exec (.registerWrite (.host p) (.bar0 off) data poisoned) s =
            .next { (s.begin.accessRefused true 2 off data.length).xwDenied (.host p) 0 (pageOf off) with resp := .done }) ∧
        (sizeOk true off data.length = true → poisoned = false → 0x100 ≤ ty → 0x040 ≤ off % 0x1000 →
          s.windowFrozen inst = true →
          exec (.registerWrite (.host p) (.bar0 off) data poisoned) s =
            .next { s.begin.accessRefused true 3 off data.length with resp := .done })) ∧
      (s.answers = true → data.length = 4 ∨ data.length = 8 → off % data.length = 0 → off + data.length ≤ 0x10000 →
        exec (.registerWrite (.host none) (.bar4 off) data true) s =
          .next { s.begin.poisonRefused data.length with resp := .done }) ∧
      (∀ f : CfgField, s.hif.linkUp = true → s.hif.retry = false →
        exec (.registerWrite (.host p) (.config f) data true) s =
          .next { s.begin.poisonRefused data.length with resp := .done }) ∧
      (s.answers = true → off + data.length ≤ 0x10000000 → ∀ ecc : Ecc,
        (s.flag R.hifAperCtrl F.hifAperCtrl_enable = true → s.dmc.selfRefresh = false →
          exec (.bar2Access (.host none) off (.write data true) ecc) s =
            .next { s.begin.poisonRefused data.length with resp := .done }) ∧
        (s.flag R.hifAperCtrl F.hifAperCtrl_enable = false →
          exec (.bar2Access (.host none) off (.write data true) ecc) s =
            .next { s.begin.poisonRefused data.length with resp := .unsupported }))) ∧
  (∀ (write : Bool) (kind off len : Nat) (s : State), kind < 4 → off < 2 ^ 32 →
      let logs (write : Bool) (kind : Nat) (t : State) : Prop :=
        t.fld R.hifAccessErrCount ⟨31, 0⟩ = min (2 ^ 32 - 1) (s.fld R.hifAccessErrCount ⟨31, 0⟩ + 1) ∧
        (s.flag R.hifAccessErrInfo F.hifAccessErrInfo_valid = true →
          t.rd R.hifAccessErrInfo = s.rd R.hifAccessErrInfo ∧ t.rd R.hifAccessErrAddr = s.rd R.hifAccessErrAddr) ∧
        (s.flag R.hifAccessErrInfo F.hifAccessErrInfo_valid = false →
          t.flag R.hifAccessErrInfo F.hifAccessErrInfo_valid = true ∧
          t.flag R.hifAccessErrInfo F.hifAccessErrInfo_is_write = write ∧
          t.fld R.hifAccessErrInfo F.hifAccessErrInfo_kind = kind) ∧
        Tells [.hif, .wld, .cic, .freeCtr, .emits] [R.hifAccessErrCount, R.hifAccessErrInfo, R.hifAccessErrAddr]
          [pageBase 0x10 0] s t
      logs write kind (s.accessRefused write kind off len) ∧ logs true 1 (s.poisonRefused len) ∧
      (s.flag R.hifAccessErrInfo F.hifAccessErrInfo_valid = false →
        (s.accessRefused write kind off len).num R.hifAccessErrAddr = off))

/-- Denials. Every denial of a guard is counted, saturating, and told in the protected world's page; the first is captured with
its address while no capture is held. A core in GENERAL one of whose bytes, past its PMP entries, lies in the protected megabyte of
control-core memory is denied and takes the access fault of its kind. -/
def Obligations.GuardDenialsAreLoggedAndTrap : Prop :=
  ∀ (write : Bool) (guard req off : Nat) (c : Fin 4) (a : Word) (k : AccessKind) (cached : Bool) (ecc : Ecc)
    (s : State),
    let logs (write : Bool) (guard req off : Nat) (s t : State) : Prop :=
      t.num R.wldGuardDenials = min (2 ^ 32 - 1) (s.num R.wldGuardDenials + 1) ∧
      (s.clocked 0x80 1 = true → bitAt (t.num (pageBase 0x80 1 + 0x10)) 0 = true) ∧
      (s.flag R.wldGuardLogInfo F.wldGuardLogInfo_valid = false →
        t.flag R.wldGuardLogInfo F.wldGuardLogInfo_valid = true ∧
        t.flag R.wldGuardLogInfo F.wldGuardLogInfo_write = write ∧
        t.fld R.wldGuardLogInfo F.wldGuardLogInfo_guard = guard ∧
        t.fld R.wldGuardLogInfo F.wldGuardLogInfo_requester = req ∧ t.num R.wldGuardLogAddr = off / 64) ∧
      (s.flag R.wldGuardLogInfo F.wldGuardLogInfo_valid = true →
        t.rd R.wldGuardLogInfo = s.rd R.wldGuardLogInfo ∧ t.rd R.wldGuardLogAddr = s.rd R.wldGuardLogAddr)
    (guard < 4 → req < 2 ^ 8 → off < 2 ^ 38 → logs write guard req off s (s.denial write guard req off) ∧
      Tells [.hif, .wld, .cic, .emits] [R.wldGuardDenials, R.wldGuardLogInfo, R.wldGuardLogAddr] [pageBase 0x80 1] s
        (s.denial write guard req off)) ∧
    ((s.core c.val).runs = true → (s.core c.val).st = 0 →
      (s.core c.val).pmpOk ((s.core c.val).accessUser k) (AccessKind.perm k) a.toNat (AccessKind.len k) = true →
      0x10000000 ≤ a.toNat → 0x10300000 < a.toNat + AccessKind.len k → a.toNat + AccessKind.len k ≤ 0x10400000 →
      ∃ u : State, exec (.coreException c (.access a k cached ecc)) s = .next u.settleNotice ∧
        logs (AccessKind.isStore k) 1 c.val (a.toNat - 0x10000000) s u ∧
        Tab.get 0#32 (u.core c.val).g csr.mcause = w32 (faultCause k) ∧ Tab.get 0#32 (u.core c.val).g csr.mtval = a ∧
        Tab.get 0#32 (u.core c.val).g csr.mepc = (s.core c.val).pc ∧
        (u.core c.val).pc = w32 ((Tab.get 0#32 (s.core c.val).g csr.mtvec).toNat / 4 * 4) ∧ (u.core c.val).user = false)

/-- A read that the bus serves answers the register's value as it reads and leaves cleared what the read clears; a read of
STN_TIME_LO answers the low word of station time and holds the high word for its requester. -/
def Obligations.ReadsAnswerTheRegister : Prop :=
  ∀ (r : Req) (off ty inst : Nat) (s : State), (match r with | .host p => s.pasidOk p off | .core _ => true) = true →
    s.reach r off = some (ty, inst) → off % 4 = 0 → s.softResetting (pageOf off) = false →
    (r.isHost = true → s.pageWorld1 (pageOf off) = true → 0x100 ≤ ty) →
    (∃ t, exec (.registerRead r (.bar0 off) 4) s = .next t ∧
      t.resp = .data (leBytes 4 (readReg r ty inst off s.begin).1.toNat) ∧
      Keeps [.pair, .emits, .resp] (readReg r ty inst off s.begin).2 t) ∧
    (off = R.stnTimeLo → ∃ t, exec (.stationTimeRead r) s = .next t ∧
      t.resp = .data (leBytes 4 (s.now % 2 ^ 32)) ∧
      Tab.get 0#32 t.latches (K.latch R.stnTimeHi r.latch) = w32 (s.now / 2 ^ 32) ∧
      Keeps [.latches, .pair, .emits, .resp] s t)

/-- A BAR2 access: while BAR2 is off every access is unsupported; on, an access to reserved DRAM or past its end sets denied,
reads all ones and writes nothing, and every other read answers the bytes of DRAM at the aperture, every other write changes
exactly its bytes. -/
def Obligations.ApertureReachesDram : Prop :=
  ∀ (off : Nat) (acc : Bar2Op) (ecc : Ecc) (s : State), s.answers = true →
    off + bar2Len acc ≤ 0x10000000 → bar2Poisoned acc = false →
    (s.flag R.hifAperCtrl F.hifAperCtrl_enable = false →
      exec (.bar2Access (.host none) off acc ecc) s = .next { s.begin with resp := .unsupported }) ∧
    (s.flag R.hifAperCtrl F.hifAperCtrl_enable = true → s.dmc.selfRefresh = false →
      (dramEnd < s.aperture + off + bar2Len acc ∨ s.dramProtected (s.aperture + off) (bar2Len acc) = true →
        ∃ u, exec (.bar2Access (.host none) off acc ecc) s = .next u ∧ u.mem = s.mem ∧
          u.flag R.hifAperCtrl F.hifAperCtrl_denied = true ∧
          (∀ n, acc = .read n → u.resp = .data (List.replicate n 0xFF#8))) ∧
      (s.aperture + off + bar2Len acc ≤ dramEnd → s.dramProtected (s.aperture + off) (bar2Len acc) = false →
        ∃ u, exec (.bar2Access (.host none) off acc ecc) s = .next u ∧
          (∀ n, acc = .read n → u.mem = s.mem ∧
            (u.resp = .data (Mem.read 0#8 s.mem.dram (s.aperture + off) n) ∨
              u.resp = .poisoned (Mem.read 0#8 s.mem.dram (s.aperture + off) n))) ∧
          (∀ d, acc = .write d false → Mem.read 0#8 u.mem.dram (s.aperture + off) d.length = d ∧
            ∀ a, a < s.aperture + off ∨ s.aperture + off + d.length ≤ a →
              Mem.read 0#8 u.mem.dram a 1 = Mem.read 0#8 s.mem.dram a 1)))

/-! ### The host interface (02_host_interface.md, 12_interrupt_delivery.md) -/

/-- PAGE_EVENT_FORCE sets the bits written that the page defines, in a page that is clocked; PAGE_EVENT_CLEAR clears the bits
written. Nothing but registers, sources and messages changes. -/
def Obligations.PageEventsFollowTheirRegisters : Prop :=
  ∀ (r : Req) (page : Fin 8192) (v : Word) (ty inst : Nat) (s : State), pageAt (page.val * 0x1000) = some (ty, inst) →
    (s.clocked ty inst = true →
      WriteDoes (.pageEventForce r page v) r (page.val * 0x1000 + 0x18) v s fun u =>
        u.rd (page.val * 0x1000 + 0x10) =
          s.rd (page.val * 0x1000 + 0x10) ||| w32 (v.toNat &&& s.definedEvents ty inst) ∧
        Tells [.hif, .wld, .cic, .emits, .resp] [] [page.val * 0x1000] s u) ∧
    WriteDoes (.pageEventClear r page v) r (page.val * 0x1000 + 0x10) v s fun u =>
      u.rd (page.val * 0x1000 + 0x10) = s.rd (page.val * 0x1000 + 0x10) &&& ~~~v ∧
      Tells [.hif, .wld, .cic, .emits, .resp] [] [page.val * 0x1000] s u

/-- A soft reset that a page's block takes is in progress after the write that starts it; when it is done the page is no
longer in it, and in pages whose block holds nothing but registers every register that the reset does not keep is back at its
reset value with its kept fields. -/
def Obligations.SoftResetReturnsRegisters : Prop :=
  ∀ (r : Req) (page : Fin 8192) (ty inst : Nat) (s : State), pageAt (page.val * 0x1000) = some (ty, inst) →
    (softResets ty = true →
      WriteDoes (.softReset r page) r (page.val * 0x1000 + 0x08) (w32 (2 + b2n (s.enabled (page.val * 0x1000)))) s fun u =>
        u.softResetting (page.val * 0x1000) = true) ∧
    (s.softResetting (page.val * 0x1000) = true →
      ∃ t, exec (.softResetDone page) s = .next t ∧ t.softResetting (page.val * 0x1000) = false ∧
        (ty = 0x30 ∨ ty = 0x41 ∨ ty = 0x43 ∨ ty = 0x72 ∨ ty = 0x91 →
          (∀ k ∈ pageRegs ty inst, s.keptBySoftReset ty inst k = false →
            t.rd (page.val * 0x1000 + k) = s.softWord ty inst k) ∧
          (∀ a, pageOf a ≠ page.val * 0x1000 → t.rd a = s.rd a) ∧
          Keeps [.cells, .hif, .emits, .resp] s t))

/-- MSI-X: a message that waits on a vector, in its pending bit or as a line held while slice 255 was DETACHED, is sent once the
vector can send, with the address and data of its table entry, and waits no longer; a message merged in a moderation interval is
sent at its end, or held pending where the vector cannot send. -/
def Obligations.VectorsSendTheirMessages : Prop :=
  ∀ (vec : Fin 2048) (s : State),
    (s.pba vec.val = true ∨ s.lateMsix vec.val = true → s.canSend vec.val = true → s.moderated vec.val = false →
      ∃ t, exec (.msixPendingSend vec) s = .next t ∧ t.pba vec.val = false ∧ t.lateMsix vec.val = false ∧
        t.emits = [.msix vec.val (s.num64 (K.msix vec.val 0) (K.msix vec.val 1)) (s.rd (K.msix vec.val 2))] ∧
        Leaves [.hif, .emits, .resp] [K.pba (vec.val / 32)] s t) ∧
    (s.pba vec.val = true ∨ s.lateMsix vec.val = true → s.canSend vec.val = true → s.moderated vec.val = true →
      ∃ t, exec (.msixPendingSend vec) s = .next t ∧ t.pba vec.val = false ∧ t.lateMsix vec.val = false ∧ t.emits = [] ∧
        t.hif.merged.contains vec.val = true) ∧
    (s.hif.merged.contains vec.val = true → s.moderated vec.val = false →
      ∃ t, exec (.moderationIntervalEnd vec) s = .next t ∧ t.hif.merged.contains vec.val = false ∧
        (s.canSend vec.val = true →
          t.emits = [.msix vec.val (s.num64 (K.msix vec.val 0) (K.msix vec.val 1)) (s.rd (K.msix vec.val 2))]) ∧
        (s.canSend vec.val = false → t.emits = [] ∧ t.pba vec.val = true) ∧
        Leaves [.hif, .emits, .resp] [K.pba (vec.val / 32)] s t)

/-- A read request to host memory ends: it is outstanding no longer. Its data joins what its use has gathered, and with the last
of them the use goes on; its failure, or its timeout, ends the use with the status that names it, at the request's distance from
the first address, and the use's other requests are discarded. Data that was to be discarded goes nowhere, and data of another
length, like a completion of no request, changes nothing. Then what waited for a read goes on. -/
def Obligations.HostReadsEnd : Prop :=
  ∀ (tag : Nat) (rd : HostRead) (s : State),
    ((s.hif.reads.find? fun x => x.tag == tag) = none → ∀ res : DmaRes,
      exec (.dmaReadCompletion tag res) s = .next s.begin ∧ exec (.completionTimeout tag) s = .next s.begin) ∧
    ((s.hif.reads.find? fun x => x.tag == tag) = some rd →
      ∃ u : State, u.hif.reads = s.hif.reads.filter (fun x => x.tag ≠ tag) ∧ u.hif.gathers = s.hif.gathers ∧
        Keeps [.hif, .emits, .resp] s u ∧
        (∀ data : List Byte, data.length ≠ rd.len → exec (.dmaReadCompletion tag (.ok data)) s = .next s.begin) ∧
        (rd.discard = true →
          (∀ data : List Byte, data.length = rd.len → exec (.dmaReadCompletion tag (.ok data)) s = .next u.kick) ∧
          (∀ res : DmaRes, (∀ d, res ≠ .ok d) → exec (.dmaReadCompletion tag res) s = .next u.kick) ∧
          (s.hif.timeoutDisable = false → exec (.completionTimeout tag) s = .next u.kick)) ∧
        (rd.discard = false → ∀ (g : Gather) (data : List Byte), (s.hif.gathers.find? fun x => x.gid == rd.gid) = some g →
          data.length = rd.len → ∃ v : State, exec (.dmaReadCompletion tag (.ok data)) s = .next v.kick ∧
            ((g.take rd.place data).bytes.length ≠ g.len → Keeps [.hif] u v ∧
              v.hif.gathers = s.hif.gathers.map fun x => if x.gid = rd.gid then g.take rd.place data else x) ∧
            ((g.take rd.place data).bytes.length = g.len → ∃ w : State, Keeps [.hif] u w ∧
              w.hif.gathers = s.hif.gathers.filter (fun x => x.gid ≠ rd.gid) ∧
              v = w.readData g.use (g.take rd.place data).bytes)) ∧
        (rd.discard = false → ∃ w : State, Keeps [.hif] u w ∧
          w.hif.gathers = s.hif.gathers.filter (fun x => x.gid ≠ rd.gid) ∧
          (∀ q ∈ w.hif.reads, q.gid = rd.gid → q.discard = true) ∧
          (∀ res : DmaRes, (∀ d, res ≠ .ok d) → exec (.dmaReadCompletion tag res) s =
            .next (w.readFailed rd.use rd.off (dmaStatus res)).kick) ∧
          (s.hif.timeoutDisable = false → exec (.completionTimeout tag) s =
            .next (w.readFailed rd.use rd.off 0x4003).kick)))

/-- The data link. A link that trains is up at one of the speeds and widths of R46. A link that is lost returns the configuration of the
function to reset, leaves every slice that detaches DETACHED with the state to return to, and is counted and told with reattach
cleared. REATTACH returns DETACHED slices to their states, and reattach reads 1 until the last one has returned: at once where
no record is held for one. -/
def Obligations.TheLinkDetachesSlices : Prop :=
  ∀ (r : Req) (v : Word) (s : State),
    (s.hif.linkUp = false → s.linkTrains = true →
      ∃ (u : State) (speed : Fin 5) (width : Fin 4), exec .dataLinkUp s = .next u.kick ∧
        u.hif = { s.hif with linkUp := true, linkSpeed := speed.val + 1, linkWidth := 2 ^ width.val } ∧
        Keeps [.hif, .freeCtr, .emits, .resp] s u) ∧
    (s.hif.linkUp = true →
      ∃ u t : State, exec .dataLinkDown s = .next t ∧ t = (State.detachAll u).linkEnds ∧
        u.hif = { s.hif.resetConfig with linkUp := false } ∧ Keeps [.hif, .emits, .resp] s u ∧
        (∀ sl, SliceState.detaches (s.slice sl).st = true → ((State.detachAll u).slice sl).st = .detached ∧
          ((State.detachAll u).slice sl).before = (s.slice sl).st) ∧
        t.flag R.hifLinkCtrl F.hifLinkCtrl_reattach = false) ∧
    (s.wf = true → bitAt v.toNat 0 = true → s.hif.linkUp = true → s.hif.busMaster = true →
      (∃ sl, (s.slice sl).st = .detached) →
      WriteThen (.reattach r v) r R.hifLinkCtrl v s State.kick fun u =>
        (∀ sl, (s.slice sl).st ≠ .detached → (u.slice sl).st = (s.slice sl).st) ∧
        (∀ sl, (s.slice sl).st = .detached →
          (u.slice sl).st = .detached ∨ (u.slice sl).st = (s.slice sl).before) ∧
        (u.flag R.hifLinkCtrl F.hifLinkCtrl_reattach = false →
          ∀ sl, (s.slice sl).st = .detached → (u.slice sl).st = (s.slice sl).before) ∧
        ((∀ sl, (s.slice sl).st = .detached → (s.slice sl).before = .bound ∧ (s.space sl).heldRecs = []) →
          u.flag R.hifLinkCtrl F.hifLinkCtrl_reattach = false) ∧
        Keeps [.cells, .latches, .hif, .cmds, .slices, .haul, .outs, .cvu, .floor, .wld, .cic, .pair, .freeCtr, .emits,
          .resp] s u)

/-- A function-level reset returns the registers of the host-interface pages to reset, and the handles and surface identifiers
of every command space start anew. -/
def Obligations.FunctionLevelResetClearsTheInterface : Prop :=
  ∀ s : State, s.hif.linkUp = true → s.hif.retry = false →
    ∃ t, exec .flr s = .next t ∧
      (∀ a, 0x10000 ≤ a → a < 0x14000 → 0x40 ≤ a % 0x1000 → t.rd a = cellReset a) ∧
      (∀ sp, (t.space sp).gens = [] ∧ (t.space sp).cursor = 0) ∧ t.haul.idGens = []

/-! ### Commands (02_host_interface.md) -/

/-- A command whose checks pass joins its space with its arguments, waiting, under the handle that CMD_RESULT returns, and
CMD_REFUSAL reads 0; then what can start starts. One that a check refuses, or for which no handle is free, joins nothing:
CMD_RESULT reads 0 and CMD_REFUSAL the reason. The checks are made on the state with the arguments written, and the arguments
are what the eight registers then hold. -/
def Obligations.CommandsAreIssuedOrRefused : Prop :=
  ∀ (r : Req) (sl : Fin 256) (sp : Fin 257) (op : Fin 256) (a : CmdArgs) (c : Instr) (space code : Nat) (s : State),
    (c, space, code) ∈ ([(.surfImport r sl a, sl.val, 0x01), (.surfExport r sl a, sl.val, 0x02),
      (.surfRelease r sl a, sl.val, 0x03), (.commit r sl a, sl.val, 0x04), (.cvSeed r sp a, sp.val, 0x05),
      (.nop r sp a, sp.val, 0x06), (.sliceCapture r a, 256, 0x10), (.sliceRestore r a, 256, 0x11),
      (.floorLoad r a, 256, 0x12), (.reservedOpcode r sp op a, sp.val, op.val)] : List (Instr × Nat × Nat)) →
    (c = .reservedOpcode r sp op a → opAvailable sp.val op.val = false) →
    s.serves r (R.cmdOp space) = true →
    ∃ w u : State, Leaves [.pair, .emits, .resp] ((List.range 8).map (R.cmdArg space)) s w ∧
      w.cmdArgs space = a.words.take 8 ++ (s.cmdArgs space).drop a.words.length ∧
      exec c s = .next ((State.settle u).answered (R.cmdOp space) (w32 (code + b2n a.fence * 256 + b2n a.noInt * 512))) ∧
      (∀ st, ((w.issueRefusal space code (w.cmdArgs space)).or
          (if (w.issueHandle space (handleLow space code (w.cmdArgs space))).isNone then some 0x1005 else none)) = some st →
        u.num (R.cmdResult space) = 0 ∧ u.num (R.cmdRefusal space) = st % 2 ^ 32 ∧ u.cmds = w.cmds ∧
        Leaves [.pair, .emits, .resp] (R.cmdResult space :: R.cmdRefusal space :: (List.range 8).map (R.cmdArg space)) s u) ∧
      (∀ h x, w.issueRefusal space code (w.cmdArgs space) = none →
        w.issueHandle space (handleLow space code (w.cmdArgs space)) = some (h, x) →
        u.rd (R.cmdResult space) = w32 h ∧ u.num (R.cmdRefusal space) = 0 ∧
        (u.space space).cmds = (w.space space).cmds ++
          [{ handle := h, op := code, words := w.cmdArgs space, fence := a.fence, noInt := a.noInt, phase := .waiting }] ∧
        Leaves [.cmds, .outs, .pair, .emits, .resp] (R.cmdResult space :: R.cmdRefusal space :: (List.range 8).map (R.cmdArg space)) s u)

/-- Submission queues. A tail within the queue is taken and an entry is fetched; a tail past it sets the error bit and stops the
queue. After a failed read, with error clear, a tail of whatever value has the same entry read again. An entry that is taken
leaves its place: its command is issued or refused, the head moves on by one. It waits where its result waits for the dirty
log. HANDLE_QUERY holds the handle asked for.
Completion queues. Enabling one that is off clears its head and tail; disabling one that is empty turns it off, and one
that is not sets disable_refused and leaves it on. A head that moves within what is written frees the handles of the records
it passes; another sets head_error. -/
def Obligations.RingsTakeEntriesAndFreeHandles : Prop :=
  (∀ (r : Req) (sp : Fin 257) (v : Word) (e : List Byte) (s : State),
      ((v.toNat + 2 ^ 32 - s.num (R.sqHead sp.val)) % 2 ^ 32 ≤ s.sqSize sp.val →
        WriteThen (.sqDoorbell r sp v) r (R.sqTail sp.val) v s (fun u => u.fetchEntry sp.val) fun u =>
          u.rd (R.sqTail sp.val) = v ∧ (u.space sp.val).stopped = s.flag (R.sqCtrl sp.val) F.sqCtrl_error ∧
          (u.space sp.val).again = ((s.space sp.val).stopped && !s.flag (R.sqCtrl sp.val) F.sqCtrl_error) ∧
          Leaves [.cmds, .emits, .resp] [R.sqTail sp.val] s u) ∧
      (s.sqSize sp.val < (v.toNat + 2 ^ 32 - s.num (R.sqHead sp.val)) % 2 ^ 32 →
        WriteThen (.sqDoorbell r sp v) r (R.sqTail sp.val) v s (fun u => (u.ringError sp.val).fetchEntry sp.val) fun u =>
          u.flag (R.sqCtrl sp.val) F.sqCtrl_error = true ∧ (u.space sp.val).stopped = true ∧
          (u.space sp.val).again = ((s.space sp.val).stopped && !s.flag (R.sqCtrl sp.val) F.sqCtrl_error) ∧
          Leaves [.cmds, .emits, .resp] [R.sqTail sp.val, R.sqCtrl sp.val] s u) ∧
      WriteDoes (.handleQuery r sp v) r (R.handleQuery sp.val) v s (fun u =>
        (u.space sp.val).query = v.toNat ∧ Keeps [.cmds, .emits, .resp] s u) ∧
      ((s.space sp.val).entry = some e → s.takes sp.val = true → s.sqAhead sp.val ≠ 0 →
        ((sp.val < 256 → s.dlogBlocks sp.val (s.sqEntryAddr sp.val + 56) 8 = false) →
          ∃ (w u : State) (st h : Nat), exec (.submissionEntry sp) s = .next ((u.fetchEntry sp.val).settle) ∧
            (s.begin.updSpace sp.val fun x => { x with entry := none }).issue sp.val (leNat (e.take 4) % 256)
              ((List.range 8).map fun i => w32 (leNat ((e.drop (4 + 4 * i)).take 4)))
              (bitAt (leNat (e.take 4)) 8) (bitAt (leNat (e.take 4)) 9) = (st, h, w) ∧
            u.rd (R.sqHead sp.val) = w32 (s.num (R.sqHead sp.val) + 1) ∧ (u.space sp.val).entry = none ∧
            Keeps [.cells, .pair, .emits] w u) ∧
        (sp.val < 256 → s.dlogBlocks sp.val (s.sqEntryAddr sp.val + 56) 8 = true → s.entryWaits sp.val = false →
          ∃ u : State, exec (.submissionEntry sp) s = .next u ∧ u.num (R.sqHead sp.val) = s.num (R.sqHead sp.val) ∧
            (u.space sp.val).entry = some e ∧ u.entryWaits sp.val = true ∧
            u.flag (R.slcAdmDlogCtrl sp.val) F.slcAdmDlogCtrl_stalled = true ∧
            Leaves [.slices, .emits, .resp] [R.slcAdmDlogCtrl sp.val, R.slcAdmDlogStalls sp.val] s u))) ∧
  (∀ (r : Req) (sp : Fin 257) (v : Word) (s : State),
      (bitAt v.toNat 0 = true → s.cqOn sp.val = false →
        WriteDoes (.cqEnable r sp v) r (R.cqCtrl sp.val) v s fun u =>
          u.cqOn sp.val = true ∧ u.num (R.cqHead sp.val) = 0 ∧ u.num (R.cqTail sp.val) = 0 ∧
          Leaves [.emits, .resp] [R.cqCtrl sp.val, R.cqHead sp.val, R.cqTail sp.val] s u) ∧
      (bitAt v.toNat 0 = false → s.cqOn sp.val = true →
        WriteDoes (.cqDisable r sp v) r (R.cqCtrl sp.val) v s fun u =>
          ((s.space sp.val).cmds.isEmpty && (s.space sp.val).heldRecs.isEmpty && s.cqUsed sp.val == 0) = !u.cqOn sp.val ∧
          (u.cqOn sp.val = true → u.flag (R.cqStatus sp.val) F.cqStatus_disable_refused = true) ∧
          Leaves [.emits, .resp] [R.cqCtrl sp.val, R.cqStatus sp.val] s u) ∧
      ((v.toNat + 2 ^ 32 - s.num (R.cqHead sp.val)) % 2 ^ 32 ≤ s.cqUsed sp.val →
        WriteThen (.cqHeadWrite r sp v) r (R.cqHead sp.val) v s (fun u => (u.tellLost sp.val).settle) fun u =>
          u.rd (R.cqHead sp.val) = v ∧
          u.space sp.val = (s.space sp.val).consume (s.num (R.cqHead sp.val))
            ((v.toNat + 2 ^ 32 - s.num (R.cqHead sp.val)) % 2 ^ 32) ∧
          Leaves [.cmds, .emits, .resp] [R.cqHead sp.val] s u) ∧
      (s.cqUsed sp.val < (v.toNat + 2 ^ 32 - s.num (R.cqHead sp.val)) % 2 ^ 32 →
        WriteThen (.cqHeadWrite r sp v) r (R.cqHead sp.val) v s (fun u => u.ringError sp.val) fun u =>
          u.flag (R.cqStatus sp.val) F.cqStatus_head_error = true ∧ Leaves [.emits, .resp] [R.cqStatus sp.val] s u))

/-! ### Slices (03_slices.md) -/

/-- BIND, RESET, UNBIND, FREEZE and THAW: in the states that take them, with the refusals of the others in SLC_ADM_STATUS, and
reserved codes that do nothing. A frame tick of the instant comes before RESET and UNBIND. A restored slice stays FROZEN until
its configurations have latched. After each, what waits goes on. -/
def Obligations.SliceCommandsMoveTheSlice : Prop :=
  ∀ (r : Req) (sl : Fin 256) (d : Bool) (v : Word) (s : State),
    let a := R.slcAdmCtrl sl.val
    let go (u : State) : State := u.reattachGoesOn.kick
    let p := BitVec.ofNat 20 (s.fld (R.slcAdmPasid sl.val) F.slcAdmPasid_pasid)
    let ends (u : State) : State := go ((u.endWork sl.val 0x6001).lastError sl.val 0)
    let n := s.begin.dueFrames
    let err (u : State) : Nat := u.fld (R.slcAdmStatus sl.val) F.slcAdmStatus_last_error
    (((s.slice sl.val).st = .unbound → p ≠ 0#20 → s.pasidTaken sl.val p = false →
      WriteThen (.bind r sl) r a (w32 1) s go fun u =>
        (u.slice sl.val).st = .bound ∧ (u.slice sl.val).pasid = p ∧ err u = 0 ∧ Leaves [.slices, .emits, .resp] [R.slcAdmStatus sl.val] s u) ∧
     (((s.slice sl.val).st ≠ .unbound ∨ p = 0#20 ∨ s.pasidTaken sl.val p = true) →
      WriteThen (.bind r sl) r a (w32 1) s go fun u =>
        u.slice sl.val = s.slice sl.val ∧
        err u = (if (s.slice sl.val).st ≠ .unbound then 1 else if p = 0#20 then 2 else 3) ∧
        Leaves [.emits, .resp] [R.slcAdmStatus sl.val] s u)) ∧
    (SliceState.resettable (n.slice sl.val).st = true →
      WriteThen (.reset r sl d) r a (w32 (2 + b2n d * 256)) s ends (fun u =>
        (u.slice sl.val).st = .resetting ∧ (u.slice sl.val).unbinding = false ∧
        (d = true → (u.slice sl.val).discard = true) ∧
        (∀ x ∈ u.hif.reads, x.use.space = sl.val → x.discard = true)) ∧
      (n.grantLocked sl.val = false →
        WriteThen (.unbind r sl d) r a (w32 (3 + b2n d * 256)) s ends fun u =>
        (u.slice sl.val).st = .resetting ∧ (u.slice sl.val).unbinding = true) ∧
      (n.grantLocked sl.val = true →
        WriteThen (.unbind r sl d) r a (w32 (3 + b2n d * 256)) s go fun u =>
        u.slice sl.val = n.slice sl.val ∧ err u = 5 ∧ Leaves [] [R.slcAdmStatus sl.val] n u)) ∧
    (SliceState.resettable (n.slice sl.val).st = false →
      (WriteThen (.reset r sl d) r a (w32 (2 + b2n d * 256)) s go fun u =>
        err u = 1 ∧ Leaves [] [R.slcAdmStatus sl.val] n u) ∧
      (WriteThen (.unbind r sl d) r a (w32 (3 + b2n d * 256)) s go fun u =>
        err u = 1 ∧ Leaves [] [R.slcAdmStatus sl.val] n u)) ∧
    (((s.slice sl.val).st = .bound →
      WriteThen (.freeze r sl) r a (w32 4) s go fun u =>
        (u.slice sl.val).st = .freezing ∧ err u = 0 ∧ Leaves [.slices, .ast, .emits, .resp] [R.slcAdmStatus sl.val] s u) ∧
     ((s.slice sl.val).st ≠ .bound →
      WriteThen (.freeze r sl) r a (w32 4) s go fun u => u.slice sl.val = s.slice sl.val ∧ err u = 1)) ∧
    (((s.slice sl.val).st = .frozen → (s.slice sl.val).restored = false →
      WriteThen (.thaw r sl) r a (w32 5) s go fun u =>
        (u.slice sl.val).st = .bound ∧ (u.slice sl.val).captured = false ∧ err u = 0) ∧
     ((s.slice sl.val).st = .frozen → (s.slice sl.val).restored = true →
      WriteThen (.thaw r sl) r a (w32 5) s go fun u =>
        err u = 0 ∧ (u.slice sl.val).st = (if (u.slice sl.val).relatch.isEmpty then .bound else .frozen)) ∧
     ((s.slice sl.val).st ≠ .frozen →
      WriteThen (.thaw r sl) r a (w32 5) s go fun u => u.slice sl.val = s.slice sl.val ∧ err u = 1)) ∧
    ((bitsOf v.toNat 3 0 = 0 ∨ 6 ≤ bitsOf v.toNat 3 0) →
      WriteThen (.reservedSliceCommand r sl v) r a v s go fun u => u = s.begin)

/-- A reset that is over leaves the slice BOUND, or UNBOUND with its state cleared where an unbind asked for it, and its stream
words cleared; a FREEZING slice with no command in progress and no record or write waiting becomes FROZEN. Each is told in the
slice's page. -/
def Obligations.SliceTransitionsEnd : Prop :=
  ∀ (sl : Fin 256) (s : State),
    (s.resetOver sl.val = true → (s.slice sl.val).unbinding = false →
      ∃ u : State, exec (.resetEnd sl) s = .next (u.event 0x20 sl.val 0).kick ∧ (u.slice sl.val).st = .bound ∧
        (u.slice sl.val).discard = false ∧ (u.slice sl.val).hapWords = false ∧ (u.slice sl.val).audWords = false ∧
        Keeps [.cells, .slices, .emits, .resp] s u) ∧
    (s.resetOver sl.val = true → (s.slice sl.val).unbinding = true →
      ∃ u : State, exec (.resetEnd sl) s = .next (u.event 0x20 sl.val 0).kick ∧ (u.slice sl.val).st = .unbound ∧
        (u.slice sl.val).pasid = 0#20 ∧ u.rd (R.slcAdmMig sl.val) = cellReset (R.slcAdmMig sl.val)) ∧
    ((s.slice sl.val).st = .freezing → (s.space sl.val).cmds.any Cmd.inProgress = false →
      (s.space sl.val).heldRecs.all (·.event) = true → (s.slice sl.val).waiting = [] →
      ∃ u : State, exec (.freezeComplete sl) s = .next (u.event 0x20 sl.val 0).kick ∧ (u.slice sl.val).st = .frozen ∧
        Keeps [.slices, .emits, .resp] s u)

/-- Grants. The host gives an unowned, unlocked layer slot, check-value unit or check region to a slice or to itself and takes it
back; the slice then gets or loses the block. A lock, an owner that it has, and a writer other than the host leave the page as
it is. A permission bit that changes does the same with its block. -/
def Obligations.GrantsFollowOwnersAndPermissions : Prop :=
  ∀ (p : Option (BitVec 20)) (page : Fin 4096) (v : Word) (ty inst kind : Nat) (sl : Fin 256) (i : Nat) (s : State),
    let pg := page.val * 0x1000
    let old := s.num (R.slcAdmPerm sl.val)
    (pageAt pg = some (ty, inst) → ownedKind ty = some kind →
      (s.ownerLock pg = true ∨ (s.ownerKind pg ≠ 0 ∧ bitsOf v.toNat 9 8 ≠ 0) →
        WriteDoes (.pageOwnerWrite (.host p) page v) (.host p) (pg + 0x1C) v s fun u => u = s.begin) ∧
      ∀ c, WriteDoes (.pageOwnerWrite (.core c) page v) (.core c) (pg + 0x1C) v s fun u => u = s.begin) ∧
    (pageAt pg = some (ty, inst) → ownedKind ty = some kind → (kind = 2 → inst < 28) → s.pageWorld1 pg = false →
      s.ownerLock pg = false → s.worldLock pg = false →
      (s.ownerKind pg = 0 → bitsOf v.toNat 9 8 = 2 →
        WriteThen (.pageOwnerWrite (.host p) page v) (.host p) (pg + 0x1C) v s
          (fun u => u.grant (bitsOf v.toNat 7 0) kind inst) fun u =>
        u.ownedBy pg (bitsOf v.toNat 7 0) = true ∧ Leaves [.emits, .resp] [pg + 0x1C] s u) ∧
      (s.ownerKind pg = 0 → bitsOf v.toNat 9 8 = 1 →
        WriteDoes (.pageOwnerWrite (.host p) page v) (.host p) (pg + 0x1C) v s fun u =>
        u.ownerKind pg = 1 ∧ Leaves [.emits, .resp] [pg + 0x1C] s u) ∧
      (s.ownerKind pg = 2 → bitsOf v.toNat 9 8 = 0 →
        WriteDoes (.pageOwnerWrite (.host p) page v) (.host p) (pg + 0x1C) v s fun u =>
        u = (s.begin.withdraw (s.ownerSlice pg) kind inst).setOwner pg 0 0 ∧ u.ownerKind pg = 0) ∧
      (s.ownerKind pg = 1 → bitsOf v.toNat 9 8 = 0 →
        WriteDoes (.pageOwnerWrite (.host p) page v) (.host p) (pg + 0x1C) v s fun u =>
        u = (if kind = 2 then s.begin.stopUnit inst else s.begin).setOwner pg 0 0 ∧ u.ownerKind pg = 0)) ∧
    (i < 25 → bitAt old i = false → v.toNat = old + 2 ^ i →
      WriteThen (.slcAdmPermWrite (.host p) sl v) (.host p) (R.slcAdmPerm sl.val) v s
        (fun u => (u.grant sl.val (permBlock sl.val i).1 (permBlock sl.val i).2).reattachGoesOn.kick) fun u =>
      bitAt (u.num (R.slcAdmPerm sl.val)) i = true ∧ Leaves [.emits, .resp] [R.slcAdmPerm sl.val] s u) ∧
    (i < 25 → bitAt old i = true → v.toNat + 2 ^ i = old →
      WriteThen (.slcAdmPermWrite (.host p) sl v) (.host p) (R.slcAdmPerm sl.val) v s
        (fun u => (u.withdraw sl.val (permBlock sl.val i).1 (permBlock sl.val i).2).reattachGoesOn.kick) fun u =>
      bitAt (u.num (R.slcAdmPerm sl.val)) i = false ∧ Leaves [.emits, .resp] [R.slcAdmPerm sl.val] s u)

/-- The slice administration's other registers: the migration settings are taken in BOUND before a capture and refused with
error 4 elsewhere; the queries hold what is asked; enabling the dirty log clears its head and tail; its head is taken and
lets waiting writes go on. -/
def Obligations.SliceAdministrationTakesItsWrites : Prop :=
  ∀ (r : Req) (sl : Fin 256) (v : Word) (s : State),
    let go (u : State) : State := u.reattachGoesOn.kick
    let plain (ty off a : Nat) : Word := writeFields (fieldsAt ty sl.val off) (s.rwlLocked ty sl.val a) (s.rd a) v
    ((s.slice sl.val).st = .bound → (s.slice sl.val).captured = false →
      WriteThen (.slcAdmMigWrite r sl v) r (R.slcAdmMig sl.val) v s go fun u =>
        u.rd (R.slcAdmMig sl.val) = plain 0x20 0x054 (R.slcAdmMig sl.val) ∧ Leaves [.emits, .resp] [R.slcAdmMig sl.val] s u) ∧
    ((s.slice sl.val).st ≠ .bound ∨ (s.slice sl.val).captured = true →
      WriteThen (.slcAdmMigWrite r sl v) r (R.slcAdmMig sl.val) v s go fun u =>
        u.fld (R.slcAdmStatus sl.val) F.slcAdmStatus_last_error = 4 ∧
        u.rd (R.slcAdmMig sl.val) = s.rd (R.slcAdmMig sl.val) ∧ Leaves [.emits, .resp] [R.slcAdmStatus sl.val] s u) ∧
    WriteDoes (.grantQuery r sl v) r (R.slcGrantQuery sl.val) v s (fun u =>
      u.rd (R.slcGrantQuery sl.val) = plain 0x101 0x04C (R.slcGrantQuery sl.val) ∧ Leaves [.emits, .resp] [R.slcGrantQuery sl.val] s u) ∧
    WriteThen (.slcAdmMap r sl v) r (R.slcAdmMap sl.val) v s go (fun u =>
      u.rd (R.slcAdmMap sl.val) = plain 0x20 0x058 (R.slcAdmMap sl.val) ∧ Leaves [.emits, .resp] [R.slcAdmMap sl.val] s u) ∧
    (bitAt v.toNat 0 = true → s.fld (R.slcAdmMig sl.val) F.slcAdmMig_method = 2 → s.dlogOn sl.val = false →
      WriteThen (.dlogEnable r sl v) r (R.slcAdmDlogCtrl sl.val) v s go fun u =>
        u.dlogOn sl.val = true ∧ u.num (R.slcAdmDlogHead sl.val) = 0 ∧ u.num (R.slcAdmDlogTail sl.val) = 0 ∧
        u.fld (R.slcAdmDlogCtrl sl.val) F.slcAdmDlogCtrl_log2_entries = bitsOf v.toNat 4 1 ∧
        Leaves [.emits, .resp] [R.slcAdmDlogCtrl sl.val, R.slcAdmDlogHead sl.val, R.slcAdmDlogTail sl.val] s u) ∧
    WriteThen (.dlogHeadWrite r sl v) r (R.slcAdmDlogHead sl.val) v s (fun u => go (u.dlogProgress sl.val)) fun u =>
      u.rd (R.slcAdmDlogHead sl.val) = v ∧ Leaves [.emits, .resp] [R.slcAdmDlogHead sl.val] s u

/-! ### Surfaces and the haul engines (04_surfaces_and_haul.md) -/

/-- A segment that an engine has moved has its effect, and the transfer goes on or fails with the status of the segment; while
DRAM is in self-refresh a segment that needs it ends as at a link loss (log 63). A query of a surface answers its descriptor,
and zeros for one that does not exist. -/
def Obligations.EnginesMoveSegments : Prop :=
  ∀ (e : Fin 4) (ecc : Ecc) (sp handle : Nat) (x : Xfer) (g : Seg) (r : Req) (v : Word) (s : State),
    ((s.engine e.val).run = some (sp, handle) → s.xfer sp handle = some x → x.seg = some g → s.dmc.selfRefresh = false →
      (g.kind == .host && x.reads && x.data.isNone) = false →
      ∃ u : State, u = (s.begin.segmentEffect e.val x g ecc).2 ∧
        ((s.begin.segmentEffect e.val x g ecc).1 = none →
          exec (.haulSegmentDone e ecc) s = .next (u.advanceXfer e.val sp handle g).settle) ∧
        (∀ st d, (s.begin.segmentEffect e.val x g ecc).1 = some (st, d) →
          exec (.haulSegmentDone e ecc) s = .next (u.xferFails x st d).settle)) ∧
    ((s.engine e.val).run = some (sp, handle) → s.xfer sp handle = some x → x.seg = some g → s.dmc.selfRefresh = true →
      x.op ≠ 0x05 → x.op ≠ 0x12 → (g.kind == .host && x.reads && x.data.isNone) = false →
      exec (.haulSegmentDone e ecc) s = .next (s.begin.failXfer x 0x4005 (s.begin.lostAt x)).settle) ∧
    WriteDoes (.srfQuery r v) r R.srfQueryId v s fun u =>
      u.rd R.srfQueryId = v ∧
      (∀ y, s.surface (s.fld R.srfQuerySlice F.srfQuerySlice_slice) v.toNat = some y → ∀ i, i < 8 →
        u.rd (R.srfQueryDesc i) = ((wordsOf (descriptor y))[i]?).getD 0#32) ∧
      (s.surface (s.fld R.srfQuerySlice F.srfQuerySlice_slice) v.toNat = none → ∀ i, i < 8 →
        u.num (R.srfQueryDesc i) = 0) ∧
      Leaves [.emits, .resp] (R.srfQueryId :: R.srfQueryState :: R.srfQueryDram :: (List.range 8).map R.srfQueryDesc) s u

/-! ### The bench plan and the layers (05_bench_plan_and_fit_check.md, 06_layer_composition.md) -/

/-- The fit check takes the oldest entry of an output's queue: a share write goes under check; a commit on an output that does
not run is refused with OUTPUT_OFF; on one that runs, a commit whose layers bind goes under check with them, and one whose
layers do not bind ends with 0x1004.
The verdict on an entry under check. A share write is checked with every latched layer and every commit that has passed; one
that fits replaces the shares and one that does not sets share_refused. A commit is refused on an output that does not run and
where the check of those with it finds a fault; else it is accepted and counted, at once or, between a cut-off and its tick, at
the tick, or a probe answers. -/
def Obligations.TheFitCheckTakesAndDecides : Prop :=
  (∀ (o : Fin 8) (rest : List Entry) (s : State),
      (s.out o.val).check = none → s.takeUpSuspended = false → s.secondary = false → s.clocked 0x40 o.val = true →
      (∀ w, (s.out o.val).queue = .share w :: rest →
        ∃ u : State, exec (.fitCheckTakeUp o) s = .next u.kick ∧
          u.out o.val = { s.out o.val with queue := rest, check := some (.share w) } ∧ Keeps [.outs, .emits, .resp] s u) ∧
      (∀ c, (s.out o.val).queue = .commit c :: rest → (s.out o.val).gen ≠ .running →
        ∃ u : State, exec (.fitCheckTakeUp o) s = .next (u.refuse o.val c (noLayer 7)).kick ∧
          u.out o.val = { s.out o.val with queue := rest } ∧ Keeps [.outs, .emits, .resp] s u) ∧
      (∀ c ls, (s.out o.val).queue = .commit c :: rest → (s.out o.val).gen = .running → s.bindLayers c.owner c.enabled = .ok ls →
        ∃ u : State, exec (.fitCheckTakeUp o) s = .next u.kick ∧
          u.out o.val = { s.out o.val with queue := rest, check := some (.commit { c with bound := ls }) } ∧
          Keeps [.haul, .outs, .emits, .resp] s u) ∧
      (∀ c n, (s.out o.val).queue = .commit c :: rest → (s.out o.val).gen = .running → s.bindLayers c.owner c.enabled = .error n →
        ∃ u : State, exec (.fitCheckTakeUp o) s =
            .next (u.endCommit o.val c 0x1004 ((u.ordinalOf c.owner 1 n).getD 0xFF)).kick ∧
          u.out o.val = { s.out o.val with queue := rest } ∧ Keeps [.outs, .emits, .resp] s u)) ∧
  (∀ (o : Fin 8) (s : State), s.secondary = false →
      (∀ w, (s.out o.val).check = some (.share w) → ∃ u : State, (u.out o.val).check = none ∧ Keeps [.outs, .emits, .resp] s u ∧
        ((u.sharesFit o.val (sharesOf w) && (u.checkOut o.val (u.checked o.val []) (sharesOf w)).isNone) = true →
          ∃ x : State, exec (.fitCheckVerdict o) s = .next (((x.shedPass false).announce o.val).kick) ∧
            x.rd (R.bplShare o.val) = w &&& 0xFFFFFF00#32 ∧ Leaves [.pair, .emits] [R.bplShare o.val] u x) ∧
        ((u.sharesFit o.val (sharesOf w) && (u.checkOut o.val (u.checked o.val []) (sharesOf w)).isNone) = false →
          ∃ x : State, exec (.fitCheckVerdict o) s = .next ((x.announce o.val).kick) ∧
            x.flag (R.bplCheck o.val) F.bplCheck_share_refused = true ∧ Leaves [.pair, .emits] [R.bplCheck o.val] u x)) ∧
      (∀ c, (s.out o.val).check = some (.commit c) → ∃ u : State, (u.out o.val).check = none ∧ Keeps [.outs, .emits, .resp] s u ∧
        ((s.out o.val).gen ≠ .running →
          exec (.fitCheckVerdict o) s = .next (((u.refuse o.val c (noLayer 7)).announce o.val).kick)) ∧
        ((s.out o.val).gen = .running →
          (∀ f, u.checkOut o.val (u.candidate o.val c) (u.shares o.val) = some f →
            exec (.fitCheckVerdict o) s = .next (((u.refuse o.val c f).announce o.val).kick)) ∧
          (u.checkOut o.val (u.candidate o.val c) (u.shares o.val) = none → c.probe = true →
            exec (.fitCheckVerdict o) s = .next (((u.probeOk o.val c).announce o.val).kick)) ∧
          (u.checkOut o.val (u.candidate o.val c) (u.shares o.val) = none → c.probe = false →
            ∃ x : State, x.num (R.bplAccepted o.val) = min (2 ^ 32 - 1) (s.num (R.bplAccepted o.val) + 1) ∧
              Leaves [.pair, .emits] [R.bplAccepted o.val, R.lyrCapCtrl c.capSlot] u x ∧
              (x.inFreeze o.val = false → exec (.fitCheckVerdict o) s = .next (((x.accept o.val c).announce o.val).kick)) ∧
              (x.inFreeze o.val = true → exec (.fitCheckVerdict o) s =
                .next (((x.updOut o.val fun y => { y with deferred := y.deferred ++ [c] }).announce o.val).kick))))))

/-- BPL registers: a share write waits in the output's queue, a full queue refuses it, and an owner lock keeps it out; a snapshot
holds the bytes of the plan asked for and is valid with the plan's frame, or all ones where there is none; and a reduction of
the memory's capacity whose outputs have all turned puts extended refresh in force and starts the set-point change it asks
for, unless one runs. -/
def Obligations.SharesAndSnapshotsAndReductions : Prop :=
  ∀ (r : Req) (o : Fin 8) (v : Word) (s : State),
    (s.ownerLock (pageBase 0x40 o.val) = false → (s.out o.val).queue.length < 32 →
      WriteDoes (.bplShareWrite r o v) r (R.bplShare o.val) v s fun u =>
        u.out o.val = { s.out o.val with queue := (s.out o.val).queue ++ [.share v] } ∧ Keeps [.outs, .emits, .resp] s u) ∧
    (s.ownerLock (pageBase 0x40 o.val) = false → 32 ≤ (s.out o.val).queue.length →
      WriteDoes (.bplShareWrite r o v) r (R.bplShare o.val) v s fun u =>
        u.flag (R.bplCheck o.val) F.bplCheck_share_refused = true ∧ Leaves [.emits, .resp] [R.bplCheck o.val] s u) ∧
    (s.ownerLock (pageBase 0x40 o.val) = true →
      WriteDoes (.bplShareWrite r o v) r (R.bplShare o.val) v s fun u => u = s.begin) ∧
    (bitAt v.toNat 0 = true →
      WriteDoes (.bplRbSnap r o v) r (R.bplRbCtrl o.val) v s fun u =>
        u.out o.val = { s.out o.val with
          rb := wordsOf (s.planBytes o.val (if bitAt v.toNat 1 then (s.out o.val).next else (s.out o.val).plan)) } ∧
        u.flag (R.bplRbCtrl o.val) F.bplRbCtrl_valid = true ∧
        u.fld (R.bplRbCtrl o.val) F.bplRbCtrl_which = bitsOf v.toNat 1 1 ∧
        u.num (R.bplRbFrame o.val) =
          (match (if bitAt v.toNat 1 then (s.out o.val).next else (s.out o.val).plan) with
            | some q => q.frame % 2 ^ 32 | none => 0xFFFFFFFF) ∧
        Leaves [.outs, .emits, .resp] [R.bplRbCtrl o.val, R.bplRbFrame o.val] s u) ∧
    (bitAt v.toNat 0 = false →
      WriteDoes (.bplRbSnap r o v) r (R.bplRbCtrl o.val) v s fun u =>
        u.fld (R.bplRbCtrl o.val) F.bplRbCtrl_which = bitsOf v.toNat 1 1 ∧
        Leaves [.emits, .resp] [R.bplRbCtrl o.val] s u) ∧
    ∃ u : State,
      u = (if (s.reductions.filter (·.waits.isEmpty)).any (fun e => e.cause == 1) then s.begin.setExtended true else s.begin) ∧
      ((s.reductions.filter (·.waits.isEmpty)).any (fun e => e.cause == 1) = true →
        u.flag R.dmcStatus F.dmcStatus_extended = true) ∧
      (∀ e, (s.reductions.filter (·.waits.isEmpty)).find? (fun e => e.cause == 0) = some e → s.dmc.switching = none →
        ∃ t, exec .capacityReductionApply s = .next t ∧ t.dmc.switching = some e.value ∧
          t.flag R.dmcStatus F.dmcStatus_switching = true ∧ Leaves [.dmc] [R.dmcStatus] u t) ∧
      ((s.reductions.filter (·.waits.isEmpty)).find? (fun e => e.cause == 0) = none ∨ s.dmc.switching ≠ none →
        exec .capacityReductionApply s = .next u)

/-- Layer slots. An unowned, unlocked slot takes an output and a position that no other slot of the output has, and a capstone
of the protected world position 7 of an output without one; a write against these rules sets refused. The words of a slice's shadow image go to its selected layer, which CLEAR returns to reset and COPY makes the latched image. -/
def Obligations.LayerImagesAreWritten : Prop :=
  ∀ (r : Req) (n : Fin 64) (sl : Fin 256) (m : Nat) (v : Word) (s : State),
    let cap := if s.reqProtected r then bitAt v.toNat 15 else s.slotCap n.val
    let refused : Prop :=
      (∃ k, k < 64 ∧ k ≠ n.val ∧ s.slotOut k = bitsOf v.toNat 3 0 ∧
        (s.slotPos k = bitsOf v.toNat 10 8 ∨ (cap = true ∧ s.slotCap k = true))) ∨
      (cap = true ∧ bitsOf v.toNat 10 8 ≠ 7) ∨
      (cap = false ∧ s.slotCap n.val = true ∧ bitsOf v.toNat 10 8 = 7 ∧
        ∃ k, k < 64 ∧ s.slotOut k = bitsOf v.toNat 3 0 ∧ s.slotCap k = true)
    (s.ownerKind (lyrPage n.val) = 0 → s.worldLock (lyrPage n.val) = false → s.ownerLock (lyrPage n.val) = false →
      bitsOf v.toNat 3 0 < 8 →
      (¬ refused → WriteDoes (.lyrAssignWrite r n v) r (R.lyrAssign n.val) v s fun u =>
          u.slotOut n.val = bitsOf v.toNat 3 0 ∧ u.slotPos n.val = bitsOf v.toNat 10 8 ∧ u.slotCap n.val = cap ∧
          Leaves [.emits, .resp] [R.lyrAssign n.val] s u) ∧
      (refused → WriteDoes (.lyrAssignWrite r n v) r (R.lyrAssign n.val) v s fun u =>
          u.flag (R.lyrAssign n.val) F.lyrAssign_refused = true ∧ u.slotOut n.val = s.slotOut n.val ∧
          u.slotPos n.val = s.slotPos n.val ∧ u.slotCap n.val = s.slotCap n.val ∧
          Leaves [.emits, .resp] [R.lyrAssign n.val] s u)) ∧
    (s.ownerKind (lyrPage n.val) ≠ 0 ∨ s.worldLock (lyrPage n.val) = true →
      WriteDoes (.lyrAssignWrite r n v) r (R.lyrAssign n.val) v s fun u =>
        u.slotOut n.val = s.slotOut n.val ∧ u.slotPos n.val = s.slotPos n.val ∧ u.slotCap n.val = s.slotCap n.val ∧
        u.flag (R.lyrAssign n.val) F.lyrAssign_refused =
          (s.flag (R.lyrAssign n.val) F.lyrAssign_refused && !bitAt v.toNat 31) ∧
        Leaves [.emits, .resp] [R.lyrAssign n.val] s u) ∧
    WriteDoes (.slcLyrSelWrite r sl v) r (R.slcLyrSel sl.val) v s (fun u =>
      u.rd (R.slcLyrSel sl.val) =
        writeFields (fieldsAt 0x103 sl.val 0x040) (s.rwlLocked 0x103 sl.val (R.slcLyrSel sl.val)) (s.rd (R.slcLyrSel sl.val)) v ∧
      (∀ k, u.lyrSelSlot sl.val = some k → u.flag (R.slcLyrSel sl.val) F.slcLyrSel_bank = true →
        Tab.get [] u.lyrSnap sl.val = (s.layer k).latched) ∧
      Leaves [.lyrSnap, .emits, .resp] [R.slcLyrSel sl.val] s u) ∧
    (s.lyrSelSlot sl.val = some m →
      (s.flag (R.slcLyrSel sl.val) F.slcLyrSel_bank = false →
        WriteDoes (.slcLyrDataWrite r sl v) r (R.slcLyrData sl.val) v s fun u =>
          u.layer m = { s.layer m with
            shadow := imgPut false (s.layer m).shadow (s.fld (R.slcLyrSel sl.val) F.slcLyrSel_word) v } ∧
          u.fld (R.slcLyrSel sl.val) F.slcLyrSel_word = nextWord (s.fld (R.slcLyrSel sl.val) F.slcLyrSel_word) ∧
          (∀ k, k ≠ m → u.layer k = s.layer k) ∧ Leaves [.lyr, .emits, .resp] [R.slcLyrSel sl.val] s u) ∧
      WriteDoes (.layerClear r sl) r (R.slcLyrCtrl sl.val) 2#32 s (fun u =>
        u.layer m = { s.layer m with shadow := [] } ∧ (∀ k, k ≠ m → u.layer k = s.layer k) ∧
        Keeps [.lyr, .emits, .resp] s u) ∧
      WriteDoes (.layerCopy r sl) r (R.slcLyrCtrl sl.val) 1#32 s fun u =>
        u.layer m = { s.layer m with shadow := (s.layer m).latched } ∧ (∀ k, k ≠ m → u.layer k = s.layer k) ∧
        Keeps [.lyr, .emits, .resp] s u)

/-- A capstone commit of the protected world: on an unassigned slot it is refused with OUTPUT_OFF; a source or region that the
capstone may not use sets bad_source and event bit 1; a good one sets commit and joins the queue of the slot's output with the
slot's shadow image. -/
def Obligations.CapstoneCommitsJoinTheQueue : Prop :=
  ∀ (r : Req) (n : Fin 64) (s : State), s.slotCap n.val = true → s.worldDown = false → s.reqProtected r = true →
    let o := s.slotOut n.val
    let img := (s.layer n.val).shadow
    let regs := if o < 8 then (s.begin.snapshot 256 o 0 false).regions else []
    let bad := s.begin.capBadSource img || regs.any (s.begin.capBadRegion o)
    (bad = true → o ≠ 15 →
      WriteThen (.capstoneCommit r n) r (R.lyrCapCtrl n.val) 1#32 s (fun u => u.event 0x42 n.val 1) fun u =>
        u.flag (R.lyrCapCtrl n.val) F.lyrCapCtrl_bad_source = true ∧ Leaves [.emits, .resp] [R.lyrCapCtrl n.val] s u) ∧
    (o = 15 →
      WriteDoes (.capstoneCommit r n) r (R.lyrCapCtrl n.val) 1#32 s fun u => u = s.begin.capRefused n.val 7) ∧
    (bad = false → o ≠ 15 →
      WriteThen (.capstoneCommit r n) r (R.lyrCapCtrl n.val) 1#32 s
        (fun u => u.enqueueCommit o
          { owner := 256, handle := 0, probe := false, layers := [(n.val, img)], regions := regs, bound := [], acc := 0,
            headroom := 0 }) fun u =>
        u.flag (R.lyrCapCtrl n.val) F.lyrCapCtrl_commit = true ∧ Leaves [.emits, .resp] [R.lyrCapCtrl n.val] s u)

/-! ### Scan-out and the display links (07_scanout_and_display_links.md) -/

/-- OUT_CTRL. Setting run on a stopped output whose start is not refused sets run and starts its PLL, and a refused one sets
bad_timing; on an output that stops it sets run again; clearing run clears it and the output stops, or sets stop_refused; tx
follows its write where no link rule refuses it, and clearing it ends the link. -/
def Obligations.OutputControlStartsAndStops : Prop :=
  ∀ (r : Req) (o : Fin 8) (v : Word) (s : State),
    let w := s.begin.outCtrlPlain o.val v
    let run := s.flag (R.outCtrl o.val) F.outCtrl_run
    let tx := s.flag (R.outCtrl o.val) F.outCtrl_tx
    (bitAt v.toNat 0 = true → run = false → (s.out o.val).gen = .stopped →
      (w.runRefused o.val (bitAt v.toNat 1) = false →
        WriteDoes (.outputRun r o v) r (R.outCtrl o.val) v s fun u =>
          u.flag (R.outCtrl o.val) F.outCtrl_run = true ∧ (u.out o.val).gen = .locking) ∧
      (w.runRefused o.val (bitAt v.toNat 1) = true →
        WriteDoes (.outputRun r o v) r (R.outCtrl o.val) v s fun u =>
          u.flag (R.outCtrl o.val) F.outCtrl_run = false ∧ u.flag (R.outCtrl o.val) F.outCtrl_bad_timing = true ∧
          (u.out o.val).gen = .stopped)) ∧
    (bitAt v.toNat 0 = true → run = false → (s.out o.val).gen = .stopping →
      WriteDoes (.outputRun r o v) r (R.outCtrl o.val) v s fun u =>
        u.flag (R.outCtrl o.val) F.outCtrl_run = true ∧ (u.out o.val).gen = .running) ∧
    (bitAt v.toNat 0 = false → run = true →
      (w.stopRefused o.val = false →
        WriteDoes (.outputStop r o v) r (R.outCtrl o.val) v s fun u =>
          u.flag (R.outCtrl o.val) F.outCtrl_run = false ∧
          ((s.out o.val).gen = .running → (u.out o.val).gen = .stopping) ∧
          ((s.out o.val).gen = .locking → (u.out o.val).gen = .stopped)) ∧
      (w.stopRefused o.val = true →
        WriteDoes (.outputStop r o v) r (R.outCtrl o.val) v s fun u =>
          u.flag (R.outCtrl o.val) F.outCtrl_run = true ∧ u.flag (R.outCtrl o.val) F.outCtrl_stop_refused = true)) ∧
    (bitAt v.toNat 0 = run →
      (bitAt v.toNat 1 = true → tx = false → w.txRefused o.val = (false, false) →
        WriteDoes (.txEnable r o v) r (R.outCtrl o.val) v s fun u => u.flag (R.outCtrl o.val) F.outCtrl_tx = true) ∧
      (bitAt v.toNat 1 = true → tx = false → w.txRefused o.val ≠ (false, false) →
        WriteDoes (.txEnable r o v) r (R.outCtrl o.val) v s fun u =>
          u.flag (R.outCtrl o.val) F.outCtrl_tx = false ∧
          ((w.txRefused o.val).1 = true → u.flag (R.outCtrl o.val) F.outCtrl_bad_timing = true)) ∧
      (bitAt v.toNat 1 = false → tx = true →
        WriteDoes (.txDisable r o v) r (R.outCtrl o.val) v s fun u =>
          u.flag (R.outCtrl o.val) F.outCtrl_tx = false ∧ u.linkState o.val = 0 ∧ (u.out o.val).videoDue = false))

/-- Output timing. A frame tick moves station time to its instant, advances the frame number, and stamps it; a line start moves
time and the line; an output whose PLL has locked runs on a grid that starts now. What each then does to the frame follows. -/
def Obligations.OutputsTickOnTheirGrid : Prop :=
  ∀ (o : Fin 8) (late : Option Nat) (ecc : Ecc) (s : State),
    ((s.out o.val).counts = true → ∃ u t : State,
      exec (.frameTick o) s = .next t ∧
      t = (u.turnFrame o.val (s.num (R.outFrame o.val)) (s.out o.val).plan ((s.out o.val).gen == .stopping)).kick ∧
      t.time = max s.time (s.tickTime o.val ((s.out o.val).ticks + 1)) ∧
      u.rd (R.outFrame o.val) = s.rd (R.outFrame o.val) + 1#32 ∧
      u.num (R.outTickLo o.val) = u.now % 2 ^ 32 ∧ u.num (R.outTickHi o.val) = u.now / 2 ^ 32 ∧
      (u.out o.val).urLines = 0) ∧
    ((s.out o.val).counts = true → ((s.out o.val).line + 1) % max 1 (s.timing o.val).vt ≠ s.latchLine o.val (s.timing o.val) →
      ∃ u t : State, exec (.lineStart o late ecc) s = .next t ∧
        (u.out o.val).line = ((s.out o.val).line + 1) % max 1 (s.timing o.val).vt ∧
        t = (State.updOut (u.runLine o.val (u.out o.val).line late ecc).2 o.val fun x =>
          { x with pixels := if (u.runLine o.val (u.out o.val).line late ecc).2.sendsVideo o.val
                             then (u.runLine o.val (u.out o.val).line late ecc).1 else [] }).compareLines o.val ∧
        t.time = max s.time (s.lineTime o.val (u.out o.val).line)) ∧
    ((s.out o.val).gen = .locking → s.pllOk (6 + o.val) = true → ∃ u : State,
      exec (.outputStart o) s = .next (doStart o.val s.begin).kick ∧ doOutputStart o.val s.begin = u.firstTick o.val ∧
      (u.out o.val).gen = .running ∧ (u.out o.val).t0 = s.time ∧ (u.out o.val).ticks = 0)

/-- The display links. A plug on an output that transmits and runs starts training with the reads of the sink's capabilities, and
an unplug ends the link; IRQ_HPD reads the sink's status, and that of a failed or lost link trains again; a successful attempt
takes its rate, lanes and drive, a failed one goes on to the next, and the last failed one fails the link; the fixed sequence
ends in video; an output whose pixel clock is in lock again starts a grid.
AUX. A transaction that software starts and nothing blocks is in progress, sent, or waiting where the module's own has the
channel; one that is blocked ends with NACK. One that ends clears start, answers its result, and a read leaves its bytes in the
data registers; up to seven DEFER replies are answered by sending again. -/
def Obligations.DisplayLinksTrainAndCarryAux : Prop :=
  (∀ (o : Fin 8) (lost : Bool) (drive : BitVec 16) (sink : SinkCaps) (s : State),
      (s.linkMode o.val ≠ 2 →
        (∃ t, exec (.hpdPlug o) s = .next t ∧ t.hpd o.val = true ∧ t.fld (R.outLinkStatus o.val) F.outLinkStatus_tries = 0 ∧
          (s.linkState o.val ≠ 0 → s.flag (R.outCtrl o.val) F.outCtrl_tx = true →
            s.flag (R.outCtrl o.val) F.outCtrl_run = true → t.linkState o.val = 2 ∧ (t.out o.val).auxOwn = true ∧
            .aux o.val 9 0 16 [] ∈ t.emits ∧ (s.linkMode o.val = 1 → .aux o.val 9 0x10 16 [] ∈ t.emits))) ∧
        (∃ t, exec (.hpdUnplug o) s = .next t ∧ t.hpd o.val = false ∧
          (s.linkState o.val ≠ 0 → t.linkState o.val = 1 ∧ (t.out o.val).auxOwn = false)) ∧
        (s.hpd o.val = true → ∃ t, exec (.irqHpd o lost) s = .next t ∧ .aux o.val 9 0x200 6 [] ∈ t.emits ∧
          (s.linkState o.val = 6 ∨ (lost = true ∧ 3 ≤ s.linkState o.val ∧ s.linkState o.val ≤ 5) ∨
              (lost = true ∧ s.linkState o.val = 2 ∧ (s.out o.val).auxOwn = false) →
            t.linkState o.val = 2 ∧ (t.out o.val).auxOwn = true))) ∧
      ((s.out o.val).auxOwn = true → s.linkState o.val = 2 →
        (∃ u : State, exec (.trainingAttemptDone o true drive sink) s =
            .next (u.linkFits o.val (s.attempt o.val sink).2 (s.attempt o.val sink).1) ∧
          u.fld (R.outLinkStatus o.val) F.outLinkStatus_rate = (s.attempt o.val sink).1 %
            2 ^ (F.outLinkStatus_rate.hi + 1 - F.outLinkStatus_rate.lo) ∧
          u.fld (R.outLinkDrive o.val) F.outLinkDrive_levels = drive.toNat %
            2 ^ (F.outLinkDrive_levels.hi + 1 - F.outLinkDrive_levels.lo) ∧ (u.out o.val).auxOwn = false) ∧
        (∀ a, nextAttempt (s.tryRates o.val sink) (s.attempt o.val sink).1 (s.attempt o.val sink).2 = some a →
          ∃ t, exec (.trainingAttemptDone o false drive sink) s = .next t ∧ t.linkState o.val = 2 ∧
            t.out o.val = { s.out o.val with tryRate := a.1, tryLanes := a.2 }) ∧
        (nextAttempt (s.tryRates o.val sink) (s.attempt o.val sink).1 (s.attempt o.val sink).2 = none →
          ∃ t, exec (.trainingAttemptDone o false drive sink) s = .next t ∧ t.linkState o.val = 6 ∧
            (t.out o.val).auxOwn = false)) ∧
      (s.linkState o.val = 7 →
        ∃ t, exec (.fixedSequenceDone o) s = .next t ∧ t.linkState o.val = 8 ∧ (t.out o.val).videoDue = true) ∧
      ((s.out o.val).retune = true → s.pllOk (6 + o.val) = true → s.holdover = false →
        ∃ t, exec (.pixelClockRetuneDone o) s = .next t ∧
          t.out o.val = { s.out o.val with retune := false, t0 := s.time, clk0 := 0, ticks := 0 } ∧ Keeps [.outs, .emits, .resp] s t)) ∧
  (∀ (r : Req) (o : Fin 8) (v : Word) (res : AuxResult) (data : List Byte) (s : State),
      let cmd := R.outAuxCmd o.val
      let sent (q : AuxReq) : Emit := .aux o.val q.request q.addr q.len q.data
      let bytes (x : State) : List Byte := [0, 1, 2, 3].flatMap fun i => leBytes 4 (x.num (R.outAuxData o.val i))
      let w := (s.put cmd F.outAuxCmd_request (bitsOf v.toNat 27 24)).put cmd F.outAuxCmd_len_m1 (bitsOf v.toNat 3 0)
      (bitAt v.toNat 31 = true → s.flag cmd F.outAuxCmd_start = false →
        (w.auxBlocked o.val (w.auxRequest o.val) = false →
          WriteDoes (.auxTransaction r o v) r cmd v s fun u =>
            u.flag cmd F.outAuxCmd_start = true ∧ u.fld cmd F.outAuxCmd_request = bitsOf v.toNat 27 24 ∧
            u.fld cmd F.outAuxCmd_len_m1 = bitsOf v.toNat 3 0 ∧
            u.out o.val = { s.out o.val with auxReq := some (w.auxRequest o.val), auxWait := (s.out o.val).auxOwn } ∧
            u.emits = (if (s.out o.val).auxOwn then [] else [sent (w.auxRequest o.val)]) ∧
            Leaves [.outs, .emits, .resp] [cmd] s u) ∧
        (w.auxBlocked o.val (w.auxRequest o.val) = true →
          WriteDoes (.auxTransaction r o v) r cmd v s fun u =>
            u.flag cmd F.outAuxCmd_start = false ∧ u.fld cmd F.outAuxCmd_result = 1 ∧ (u.out o.val).auxReq = none ∧
            Tells [.hif, .wld, .cic, .outs, .emits, .resp] [cmd] [pageBase 0x41 o.val] s u)) ∧
      (∀ q, (s.out o.val).auxReq = some q → (s.out o.val).auxWait = false →
        (res = .defer → q.defers < 7 →
          ((s.out o.val).auxOwn = true → ∃ t, exec (.auxTransactionDone o res data) s = .next t ∧
            t.out o.val = { s.out o.val with auxReq := some { q with defers := q.defers + 1 }, auxWait := true } ∧
            Keeps [.outs, .emits, .resp] s t) ∧
          ((s.out o.val).auxOwn = false → s.auxBlocked o.val q = false → ∃ t,
            exec (.auxTransactionDone o res data) s = .next t ∧
            t.out o.val = { s.out o.val with auxReq := some { q with defers := q.defers + 1 }, auxWait := false } ∧
            t.emits = [sent q] ∧ Keeps [.outs, .emits, .resp] s t)) ∧
        (res ≠ .defer ∨ 7 ≤ q.defers →
          ∃ t, exec (.auxTransactionDone o res data) s = .next t ∧ t.flag cmd F.outAuxCmd_start = false ∧
            t.fld cmd F.outAuxCmd_result = auxCode res ∧ (t.out o.val).auxReq = none ∧
            bytes t = (if auxReads q.request
              then (data.take q.len ++ (bytes s).drop (data.take q.len).length).take 16 else bytes s) ∧
            Tells [.hif, .wld, .cic, .outs, .emits, .resp] (cmd :: (List.range 4).map (R.outAuxData o.val))
              [pageBase 0x41 o.val] s t)))

/-! ### Check values and floor images (08_check_values_core_samples_and_floor_images.md) -/

/-- The registers of a check-value unit take writes of the unit's own writer while it is neither fed nor in region use: a written
value starts a new count of bytes; a unit in use refuses, and the fixed units keep all but their value. A write of another
requester changes nothing. A slice's selection of a latched image or of a region's results takes their snapshot.
Floor images. The protected world starts a load from reserved DRAM, which a range that is not reserved fails; a copy whose
blob is too short, too long or not reserved, or has an uncorrectable block, fails, one that is read whole is stored and
checked, and a load of the host whose segments have all ended is checked. -/
def Obligations.CheckValueUnitsAndFloorsAreWritten : Prop :=
  (∀ (r : Req) (n : Fin 32) (k : Fin 5) (sl : Fin 256) (v : Word) (s : State),
      let a := pageBase 0x50 n.val + 0x040 + 4 * k.val
      (s.cvStationWriter r n.val = true → s.cvBusy n.val = false → n.val < 28 ∨ k.val = 4 →
        WriteDoes (.cvuConfigWrite r n k v) r a v s fun u =>
          (1 ≤ k.val → u.rd a = v) ∧ (k.val = 4 → u.num (R.cvuBytes n.val) = 0) ∧
          (k.val = 0 → u.fld a F.cvuCfg_width_m1 = bitsOf v.toNat 4 0 ∧ u.fld a F.cvuCfg_refin = bitsOf v.toNat 8 8 ∧
            u.fld a F.cvuCfg_refout = bitsOf v.toNat 9 9) ∧ Leaves [.emits, .resp] [a, R.cvuBytes n.val] s u) ∧
      (s.cvStationWriter r n.val = true → s.cvBusy n.val = true →
        WriteDoes (.cvuConfigWrite r n k v) r a v s fun u =>
          u.flag (R.cvuCfg n.val) F.cvuCfg_write_refused = true ∧ (1 ≤ k.val → u.rd a = s.rd a) ∧
          Leaves [.emits, .resp] [R.cvuCfg n.val] s u) ∧
      (s.cvStationWriter r n.val = true → s.cvBusy n.val = false → 28 ≤ n.val → k.val ≠ 4 →
        WriteDoes (.cvuConfigWrite r n k v) r a v s fun u =>
          u.flag (R.cvuCfg n.val) F.cvuCfg_write_refused =
            (s.flag (R.cvuCfg n.val) F.cvuCfg_write_refused && !(k.val == 0 && bitAt v.toNat 31)) ∧
          (1 ≤ k.val → u.rd a = s.rd a) ∧ Leaves [.emits, .resp] [R.cvuCfg n.val] s u) ∧
      (s.cvStationWriter r n.val = false → WriteDoes (.cvuConfigWrite r n k v) r a v s fun u => u = s.begin) ∧
      WriteDoes (.slcCvSelWrite r sl v) r (R.slcCvSel sl.val) v s fun u =>
        u.rd (R.slcCvSel sl.val) =
          writeFields (fieldsAt 0x104 sl.val 0x040) (s.rwlLocked 0x104 sl.val (R.slcCvSel sl.val)) (s.rd (R.slcCvSel sl.val)) v ∧
        (∀ m, u.globalOf sl.val 3 (u.fld (R.slcCvSel sl.val) F.slcCvSel_ordinal) = some m →
          (u.fld (R.slcCvSel sl.val) F.slcCvSel_kind = 0 → u.flag (R.slcCvSel sl.val) F.slcCvSel_bank = true →
            Tab.get [] u.cvSnap sl.val = [0, 1, 2, 3].map (s.region m).latched.word) ∧
          (u.fld (R.slcCvSel sl.val) F.slcCvSel_kind = 1 →
            Tab.get [] u.cvSnap sl.val = [s.rd (R.csrResult m), s.rd (R.csrResultFrame m), s.regionStateWord m])) ∧
        Leaves [.cvSnap, .emits, .resp] [R.slcCvSel sl.val] s u) ∧
  (∀ (r : Req) (o : Fin 8) (v : Word) (b handle n : Nat) (x : Xfer) (ecc : Ecc) (s : State),
      (s.pageWorld1 (pageBase 0x43 o.val) = true → s.reqProtected r = true → bitAt v.toNat 31 = true →
        s.flag (R.outFloorSrc o.val) F.outFloorSrc_start = false →
        (s.dramReserved (bitsOf v.toNat 19 0 * 65536) 64 = true →
          WriteThen (.floorSrcLoad r o v) r (R.outFloorSrc o.val) v s
            (fun u => u.floorAsk o.val (.dram (bitsOf v.toNat 19 0 * 65536))) fun u =>
            u.flag (R.outFloorSrc o.val) F.outFloorSrc_start = true ∧
            u.fld (R.outFloorSrc o.val) F.outFloorSrc_base = bitsOf v.toNat 19 0 ∧ Leaves [.emits, .resp] [R.outFloorSrc o.val] s u) ∧
        (s.dramReserved (bitsOf v.toNat 19 0 * 65536) 64 = false →
          WriteDoes (.floorSrcLoad r o v) r (R.outFloorSrc o.val) v s fun u =>
            u.flag (R.outFloorSrc o.val) F.outFloorSrc_failed = true ∧
            u.flag (R.outFloorSrc o.val) F.outFloorSrc_start = false ∧ Leaves [.emits, .resp] [R.outFloorSrc o.val] s u)) ∧
      ((s.floorSt o.val).load = some (.dram b, .copying) →
        let len := Mem.le 0 s.mem.dram (b + 16) 4
        ((len < 64 ∨ floorSlotLen < len ∨ s.dramReserved b len = false ∨ s.dmc.selfRefresh = true) →
          exec (.floorCopyDone o ecc) s = .next (s.begin.floorFailed o.val 0 0)) ∧
        (64 ≤ len → len ≤ floorSlotLen → s.dramReserved b len = true → s.dmc.selfRefresh = false →
          ∃ u : State, u = (s.begin.readBlocks (blocksOf b len) (0x30 + o.val) 0 ecc).2 ∧ u.mem = s.mem ∧
            ((s.begin.readBlocks (blocksOf b len) (0x30 + o.val) 0 ecc).1 ≠ [] →
              exec (.floorCopyDone o ecc) s = .next (u.floorFailed o.val 0 0)) ∧
            ((s.begin.readBlocks (blocksOf b len) (0x30 + o.val) 0 ecc).1 = [] →
              exec (.floorCopyDone o ecc) s =
                .next ((u.floorStore o.val 0 (Mem.read 0 s.mem.dram b len)).floorChecked o.val len)))) ∧
      ((s.floorSt o.val).load = some (.host handle n, .copying) → s.xfer 256 handle = some x → x.idx = x.segs.length →
        exec (.floorCopyDone o ecc) s = .next (s.begin.floorChecked o.val n)))

/-! ### Touch (09_capacitive_touch.md) -/

/-- Pins and panels. A pin's configuration is written while no enabled panel has the pin or would get it, and refused with the
pin's number else; the pin number advances. A panel whose configuration is usable is enabled with a scan compiled, one whose
is not sets bad_config, and a panel that is disabled stops at its next scan. -/
def Obligations.PinsAndPanelsAreConfigured : Prop :=
  ∀ (r : Req) (n : Fin 8) (v : Word) (s : State),
    let p := s.fld R.tcpPinSel F.tcpPinSel_pin
    let old := s.rd (K.pin p)
    let busy := (bitsOf old.toNat 11 10 != 0 && s.enabled (tchPage (bitsOf old.toNat 9 7))) ||
      s.enabled (tchPage (bitsOf v.toNat 9 7))
    (busy = false →
      WriteDoes (.tcpPinCfgWrite r v) r R.tcpPinCfg v s fun u =>
        bitsOf (u.num (K.pin p)) 9 7 = bitsOf v.toNat 9 7 ∧ bitsOf (u.num (K.pin p)) 6 0 = bitsOf v.toNat 6 0 ∧
        (bitsOf v.toNat 11 10 ≤ 2 → bitsOf (u.num (K.pin p)) 11 10 = bitsOf v.toNat 11 10) ∧
        u.fld R.tcpPinSel F.tcpPinSel_pin = (p + 1) % 512 ∧ Leaves [.emits, .resp] [K.pin p, R.tcpPinSel] s u) ∧
    (busy = true →
      WriteDoes (.tcpPinCfgWrite r v) r R.tcpPinCfg v s fun u =>
        u.rd (K.pin p) = old ∧ u.flag R.tcpAllotErr F.tcpAllotErr_refused = true ∧
        u.fld R.tcpAllotErr F.tcpAllotErr_pin = p ∧ u.fld R.tcpPinSel F.tcpPinSel_pin = (p + 1) % 512 ∧
        Leaves [.emits, .resp] [R.tcpAllotErr, R.tcpPinSel] s u) ∧
    (s.ownerLock (tchPage n.val) = false → s.enabled (tchPage n.val) = false →
      (s.panelOk n.val = true →
        WriteDoes (.panelEnable r n) r (tchPage n.val + 0x08) 1#32 s fun u =>
          u.enabled (tchPage n.val) = true ∧ (u.panel n.val).next.isSome = true ∧
          ((s.panel n.val).plan = none → (u.panel n.val).mode = 1) ∧ Leaves [.tch, .emits, .resp] [tchPage n.val + 0x08] s u) ∧
      (s.panelOk n.val = false →
        WriteDoes (.panelEnable r n) r (tchPage n.val + 0x08) 1#32 s fun u =>
          u.enabled (tchPage n.val) = false ∧ u.flag (R.tchCtrl n.val) F.tchCtrl_bad_config = true ∧
          Leaves [.emits, .resp] [R.tchCtrl n.val] s u)) ∧
    (s.ownerLock (tchPage n.val) = false → s.enabled (tchPage n.val) = true →
      WriteDoes (.panelDisable r n) r (tchPage n.val + 0x08) 0#32 s fun u =>
        u.enabled (tchPage n.val) = false ∧ (u.panel n.val).next = none ∧ (u.panel n.val).stopDue = true ∧
        Leaves [.tch, .emits, .resp] [tchPage n.val + 0x08] s u)

/-- TCH_CTRL and the read-back windows. A capture of the reference is pending on a panel that scans and refused on one that is
OFF; REBASE is pending; a snapshot holds the bytes of the scan plan asked for and is valid; a diagnostic selection shows the words
of its kind. -/
def Obligations.PanelCommandsArePending : Prop :=
  ∀ (r : Req) (n : Fin 8) (v : Word) (s : State),
    ((s.panel n.val).mode ≠ 0 →
      WriteDoes (.captureRef r n) r (R.tchCtrl n.val) ((s.rd (R.tchCtrl n.val) &&& 0xF33#32) ||| 0x20000000#32) s fun u =>
        u.flag (R.tchCtrl n.val) F.tchCtrl_capture_ref = true ∧ Leaves [.emits, .resp] [R.tchCtrl n.val] s u) ∧
    ((s.panel n.val).mode = 0 →
      WriteDoes (.captureRef r n) r (R.tchCtrl n.val) ((s.rd (R.tchCtrl n.val) &&& 0xF33#32) ||| 0x20000000#32) s fun u =>
        u.flag (R.tchCtrl n.val) F.tchCtrl_capture_ref = false ∧ u.flag (R.tchCtrl n.val) F.tchCtrl_ref_refused = true ∧
        Leaves [.emits, .resp] [R.tchCtrl n.val] s u) ∧
    WriteDoes (.rebase r n) r (R.tchCtrl n.val) ((s.rd (R.tchCtrl n.val) &&& 0xF33#32) ||| 0x10000000#32) s (fun u =>
      u.flag (R.tchCtrl n.val) F.tchCtrl_rebase = true ∧ Leaves [.emits, .resp] [R.tchCtrl n.val] s u) ∧
    (bitAt v.toNat 0 = true →
      WriteDoes (.tchRbSnap r n v) r (R.tchRbCtrl n.val) v s fun u =>
        u.flag (R.tchRbCtrl n.val) F.tchRbCtrl_valid = true ∧ u.flag (R.tchRbCtrl n.val) F.tchRbCtrl_snap = false ∧
        (u.panel n.val).rbNext = bitAt v.toNat 1 ∧
        (u.panel n.val).rb = wordsOf (s.scanBytes n.val (bitAt v.toNat 1)
          (if bitAt v.toNat 1 then (s.panel n.val).next else (s.panel n.val).plan)) ∧ Leaves [.tch, .emits, .resp] [R.tchRbCtrl n.val] s u) ∧
    WriteDoes (.tchDiagSelWrite r n v) r (R.tchDiagSel n.val) v s fun u =>
      u.fld (R.tchDiagSel n.val) F.tchDiagSel_kind = v.toNat / 2 ^ 30 ∧
      (u.panel n.val).diag = (s.panel n.val).diagWords (v.toNat / 2 ^ 30) ∧ Leaves [.tch, .emits, .resp] [R.tchDiagSel n.val] s u

/-- The station tick: time moves to the next multiple of the period past the last tick; the loop, stream-sample and sample ticks
up to it are past, and the frame ticks that fall at it occur; a pending rate is taken at a multiple of 4 ms; then every panel
has its scan tick. Without an audio clock no tick occurs.
The loop tick, the stream-sample tick and the sample tick: time moves to the next instant of each grid past its last tick.
At a loop tick the sample ticks up to it are past and a published directory is in use; then the rail is measured, the channels
work, and the stream words of slices that were reset are cleared; at a stream-sample tick
the haptic streams give a sample, at a sample tick the ports mix theirs. Sample tick k falls at k times 62,500 / 3 ns, truncated to
a multiple of 5 ns, and every third one is a loop tick. -/
def Obligations.TicksFallOnTheirGrids : Prop :=
  (∀ (frames : List TouchFrame) (s : State),
      (s.audTicks = false → exec (.stationTick frames) s = .next s.begin) ∧
      (s.audTicks = true →
        let T := nextGrid (stationPeriod s.rate) s.ticks.1 s.time
        let w := ((s.begin.at T).passStation T).dueFrames
        ∃ t : State, exec (.stationTick frames) s = .next t ∧
          t = (if T % 4000000 = 0 then w.takeRate else w).takeBindings.each (List.range 8) (fun s n => s.scanTick n frames) ∧
          T % stationPeriod s.rate = 0 ∧ s.time ≤ T ∧ s.ticks.1 < T ∧ t.time = T ∧
          t.ticks = (T, max s.ticks.2.1 (T / 62500 * 62500), max s.ticks.2.2.1 (T / 125000 * 125000),
            max s.ticks.2.2.2 (T * 3 / 62500)) ∧
          (T % 4000000 = 0 → s.flag R.stnTickCtrl F.stnTickCtrl_pending = true →
            t.rate = s.fld R.stnTickCtrl F.stnTickCtrl_rate) ∧
          (T % 4000000 ≠ 0 ∨ s.flag R.stnTickCtrl F.stnTickCtrl_pending = false → t.rate = s.rate)) ∧
      (stationPeriod s.rate = 1000000 ∨ stationPeriod s.rate = 2000000 ∨ stationPeriod s.rate = 4000000) ∧
      (s.flag R.stnTickCtrl F.stnTickCtrl_pending = true →
        ∃ t, exec .stationTickRateChange s = .next t ∧ t.time % 4000000 = 0 ∧ s.time ≤ t.time ∧ t.time < s.time + 4000000 ∧
          t.rate = s.fld R.stnTickCtrl F.stnTickCtrl_rate ∧ t.flag R.stnTickCtrl F.stnTickCtrl_pending = false ∧
          Leaves [.time, .rate, .emits, .resp] [R.stnTickCtrl] s t) ∧
      (s.flag R.stnTickCtrl F.stnTickCtrl_pending = false → exec .stationTickRateChange s = .next s.begin)) ∧
  (∀ (polls : List AccPoll) (rail : BitVec 12) (s : State), s.audTicks = true →
      (let T := nextGrid 62500 s.ticks.2.1 s.time
       let u := ((s.begin.at T).passLoop T).takeFloors.refill.publish
       ∃ t : State, exec (.loopTick polls rail) s = .next t ∧
        t = ((u.railStep rail.toNat).loopWork polls).clearHapAll ∧ u.hapShared.publish = false ∧
        (s.hapShared.publish = true → u.hapShared.active = s.mem.store.filter fun e => e.1 < 0x10000) ∧
        T % 62500 = 0 ∧ s.time ≤ T ∧ s.ticks.2.1 < T ∧ t.time = T ∧
        t.ticks = (s.ticks.1, T, s.ticks.2.2.1, max s.ticks.2.2.2 (T * 3 / 62500))) ∧
      (∃ u t : State, exec .streamSampleTick s = .next t ∧ t = u.hapticSamples ∧ Keeps [.time, .ticks, .emits, .resp] s u ∧
        t.ticks.2.2.1 % 125000 = 0 ∧ s.time ≤ t.ticks.2.2.1 ∧ s.ticks.2.2.1 < t.ticks.2.2.1 ∧ t.time = t.ticks.2.2.1 ∧
        t.ticks.1 = s.ticks.1 ∧ t.ticks.2.1 = s.ticks.2.1) ∧
      (∃ u t : State, exec .sampleTick s = .next t ∧ (t = if u.mixes then u.mixTick t.ticks.2.2.2 else u) ∧
        t.ticks.2.2.2 = nextSample s.ticks.2.2.2 s.time ∧ s.ticks.2.2.2 < t.ticks.2.2.2 ∧ t.time = max s.time (sampleTime t.ticks.2.2.2) ∧
        t.ticks.2.2.1 = s.ticks.2.2.1 ∧ t.ticks.2.1 = s.ticks.2.1 ∧ t.ticks.1 = s.ticks.1) ∧
      (∀ k, sampleTime k % 5 = 0 ∧ sampleTime k * 3 ≤ k * 62500 ∧ k * 62500 < (sampleTime k + 5) * 3 ∧
        sampleTime (3 * k) = 62500 * k))

/-! ### Haptics (10_haptic_and_acoustic_feedback.md) -/

/-- A write of a channel's enable waits for the next loop tick, where `hapTransitions` acts on it: from OFF the channel ramps; a
play that was disabled ends without braking and the output closes. The budget floors may sum to 12 W and no more. A snapshot
holds the bytes of the programme and is valid. -/
def Obligations.HapticChannelsEnable : Prop :=
  ∀ (r : Req) (n : Fin 8) (v : Word) (s : State),
    (s.ownerLock (hapPage n.val) = false →
      WriteDoes (.hapticEnable r n) r (hapPage n.val + 0x08) 1#32 s fun u =>
        u.enabled (hapPage n.val) = true ∧ Leaves [.emits, .resp] [hapPage n.val + 0x08] s u) ∧
    (s.ownerLock (hapPage n.val) = false →
      WriteDoes (.hapticDisable r n) r (hapPage n.val + 0x08) 0#32 s fun u =>
        u.enabled (hapPage n.val) = false ∧ u.chan n.val = { s.chan n.val with offDue := (s.chan n.val).mode != .off } ∧
        Leaves [.hap, .emits, .resp] [hapPage n.val + 0x08] s u) ∧
    (s.enabled (hapPage n.val) = true → (s.chan n.val).mode = .off →
      let u := s.hapTransitions n.val
      (u.chan n.val).closing = false ∧ (u.chan n.val).mode = .ramp) ∧
    ((s.chan n.val).allOnes < 16 → (s.chan n.val).stuck < 160 → (s.chan n.val).mode = .playing →
      s.enabled (hapPage n.val) = false → (s.chan n.val).closing = false →
      let u := s.hapTransitions n.val
      (u.chan n.val).closing = true ∧ (u.chan n.val).play = none ∧ (u.chan n.val).mode = .idle) ∧
    (let sum := (((List.range 8).filter (· ≠ n.val)).map fun m => ((s.chan m).floorNext).getD (s.floorMw m)).sum +
        bitsOf v.toNat 15 0
     (sum ≤ 12000 →
      WriteDoes (.hapBudgetWrite r n v) r (R.hapBudget n.val) v s fun u =>
        u.chan n.val = { s.chan n.val with floorNext := some (bitsOf v.toNat 15 0) } ∧
        Leaves [.hap, .emits, .resp] [R.hapBudget n.val] s u) ∧
     (12000 < sum →
      WriteDoes (.hapBudgetWrite r n v) r (R.hapBudget n.val) v s fun u =>
        u.flag (R.hapBudget n.val) F.hapBudget_refused = true ∧ Leaves [.emits, .resp] [R.hapBudget n.val] s u)) ∧
    (bitAt v.toNat 0 = true →
      WriteDoes (.hapRbSnap r n v) r (R.hapRbCtrl n.val) v s fun u =>
        u.flag (R.hapRbCtrl n.val) F.hapRbCtrl_valid = true ∧ u.flag (R.hapRbCtrl n.val) F.hapRbCtrl_snap = false ∧
        (u.chan n.val).rb = wordsOf (s.progBytes n.val) ∧
        Leaves [.hap, .emits, .resp] [R.hapRbCtrl n.val] s u)

/-- Starts and stops wait for the next loop tick, a start with the priority that it has now: those of the station and of the
protected world by HAP_CMD, those of a slice by its trigger on a channel it has, which else answers result 4. -/
def Obligations.StartsAndStopsWaitForTheLoop : Prop :=
  ∀ (r : Req) (n : Fin 8) (m : Nat) (sl : Fin 256) (v : Word) (s : State),
    let due := s.time / 62500 + 1
    let ord := bitsOf v.toNat 27 24
    let q (src : HapSrc) (owner ord : Nat) (ownerSlice : Bool) : HapStart :=
      { src := src, owner := owner, ownerSlice := ownerSlice, prio := 0, level := bitsOf v.toNat 23 16,
        effect := bitsOf v.toNat 15 0, ord := ord, due := due }
    (bitAt v.toNat 31 = false →
      WriteDoes (.hapCmdStart r n v) r (R.hapCmd n.val) v s (fun u =>
        (u.chan n.val).starts = (s.chan n.val).starts ++
          [{ q (s.cmdSrc r).1 (s.cmdSrc r).2 0 false with
             prio := s.startPrio n.val (q (s.cmdSrc r).1 (s.cmdSrc r).2 0 false) }] ∧
        Keeps [.hap, .emits, .resp] s u) ∧
      (s.globalOf sl.val 5 ord = some m →
        WriteDoes (.sliceTriggerStart r sl v) r (R.slcHapTrig sl.val) v s fun u =>
          (u.chan m).starts = (s.chan m).starts ++
            [{ q .trigger sl.val ord true with prio := s.startPrio m (q .trigger sl.val ord true) }] ∧
          Keeps [.hap, .emits, .resp] s u) ∧
      (s.globalOf sl.val 5 ord = none → ord < 8 →
        WriteDoes (.sliceTriggerStart r sl v) r (R.slcHapTrig sl.val) v s fun u =>
          u.fld (K.hst sl.val ord 7) ⟨31, 24⟩ = 4 ∧ Leaves [.emits, .resp] [K.hst sl.val ord 7] s u)) ∧
    (bitAt v.toNat 31 = true →
      WriteDoes (.hapCmdStop r n v) r (R.hapCmd n.val) v s (fun u =>
        (u.chan n.val).stops = (s.chan n.val).stops ++
          [{ who := (s.cmdSrc r).2, isSlice := false, ord := 0, due := due, silent := false }] ∧
        Keeps [.hap, .emits, .resp] s u) ∧
      (s.globalOf sl.val 5 ord = some m →
        WriteDoes (.sliceTriggerStop r sl v) r (R.slcHapTrig sl.val) v s fun u =>
          (u.chan m).stops = (s.chan m).stops ++
            [{ who := sl.val, isSlice := true, ord := ord, due := due, silent := false }] ∧
          Keeps [.hap, .emits, .resp] s u) ∧
      (s.globalOf sl.val 5 ord = none → ord < 8 →
        WriteDoes (.sliceTriggerStop r sl v) r (R.slcHapTrig sl.val) v s fun u =>
          u.fld (K.hst sl.val ord 7) ⟨31, 24⟩ = 4 ∧ Leaves [.emits, .resp] [K.hst sl.val ord 7] s u))

/-- A play that is no stream brakes at its end tick; braking that is over is told at a loop tick and the pending start begins, or
the channel idles; a pending start that waits 64 ticks is dropped and counted; a sensor fault puts a channel that is polled, and
not already faulted by its sensor, in FAULT at a loop tick. -/
def Obligations.PlaysBrakeAndPendingStartsBegin : Prop :=
  ∀ (n : Fin 8) (p : Play) (q : HapStart) (s : State),
    ((s.chan n.val).mode = .playing → (s.chan n.val).play = some p → (p.req.src == .stream) = false →
      ∃ t, exec (.effectEnd n) s = .next t ∧ (t.chan n.val).mode = .braking ∧
        (t.chan n.val).brakeStart = t.time / 62500 ∧ t.time = max s.time (p.endTick * 62500) ∧
        Keeps [.time, .hap, .emits, .resp] s t) ∧
    ((s.chan n.val).mode = .braking →
      (∃ u : State, exec (.brakingEnd n) s = .next (u.beginPending n.val) ∧ u.hap = s.hap ∧
        u.time = nextGrid 62500 s.ticks.2.1 s.time ∧ u.time % 62500 = 0 ∧
        Tells [.time, .hif, .wld, .cic, .emits, .resp] [] [hapPage n.val] s u) ∧
      ((s.chan n.val).pend = none → ∃ t, exec (.brakingEnd n) s = .next t ∧ (t.chan n.val).mode = .idle ∧
        (t.chan n.val).play = none) ∧
      ((s.chan n.val).pend = some q → ∃ t, exec (.pendingStartExpiry n) s = .next t ∧ (t.chan n.val).pend = none ∧
        (t.chan n.val).mode = .braking ∧
        t.fld (R.hapDropped n.val) F.hapDropped_n = min (2 ^ (F.hapDropped_n.hi + 1 - F.hapDropped_n.lo) - 1)
          (s.fld (R.hapDropped n.val) F.hapDropped_n + 1) ∧
        Tells [.time, .hif, .hap, .wld, .cic, .emits, .resp] [R.hapDropped n.val] [hapPage n.val] s t)) ∧
    ((s.chan n.val).mode ≠ .off → (s.chan n.val).mode ≠ .fault ∨ (s.chan n.val).railFault = true →
      ∃ t, exec (.sensorFault n) s = .next t ∧ (t.chan n.val).mode = .fault ∧ (t.chan n.val).sensorFault = true ∧
        (t.chan n.val).railFault = false ∧ (t.chan n.val).play = none ∧ (t.chan n.val).pend = none ∧
        t.time = nextGrid 62500 s.ticks.2.1 s.time ∧ t.time % 62500 = 0 ∧
        Tells [.time, .hif, .hap, .wld, .cic, .emits, .resp] [R.hapDropped n.val] [hapPage n.val] s t)

/-- The rail, at a loop tick. A fault clears rail_ok and puts every enabled channel that is not OFF in FAULT, and no other; a
recovery sets rail_ok and lets the channels that the rail faulted ramp again, all but those that close. -/
def Obligations.TheRailFaultsAndRecovers : Prop :=
  ∀ (n : Fin 8) (s : State),
    (s.railOk = true ∨ (∃ m, m < 8 ∧ s.onRail m = true) → ∃ t, exec .railFault s = .next t ∧ t.railOk = false ∧
      t.flag (R.hapRail 0) F.hapRail_fault = true ∧
      (s.onRail n.val = true → (t.chan n.val).mode = .fault ∧ (t.chan n.val).railFault = true ∧
        (t.chan n.val).play = none ∧ (t.chan n.val).pend = none) ∧
      (s.onRail n.val = false → t.chan n.val = s.chan n.val) ∧
      t.time = nextGrid 62500 s.ticks.2.1 s.time ∧
      Tells [.time, .hif, .hap, .hapShared, .wld, .cic, .emits, .resp]
        (R.hapRail 0 :: (List.range 8).map R.hapDropped) ((List.range 8).map hapPage) s t) ∧
    (s.railOk = false → s.hapShared.railOn = true → ∃ t, exec .railRecovery s = .next t ∧ t.railOk = true ∧
      ((s.chan n.val).mode = .fault → (s.chan n.val).railFault = true → (s.chan n.val).closing = false →
        t.chan n.val = { s.chan n.val with mode := .ramp, railFault := false }) ∧
      ((s.chan n.val).mode ≠ .fault ∨ (s.chan n.val).railFault = false ∨ (s.chan n.val).closing = true →
        t.chan n.val = s.chan n.val) ∧
      t.time = nextGrid 62500 s.ticks.2.1 s.time ∧
      Leaves [.time, .hap, .hapShared, .emits, .resp] [R.hapRail 0] s t)

/-- The effect store. A word written goes to the address, and to no other byte, unless an effect of the old directory plays,
which refuses bytes above the directory; past the store a write has no effect but on the address; a read answers the word;
PUBLISH waits for the next loop tick.
A set-up transaction of an accelerometer on a channel that is OFF sends the bytes of its length in the channel's SPI mode,
where bank B is supplied, and leaves the chip's reply in their place; on another it is refused and sends nothing. -/
def Obligations.TheEffectStoreAndAccelerometersAreReached : Prop :=
  (∀ (r : Req) (v : Word) (s : State),
      WriteDoes (.storePublish r) r (R.hapStoreCtrl 0) 1#32 s (fun u =>
        u.hapShared.publish = true ∧ u.flag (R.hapStoreCtrl 0) F.hapStoreCtrl_publish = true ∧
        Leaves [.hapShared, .emits, .resp] [R.hapStoreCtrl 0] s u) ∧
      (s.storeAddr < storeEnd → (0x10000 ≤ s.storeAddr → s.oldBusy = false) →
        WriteDoes (.storeDataAccess r (some v)) r (R.hapStoreData 0) v s fun u =>
          Mem.read 0#8 u.mem.store s.storeAddr 4 = leBytes 4 v.toNat ∧
          (∀ a, a < s.storeAddr ∨ s.storeAddr + 4 ≤ a → Mem.read 0#8 u.mem.store a 1 = Mem.read 0#8 s.mem.store a 1) ∧
          u.storeAddr = (if s.storeAddr = storeEnd - 4 then 0 else s.storeAddr + 4) ∧
          Leaves [.mem, .emits, .resp] [R.hapStoreAddr 0] s u) ∧
      (0x10000 ≤ s.storeAddr → s.storeAddr < storeEnd → s.oldBusy = true →
        WriteDoes (.storeDataAccess r (some v)) r (R.hapStoreData 0) v s fun u =>
          u.mem = s.mem ∧ u.flag (R.hapStoreCtrl 0) F.hapStoreCtrl_write_refused = true) ∧
      (storeEnd ≤ s.storeAddr →
        WriteDoes (.storeDataAccess r (some v)) r (R.hapStoreData 0) v s fun u =>
          Leaves [.emits, .resp] [R.hapStoreAddr 0] s u) ∧
      (s.serves r (R.hapStoreData 0) = true → s.pageWorld1 (hapPage 0) = false → s.storeAddr < storeEnd →
        ∃ t, exec (.storeDataAccess r none) s = .next t ∧ t.resp = .data (Mem.read 0#8 s.mem.store s.storeAddr 4) ∧
          t.storeAddr = (if s.storeAddr = storeEnd - 4 then 0 else s.storeAddr + 4) ∧ t.mem = s.mem)) ∧
  (∀ (r : Req) (n : Fin 8) (v : Word) (reply : BitVec 24) (s : State), bitAt v.toNat 31 = true →
      let w := s.plainWrite (R.hapAccRaw n.val) (v &&& 0x7FFFFFFF#32)
      let len := min 2 (w.fld (R.hapAccRaw n.val) F.hapAccRaw_len_m1) + 1
      WriteDoes (.accRawTransaction r n v reply) r (R.hapAccRaw n.val) v s fun u =>
        ((s.chan n.val).mode = .off →
          u.fld (R.hapAccRaw n.val) F.hapAccRaw_data % 256 ^ len = reply.toNat % 256 ^ len ∧
          u.emits = (if s.secondary || s.bankFault true then []
            else [.accTransaction n.val (s.spiMode n.val) (leBytes len (w.fld (R.hapAccRaw n.val) F.hapAccRaw_data))])) ∧
        ((s.chan n.val).mode ≠ .off → u.flag (R.hapAccRaw n.val) F.hapAccRaw_refused = true ∧ u.emits = []) ∧
        Leaves [.emits, .resp] [R.hapAccRaw n.val] s u)

/-- A slice's streams. Enabling one starts it at its write position with nothing fetched; a write position within the ring is
taken and lets fetching go on, and one past it is ignored. -/
def Obligations.StreamsTakeTheirWords : Prop :=
  ∀ (r : Req) (sl : Fin 256) (c : Fin 8) (v : Word) (s : State),
    (bitAt v.toNat 0 = true →
      (s.streamOn sl.val (some c.val) = false → (s.globalOf sl.val 5 c.val).isSome = true →
        s.serves r (R.slcHapData sl.val) = true →
        ∃ u : State, exec (.streamEnable r sl (some c) v) s = .next (u.answered (R.slcHapData sl.val) v) ∧
          u.streamOn sl.val (some c.val) = true ∧
          u.rd (K.hst sl.val c.val 4) = s.rd (K.hst sl.val c.val 3) ∧ (u.hstSt (hstIdx sl.val c.val)).fetched = []) ∧
      (s.streamOn sl.val none = false → s.serves r (R.slcAudData sl.val) = true →
        ∃ u : State, exec (.streamEnable r sl none v) s = .next (u.answered (R.slcAudData sl.val) v) ∧
          u.streamOn sl.val none = true ∧
          u.rd (K.ast sl.val 4) = s.rd (K.ast sl.val 3) ∧ (u.astSt sl.val).fetched = [])) ∧
    ((s.globalOf sl.val 5 c.val).isSome = true → s.serves r (R.slcHapData sl.val) = true →
      ∃ u : State, exec (.streamWritePosition r sl (some c) v) s = .next (u.answered (R.slcHapData sl.val) v) ∧
        u.rd (K.hst sl.val c.val 3) =
          (if s.streamSize sl.val (some c.val) < (v.toNat + 2 ^ 32 - s.num (K.hst sl.val c.val 4)) % 2 ^ 32
           then s.rd (K.hst sl.val c.val 3) else v)) ∧
    (s.serves r (R.slcAudData sl.val) = true →
      ∃ u : State, exec (.streamWritePosition r sl none v) s = .next (u.answered (R.slcAudData sl.val) v) ∧
        u.rd (K.ast sl.val 3) =
          (if s.streamSize sl.val none < (v.toNat + 2 ^ 32 - s.num (K.ast sl.val 4)) % 2 ^ 32
           then s.rd (K.ast sl.val 3) else v))

/-- Slave TDM ports. A frame sync sends the samples mixed last in the slots that are on, those of the tick before while the last
are too new; a port that loses its clocks sets clock_lost. -/
def Obligations.SlavePortsFollowTheirClocks : Prop :=
  ∀ (p : Fin 4) (s : State), s.flag (R.audTdmCtrl p.val) F.audTdmCtrl_master = false →
    s.enabled (pageBase 0x72 p.val) = true →
    (s.tdmSends p.val = false → ∃ t, exec (.tdmFrameSync p) s = .next t ∧ t.emits = [] ∧ (t.tdmSt p.val).lost = false ∧
      Leaves [.tdm, .emits, .resp] [R.audTdmSlips p.val] s t) ∧
    (s.tdmSends p.val = true → ∃ t, exec (.tdmFrameSync p) s = .next t ∧
      t.emits = [.tdmFrame p.val (s.tdmSlots p.val
        (if sampleTime (s.tdmSt p.val).mixTick + 10400 ≤ s.time then (s.tdmSt p.val).mixed else (s.tdmSt p.val).prev))] ∧
      (t.tdmSt p.val).lost = false ∧ Leaves [.tdm, .emits, .resp] [R.audTdmSlips p.val] s t) ∧
    (∃ t, exec (.tdmClockLost p) s = .next t ∧ t.flag (R.audTdmCtrl p.val) F.audTdmCtrl_clock_lost = true ∧
      (t.tdmSt p.val).lost = true ∧ Leaves [.tdm, .emits, .resp] [R.audTdmCtrl p.val] s t)

/-! ### Control cores and the protected world (11_control_cores_and_the_protected_world.md) -/

/-- The gate. A call from GENERAL machine mode is refused with the first condition that fails, its status in rd; one that passes
saves the callee-saved registers and the pc, takes the token and goes to the service's entry with its arguments. From elsewhere,
as an exit from GENERAL or from user mode, it is illegal, and a core that does not run does nothing. A forced entry that is due
and a restart entry save every register, take a free token and wait for it; a restart whose image fails its check parks the world.
A saved exit restores what its entry saved, with the status and the results of a gate call or the mode that the entry left, and
frees the token; the first exit goes to the general entry once the world is locked. -/
def Obligations.TheProtectedWorldIsEnteredAndLeft : Prop :=
  ∀ (c : Fin 4) (rd : Fin 32) (v : Word) (s : State),
    let x := s.core c.val
    let area (t : State) (l : Bool) : Prop := t.saved c.val 31 = x.pc ∧
      ∀ n, 0 < n → n < 32 → t.saved c.val (n - 1) = if l || calleeSaved n then x.reg n else 0#32
    let trapped (i : Instr) : Prop := ∃ t, exec i s = .next t ∧ (t.core c.val).st = x.st ∧ (t.core c.val).user = false ∧
      Tab.get 0#32 (t.core c.val).bank csr.mcause = 2#32 ∧ Tab.get 0#32 (t.core c.val).bank csr.mepc = x.pc ∧
      Keeps [.wld, .freeCtr, .emits, .resp] s t
    let entered (t : State) (l : Bool) (e : EntryKind) : Prop := t.wld.token = some c.val ∧ (t.core c.val).st = 1 ∧
      (t.core c.val).entry = some e ∧ area t l
    let status := if s.armed = false ∨ s.parked = true then 2
      else if (v.toNat < 64 && s.serviceValid v.toNat) = false then 3 else if s.tokenBusy then 1 else 0
    let tv := (Tab.get 0#32 x.p csr.mtvec).toNat
    (x.runs = false → exec (.gateCall c rd v) s = .next s.begin ∧ exec (.worldExit c v) s = .next s.begin) ∧
    (x.runs = true → (x.user = true ∨ x.st ≠ 0 → trapped (.gateCall c rd v)) ∧
      (x.user = true ∨ x.st = 0 → trapped (.worldExit c v))) ∧
    (x.runs = true → x.user = false → x.st = 0 →
      (status ≠ 0 → ∃ t, exec (.gateCall c rd v) s = .next t ∧ t.core c.val = (x.setReg rd.val (w32 status)).next ∧
        Leaves [.wld, .emits, .resp] [R.wldGateRefused] s t) ∧
      (status = 0 → ∃ t, exec (.gateCall c rd v) s = .next t ∧ entered t false (.gate rd.val) ∧
        (t.core c.val).pc.toNat = s.num (K.gateEntry v.toNat) / 4 * 4 ∧
        (∀ n, (t.core c.val).reg n = if 10 ≤ n ∧ n ≤ 17 then x.reg n else 0#32) ∧
        Leaves [.wld, .mem, .emits, .resp] [R.wldGateCalls] s t)) ∧
    (let due := s.forcedDue c.val = true ∧ s.wld.token = none ∧ ∀ d, d < c.val → s.forcedDue d = false
     (due → ∃ t, exec (.forcedEntry c) s = .next t ∧ entered t true (.forced x.user) ∧ (t.core c.val).wfi = false ∧
        (t.core c.val).user = false ∧ (t.core c.val).x = [] ∧
        (t.core c.val).pc = w32 (if tv % 4 = 1 then tv / 4 * 4 + 44 else tv / 4 * 4) ∧
        Tab.get 0#32 (t.core c.val).p csr.mcause = 0x8000000B#32 ∧ Keeps [.wld, .mem, .emits, .resp] s t) ∧
     (¬due → exec (.forcedEntry c) s = .next s.begin)) ∧
    (let due := s.wld.restartDue = true ∧ s.wld.token = none ∧ s.anyForced = false ∧ s.restartCore.isSome = true
     let img := s.imgError (copyBase (s.flag R.bootStatus F.bootStatus_copy)) 0x800000 1
     (due → s.restartCore = some c.val → ∃ t, exec .restartEntry s = .next t ∧ t.wld.restartDue = false ∧
        (img = 0 → entered t true (.restart x.user) ∧ (t.core c.val).pc = 0x100#32 ∧ (t.core c.val).x = []) ∧
        (img ≠ 0 → t.flag R.wldStatus F.wldStatus_parked = true ∧ t.wld.wdog = none ∧ t.core c.val = s.core c.val)) ∧
     (¬due → exec .restartEntry s = .next s.begin)) ∧
    (x.runs = true → x.user = false → x.st ≠ 0 → x.unsaved = false ∨ x.st = 2 →
      ∃ t, exec (.worldExit c v) s = .next t ∧ (t.core c.val).st = 0 ∧ (t.core c.val).entry = none ∧
        (s.wld.token = some c.val → t.wld.token = none) ∧ Leaves [.wld, .emits, .resp] [R.bootStatus] s t ∧
        (∀ n, x.entry = some (.gate n) → (t.core c.val).pc = s.saved c.val 31 + 4#32 ∧ (t.core c.val).user = false ∧
          ∀ i, 0 < i → i < 32 → (t.core c.val).reg i = if i = n then 0#32 else if calleeSaved i then s.saved c.val (i - 1)
            else if i = 10 then x.reg 10 else if i = 11 then x.reg 11 else 0#32) ∧
        (x.entry = some .monitor → (t.core c.val).pc = s.saved c.val 31 + 4#32 ∧ (t.core c.val).user = false ∧
          ∀ i, 0 < i → i < 32 → (t.core c.val).reg i = if calleeSaved i then s.saved c.val (i - 1)
            else if i = 10 then x.reg 10 else if i = 11 then x.reg 11 else 0#32) ∧
        (∀ u, x.entry = some (.forced u) ∨ x.entry = some (.restart u) →
          (t.core c.val).pc = s.saved c.val 31 ∧ (t.core c.val).user = u ∧
          ∀ i, 0 < i → i < 32 → (t.core c.val).reg i = s.saved c.val (i - 1))) ∧
    (x.runs = true → x.user = false → x.st = 1 → x.unsaved = true →
      (s.worldLocked = true → ∃ t, exec (.worldExit c v) s = .next t ∧ (t.core c.val).st = 0 ∧ (t.core c.val).x = [] ∧
        (t.core c.val).pc = s.generalEntry ∧ (s.wld.token = some c.val → t.wld.token = none) ∧
        (s.stage = 5 ∨ s.stage = 0xE → t.stage = 6) ∧ Leaves [.wld, .emits, .resp] [R.bootStatus] s t) ∧
      (s.worldLocked = false → ∃ t, exec (.worldExit c v) s = .next t ∧ t.core c.val = x.next ∧
        Keeps [.wld, .emits, .resp] s t))

/-- Monitor calls of a core that runs in GENERAL machine mode with its monitor on return with the pc after the call, the
callee-saved registers as they were, the two results and zero elsewhere: QUERY the status and the version, POST a ticket for
the lowest free slot or why there is none, POLL the slot's answer or that the ticket is stale, and a reserved function 0xFF. With
its monitor off, or in user mode, the call is an environment call of the general world. -/
def Obligations.MonitorCallsReturnTheirResults : Prop :=
  ∀ (c : Fin 4) (s : State),
    let x := s.core c.val
    let back (t : State) (a0 a1 : Word) : Prop := (t.core c.val).st = 0 ∧ (t.core c.val).pc = x.pc + 4#32 ∧
      (∀ n, 0 < n → n < 32 → (t.core c.val).reg n = if calleeSaved n then x.reg n else if n = 10 then a0
        else if n = 11 then a1 else 0#32)
    let k := (x.reg 10).toNat % 16
    let fresh := (x.reg 10).toNat / 256 = bitsOf (s.num (K.mailbox k 0)) 23 16 ∧ (x.reg 10).toNat / 16 % 16 = 0
    let gives (i : Instr) (a0 a1 : Word) : Prop :=
      ∃ t, exec i s = .next t ∧ back t a0 a1 ∧ Keeps [.wld, .mem, .emits, .resp] s t
    x.runs = true → x.st = 0 →
      (∀ i ∈ ([.query c, .post c, .poll c, .monitorReservedFunction c] : List Instr),
        x.user = true ∨ bitAt (s.num R.wldCoreCtrl) c.val = false → ∃ t, exec i s = .next t ∧ (t.core c.val).st = 0 ∧
          Tab.get 0#32 (t.core c.val).g csr.mcause = (if x.user then 8#32 else 11#32) ∧
          Tab.get 0#32 (t.core c.val).g csr.mepc = x.pc ∧ Keeps [.wld, .emits, .resp] s t) ∧
      (x.user = false → bitAt (s.num R.wldCoreCtrl) c.val = true →
        gives (.query c) (s.wstat c.val + 0x80000000#32) (s.rd R.wldFwVersion) ∧
        gives (.monitorReservedFunction c) 0xFF#32 0#32 ∧
        (64 ≤ (x.reg 10).toNat → gives (.post c) 3#32 0#32) ∧
        ((x.reg 10).toNat < 64 → s.parked = true → gives (.post c) 2#32 0#32) ∧
        ((x.reg 10).toNat < 64 → s.parked = false → s.freeSlot = none → gives (.post c) 1#32 0#32) ∧
        (∀ j, (x.reg 10).toNat < 64 → s.parked = false → s.freeSlot = some j →
          let g := (bitsOf (s.num (K.mailbox j 0)) 23 16 + 1) % 256
          ∃ t, exec (.post c) s = .next t ∧ back t 0#32 (w32 (g * 256 + j)) ∧
            t.num (K.mailbox j 0) = 2 ^ 30 + g * 2 ^ 16 + c.val * 2 ^ 8 + (x.reg 10).toNat ∧
            (∀ i, 0 < i → i < 6 → t.rd (K.mailbox j i) = x.reg (10 + i)) ∧
            Tells [.hif, .wld, .cic, .mem, .emits, .resp] ((List.range 6).map (K.mailbox j)) [pageBase 0x80 2] s t) ∧
        (¬fresh ∨ s.slotState k = 0 → gives (.poll c) 3#32 0#32) ∧
        (fresh → s.slotState k = 1 → gives (.poll c) 0#32 0#32) ∧
        (fresh → 2 ≤ s.slotState k → ∃ t, exec (.poll c) s = .next t ∧ t.slotState k = 0 ∧
          back t (if s.slotState k = 2 then 1#32 else 2#32) (if s.slotState k = 2 then s.rd (K.mailbox k 6) else 0#32) ∧
          Leaves [.wld, .mem, .emits, .resp] [K.mailbox k 0] s t))

/-- What a core that runs does by itself. An exception in GENERAL or PROTECTED traps through the bank of its world, and in MONITOR
it ends the call with 0xFF; an access faults with its cause and address, or reads and writes its bytes, but for the save areas
and for DRAM that cannot be corrected; an interrupt that its bank does not mask is taken; MRET and WFI act as RISC-V has them and
FENCE.I clears the fetches of the ways it may act on. Cache maintenance leaves the lines that it selects clean, or drops exactly
them, and the pc goes on. -/
def Obligations.CoresTrapAndKeepTheirCaches : Prop :=
  ∀ (c : Fin 4) (cause n : Nat) (a tval : Word) (k : AccessKind) (data : List Byte) (cached pw : Bool) (ecc : Ecc) (s : State),
    let x := s.core c.val
    let step (t : State) : Prop := t.core c.val = x.next
    let does (e : CoreExc) (P : State → Prop) : Prop := ∃ u : State, exec (.coreException c e) s = .next u.settleNotice ∧ P u
    let was (r : Nat) : Word := Tab.get 0#32 x.bank r
    let now (u : State) (r : Nat) : Word := Tab.get 0#32 (u.core c.val).bank r
    let tv := (was csr.mtvec).toNat
    let traps (u : State) (m tv' : Word) (pc : Nat) : Prop := (u.core c.val).st = x.st ∧ (u.core c.val).user = false ∧
      (u.core c.val).pc = w32 pc ∧ now u csr.mepc = x.pc ∧ now u csr.mcause = m ∧ now u csr.mtval = tv'
    let off := a.toNat - 0x10000000
    x.runs = true →
      (x.st ≠ 2 → does (.other cause tval) fun u => traps u (w32 cause) tval (tv / 4 * 4) ∧ Keeps [.wld, .emits, .resp] s u) ∧
      (x.st = 2 → x.entry = some .monitor → does (.other cause tval) fun u => (u.core c.val).st = 0 ∧
        (u.core c.val).reg 10 = 0xFF#32 ∧ (u.core c.val).reg 11 = 0#32 ∧ Keeps [.wld, .emits, .resp] s u) ∧
      (let fault := (s.accessFault c.val a.toNat k).1
       let d := s.begin.dramRead (x.windowOff a.toNat) (AccessKind.len (.load n)) c.val 0 ecc
       (fault = true → x.st ≠ 2 → does (.access a k cached ecc) fun u => traps u (w32 (faultCause k)) a (tv / 4 * 4)) ∧
       (fault = false →
        (0x10000000 ≤ a.toNat → a.toNat < 0x20000000 →
          (k = .load n → does (.access a k cached ecc) fun u =>
            u.resp = .data (Mem.read 0#8 s.mem.ctl off (AccessKind.len k)) ∧ Keeps [.emits, .resp] s u) ∧
          (k = .store data → does (.access a k cached ecc) fun u =>
            (∀ b, Mem.read 0#8 u.mem.ctl b 1 =
              if off ≤ b ∧ b < off + data.length ∧ ¬(saveArea 0 ≤ b ∧ b < saveArea 4) then (data.drop (b - off)).take 1
              else Mem.read 0#8 s.mem.ctl b 1) ∧ Keeps [.mem, .emits, .resp] s u)) ∧
        (0x80000000 ≤ a.toNat → k = .load n →
          (d.2.1 = [] → does (.access a k false ecc) fun u => u.resp = .data d.1) ∧
          (d.2.1 ≠ [] → x.st ≠ 2 → does (.access a k false ecc) fun u => traps u 5#32 a (tv / 4 * 4))))) ∧
      (let due := x.st ≠ 2 ∧ s.meip c.val (x.st != 0) = true ∧ bitAt (was csr.mie).toNat 11 = true ∧
        (x.user = true ∨ bitAt (was csr.mstatus).toNat 3 = true)
       (due → does .interrupt fun u =>
          traps u 0x8000000B#32 0#32 (if tv % 4 = 1 then tv / 4 * 4 + 44 else tv / 4 * 4) ∧ Keeps [.wld, .emits, .resp] s u) ∧
       (¬due → does .interrupt fun u => u = s.begin)) ∧
      (x.user = false → does .mret fun u => (u.core c.val).st = x.st ∧ (u.core c.val).pc = was csr.mepc ∧
        ((u.core c.val).user = true ↔ bitsOf (was csr.mstatus).toNat 12 11 ≠ 3) ∧
        bitAt (now u csr.mstatus).toNat 3 = bitAt (was csr.mstatus).toNat 7 ∧ Keeps [.wld, .emits, .resp] s u) ∧
      (x.user = false ∨ bitAt (was csr.mstatus).toNat 21 = false → does .wfi fun u => (u.core c.val).pc = x.pc + 4#32 ∧
        ((u.core c.val).wfi = true ↔ s.meip c.val false = false ∧ s.meip c.val true = false) ∧ Keeps [.wld, .emits, .resp] s u) ∧
      (does .fenceI fun u => (u.core c.val).pc = x.pc + 4#32 ∧
        ∀ l ∈ u.wld.lines, l.core = c.val → x.st = 1 ∨ s.wayProtected l = false → l.instr = false ∧ l.dirty = false) ∧
      (x.user = false →
        (∃ t, exec (.cleanL1d c pw) s = .next t ∧ step t ∧
          (∀ l ∈ t.wld.lines, s.selects c.val c.val false pw l = true → l.dirty = false)) ∧
        (∃ t, exec (.cleanL2 c pw) s = .next t ∧ step t ∧
          (∀ l ∈ t.wld.lines, s.selects c.val 4 false pw l = true → l.dirty = false)) ∧
        (∃ t, exec (.invL1d c pw) s = .next t ∧ step t ∧
          t.wld.lines = s.wld.lines.filter (fun l => !s.selects c.val c.val false pw l) ∧ Keeps [.wld, .emits, .resp] s t) ∧
        (∃ t, exec (.invL1i c pw) s = .next t ∧ step t ∧
          t.wld.lines = s.wld.lines.filter (fun l => !s.selects c.val c.val true pw l) ∧ Keeps [.wld, .emits, .resp] s t) ∧
        (∃ t, exec (.invL2 c pw) s = .next t ∧ step t ∧
          t.wld.lines = s.wld.lines.filter (fun l => !s.selects c.val 4 false pw l) ∧ Keeps [.wld, .emits, .resp] s t))

/-- The registers of the protected world. A mailbox slot goes from PENDING to DONE, with its source told; a block that can be
assigned becomes one of the protected world and its source a world-1 source; the cache ways move and no line stays in a moved
way; the watchdog starts again with its code. -/
def Obligations.TheProtectedWorldTakesItsWrites : Prop :=
  ∀ (r : Req) (v : Word) (n : Nat) (s : State),
    (∀ k, s.mboxSel = (k, 0) → s.slotState k = 1 → bitsOf v.toNat 31 30 = 2 →
      WriteDoes (.mailboxDoneWrite r v) r R.wldMboxData v s fun u =>
        u.slotState k = 2 ∧ (u.src 318).pending = true ∧ u.mboxSel = (k, 1) ∧ Leaves [.wld, .cic, .emits, .resp] [K.mailbox k 0, R.wldMboxSel] s u) ∧
    (let ty := bitsOf v.toNat 23 8
     let inst := bitsOf v.toNat 7 0
     let ok := assignable.any fun (t, m, permitted) =>
        t == ty && inst < m && s.ownerKind (pageBase ty inst) == b2n permitted
     v.toNat % 2 ^ 24 ≠ 0 →
     (s.flag R.wldLock F.wldLock_assign_lock = false → ok = true → sourceOf ty inst = some n →
      WriteDoes (.wldAssignWrite r v) r R.wldAssign v s fun u =>
        u.num (pageBase ty inst + 0x1C) = 0x80000100 ∧ u.srcWorld1 n = true ∧ u.gateBit n = true ∧
        Leaves [.wld, .cic, .clk, .emits, .resp] [pageBase ty inst + 0x1C, pageBase ty inst + 0x20, R.clkGate (n / 32), R.wldSrcWorld (n / 32), R.wldAssign] s u) ∧
     (s.flag R.wldLock F.wldLock_assign_lock = true ∨ ok = false →
      WriteDoes (.wldAssignWrite r v) r R.wldAssign v s fun u =>
        u.flag R.wldAssign F.wldAssign_refused = true ∧ Leaves [.emits, .resp] [R.wldAssign] s u)) ∧
    WriteDoes (.cacheWaysWrite r v) r R.wldCacheWays v s (fun u =>
      u.rd R.wldCacheWays =
        writeFields (fieldsAt 0x80 0 0x064) (s.rwlLocked 0x80 0 R.wldCacheWays) (s.rd R.wldCacheWays) v ∧
      ∀ l ∈ u.wld.lines, l.core ≠ 4 →
        bitAt (Fld.get (if l.instr then ⟨7, 0⟩ else ⟨15, 8⟩) (s.rd R.wldCacheWays ^^^ u.rd R.wldCacheWays)) l.way = false) ∧
    (v = 0xC35A#32 → s.flag R.wldWdogCtrl F.wldWdogCtrl_enabled = true →
      WriteDoes (.wdogKick r v) r R.wldWdogKick v s fun u =>
        u.wld.wdog = some (s.time + max 1 (s.fld R.wldWdogCtrl F.wldWdogCtrl_timeout_ms) * 1000000) ∧
        Keeps [.wld, .emits, .resp] s u) ∧
    (v ≠ 0xC35A#32 ∨ s.flag R.wldWdogCtrl F.wldWdogCtrl_enabled = false →
      WriteDoes (.wdogKick r v) r R.wldWdogKick v s fun u => u = s.begin)

/-- A reset of the protected world, by its watchdog or by itself, stops it: running and armed are 0, the cause and the count of
restarts are told, the watchdog has 2000 ms, no edge of a source of it is pending and no line of it stays in a cache. When the
reset is over a restart is due, or the world is parked. A power notice that is answered or times out is over, and the change of power is decided. -/
def Obligations.TheProtectedWorldIsReset : Prop :=
  ∀ (r : Req) (n t0 : Nat) (s : State),
    let stopped (u : State) (cause time : Nat) : Prop :=
      u.flag R.wldStatus F.wldStatus_running = false ∧ u.armed = false ∧ u.fld R.wldStatus F.wldStatus_last_cause = cause ∧
      u.fld R.wldStatus F.wldStatus_restarts =
        min (2 ^ (F.wldStatus_restarts.hi + 1 - F.wldStatus_restarts.lo) - 1) (s.fld R.wldStatus F.wldStatus_restarts + 1) ∧
      u.wld.resetting = true ∧ u.wld.restartDue = false ∧ u.wld.wdog = some (time + 2000000000) ∧
      (∀ k, k < 448 → u.srcWorld1 k = true → (u.src k).pending = false) ∧ ∀ l ∈ u.wld.lines, u.wayProtected l = false
    (s.wld.wdog = some t0 → ∃ u : State, exec .pwWatchdogExpiry s = .next u.settleNotice ∧
      u.time = max s.time t0 ∧ stopped u 1 u.time) ∧
    WriteThen (.selfReset r) r R.wldPwCtrl ((s.rd R.wldPwCtrl &&& 0xF0#32) ||| 0x80000000#32) s
      (fun u => u.settleNotice) (fun u => stopped u 2 s.time) ∧
    (s.wld.resetting = true →
      (s.wld.pendingPark = false → ∃ u : State, exec .pwResetComplete s = .next u.settleNotice ∧
        u.wld.resetting = false ∧ u.wld.restartDue = true ∧ Keeps [.wld, .emits, .resp] s u) ∧
      (s.wld.pendingPark = true → ∃ u : State, exec .pwResetComplete s = .next u.settleNotice ∧
        u.wld.resetting = false ∧ u.flag R.wldStatus F.wldStatus_parked = true ∧
        u.flag R.wldWdogCtrl F.wldWdogCtrl_enabled = false ∧ u.wld.wdog = none)) ∧
    (s.wld.notice = some (n, t0) →
      (∃ u : State, exec .powerNoticeTimeout s = .next (u.decidePower n false) ∧ u.wld.notice = none ∧
        u.time = max s.time t0 ∧ u.flag R.wldPwrNotice F.wldPwrNotice_pending = false ∧
        Leaves [.time, .wld, .emits, .resp] [R.wldPwrNotice] s u) ∧
      WriteThen (.powerNoticeReady r) r R.wldPwrNotice 0x40000000#32 s (fun u => u.decidePower n false) fun u =>
        u.wld.notice = none ∧ u.flag R.wldPwrNotice F.wldPwrNotice_pending = false ∧
        Leaves [.wld, .emits, .resp] [R.wldPwrNotice] s u)

/-! ### Interrupt delivery (12_interrupt_delivery.md) -/

/-- Claims, completions, configurations, software interrupts and timers. A claim answers the best delivered source of the
requester's world and marks it claimed; its claimer completes it, and another's completion is counted; a source's configuration
is written but for a world-1 source from outside the protected world, and the selection moves on; a software interrupt is an
edge of each core named; a timer's source is asserted while station time is at or above its compare value. -/
def Obligations.SourcesAreClaimedAndCompleted : Prop :=
  ∀ (r : Req) (c n : Fin 4) (p : Option (BitVec 20)) (v : Word) (s : State),
    (s.serves (.core c) R.cicClaim = true → s.pageWorld1 (pageOf R.cicClaim) = false →
      let m := s.bestSource c.val (s.reqWorld1 (.core c))
      ∃ t, exec (.cicClaim (.core c)) s = .next t ∧ t.resp = .data (leBytes 4 (w32 m).toNat) ∧
        (m ≠ 0 → t.src m = { s.src m with pending := false, claimed := true, claimer := c }) ∧
        (∀ k, k ≠ m → t.src k = s.src k) ∧ Keeps [.cic, .pair, .emits, .resp] s t) ∧
    (let m := bitsOf v.toNat 8 0
     ((s.src m).claimed = true → (s.src m).claimer = c →
      WriteDoes (.cicComplete (.core c) v) (.core c) R.cicClaim v s fun u =>
        u.src m = { s.src m with claimed := false } ∧ (∀ k, k ≠ m → u.src k = s.src k) ∧ Keeps [.wld, .cic, .emits, .resp] s u) ∧
     ((s.src m).claimed = false ∨ (s.src m).claimer ≠ c →
      WriteDoes (.cicComplete (.core c) v) (.core c) R.cicClaim v s fun u =>
        u.fld R.cicCompleteErr F.cicCompleteErr_n = min (2 ^ (F.cicCompleteErr_n.hi + 1 - F.cicCompleteErr_n.lo) - 1)
          (s.fld R.cicCompleteErr F.cicCompleteErr_n + 1) ∧ Leaves [.emits, .resp] [R.cicCompleteErr] s u)) ∧
    WriteDoes (.cicComplete (.host p) v) (.host p) R.cicClaim v s (fun u => u = s.begin) ∧
    (let next := if s.srcSel = 447 then 0 else s.srcSel + 1
     (s.srcWorld1 s.srcSel = true → s.reqProtected r = true) →
      WriteDoes (.cicSrcCfgWrite r v) r R.cicSrcCfg v s fun u =>
        u.src s.srcSel = { s.src s.srcSel with cfg := v &&& 0x731#32 } ∧ u.srcSel = next ∧
        Leaves [.wld, .cic, .emits, .resp] [R.cicSrcSel] s u) ∧
    (s.srcWorld1 s.srcSel = true → s.reqProtected r = false →
      WriteDoes (.cicSrcCfgWrite r v) r R.cicSrcCfg v s fun u =>
        (u.src s.srcSel).cfg = (s.src s.srcSel).cfg ∧
        u.fld R.wldXwDenied F.wldXwDenied_n = min (2 ^ (F.wldXwDenied_n.hi + 1 - F.wldXwDenied_n.lo) - 1)
          (s.fld R.wldXwDenied F.wldXwDenied_n + 1)) ∧
    WriteDoes (.cicSwi r v) r R.cicSwi v s (fun u =>
      (∀ k, k < 4 → bitAt v.toNat k = true → (u.src (319 + k)).pending = true) ∧
      (∀ k, (k < 319 ∨ 323 ≤ k ∨ bitAt v.toNat (k - 319) = false) → u.src k = s.src k) ∧ Keeps [.wld, .cic, .emits, .resp] s u) ∧
    WriteDoes (.timerCompareWrite r n v) r (R.cicTcmpHi n.val) v s (fun u =>
      u.compare n.val = s.num (R.cicTcmpLo n.val) + v.toNat * 2 ^ 32 ∧
      (u.src (323 + n.val)).input = decide (s.num (R.cicTcmpLo n.val) + v.toNat * 2 ^ 32 ≤ s.now) ∧
      Leaves [.wld, .cic, .emits, .resp] [R.cicTcmpHi n.val] s u) ∧
    (∃ t, exec (.coreTimerAssert n) s = .next t ∧ (t.src (323 + n.val)).input = decide (s.compare n.val ≤ s.now) ∧
      (∀ k, k ≠ 323 + n.val → t.src k = s.src k) ∧ Keeps [.wld, .cic, .emits, .resp] s t)

/-! ### The memory controller (13_memory_controller.md) -/

/-- Set points and temperatures. A request past sp_min leaves the target; one that reserves no less starts a switch, one that
reserves less asks for a reduction first; a switch that is done is the set point in use. A hot channel asks for a reduction, a
hotter one extends the range at once, and a cool controller records its temperatures and changes nothing else. -/
def Obligations.SetPointsAndTemperatures : Prop :=
  ∀ (r : Req) (v : Word) (sp : Nat) (ts : List Int) (ch : Fin 8) (s : State),
    (let m := (s.plainWrite R.dmcCtrl v).fld R.dmcCtrl F.dmcCtrl_sp_min
     let new := F.dmcCtrl_sp_target.get v
     (m < new → WriteDoes (.setPointRequest r v) r R.dmcCtrl v s fun u =>
        u.fld R.dmcCtrl F.dmcCtrl_sp_target = s.fld R.dmcCtrl F.dmcCtrl_sp_target ∧ Leaves [.emits, .resp] [R.dmcCtrl] s u) ∧
     (new ≤ m → s.pwr.saved = none → s.dmcReady = true → s.dmc.switching = none →
      (spReserve s.spNow ≤ spReserve new → s.reducing = none → new ≠ s.spNow →
        WriteDoes (.setPointRequest r v) r R.dmcCtrl v s fun u =>
          u.dmc.switching = some new ∧ u.flag R.dmcStatus F.dmcStatus_switching = true ∧
          u.fld R.dmcCtrl F.dmcCtrl_sp_target = new ∧ Leaves [.dmc, .emits, .resp] [R.dmcCtrl, R.dmcStatus] s u) ∧
      (spReserve new < spReserve s.spNow →
        WriteDoes (.setPointRequest r v) r R.dmcCtrl v s fun u =>
          u.reducing = some new ∧ u.fld R.dmcCtrl F.dmcCtrl_sp_target = new ∧ u.dmc = s.dmc))) ∧
    (s.dmc.switching = some sp → sp < 4 → s.holdover = false →
      ∃ u : State, exec .setPointChangeDone s = .next (
          match s.dmc.target with
          | some next => (if spReserve s.spNow < spReserve sp then u.shedPass false else u).pursue next
          | none => if spReserve s.spNow < spReserve sp then u.shedPass false else u) ∧
        u.spNow = sp ∧ u.dmc.switching = none ∧ u.dmc.target = none ∧
        u.flag R.dmcStatus F.dmcStatus_switching = false ∧ u.reducing = none ∧
        Tells [.hif, .wld, .cic, .dmc, .reductions, .pair, .emits, .resp] [R.dmcStatus, R.bplCapacity 0] [pageBase 0x90 0, pageBase 0x40 0] s u) ∧
    (s.counting = true →
      let asked (t : State) : Prop := t.reductions.any (fun e => e.cause == 1) = true
      ((∀ x ∈ ts, x < 80) → ¬asked s → s.extNow = false →
        ∃ t, exec (.temperatureMeasurement ts) s = .next t ∧ t.time = nextGrid 16000000 s.dmc.lastTemp s.time ∧
          t.dmc.lastTemp = t.time ∧
          (∀ n x, n < 8 → ts[n]? = some x → t.fld (R.dmcChTemp n) ⟨7, 0⟩ = unsigned 8 x % 256) ∧
          Leaves [.time, .dmc, .emits, .resp] ((List.range 8).map R.dmcChTemp) s t) ∧
      ((∃ x ∈ ts, 80 ≤ x) → (∀ x ∈ ts, x < 85) → s.extNow = false →
        ∃ t, exec (.temperatureMeasurement ts) s = .next t ∧ asked t ∧ t.extNow = false) ∧
      ((∃ x ∈ ts, 85 ≤ x) → s.extNow = false ∨ asked s →
        ∃ t, exec (.temperatureMeasurement ts) s = .next t ∧ t.extNow = true ∧ ¬asked t)) ∧
    (∃ t, exec (.trackingStep ch) s = .next t ∧ Keeps [.emits, .resp] s t)

/-- Refreshes, the write queue, errors and disturbed rows. A refresh postponed or pulled in moves the channel's credit; a drain
leaves at most the low mark of a channel's writes and every write of the others; a scrub read moves to the next block; a row at
its threshold is counted, told and throttled but for real-time requests; a throttle and a window end; an error is injected for
the requesters that may. The next of the waiting requests is one of them that no other goes before: real-time requests first,
then those that have waited 20 µs, oldest first, then by port. -/
def Obligations.MemoryIsMaintained : Prop :=
  ∀ (r : Req) (v : Word) (ch other : Fin 8) (rp : Bool) (bank : Fin 16) (row : Fin 32768) (req : DramReq) (res : EccRes)
    (s : State),
    (s.dmcReady = true → s.dmc.selfRefresh = false →
      (∃ t, exec (.refresh ch .postpone) s = .next t ∧
        t.postponed ch.val = (if s.postponed ch.val < 8 then s.postponed ch.val + 1 else s.postponed ch.val) ∧
        Leaves [.emits, .resp] [R.dmcChStatus ch.val] s t) ∧
      (∃ t, exec (.refresh ch .pullIn) s = .next t ∧ t.postponed ch.val = s.postponed ch.val - 1 ∧
        Leaves [.emits, .resp] [R.dmcChStatus ch.val] s t) ∧
      (∃ t, exec (.refresh ch .due) s = .next t ∧ Keeps [.emits, .resp] s t) ∧
      (s.flag R.dmcCtrl F.dmcCtrl_scrub_en = true → s.fld R.dmcScrubPos F.dmcScrubPos_block < dramBlocks →
        ∃ t, exec (.patrolScrubRead res) s = .next t ∧ t.fld R.dmcScrubPos F.dmcScrubPos_block =
          (s.fld R.dmcScrubPos F.dmcScrubPos_block + 1) % dramBlocks ∧
        Tells [.hif, .wld, .cic, .dmc, .emits, .resp] (R.dmcScrubPos :: R.dmcCeCount :: R.dmcUeCount :: R.dmcUeInfo ::
          R.dmcUeBlock :: (List.range 8).map R.dmcChCe ++ (List.range 8).map R.dmcChUe) [pageBase 0x90 0] s t)) ∧
    ((s.drainDue ch.val rp = true → ∃ t, exec (.writeQueueDrain ch rp) s = .next t ∧
        t.wqFill ch.val = min (s.wqFill ch.val) (s.fld R.dmcWq F.dmcWq_wq_low) ∧
        (other ≠ ch → t.dmc.queue.filter (fun e => blockChannel e.1 == other.val) =
          s.dmc.queue.filter fun e => blockChannel e.1 == other.val) ∧ Keeps [.dmc, .emits, .resp] s t) ∧
     (s.drainDue ch.val rp = false → ∃ t, exec (.writeQueueDrain ch rp) s = .next t ∧ Keeps [.emits, .resp] s t)) ∧
    (s.rowReached ch.val bank.val row.val req = true → ∃ t, exec (.rowHammerThreshold ch bank row req) s = .next t ∧
      t.rowCount ch.val bank.val row.val = 0 ∧
      (req ≠ .realTime → t.fld R.dmcHammerCount F.dmcHammerCount_n =
          min (2 ^ (F.dmcHammerCount_n.hi + 1 - F.dmcHammerCount_n.lo) - 1)
            (s.fld R.dmcHammerCount F.dmcHammerCount_n + 1) ∧
        t.flag R.dmcHammerInfo F.dmcHammerInfo_valid = true ∧
        (s.fld R.dmcHammer F.dmcHammer_strikes ≤ 1 → (throttleKey req, s.time + 64000000) ∈ t.dmc.throttled)) ∧
      (req = .realTime → t.dmc.throttled = s.dmc.throttled ∧ Keeps [.dmc, .emits, .resp] s t) ∧
      Tells [.hif, .wld, .cic, .dmc, .emits, .resp] [R.dmcHammerCount, R.dmcHammerInfo, R.dmcHammerRow] [pageBase 0x90 0] s t) ∧
    (s.rowReached ch.val bank.val row.val req = false →
      ∃ t, exec (.rowHammerThreshold ch bank row req) s = .next t ∧ Keeps [.emits, .resp] s t) ∧
    (∀ k t0, (s.dmc.throttled.find? fun e => e.1 == throttleKey req) = some (k, t0) →
      ∃ t, exec (.throttleEnd req) s = .next t ∧ t.time = max s.time t0 ∧
        (∀ e ∈ t.dmc.throttled, e.1 ≠ throttleKey req) ∧ Keeps [.time, .dmc, .emits, .resp] s t) ∧
    (∃ t, exec .rowActivationWindow s = .next t ∧ t.dmc = { s.dmc with acts := [] } ∧ Keeps [.dmc, .emits, .resp] s t) ∧
    (s.reqProtected r = true ∨ (r.isHost = true ∧ s.ownerLock (pageBase 0x90 0) = false) →
      WriteDoes (.eccInject r v) r R.dmcEccInject v s fun u => u = s.begin.plainWrite R.dmcEccInject v) ∧
    (s.reqProtected r = false → r.isHost = false ∨ s.ownerLock (pageBase 0x90 0) = true →
      WriteDoes (.eccInject r v) r R.dmcEccInject v s fun u => u = s.begin) ∧
    (∀ (now : Nat) (l : List (Nat × Nat)), l ≠ [] →
      ∃ a ∈ l, dramNext now l = some a ∧
        (dramPort a.1 ≠ 1 → ∀ b ∈ l, dramPort b.1 ≠ 1) ∧
        (∀ b ∈ l, dramPort a.1 ≠ 1 → b.2 + 20000 ≤ now → a.2 ≤ b.2) ∧
        (∀ b ∈ l, dramPort a.1 ≠ 1 → now < a.2 + 20000 → dramPort a.1 ≤ dramPort b.1))

/-! ### Clock generation (14_clock_generation.md) -/

/-- Gates and ratios. A gate bit written opens its gate; a close starts where the gate's block is idle and is refused where it is
not, and a close that is done stops the clock; a ratio is taken from the writer that has the domain and refused from another,
ramps one step at a time, and an escape switches the source at once. -/
def Obligations.GatesAndRatiosMove : Prop :=
  ∀ (r : Req) (i : Fin 10) (j : Fin 32) (v : Word) (g : Fin 320) (d : Fin 19) (t0 : Nat) (s : State),
    let k := 32 * i.val + j.val
    WriteThen (.gateOpen r i v) r (R.clkGateOpen i.val) v s State.kick (fun u =>
      (bitAt v.toNat j.val = true → 21 ≤ k → k ≤ 317 → u.gateOpen k = true) ∧
      (bitAt v.toNat j.val = false ∨ k < 21 ∨ 317 < k → u.gateBit k = s.gateBit k) ∧ Leaves [.wld, .cic, .clk, .emits, .resp] [R.clkGate i.val] s u) ∧
    (21 ≤ k → k ≤ 317 → s.gateOpen k = true → (s.pageWorld1 (gatePage k) = true → s.reqProtected r = true) →
      (s.gateBusy k = false →
        WriteDoes (.gateClose r i (w32 (2 ^ j.val))) r (R.clkGateClose i.val) (w32 (2 ^ j.val)) s fun u =>
          u.clk = { s.clk with closing := s.clk.closing ++ [k] } ∧ Keeps [.clk, .emits, .resp] s u) ∧
      (s.gateBusy k = true →
        WriteDoes (.gateClose r i (w32 (2 ^ j.val))) r (R.clkGateClose i.val) (w32 (2 ^ j.val)) s fun u =>
          u.clk = s.clk ∧ u.flag R.clkGateRefused F.clkGateRefused_valid = true)) ∧
    (s.clk.closing.contains g.val = true → s.hif.softReset.contains (gatePage g.val) = false →
      ∃ t, exec (.gateCloseDone g) s = .next t ∧ t.gateBit g.val = false ∧ t.clk.closing.contains g.val = false ∧
        (∀ m, m ≠ g.val → t.gateBit m = s.gateBit m) ∧ Leaves [.clk, .emits, .resp] [R.clkGate (g.val / 32)] s t) ∧
    (let m := s.domSel
     let n := bitsOf v.toNat 4 0
     s.pwr.saved = none → n ≠ (s.dom m).target →
     (s.ratioWriter r m = true → 1 ≤ n → n ≤ ratioMax m →
      WriteDoes (.ratioWrite r v) r R.clkDomCfg v s fun u => (u.dom m).target = n ∧
        (∀ x, x ≠ m → u.dom x = s.dom x) ∧ Keeps [.clk, .emits, .resp] s u) ∧
     (s.ratioWriter r m = false →
      WriteDoes (.ratioWrite r v) r R.clkDomCfg v s fun u => (u.dom m).target = (s.dom m).target ∧ (u.dom m).refused = true)) ∧
    (d.val < 7 → (s.dom d.val).switching = true → (s.dom d.val).toSrc = none →
      ∃ t, exec (.ratioRampStep d) s = .next t ∧ (t.dom d.val).target = (s.dom d.val).target ∧
        ((s.dom d.val).now < (s.dom d.val).target → (t.dom d.val).now = (s.dom d.val).now + 1) ∧
        ((s.dom d.val).target < (s.dom d.val).now → (t.dom d.val).now = (s.dom d.val).now - 1) ∧
        ((t.dom d.val).switching = false ↔ (t.dom d.val).now = (s.dom d.val).target) ∧ Keeps [.clk, .emits, .resp] s t) ∧
    ((s.dom d.val).toSrc = some t0 → ∃ t, exec (.clockEscape d) s = .next t ∧ (t.dom d.val).src = t0 ∧
      (t.dom d.val).toSrc = none ∧ (t.dom d.val).now = 1 ∧ (t.dom d.val).escaped = true ∧
      Tells [.hif, .wld, .cic, .clk, .emits, .resp] [] [pageBase 0xA0 1] s t) ∧
    WriteDoes (.clkOutCtrlWrite r v) r R.clkOutCtrl v s (fun u => u = s.begin.plainWrite R.clkOutCtrl v)

/-- The references and the PLLs. A failed reference starts holdover, and a further missing edge counts against its return; holdover
that expires starts coast with every PLL unlocked; a counted window or a recovery ends it; a PLL that loses lock is told and starts again, or fails for good at the third
loss in a second; one that locks returns its domains. -/
def Obligations.ReferencesAndPllsFailAndReturn : Prop :=
  ∀ (r : Req) (v : Word) (i : Fin 14) (edges : BitVec 20) (s : State),
    (s.refOk = true → ∃ t, exec .referenceFailure s = .next t ∧ t.refOk = false ∧ t.holdover = true ∧
      t.clk = { s.clk with windowsOk := 0, missed := true, holdStart := s.time, started := [] } ∧
      Tells [.hif, .wld, .cic, .clk, .emits, .resp] [R.clkRefStatus] [pageBase 0xA0 1] s t) ∧
    (s.refOk = false → exec .referenceFailure s = .next { s.begin with clk := { s.clk with windowsOk := 0, missed := true } }) ∧
    (s.xoOk = true →
      (∃ t, exec (.xo32Window edges) s = .next t ∧ t.num R.clkRefCount = edges.toNat ∧
        (s.refOk = true → (t.refOk = true ↔ 780469 ≤ edges.toNat ∧ edges.toNat ≤ 782031)) ∧
        t.clk.missed = false ∧ (s.refOk = false → t.refOk = false ∧ t.clk.windowsOk =
          if 780469 ≤ edges.toNat ∧ edges.toNat ≤ 782031 ∧ s.clk.missed = false then s.clk.windowsOk + 1 else 0)) ∧
      (∃ t, exec .xo32Lost s = .next t ∧ t.xoOk = false ∧ t.clk.windowsOk = 0 ∧
        Tells [.hif, .wld, .cic, .clk, .emits, .resp] [R.clkRefStatus] [pageBase 0xA0 1] s t)) ∧
    (∃ t, exec .xo32Present s = .next t ∧ t.xoOk = true ∧ t.clk.windowsOk = 0 ∧ Leaves [.clk, .emits, .resp] [R.clkRefStatus] s t) ∧
    (s.pllOk i.val = true → s.refOk = true →
      let third := decide (3 ≤ ((Tab.get [] s.clk.losses i.val).filter fun t => s.time < t + 1000000000).length + 1)
      ∃ u : State, exec (.pllLossOfLock i) s =
          .next ((if third then u.yieldFault else u.startPll i.val).pllEffect i.val) ∧
        u.pllOk i.val = false ∧ bitAt (u.num R.clkPllStatus) (16 + i.val) = true ∧
        (third = true → bitAt (u.num R.clkPllFailed) i.val = true ∧ u.clk.started.contains i.val = false) ∧
        (∀ d ∈ pllDoms i.val, (u.dom d).coasting = true)) ∧
    (s.clk.started.contains i.val = true → s.pllOk i.val = false → s.refOk = true →
      ∃ u : State, exec (.pllLocked i) s = .next (u.pllBack i.val).coastEnds.kick ∧ u.pllOk i.val = true ∧
        (∀ d ∈ pllDoms i.val, hasRatio d = false → (u.dom d).src = 0 ∧ (u.dom d).coasting = false) ∧
        Leaves [.clk, .emits, .resp] [R.clkPllStatus] s u) ∧
    (s.reqProtected r = true →
      WriteDoes (.pllRestart r v) r R.clkPllFailed v s fun u =>
        (∀ k, k < 14 → bitAt v.toNat k = true → bitAt (s.num R.clkPllFailed) k = true →
          bitAt (u.num R.clkPllFailed) k = false ∧ u.clk.started.contains k = true) ∧
        (∀ k, k < 14 → bitAt v.toNat k = false → bitAt (u.num R.clkPllFailed) k = bitAt (s.num R.clkPllFailed) k) ∧
        Leaves [.clk, .emits, .resp] [R.clkPllFailed] s u) ∧
    (s.holdover = true →
      ∃ u w : State, u.coast = true ∧ u.holdover = false ∧ u.time = max s.time (s.clk.holdStart + 250000000) ∧
        Tells [.time, .hif, .wld, .cic, .emits, .resp] [R.clkRefStatus] [pageBase 0xA0 1] s u ∧
        Leaves [.clk] [R.clkPllStatus] (if s.pllOk 3 then u.dramLost else u) w ∧
        (∀ k, k < 14 → s.pllOk k = true → w.pllOk k = false) ∧
        exec .holdoverExpiry s =
          .next (w.each (((List.range 14).filter s.pllOk).filter fun k => k ≠ 3) State.pllEffect)) ∧
    (s.recovered = true →
      ∃ u : State, exec .referenceRecovered s = .next u.kick ∧ u.refOk = true ∧ u.holdover = false ∧ u.clk.windowsOk = 0 ∧
        (∀ k, k < 14 → s.pllOk k = false → bitAt (s.num R.clkPllFailed) k = false → u.pllWanted k = true →
          u.clk.started.contains k = true) ∧ Tells [.hif, .wld, .cic, .clk, .emits, .resp] [R.clkRefStatus] [pageBase 0xA0 1] s u)

/-! ### Pairs and live insertion (15_pairs_and_live_insertion.md) -/

/-- The election and the haul link. An election starts in ELECTING; the higher key is the primary and the lower, or a module that
finds the line held, a candidate to be secondary. A link that trains is up with its channels at 0 and sends HELLO; one that goes
down is counted, and what follows depends on the role and, in PAIRED, on the reference. A bad frame is counted and a NAK is owed;
a replay sends a channel again, or takes the link down at a frame's eighth; an IDLE carries the timing channel's next number. A
frame's bytes are a header of 16 that begins them, the payload in units of 16 and a trailer whose CRC is that of both. -/
def Obligations.TheElectionAndTheLinkSetUpThePair : Prop :=
  ∀ (partner : BitVec 64) (bulk nak : Bool) (h : FrameHdr) (s : State),
    (s.pairSt = 1 →
      (s.pair.roleLow = false → ∃ t, exec .election s = .next t ∧ t.pair = { s.pair with electing := true } ∧
        Keeps [.pair, .emits, .resp] s t) ∧
      (s.pair.electing = true → partner.toNat < s.pairKey →
        ∃ u : State, exec (.electionDone partner) s = .next (u.feedAll.setLone true) ∧ u.pairSt = 2 ∧ u.pairRole = 1 ∧
          u.pair.roleHeld = true ∧ u.pair.electing = false ∧ u.fld R.pairStatus F.pairStatus_last_cause = 4 ∧
          (s.stationId = 0 → u.stationId = s.pairKey) ∧ Tells [.hif, .wld, .cic, .pair, .emits, .resp] [R.pairStatus, R.pairStationIdLo, R.pairStationIdHi] [pageBase 0xB0 0] s u) ∧
      (s.pair.electing = true → s.pairKey ≤ partner.toNat →
        ∃ u : State, exec (.electionDone partner) s = .next (u.linkLost.takeStationId partner.toNat) ∧ u.pairSt = 3 ∧
          u.pairRole = 2 ∧ u.pair.roleLow = true ∧ u.pair.electing = false ∧
          Tells [.hif, .wld, .cic, .pair, .emits, .resp] [R.pairStatus] [pageBase 0xB0 0] s u) ∧
      (∃ u : State, exec .roleHeldByPrimary s = .next u.linkLost ∧ u.pairSt = 3 ∧ u.pairRole = 2 ∧ u.pair.roleLow = true ∧
        Tells [.hif, .wld, .cic, .pair, .emits, .resp] [R.pairStatus] [pageBase 0xB0 0] s u)) ∧
    (s.linkOn = false → 2 ≤ s.pairSt → s.pairSt ≠ 7 →
      (s.pllOk 5 = false ∨ s.flag R.pairStatus F.pairStatus_guard_tripped = true → exec .haulLinkTrained s = .next s.begin) ∧
      (s.pllOk 5 = true → s.flag R.pairStatus F.pairStatus_guard_tripped = false → ∃ u : State, exec .haulLinkTrained s = .next u.sendHello ∧ u.linkOn = true ∧
        u.pair.seqT = 0 ∧ u.pair.seqB = 0 ∧ u.pair.rxT = 0 ∧ u.pair.rxB = 0 ∧ u.pair.sent = [] ∧
        u.flag R.pairLinkStatus F.pairLinkStatus_training = false ∧
        Tells [.hif, .wld, .cic, .pair, .emits, .resp] [R.pairLinkStatus] [pageBase 0xB0 1] s u) ∧
      (∃ u : State, exec .haulLinkRetry s = .next (if s.pair.recheck && s.refOk then u.recheckFails else u) ∧
        u.flag R.pairLinkStatus F.pairLinkStatus_training = true ∧ Leaves [.emits, .resp] [R.pairLinkStatus] s u)) ∧
    (s.linkOn = false → ∀ c ∈ ([.haulLinkDown, .badFrame, .frameReplay bulk nak, .idle none, .idle (some h)] : List Instr),
      exec c s = .next s.begin) ∧
    (s.linkOn = true →
      (∃ u : State, exec .haulLinkDown s = .next (if s.pairSt = 6 ∧ s.refOk = false then u.holdPair
            else if u.pairRole = 1 then u.goAlone
            else if 3 ≤ u.pairSt ∧ u.pairSt ≤ 5 then u.catchupFailed else u) ∧
        u.linkOn = false ∧ u.pairSt = s.pairSt ∧ u.pairRole = s.pairRole ∧
        u.flag R.pairLinkStatus F.pairLinkStatus_training = true ∧
        u.fld R.pairLinkStatus F.pairLinkStatus_downs =
          min (2 ^ (F.pairLinkStatus_downs.hi + 1 - F.pairLinkStatus_downs.lo) - 1)
            (s.fld R.pairLinkStatus F.pairLinkStatus_downs + 1) ∧
        Tells [.hif, .wld, .cic, .emits, .resp] [R.pairLinkStatus] [pageBase 0xB0 1] s u) ∧
      (∃ t, exec .badFrame s = .next t ∧ t.pair = { s.pair with nakOwed := true } ∧
        t.num R.pairLinkCrc = min (2 ^ 32 - 1) (s.num R.pairLinkCrc + 1) ∧ Leaves [.pair, .emits, .resp] [R.pairLinkCrc] s t) ∧
      (let fs := s.pair.sent.filter fun f => f.bulk == bulk
       (fs = [] → exec (.frameReplay bulk nak) s = .next s.begin) ∧
       (fs ≠ [] → ∃ u : State, exec (.frameReplay bulk nak) s = .next (if fs.any (fun f => f.replays == 7) then u.haulDown
            else u.each (u.pair.sent.filter fun f => f.bulk == bulk) fun w f => w.emit (.frame f)) ∧
          u.pair = { s.pair with sent := s.pair.sent.map fun f =>
            if f.bulk == bulk then { f with replays := f.replays + 1 } else f } ∧
          u.num R.pairLinkReplay = min (2 ^ 32 - 1) (s.num R.pairLinkReplay + fs.length) ∧
          ((∀ f ∈ fs, f.replays ≠ 3) → u.emits = []) ∧
          Tells [.hif, .wld, .cic, .pair, .emits, .resp] [R.pairLinkReplay] [pageBase 0xB0 1] s u)) ∧
      (∃ t, exec (.idle none) s = .next t ∧ t.emits = [.frame (s.nextFrame .idle)] ∧
        t.pair = { s.pair with nakOwed := false } ∧ Keeps [.pair, .emits, .resp] s t) ∧
      (h.seq.toNat = s.pair.rxT → exec (.idle (some h)) s = .next (s.begin.acked h.ackT.toNat h.ackB.toNat)) ∧
      (h.seq.toNat ≠ s.pair.rxT → ∃ t, exec (.idle (some h)) s = .next t ∧ t.pair = { s.pair with nakOwed := true } ∧
        Keeps [.pair, .emits, .resp] s t)) ∧
    (∀ (f : Frame) (payload : List Byte), frameGood (f.bytes payload) = true ∧
      (f.bytes payload).length = 32 + 16 * ceilDiv payload.length 16 ∧
      (f.bytes payload).take 16 = f.header (ceilDiv payload.length 16) ∧
      ((f.bytes payload).drop 16).take payload.length = payload)

/-- The messages of the timing channel. Without the link nothing arrives; a message that is not the next of its channel is discarded
and a NAK is owed; the next one is accepted and acts: TIME names the next edge, LINE_CV is compared or counted as late, LATCH waits for its fence and LATCH_ACK
answers, the states of touch and haptics are taken, FEED moves a feed, HANDOVER names its time and YIELD its cause. -/
def Obligations.TimingMessagesAct : Prop :=
  ∀ (h : FrameHdr) (t0 : BitVec 64) (starts : List (Nat × Nat)) (o : Fin 8) (frame cv : Word) (flags : BitVec 8)
    (line : BitVec 16) (fence : BitVec 24) (late mine : Bool) (scan : BitVec 16) (st : TouchMirror) (chs : List HapMirror)
    (cause : Fin 16) (s : State),
    let u := s.begin.accepted h false
    let e : LineCv := { o := o.val, line := line.toNat, frame := frame.toNat, flags := flags.toNat, cv := cv.toNat }
    let all : List Instr := [.time h t0 starts, .lineCv h o flags line frame cv, .latch h o frame fence cv,
      .latchAck h o frame late, .touchState h o scan st, .hapticState h chs, .feed h o t0 mine, .handover h t0, .yield h cause]
    (s.linkOn = false → ∀ c ∈ all, exec c s = .next s.begin) ∧
    (s.linkOn = true →
      (h.seq.toNat ≠ s.pair.rxT → ∀ c ∈ all, ∃ t, exec c s = .next t ∧ t.pair = { s.pair with nakOwed := true } ∧ Keeps [.pair, .emits, .resp] s t) ∧
      (h.seq.toNat = s.pair.rxT →
        (u.secondary = true →
          exec (.time h t0 starts) s = .next { u with pair := { u.pair with edge := some t0.toNat, starts := starts } } ∧
          exec (.latch h o frame fence cv) s = .next (State.applyFenced { u with pair := { u.pair with
            fenced := u.pair.fenced ++ [(o.val, frame.toNat, fence.toNat, cv.toNat)] } }) ∧
          (∃ t, exec (.touchState h o scan st) s = .next t ∧ (t.panel o.val).base = st.base ∧
            (t.panel o.val).delta = st.delta ∧ (t.panel o.val).contacts = st.contacts.foldl (fun t e => Tab.set none t e.1 (some e.2)) [] ∧ (t.panel o.val).scans = scan.toNat ∧
            (∀ m, m ≠ o.val → t.panel m = u.panel m) ∧ Keeps [.tch] u t) ∧
          (chs.Pairwise (fun a b => a.ch ≠ b.ch) → ∃ t, exec (.hapticState h chs) s = .next t ∧
            (∀ m ∈ chs, (t.chan m.ch.val).mode = hapModeOf m.st ∧ (t.chan m.ch.val).out = m.out ∧
              (t.chan m.ch.val).a = m.a ∧ (t.chan m.ch.val).integ = m.integ ∧ (t.chan m.ch.val).play = playOf m.play) ∧ Keeps [.hap] u t) ∧
          (u.pairSt = 6 → ∃ t, exec (.handover h t0) s = .next t ∧ t.pair.handover = some t0.toNat ∧
            t.pair.moves = u.pair.moves ++ u.runningOuts.map (fun o => { o := o, t := t0.toNat, mine := true }) ∧
            Keeps [.pair] u t)) ∧
        (u.lineLate e = false → exec (.lineCv h o flags line frame cv) s = .next (State.compareLines { u with pair := { u.pair with
            theirs := (u.pair.theirs.filter fun b => !(b.o == o.val && b.line == line.toNat)) ++ [e] } } o.val)) ∧
        (u.lineLate e = true → ∃ t, exec (.lineCv h o flags line frame cv) s = .next t ∧
          t.num R.pairLinkLate = min (2 ^ 32 - 1) (u.num R.pairLinkLate + 1) ∧
          t.pair.own = u.pair.own.filter (fun a => !(a.o == e.o && a.line == e.line && a.frame == e.frame)) ∧ Leaves [.pair] [R.pairLinkLate] u t) ∧
        (∃ t, exec (.latchAck h o frame late) s = .next t ∧ Keeps [.pair] u t ∧
          (late = false → ∀ c a, (o.val, frame.toNat, c, a) ∈ u.pair.latches → (o.val, frame.toNat, c, true) ∈ t.pair.latches) ∧
          (late = true → ∀ x ∈ t.pair.latches, ¬(x.1 = o.val ∧ x.2.1 = frame.toNat))) ∧
        (let own := mine == (u.pairRole == 1)
         ∃ t, exec (.feed h o t0 mine) s = .next t ∧
          bitAt (t.num R.pairFeed) (16 + o.val) = (own == (u.pairRole == 2)) ∧
          ((u.out o.val).gen = .running ∨ (u.out o.val).gen = .stopping →
            t.pair.moves = u.pair.moves ++ [{ o := o.val, t := t0.toNat, mine := own }]) ∧
          ((u.out o.val).gen = .stopped ∨ (u.out o.val).gen = .locking → t.pair.feedSel.contains o.val = own) ∧
          Tells [.hif, .wld, .cic, .pair, .emits] [R.pairFeed] [pageBase 0xB0 2] u t) ∧
        (cause = 3 → exec (.yield h cause) s = .next { u with pair := { u.pair with yielding := some 3 } }) ∧
        (cause = 5 ∨ cause = 6 → u.pairRole = 1 → ∃ w : State, exec (.yield h cause) s = .next w.goAlone ∧
          w.fld R.pairStatus F.pairStatus_last_cause = cause.val ∧ Leaves [] [R.pairStatus] u w)))

/-- The messages of the bulk channel. Each is discarded or accepted as those of the timing channel are, and a latch whose fence
is reached follows. HELLO names the partner; a register write acts on the secondary as it did on the primary, a read-clear clears
and a copy puts the register's word in place; DRAM, the floor slots and the effect store take the bytes, unless the guard denies
them; a decision is applied; stream samples are taken; CATCHUP_DONE starts the comparison. -/
def Obligations.BulkMessagesAct : Prop :=
  ∀ (h : FrameHdr) (key : BitVec 64) (digest family caps v pos : Word) (st : Fin 8) (addr : Nat) (how : RegMsg)
    (ty inst off : Nat) (data : List Byte) (w1 bad : Bool) (d : PairDecision) (sl : Fin 256) (ch : Fin 8) (samples : List Int)
    (last : BitVec 24) (s : State),
    let u := s.begin.accepted h true
    let acts (c : Instr) (P : State → Prop) : Prop := ∃ w : State, exec c s = .next w.applyFenced ∧ P w
    s.linkOn = true →
      (h.seq.toNat ≠ s.pair.rxB → ∀ c ∈ ([.hello h key digest family caps st, .writeReg h addr v how,
          .writeDram h off data w1 bad, .decision h d, .streamData h sl (some ch) pos samples, .catchupDone h last] : List Instr),
        ∃ t : State, exec c s = .next t.applyFenced ∧ t.pair = { s.pair with nakOwed := true } ∧ Keeps [.pair, .emits, .resp] s t) ∧
      (h.seq.toNat = s.pair.rxB →
        acts (.hello h key digest family caps st) (fun w => w.num64 R.pairPartnerKeyLo R.pairPartnerKeyHi = key.toNat ∧
          (u.pairRole = 1 → u.pairSt = 2 → st = 3 → u.helloMatches digest family caps = true →
            w.pair.forwarding = true ∧ w.pair.copying = true ∧ w.pair.copyPos = 0) ∧
          (u.pairRole = 2 → u.pairSt = 3 → st = 2 → u.helloMatches digest family caps = true → w.pairSt = 4)) ∧
        (u.secondary = true →
          (pageAt addr = some (ty, inst) →
            let guarded := ty ≠ 0x80 ∧ (ty < 0x100 ∧ u.pageWorld1 (pageOf addr) = true ∨ ty = 0x60 ∧ pwTouchReg (addr % 0x1000) = true)
            acts (.writeReg h addr v .readClear) (fun w =>
              w.rd addr = clearRead (fieldsAt ty inst (addr % 0x1000)) (u.rd addr) ∧
              (∀ a, a ≠ addr → w.rd a = u.rd a) ∧ Leaves [] [addr] u w) ∧
            (∀ sp, cmdOpSpace ty inst addr = some sp → acts (.writeReg h addr v .write) fun w =>
              w.rd (R.cmdResult sp) = w32 u.pair.lastIssue.1 ∧ w.rd (R.cmdRefusal sp) = w32 u.pair.lastIssue.2 ∧
              Leaves [] [R.cmdResult sp, R.cmdRefusal sp] u w) ∧
            (cmdOpSpace ty inst addr = none → (¬guarded → acts (.writeReg h addr v .write) fun w =>
                w = writeReg (.host none) ty inst addr v u) ∧
              (guarded → acts (.writeReg h addr v .write) fun w =>
                w = asProtected (writeReg (.core 0) ty inst addr v) u))) ∧
          (addr ≠ R.clkDomCfg → catchupCell addr = true → acts (.writeReg h addr v .copy) fun w =>
            w.rd addr = v ∧ Leaves [] [addr] u w) ∧
          (dramEnd ≤ off → off + data.length ≤ copyStore → acts (.writeDram h off data w1 bad) fun w =>
            Mem.read 0#8 w.mem.floor (off - dramEnd) data.length = data ∧ Keeps [.mem] u w) ∧
          (copyStore ≤ off → off + data.length ≤ copyEnd → data ≠ [] → acts (.writeDram h off data w1 bad) fun w =>
            Mem.read 0#8 w.mem.store (off - copyStore) data.length = data ∧ Keeps [.mem] u w) ∧
          (off < dramEnd → off + data.length ≤ dramEnd → w1 = false → u.dramProtected off data.length = true →
            acts (.writeDram h off data w1 bad) fun w => w = (u.denial true 0 0x40 off).diverge) ∧
          (off < dramEnd → off + data.length ≤ dramEnd → (w1 = true ∨ u.dramProtected off data.length = false) →
            acts (.writeDram h off data w1 bad) fun w => Mem.read 0#8 w.mem.dram off data.length = data ∧
              (∀ a, a < off ∨ off + data.length ≤ a → Mem.read 0#8 w.mem.dram a 1 = Mem.read 0#8 u.mem.dram a 1) ∧
              (bad = true → ∀ b ∈ blocksOf off data.length, w.mark b = 2)) ∧
          acts (.decision h d) (fun w => w = applyDecision d u) ∧
          acts (.streamData h sl (some ch) pos samples) (fun w =>
            ∃ x : State, w = x.streamSamples sl.val (some ch.val) samples ∧
              (Tab.get {} x.hst (hstIdx sl.val ch.val)).fetchPos = pos.toNat ∧ Keeps [.hst] u x) ∧
          acts (.streamData h sl none pos samples) (fun w =>
            ∃ x : State, w = x.streamSamples sl.val none samples ∧
              (Tab.get {} x.ast sl.val).fetchPos = pos.toNat ∧ Keeps [.ast] u x)) ∧
        (u.pairSt = 4 → acts (.catchupDone h last) fun w =>
          w = State.enterVerify { u with pair := { u.pair with verifying := true } }))

/-- The roles change hands. A newcomer tries again; the primary pulses each millisecond and the secondary takes the time it
named; the guard gives up the role and every feed; a lost partner leaves its role to the other; a planned handover names its
time, and at its end the roles change; a takeover reset leaves a secondary that starts anew; feeds go home. -/
def Obligations.TheRolesChangeHands : Prop :=
  ∀ (r : Req) (t0 : Nat) (s : State),
    (s.pairSt = 3 → s.linkOn = true → ∃ u : State, exec .helloRetry s = .next u.sendHello ∧
      u.time = s.time + 10000000000 ∧ Keeps [.time, .emits, .resp] s u) ∧
    (s.pairSt = 3 → s.linkOn = false → ∃ t, exec .catchupRetry s = .next t ∧ t.time = s.time + 1000000000 ∧
      t.flag R.pairLinkStatus F.pairLinkStatus_training = true ∧ Leaves [.time, .emits, .resp] [R.pairLinkStatus] s t) ∧
    (s.pairRole = 1 → ∃ u w : State, u.time = (s.time / 1000000 + 1) * 1000000 ∧ u.emits = [.pairSync] ∧
      Keeps [.time, .emits, .resp] s u ∧
      w = (if u.forwards then u.send (.time (u.time + 1000000) (u.runningOuts.map fun o => (o, u.gridTime o 0))) else u) ∧
      exec .pairSyncEdge s = .next (if w.pairSt = 2 && w.pair.sent.isEmpty then w.tryPaired else w)) ∧
    (s.secondary = true → s.pair.edge = some t0 →
      (s.pair.aligned = false → ∃ u : State, exec .pairSyncEdge s = .next u.enterVerify ∧ u.time = t0 ∧
        u.pair.aligned = true ∧ u.pair.edge = none) ∧
      (s.pair.aligned = true → (t0 + 20 < s.time ∨ s.time + 20 < t0) →
        exec .pairSyncEdge s = .next (State.diverge { s.begin with pair := { s.pair with edge := none, starts := [] } })) ∧
      (s.pair.aligned = true → s.time ≤ t0 + 20 → t0 ≤ s.time + 20 → ∃ t, exec .pairSyncEdge s = .next t ∧
        t.pair = { s.pair with edge := none, starts := [] } ∧ Keeps [.outs, .pair, .emits, .resp] s t)) ∧
    (s.pairSt ≠ 0 → s.refOk = true → ∃ t, exec .pairGuardTrip s = .next t ∧ t.pair.roleHeld = false ∧ t.pair.hbOut = false ∧
      t.pair.feedSel = [] ∧ t.pair.moves = [] ∧ t.flag R.pairStatus F.pairStatus_guard_tripped = true) ∧
    (s.refOk = false → exec .partnerLoss s = .next s.begin ∧ exec .pairGuardTrip s = .next s.begin) ∧
    (s.linkOn = false → 2 ≤ s.pairSt → s.pairSt ≠ 7 → s.refOk = true →
      let u : State := { s.begin with pair := { s.pair with roleLow := false, hbSeen := false } }
      exec .partnerLoss s = .next (if s.pairRole = 1 then u.goAlone.event 0xB0 0 2 else u.takeover 1 true)) ∧
    (s.pairSt = 6 → s.pairRole = 1 → s.pair.handover = none →
      let th := s.time + 10000
      let moved (w : State) : State := w.each w.runningOuts fun s o => s.askFeed o th false
      let named (u : State) (modEn : Bool) : Prop :=
        u.pair = { s.pair with handover := some th, handoverModEn := modEn } ∧
        u.flag R.pairCtrl F.pairCtrl_handover = true ∧ Leaves [.pair, .emits, .resp] [R.pairCtrl] s u
      (∃ u : State, named u true ∧ exec (.plannedHandover .modEnFall) s = .next (moved (u.send (.handover th)))) ∧
      (∃ u : State, named u false ∧
        exec (.plannedHandover .yieldFault) s = .next (moved ((u.send (.yield 3)).send (.handover th)))) ∧
      (s.flag R.pairCtrl F.pairCtrl_handover = false →
        WriteThen (.plannedHandover (.request r)) r R.pairCtrl 0x80000000#32 s
          (fun u => moved (u.send (.handover th))) fun u => named u false)) ∧
    (s.pairSt ≠ 6 → s.pairRole = 1 → s.linkOn = false → ∃ t, exec (.plannedHandover .yieldFault) s = .next t ∧
      t.pair = { s.pair with roleHeld := false, hbOut := false } ∧ Keeps [.pair, .emits, .resp] s t) ∧
    (s.pairRole ≠ 1 → ∃ t, exec (.plannedHandover .modEnFall) s = .next t ∧ t.flag R.pairCtrl F.pairCtrl_refused = true ∧
      Leaves [.emits, .resp] [R.pairCtrl] s t) ∧
    (s.pair.handover = some t0 →
      (s.pairRole = 1 → ∃ u : State, exec .handoverRoleRelease s =
          .next (if s.pair.handoverModEn then u.linkLost.yieldNow 0 else u.linkLost) ∧
        u.time = max s.time (t0 + 100000) ∧ u.pairSt = 6 ∧ u.pairRole = 2 ∧ u.pair.roleHeld = false ∧
        u.pair.roleLow = true ∧ u.pair.handover = none ∧ u.pair.feedSel = []) ∧
      (s.secondary = true → exec .handoverRoleRelease s =
        .next (((s.begin.at (t0 + 100000)).takeover (if s.pair.yielding = some 3 then 3 else 2) false).event 0xB0 0 4))) ∧
    (s.pairSt = 7 ∨ (s.pairRole = 1 ∧ s.pair.roleLow = true) ∨ (s.pairRole = 2 ∧ 5 < s.pairSt ∧ s.linkOn = false ∧
        (s.pair.roleLow = true ∨ s.pair.hbSeen = true)) →
      ∃ t, exec .pairTakeoverReset s = .next t ∧ t.pairSt = 3 ∧ t.pairRole = 2 ∧ t.linkOn = false ∧ t.time = s.time ∧
        t.mem.dram = s.mem.dram ∧ (∀ i, (t.slice i).st = .unbound) ∧ (∀ o, (t.out o).gen = .stopped) ∧
        (∀ c, 0 < c → c < 4 → (t.core c).held = true)) ∧
    (s.pairRole = 1 → WriteDoes (.feedHome r) r R.pairCtrl 0x40000000#32 s fun u =>
      u.flag R.pairCtrl F.pairCtrl_feed_home = true ∧
      (∀ o, o < 8 → bitAt (s.fld R.pairFeed F.pairFeed_moved) o = true → bitAt (u.num R.pairFeed) (16 + o) = false) ∧
      Tells [.hif, .wld, .cic, .pair, .emits, .resp] [R.pairCtrl, R.pairFeed] [pageBase 0xB0 2] s u)

/-! ### Power, resets and start-up (16_power_resets_and_start_up.md) -/

/-- Power states. A request from outside the protected world gives it a notice, which waits while that world runs; one that is
refused says why; one that is taken enters its state, Retain after its entry completes. Retain ends with the host's D0 or the wake
time, and a wait for the cores that lasts too long is refused. -/
def Obligations.PowerStatesChangeOnRequest : Prop :=
  ∀ (r : Req) (c : Instr) (n why edges t0 : Nat) (s : State),
    let asked (n : Nat) : Prop := (c, n) ∈ ([(.requestRun r, 0), (.requestDim r, 1), (.requestRetain r, 2),
      (.requestStandby r, 3), (.requestOff r, 4)] : List (Instr × Nat))
    let direct (n : Nat) : Prop := n < 2 ∨ s.reqProtected r = true ∨ s.flag R.wldStatus F.wldStatus_running = false ∨
      s.pwrBusy = true
    (asked n → 2 ≤ n → s.reqProtected r = false → s.flag R.wldStatus F.wldStatus_running = true → s.pwrBusy = false →
      WriteDoes c r R.pwrState (w32 n) s fun u => u.wld.notice = some (n, s.time + 5000000) ∧
        u.flag R.wldPwrNotice F.wldPwrNotice_pending = true ∧ u.fld R.wldPwrNotice F.wldPwrNotice_state = n ∧
        Tells [.hif, .wld, .cic, .emits, .resp] [R.wldPwrNotice, R.pwrState] [pageBase 0x80 3] s u) ∧
    (asked n → direct n → s.powerRefusal n s.pwrBusy = some why →
      WriteDoes c r R.pwrState (w32 n) s fun u => u.fld R.pwrState F.pwrState_reason = why ∧
        u.flag R.pwrState F.pwrState_refused = true ∧ u.power = s.power ∧ u.wld.notice = s.wld.notice ∧
        Tells [.hif, .wld, .cic, .emits, .resp] [R.pwrState, R.wldPwrNotice] [pageBase 0xA1 0, pageBase 0x80 3] s u) ∧
    (direct n → s.powerRefusal n s.pwrBusy = none →
      (n = 0 → WriteThen (.requestRun r) r R.pwrState 0#32 s (fun u => u.restoreDim.railSwitch) fun u =>
        u.power = 0 ∧ u.fld R.pwrState F.pwrState_previous = s.power) ∧
      (n = 1 → WriteThen (.requestDim r) r R.pwrState 1#32 s (fun u => u.enterDim) fun u =>
        u.power = 1 ∧ u.fld R.pwrState F.pwrState_previous = s.power) ∧
      (n = 2 → WriteDoes (.requestRetain r) r R.pwrState 2#32 s fun u =>
        u.pwr = { s.pwr with retaining := some s.time } ∧ u.power = s.power ∧
        Tells [.hif, .wld, .cic, .pwr, .emits, .resp] [R.pwrState, R.wldPwrNotice] [pageBase 0x80 3] s u) ∧
      (n = 3 → WriteDoes (.requestStandby r) r R.pwrState 3#32 s fun u =>
        u.power = 3 ∧ u.fld R.pwrState F.pwrState_previous = s.power ∧ u.pwr.entryTime = s.time ∧ u.time = s.time ∧
        u.wld.cores = [] ∧ ∀ i, (u.slice i).st = .unbound) ∧
      (n = 4 → WriteDoes (.requestOff r) r R.pwrState 4#32 s fun u =>
        u.power = 4 ∧ u.fld R.pwrState F.pwrState_previous = s.power ∧ u.wld.cores = [] ∧ ∀ i, (u.slice i).st = .unbound)) ∧
    (s.power = 2 →
      (∃ u t : State, exec (.retainExit edges) s = .next t ∧ t = u.leaveRetain (s.timeAfter edges) 1 ∧
        u = { s.begin with hif := { s.hif with powerState := 0 } } ∧ t.power = 0 ∧ t.dmc.selfRefresh = false) ∧
      (s.wakes (s.timeAfter edges) = true → ∃ u w : State, w = s.begin.leaveRetain (s.timeAfter edges) 2 ∧
        u = { w with hif := { w.hif with pmeStatus := true } } ∧ u.power = 0 ∧
        exec (.wakeTime edges) s = .next (if u.hif.pmeEnable then u.emit .pme else u))) ∧
    (s.wakes (s.timeAfter edges) = false → exec (.wakeTime edges) s = .next s.begin) ∧
    (s.power = 3 → s.wakes (s.timeAfter edges) = true → s.pwr.modEn = true → s.pwr.mainOk = true →
      ∃ u : State, exec (.wakeTime edges) s = .next u.bootWhenFree ∧ u.power = 0 ∧ u.pwr.wakePin = true ∧
        u.fld R.pwrWakeCause F.pwrWakeCause_cause = 2 ∧ u.fld R.pwrResetCause F.pwrResetCause_cause = 3) ∧
    (s.allWfi = true ∨ s.pwr.retaining = none → exec .retainWfiTimeout s = .next s.begin) ∧
    (s.pwr.retaining = some t0 → s.allWfi = false → ∃ t, exec .retainWfiTimeout s = .next t ∧ t.pwr = { s.pwr with retaining := none } ∧
      t.time = max s.time (t0 + 10000000) ∧ t.fld R.pwrState F.pwrState_reason = 5 ∧
      t.flag R.pwrState F.pwrState_refused = true ∧ Tells [.time, .hif, .wld, .cic, .pwr, .emits, .resp] [R.pwrState] [pageBase 0xA1 0] s t) ∧
    (s.pwr.retaining = some t0 → s.allWfi = true → s.hif.powerState = 3 →
      ∃ t, exec .retainEntryComplete s = .next t ∧ t.power = 2 ∧ t.pwr.retaining = none ∧ t.dmc.selfRefresh = true ∧
        t.dmcReady = false ∧ t.pwr.entryTime = t.time)

/-- Pins, watchdog and supplies. Each reset returns the registers that it does not keep to reset, and the boot follows when the
supplies and PERST# allow it; MOD_EN and the supplies move the module between Standby, Off and its boot; the watchdog counts
from its kick; a brown-out warning is told and cleared; a bank fault is told. -/
def Obligations.PinsAndSuppliesResetTheModule : Prop :=
  ∀ (r : Req) (v : Word) (mv : BitVec 16) (low b rec : Bool) (t0 : Nat) (s : State),
    let fresh (u : State) : Prop := (∀ a, keptByReset a = false → u.rd a = cellReset a) ∧ ∀ i, (u.slice i).st = .unbound
    let again (u : State) : Prop := (∀ a, keptWithLink true a = false → u.rd a = cellReset a) ∧ u.pwr.resetting = true ∧
      u.hif.linkUp = s.hif.linkUp ∧ ∀ i, (u.slice i).st = .unbound
    (s.pwr.modEn = false →
      (s.power ≤ 2 → ∃ t, exec .modEnRise s = .next t ∧ t.pwr = { s.pwr with modEn := true, modEnFell := none } ∧
        Keeps [.pwr, .emits, .resp] s t) ∧
      (s.power = 4 → s.pwr.vstby = true → ∃ u : State, exec .modEnRise s = .next u.bootWhenFree ∧ fresh u ∧
        u.pwr.modEn = true) ∧
      (s.power = 3 → s.pwr.mainOk = true → ∃ u : State, exec .modEnRise s = .next u.bootWhenFree ∧ u.power = 0 ∧
        u.fld R.pwrWakeCause F.pwrWakeCause_cause = 3 ∧ u.fld R.pwrResetCause F.pwrResetCause_cause = 3 ∧
        u.pwr.modEn = true ∧ s.pwr.entryTime ≤ u.time)) ∧
    (s.pwr.modEn = true → s.pairSt ≠ 6 ∨ s.pairRole ≠ 1 ∨ s.pair.handover ≠ none → ∃ t, exec .modEnFall s = .next t ∧
      t.pwr = { s.pwr with modEn := false, modEnFell := some s.time } ∧ Keeps [.pwr, .emits, .resp] s t) ∧
    (s.pwr.modEn = true → s.pairSt = 6 → s.pairRole = 1 → s.pair.handover = none →
      exec .modEnFall s = .next (State.startHandover
        { s.begin with pwr := { s.pwr with modEn := false, modEnFell := some s.time } } false true)) ∧
    (s.pwr.modEnFell = some t0 → s.power ≤ 2 → ∃ t, exec .modEnLowTimeout s = .next t ∧ t.power = 3 ∧
      t.pwr.entryTime = max s.time (t0 + 1000000) ∧ t.wld.cores = []) ∧
    (s.pwr.vstby = false → s.pwr.modEn = true → ∃ u : State, exec .vstbyRise s = .next u.bootWhenFree ∧ fresh u ∧
      u.pwr.vstby = true) ∧
    (s.pwr.vstby = false → s.pwr.modEn = false → ∃ t, exec .vstbyRise s = .next t ∧ t.power = 3 ∧ t.pwr.vstby = true) ∧
    (s.pwr.vstby = true → ∃ t, exec .vstbyFall s = .next t ∧ t.power = 4 ∧ t.pwr.vstby = false) ∧
    (s.pwr.perstLow = false → s.power ≤ 2 → ∃ t, exec .perstAssert s = .next t ∧ t.pwr.perstLow = true ∧
      t.pwr.bootDue = true ∧ t.time = s.time ∧ fresh t ∧ t.fld R.pwrResetCause F.pwrResetCause_cause = 4) ∧
    (s.pwr.perstLow = true → s.pwr.bootDue = true → s.pwr.mainOk = true → s.power ≤ 2 →
      ∃ u : State, exec .perstDeassert s = .next u.boot ∧ u.pwr = { s.pwr with perstLow := false, perstHigh := s.time } ∧
        Keeps [.pwr, .emits, .resp] s u) ∧
    (s.flag R.bootStatus F.bootStatus_host_ready = false → s.pwr.perstLow = false → s.pwr.bootDue = false →
      ∃ t, exec .hostReadyLate s = .next t ∧ t.time = max s.time (s.pwr.perstHigh + 900000000) ∧
        t.flag R.bootStatus F.bootStatus_late = true ∧ t.flag R.bootStatus F.bootStatus_host_ready = true ∧
        t.stage = 7 ∧ t.hif.retry = false ∧ Leaves [.time, .hif, .pwr, .emits, .resp] [R.bootStatus] s t) ∧
    (bitsOf v.toNat 31 16 = 0x5A17 → bitAt v.toNat 0 = true →
      WriteThen (.station r v) r R.pwrReset v s State.boot fun u => again u ∧ u.fld R.pwrResetCause F.pwrResetCause_cause = 5) ∧
    (bitsOf v.toNat 31 16 ≠ 0x5A17 ∨ bitAt v.toNat 0 = false → WriteDoes (.station r v) r R.pwrReset v s fun u => u = s.begin) ∧
    (s.pwr.wdog = some t0 →
      (s.power ≤ 1 → ∃ u : State, exec .stationWatchdogExpiry s = .next u.boot ∧ again u ∧ u.time = max s.time t0 ∧
        u.fld R.pwrResetCause F.pwrResetCause_cause = 6) ∧
      (v = 0xA5C3#32 → WriteDoes (.stationWatchdogKick r v) r R.pwrWdogKick v s fun u =>
        u.pwr.wdog = some (s.time + max 1 (s.fld R.pwrWdogCtrl F.pwrWdogCtrl_timeout_ms) * 1000000) ∧
        Keeps [.pwr, .emits, .resp] s u)) ∧
    (v ≠ 0xA5C3#32 ∨ s.pwr.wdog = none → WriteDoes (.stationWatchdogKick r v) r R.pwrWdogKick v s fun u => u = s.begin) ∧
    (s.warned = false → (mv.toNat < 10400 ∨ low = true) → s.power ≤ 1 →
      ∃ u : State, exec (.brownOutWarning mv low) s = .next u.endNotice.yieldFault ∧ u.warned = true ∧
        u.num R.pwrMainMv = mv.toNat ∧ u.pwr.retaining = none) ∧
    (s.warned = true ∨ 1 < s.power ∨ (10400 ≤ mv.toNat ∧ low = false) → ∃ t, exec (.brownOutWarning mv low) s = .next t ∧ t.num R.pwrMainMv = mv.toNat ∧
      Leaves [.emits, .resp] [R.pwrBoStatus, R.pwrMainMv] s t) ∧
    (s.warned = true → 10600 ≤ mv.toNat → ∃ t, exec (.warningClear mv) s = .next t ∧ t.warned = false ∧
      t.num R.pwrMainMv = mv.toNat ∧ Tells [.hif, .hapShared, .wld, .cic, .pwr, .emits, .resp] [R.pwrBoStatus, R.pwrMainMv] [pageBase 0xA1 1] s t) ∧
    (s.warned = false ∨ mv.toNat < 10600 → ∃ t, exec (.warningClear mv) s = .next t ∧ t.num R.pwrMainMv = mv.toNat ∧
      Leaves [.emits, .resp] [R.pwrMainMv] s t) ∧
    (9500 ≤ mv.toNat → exec (.brownOut mv) s = .next s.begin) ∧
    (mv.toNat < 9500 →
      (s.power ≤ 2 → ∃ t, exec (.brownOut mv) s = .next t ∧ t.pwr.mainOk = false ∧ t.pwr.bootDue = true ∧ fresh t ∧
        t.num R.pwrMainMv = mv.toNat ∧ t.fld R.pwrResetCause F.pwrResetCause_cause = 2) ∧
      (2 < s.power → ∃ t, exec (.brownOut mv) s = .next t ∧ t.pwr = { s.pwr with mainOk := false } ∧
        Leaves [.pwr, .emits, .resp] [R.pwrMainMv] s t)) ∧
    (10800 ≤ mv.toNat → s.pwr.tripOpen = false → s.pwr.mainOk = false → s.power ≤ 2 → s.pwr.bootDue = true →
      ∃ u : State, u.pwr = { s.pwr with mainOk := true } ∧ u.num R.pwrMainMv = mv.toNat ∧
        Leaves [.pwr, .emits, .resp] [R.pwrMainMv] s u ∧
        exec (.brownOutRecovery mv) s = .next (if s.pwr.modEn then u.bootWhenFree else u.enterStandby)) ∧
    (10800 ≤ mv.toNat → s.pwr.tripOpen = false → s.pwr.mainOk = false → s.power = 3 → s.pwr.modEn = true →
      ∃ u : State, exec (.brownOutRecovery mv) s = .next u.bootWhenFree ∧ u.power = 0 ∧ u.pwr.mainOk = true ∧
        u.fld R.pwrWakeCause F.pwrWakeCause_cause = 3) ∧
    (mv.toNat < 10800 ∨ s.pwr.tripOpen = true ∨ s.pwr.mainOk = true → exec (.brownOutRecovery mv) s = .next s.begin) ∧
    (let f := if b then F.pwrBoStatus_vio_b_fault else F.pwrBoStatus_vio_a_fault
     s.flag R.pwrBoStatus f = rec → ∃ u : State, u.flag R.pwrBoStatus f = !rec ∧
        Tells [.hif, .wld, .cic, .emits, .resp] [R.pwrBoStatus] [pageBase 0xA1 1] s u ∧
        exec (.bankFault b rec) s = .next (if b || rec then u else doGuardTrip u))

/-- The cores' run control. A core confirms a boot, releases held cores at the general entry and makes the host ready; a host's
write of BOOT_CTRL does nothing; a core that is not barred is halted, goes on or is held at reset, and one that is barred stays. -/
def Obligations.CoresAreReleasedHaltedAndReset : Prop :=
  ∀ (r : Req) (c k : Fin 4) (p : Option (BitVec 20)) (v : Word) (s : State),
    WriteDoes (.bootConfirm (.core c)) (.core c) R.bootCtrl 0x40000000#32 s (fun u =>
      u.pwr = { s.pwr with attempts := 0 } ∧ Keeps [.pwr, .emits, .resp] s u) ∧
    WriteDoes (.bootConfirm (.host p)) (.host p) R.bootCtrl 0x40000000#32 s (fun u => u = s.begin) ∧
    WriteDoes (.bootRelease (.core c) v) (.core c) R.bootCtrl (v &&& 0xE#32) s (fun u =>
      (k ≠ 0 → bitAt v.toNat k.val = true → (s.core k.val).held = true →
        (u.core k.val).held = false ∧ (u.core k.val).pc = s.generalEntry ∧ (u.core k.val).st = 0) ∧
      (bitAt v.toNat k.val = false → (u.core k.val).held = (s.core k.val).held) ∧ Keeps [.wld, .emits, .resp] s u) ∧
    (s.flag R.bootStatus F.bootStatus_host_ready = false →
      WriteDoes (.hostReady (.core c)) (.core c) R.bootCtrl 0x80000000#32 s fun u =>
        u.flag R.bootStatus F.bootStatus_host_ready = true ∧ u.stage = 7 ∧ u.hif.retry = false ∧ u.pwr.resetting = false ∧
        Leaves [.hif, .pwr, .emits, .resp] [R.bootStatus] s u) ∧
    ((s.core k.val).held = false →
      (s.coreBarred r k.val = false →
        WriteDoes (.coreHalt r v) r R.bootCoreCtrl (v &&& 0xF0#32) s (fun u =>
          (bitAt v.toNat (4 + k.val) = true → (u.core k.val).halted = true) ∧
          (bitAt v.toNat (4 + k.val) = false → (u.core k.val).halted = (s.core k.val).halted)) ∧
        WriteDoes (.coreReset r v) r R.bootCoreCtrl (v &&& 0xF#32) s (fun u =>
          bitAt v.toNat k.val = true → (u.core k.val).held = true ∧ (u.core k.val).st = 0 ∧ (u.core k.val).x = [] ∧
            (u.core k.val).p = (s.core k.val).p ∧ (s.wld.token = some k.val → u.wld.token = none))) ∧
      (s.coreBarred r k.val = true →
        WriteDoes (.coreHalt r v) r R.bootCoreCtrl (v &&& 0xF0#32) s (fun u =>
          (u.core k.val).halted = (s.core k.val).halted) ∧
        WriteDoes (.coreReset r v) r R.bootCoreCtrl (v &&& 0xF#32) s (fun u =>
          (u.core k.val).held = false ∧ (u.core k.val).st = (s.core k.val).st)) ∧
      WriteDoes (.coreResume r v) r R.bootCoreCtrl (v &&& 0xF00#32) s fun u =>
        (bitAt v.toNat (8 + k.val) = true → (u.core k.val).halted = false) ∧ Keeps [.wld, .emits, .resp] s u)

/-- The flash, the temperature and the interlock. A flash operation at a misplaced address, on guarded flash, or a program or an
erase while the supply is warned of, ends with its result; a read fills the buffer, a program or an erase starts, and its end
writes exactly its bytes and tells its result. The junction's temperature is told, warned of and trips; the interlock opens and
closes. -/
def Obligations.FlashTemperatureAndInterlock : Prop :=
  ∀ (r : Req) (c : Instr) (op : Nat) (f : FlashOp) (ok : Bool) (t0 : Int) (s : State),
    let a := s.fld R.bootFlashAddr F.bootFlashAddr_addr
    let len := if op = 2 then 0x10000 else 256
    let guarded : Bool := s.inGuard 2 a len && !s.reqWorld1 r
    let val := w32 (0x80000000 + op)
    let ends (n : Nat) (u : State) : Prop := u.fld R.bootFlashCmd F.bootFlashCmd_result = n ∧
      u.flag R.bootFlashCmd F.bootFlashCmd_start = false ∧ u.mem.flash = s.mem.flash ∧ u.pwr = s.pwr
    (s.flag R.bootFlashCmd F.bootFlashCmd_start = false →
      (c, op) ∈ ([(.flashRead r, 0), (.flashProgram r, 1), (.flashErase r, 2)] : List (Instr × Nat)) →
      (a % len ≠ 0 → WriteDoes c r R.bootFlashCmd val s (ends 4)) ∧
      (a % len = 0 → guarded = true → WriteDoes c r R.bootFlashCmd val s (ends 1)) ∧
      (a % len = 0 → guarded = false →
        (op = 0 → WriteDoes c r R.bootFlashCmd val s fun u => ends 0 u ∧
          (∀ i, i < 64 → u.num (K.flashBuf i) = leNat (Mem.read 0xFF#8 s.mem.flash (a + 4 * i) 4)) ∧
          Leaves [.emits, .resp] (R.bootFlashCmd :: (List.range 64).map K.flashBuf) s u) ∧
        (op ≠ 0 → s.warned = true → WriteDoes c r R.bootFlashCmd val s (ends 2)) ∧
        (op ≠ 0 → s.warned = false → WriteDoes c r R.bootFlashCmd val s fun u =>
          u.flag R.bootFlashCmd F.bootFlashCmd_start = true ∧
          u.pwr = { s.pwr with flash := some { erase := op = 2, addr := a, data := s.flashBuf, suspended := false } } ∧
          Leaves [.pwr, .emits, .resp] [R.bootFlashCmd] s u))) ∧
    (s.pwr.flash = some f → f.suspended = false → f.data.length = 256 →
      let n := if f.erase then 0x10000 else 256
      let bytes := if f.erase then List.replicate 0x10000 0xFF#8
        else List.zipWith (fun (x y : Byte) => x &&& y) (s.flash f.addr 256) f.data
      ∃ t, exec (.flashOperationDone ok) s = .next t ∧ t.pwr = { s.pwr with flash := none } ∧
        Mem.read 0xFF#8 t.mem.flash f.addr n = bytes ∧
        (∀ a, a < f.addr ∨ f.addr + n ≤ a → Mem.read 0xFF#8 t.mem.flash a 1 = Mem.read 0xFF#8 s.mem.flash a 1) ∧
        t.flag R.bootFlashCmd F.bootFlashCmd_start = false ∧
        t.fld R.bootFlashCmd F.bootFlashCmd_result = (if f.erase || (ok && bytes == f.data) then 0 else 3) ∧
        Leaves [.pwr, .mem, .emits, .resp] [R.bootFlashCmd] s t) ∧
    (let warn : Int := (s.fld R.stnModule F.stnModule_warn_c : Nat)
     ((t0 < 125 ∨ s.pwr.tripOpen = true) → (95 < t0 ∨ s.pwr.tripOpen = false) → ∃ t, exec (.junctionMeasurement t0) s = .next t ∧
        t.fld R.stnModule F.stnModule_temp_c = unsigned 8 (clampI (-128) 127 t0) ∧
        (warn ≤ t0 → t.flag R.stnModule F.stnModule_warning = true) ∧
        (t0 ≤ warn - 5 → t.flag R.stnModule F.stnModule_warning = false) ∧
        Tells [.hif, .wld, .cic, .emits, .resp] [R.stnModule] [pageBase 0x02 0] s t) ∧
     (125 ≤ t0 → s.pwr.tripOpen = false → ∃ t, exec (.junctionMeasurement t0) s = .next t ∧ t.pwr.tripOpen = true ∧
        t.pwr.mainOk = false ∧ t.flag R.stnModule F.stnModule_tripped = true) ∧
     (t0 ≤ 95 → s.pwr.tripOpen = true → ∃ t, exec (.junctionMeasurement t0) s = .next t ∧ t.pwr.tripOpen = false)) ∧
    (s.flag R.stnModule F.stnModule_hv_interlock = true → ∃ t, exec .hvInterlockOpen s = .next t ∧
      t.flag R.stnModule F.stnModule_hv_interlock = false ∧ (∀ n, n < 8 → (t.chan n).out = 0) ∧
      Tells [.hif, .hap, .hapShared, .wld, .cic, .emits, .resp] [R.stnModule] [pageBase 0x02 0] s t) ∧
    (s.flag R.stnModule F.stnModule_hv_interlock = false → ∃ t, exec .hvInterlockClosed s = .next t ∧
      t.flag R.stnModule F.stnModule_hv_interlock = true ∧
      Tells [.hif, .hapShared, .wld, .cic, .emits, .resp] [R.stnModule] [pageBase 0x02 0] s t)
end

