-- ==== Sys2Proof/Laws/Bits.lean ====
section
/-!
SUPPORT. What a write of one field of a word leaves in that field and in the others.
-/

namespace Sys2Proof

/-- A number is its part above the bits `lo` to `lo + k - 1`, those bits, and its part below them. -/
theorem split_bits (n A K : Nat) : n = n / A / K * (A * K) + n / A % K * A + n % A := by
  have h := Nat.div_add_mod n A
  have g := Nat.div_add_mod (n / A) K
  calc n = A * (n / A) + n % A := h.symm
    _ = A * (K * (n / A / K) + n / A % K) + n % A := by rw [g]
    _ = n / A / K * (A * K) + n / A % K * A + n % A := by ring

/-- The word with a field replaced, as a number: the parts above and below the field stay. -/
theorem Fld.put_toNat (f : Fld) (w : Word) (v : Nat) (h : f.lo ≤ f.hi) (k : f.hi ≤ 31) :
    (f.put w v).toNat = w.toNat / 2 ^ f.lo / 2 ^ (f.hi + 1 - f.lo) * (2 ^ f.lo * 2 ^ (f.hi + 1 - f.lo)) +
      v % 2 ^ (f.hi + 1 - f.lo) * 2 ^ f.lo + w.toNat % 2 ^ f.lo := by
  have hw : w.toNat < 2 ^ 32 := w.isLt
  have hs := split_bits w.toNat (2 ^ f.lo) (2 ^ (f.hi + 1 - f.lo))
  have hv : v % 2 ^ (f.hi + 1 - f.lo) < 2 ^ (f.hi + 1 - f.lo) := Nat.mod_lt _ (by positivity)
  have hr : w.toNat % 2 ^ f.lo < 2 ^ f.lo := Nat.mod_lt _ (by positivity)
  have hK : 2 ^ f.lo * 2 ^ (f.hi + 1 - f.lo) * 2 ^ (31 - f.hi) = 2 ^ 32 := by
    rw [← pow_add, ← pow_add]; congr 1; omega
  have hq : w.toNat / 2 ^ f.lo / 2 ^ (f.hi + 1 - f.lo) < 2 ^ (31 - f.hi) := by
    rw [Nat.div_div_eq_div_mul, Nat.div_lt_iff_lt_mul (by positivity)]
    rw [mul_comm]; rwa [hK]
  unfold Fld.put bitsOf
  rw [BitVec.toNat_ofNat]
  generalize w.toNat / 2 ^ f.lo / 2 ^ (f.hi + 1 - f.lo) = q at *
  generalize hA : 2 ^ f.lo = A at *
  generalize hKK : 2 ^ (f.hi + 1 - f.lo) = K at *
  generalize w.toNat / A % K = m at *
  generalize w.toNat % A = r at *
  generalize v % K = x at *
  generalize 2 ^ (31 - f.hi) = D at *
  have e : w.toNat - m * A + x * A = q * (A * K) + x * A + r := by omega
  rw [e, Nat.mod_eq_of_lt]
  have : x * A + A ≤ K * A := by nlinarith
  have : q * (A * K) + A * K ≤ A * K * D := by nlinarith
  have : K * A = A * K := mul_comm ..
  omega

theorem Fld.get_put_same (f : Fld) (w : Word) (v : Nat) (h : f.lo ≤ f.hi) (k : f.hi ≤ 31) :
    f.get (f.put w v) = v % 2 ^ (f.hi + 1 - f.lo) := by
  have hv : v % 2 ^ (f.hi + 1 - f.lo) < 2 ^ (f.hi + 1 - f.lo) := Nat.mod_lt _ (by positivity)
  have hr : w.toNat % 2 ^ f.lo < 2 ^ f.lo := Nat.mod_lt _ (by positivity)
  unfold Fld.get bitsOf
  rw [f.put_toNat w v h k]
  generalize w.toNat / 2 ^ f.lo / 2 ^ (f.hi + 1 - f.lo) = q
  generalize w.toNat % 2 ^ f.lo = r at *
  generalize v % 2 ^ (f.hi + 1 - f.lo) = x at *
  have e : q * (2 ^ f.lo * 2 ^ (f.hi + 1 - f.lo)) + x * 2 ^ f.lo + r =
      2 ^ f.lo * (2 ^ (f.hi + 1 - f.lo) * q + x) + r := by ring
  rw [e, Nat.mul_add_div (by positivity), Nat.div_eq_of_lt hr, Nat.add_zero, Nat.mul_add_mod, Nat.mod_eq_of_lt hv]

theorem Fld.get_put_disjoint (f g : Fld) (w : Word) (v : Nat) (hf : f.lo ≤ f.hi) (kf : f.hi ≤ 31)
    (hg : g.lo ≤ g.hi) (d : g.hi < f.lo ∨ f.hi < g.lo) : g.get (f.put w v) = g.get w := by
  have hv : v % 2 ^ (f.hi + 1 - f.lo) < 2 ^ (f.hi + 1 - f.lo) := Nat.mod_lt _ (by positivity)
  have hr : w.toNat % 2 ^ f.lo < 2 ^ f.lo := Nat.mod_lt _ (by positivity)
  unfold Fld.get bitsOf
  rw [f.put_toNat w v hf kf]
  rcases d with d | d
  · have hlow : ∀ n m : Nat, n % 2 ^ f.lo = m % 2 ^ f.lo →
        n / 2 ^ g.lo % 2 ^ (g.hi + 1 - g.lo) = m / 2 ^ g.lo % 2 ^ (g.hi + 1 - g.lo) := by
      intro n m e
      have dv : 2 ^ (g.hi + 1) ∣ 2 ^ f.lo := pow_dvd_pow 2 (by omega)
      have e2 : n % 2 ^ (g.hi + 1) = m % 2 ^ (g.hi + 1) := by
        rw [← Nat.mod_mod_of_dvd n dv, ← Nat.mod_mod_of_dvd m dv, e]
      have pw : 2 ^ (g.hi + 1) = 2 ^ g.lo * 2 ^ (g.hi + 1 - g.lo) := by rw [← pow_add]; congr 1; omega
      rw [pw] at e2
      rw [← Nat.mod_mul_right_div_self n, ← Nat.mod_mul_right_div_self m, e2]
    apply hlow
    generalize w.toNat / 2 ^ f.lo / 2 ^ (f.hi + 1 - f.lo) = q
    have e : q * (2 ^ f.lo * 2 ^ (f.hi + 1 - f.lo)) + v % 2 ^ (f.hi + 1 - f.lo) * 2 ^ f.lo + w.toNat % 2 ^ f.lo =
        2 ^ f.lo * (q * 2 ^ (f.hi + 1 - f.lo) + v % 2 ^ (f.hi + 1 - f.lo)) + w.toNat % 2 ^ f.lo := by ring
    rw [e, Nat.mul_add_mod, Nat.mod_mod]
  · congr 1
    have pw : 2 ^ g.lo = 2 ^ f.lo * 2 ^ (f.hi + 1 - f.lo) * 2 ^ (g.lo - f.hi - 1) := by
      rw [← pow_add, ← pow_add]; congr 1; omega
    rw [pw, ← Nat.div_div_eq_div_mul, ← Nat.div_div_eq_div_mul, ← Nat.div_div_eq_div_mul, ← Nat.div_div_eq_div_mul]
    congr 1
    generalize w.toNat / 2 ^ f.lo / 2 ^ (f.hi + 1 - f.lo) = q
    generalize w.toNat % 2 ^ f.lo = r at *
    generalize v % 2 ^ (f.hi + 1 - f.lo) = x at *
    have e : q * (2 ^ f.lo * 2 ^ (f.hi + 1 - f.lo)) + x * 2 ^ f.lo + r =
        2 ^ f.lo * (2 ^ (f.hi + 1 - f.lo) * q + x) + r := by ring
    rw [e, Nat.mul_add_div (by positivity), Nat.div_eq_of_lt hr, Nat.add_zero, Nat.mul_add_div (by positivity),
      Nat.div_eq_of_lt hv, Nat.add_zero]

end Sys2Proof
end

