-- ==== Sys2Proof/Laws/Tab.lean ====
section
/-!
SUPPORT. Sparse tables and memories: a read after a write, and that every write keeps the canonical form.
-/

namespace Sys2Proof

variable {α : Type}

theorem Tab.get_put (d : α) (i j : Nat) (v : α) (t : Tab α) :
    Tab.get d (Tab.put i v t) j = if j = i then v else Tab.get d t j := by
  induction t with
  | nil => simp [Tab.put, Tab.get]
  | cons e t ih =>
    obtain ⟨k, w⟩ := e
    simp only [Tab.put]
    split
    · simp [Tab.get]
    · split
      · subst_vars
        simp only [Tab.get]
        split <;> simp_all
      · simp only [Tab.get, ih]
        split <;> split <;> simp_all

theorem Tab.get_filter (d : α) (j : Nat) (p : Nat → Bool) (t : Tab α) (h : p j = true) :
    Tab.get d (t.filter fun e => p e.1) j = Tab.get d t j := by
  induction t with
  | nil => rfl
  | cons e t ih =>
    obtain ⟨k, w⟩ := e
    simp only [List.filter_cons]
    split
    · simp only [Tab.get, ih]
    · rename_i hk
      simp only [Tab.get, ih]
      split
      · subst_vars; exact absurd h hk
      · rfl

theorem Tab.get_filter_out (d : α) (j : Nat) (p : Nat → Bool) (t : Tab α) (h : p j = false) :
    Tab.get d (t.filter fun e => p e.1) j = d := by
  induction t with
  | nil => rfl
  | cons e t ih =>
    obtain ⟨k, w⟩ := e
    simp only [List.filter_cons]
    split
    · rename_i hk
      simp only [Tab.get, ih]
      split
      · subst_vars; simp_all
      · rfl
    · exact ih

theorem Tab.get_del (d : α) (i j : Nat) (t : Tab α) :
    Tab.get d (Tab.del i t) j = if j = i then d else Tab.get d t j := by
  unfold Tab.del
  split
  · exact Tab.get_filter_out d j (fun k => decide (k ≠ i)) t (by simp_all)
  · exact Tab.get_filter d j (fun k => decide (k ≠ i)) t (by simp_all)

/-- A read after a write: the value written at its key, the old value elsewhere. -/
theorem Tab.get_set [DecidableEq α] (d : α) (t : Tab α) (i j : Nat) (v : α) :
    Tab.get d (Tab.set d t i v) j = if j = i then v else Tab.get d t j := by
  unfold Tab.set
  split
  · rename_i h
    rw [Tab.get_del, h]
  · exact Tab.get_put d i j v t

@[simp] theorem Tab.get_set_same [DecidableEq α] (d : α) (t : Tab α) (i : Nat) (v : α) :
    Tab.get d (Tab.set d t i v) i = v := by simp [Tab.get_set]

/-- A write leaves every other key alone, whatever the two keys' defaults. -/
theorem Tab.get_set_ne [DecidableEq α] (d e : α) (t : Tab α) (i j : Nat) (v : α) (h : j ≠ i) :
    Tab.get e (Tab.set d t i v) j = Tab.get e t j := by
  unfold Tab.set
  split
  · rw [Tab.get_del, if_neg h]
  · rw [Tab.get_put, if_neg h]

/-! ### The canonical form -/

theorem Tab.wfFrom_mono [DecidableEq α] (d : Nat → α) (t : Tab α) (a b : Option Nat)
    (h : ∀ k, b.all (· < k) = true → a.all (· < k) = true) (w : Tab.wfFrom d b t = true) : Tab.wfFrom d a t = true := by
  cases t with
  | nil => rfl
  | cons e t =>
    obtain ⟨k, v⟩ := e
    simp only [Tab.wfFrom, Bool.and_eq_true] at w ⊢
    exact ⟨⟨h k w.1.1, w.1.2⟩, w.2⟩

theorem Tab.wfFrom_filter [DecidableEq α] (d : Nat → α) (p : Nat × α → Bool) (t : Tab α) (a : Option Nat)
    (w : Tab.wfFrom d a t = true) : Tab.wfFrom d a (t.filter p) = true := by
  induction t generalizing a with
  | nil => rfl
  | cons e t ih =>
    obtain ⟨k, v⟩ := e
    simp only [Tab.wfFrom, Bool.and_eq_true] at w
    simp only [List.filter_cons]
    split
    · simp only [Tab.wfFrom, Bool.and_eq_true]
      exact ⟨w.1, ih _ w.2⟩
    · refine ih a (Tab.wfFrom_mono d t a (some k) (fun m hm => ?_) w.2)
      cases a with
      | none => rfl
      | some x => simp_all; omega

theorem Tab.wfFrom_put [DecidableEq α] (d : Nat → α) (i : Nat) (v : α) (t : Tab α) (a : Option Nat) (hv : v ≠ d i)
    (ha : a.all (· < i) = true) (w : Tab.wfFrom d a t = true) : Tab.wfFrom d a (Tab.put i v t) = true := by
  induction t generalizing a with
  | nil => simp [Tab.put, Tab.wfFrom, ha, hv]
  | cons e t ih =>
    obtain ⟨k, x⟩ := e
    simp only [Tab.wfFrom, Bool.and_eq_true] at w
    simp only [Tab.put]
    split
    · rename_i hik
      simp only [Tab.wfFrom, Bool.and_eq_true]
      exact ⟨⟨ha, by simp [hv]⟩, ⟨by simpa using hik, w.1.2⟩, w.2⟩
    · split
      · subst_vars
        simp only [Tab.wfFrom, Bool.and_eq_true]
        exact ⟨⟨ha, by simp [hv]⟩, w.2⟩
      · simp only [Tab.wfFrom, Bool.and_eq_true]
        exact ⟨w.1, ih (some k) (by simp; omega) w.2⟩

/-- A write keeps the canonical form. -/
theorem Tab.wf_set [DecidableEq α] (d : Nat → α) (t : Tab α) (i : Nat) (v : α) (w : Tab.wf d t = true) :
    Tab.wf d (Tab.set (d i) t i v) = true := by
  unfold Tab.set
  split
  · exact Tab.wfFrom_filter d _ t none w
  · rename_i h
    exact Tab.wfFrom_put d i v t none h rfl w

/-- Removing entries keeps the canonical form. -/
theorem Tab.wf_filter [DecidableEq α] (d : Nat → α) (p : Nat × α → Bool) (t : Tab α) (w : Tab.wf d t = true) :
    Tab.wf d (t.filter p) = true := Tab.wfFrom_filter d p t none w

/-- Two canonical tables that read alike at every key are equal. -/
theorem Tab.wfFrom_ext [DecidableEq α] (d : Nat → α) (t u : Tab α) (a b : Option Nat) (wt : Tab.wfFrom d a t = true)
    (wu : Tab.wfFrom d b u = true) (h : ∀ k, Tab.get (d k) t k = Tab.get (d k) u k) : t = u := by
  have low : ∀ (t : Tab α) (a : Option Nat) (j : Nat), Tab.wfFrom d a t = true → a.all (· < j) = false →
      Tab.get (d j) t j = d j := by
    intro t
    induction t with
    | nil => intros; rfl
    | cons e t ih =>
      intro a j w hj
      obtain ⟨k, v⟩ := e
      simp only [Tab.wfFrom, Bool.and_eq_true] at w
      have hne : j ≠ k := by
        intro hjk
        subst hjk
        rw [w.1.1] at hj
        cases hj
      simp only [Tab.get, if_neg hne]
      refine ih (some k) j w.2 ?_
      cases a with
      | none => cases hj
      | some x => simp_all; omega
  induction t generalizing u a b with
  | nil =>
    cases u with
    | nil => rfl
    | cons e u =>
      obtain ⟨k, v⟩ := e
      simp only [Tab.wfFrom, Bool.and_eq_true] at wu
      have := h k
      simp only [Tab.get, if_true] at this
      exact absurd this.symm (by simpa using wu.1.2)
  | cons e t ih =>
    obtain ⟨k, v⟩ := e
    cases u with
    | nil =>
      simp only [Tab.wfFrom, Bool.and_eq_true] at wt
      have := h k
      simp only [Tab.get, if_true] at this
      exact absurd this (by simpa using wt.1.2)
    | cons e' u =>
      obtain ⟨k', v'⟩ := e'
      simp only [Tab.wfFrom, Bool.and_eq_true] at wt wu
      have hk : k = k' := by
        rcases Nat.lt_trichotomy k k' with hlt | heq | hgt
        · have := h k
          simp only [Tab.get, if_true, if_neg (Nat.ne_of_lt hlt)] at this
          rw [low u (some k') k wu.2 (by simp; omega)] at this
          exact absurd this (by simpa using wt.1.2)
        · exact heq
        · have := h k'
          simp only [Tab.get, if_true, if_neg (Nat.ne_of_lt hgt)] at this
          rw [low t (some k) k' wt.2 (by simp; omega)] at this
          exact absurd this.symm (by simpa using wu.1.2)
      subst hk
      have hv : v = v' := by
        have := h k
        simpa [Tab.get] using this
      subst hv
      congr 1
      refine ih u (some k) (some k) wt.2 wu.2 fun j => ?_
      by_cases hj : j = k
      · subst hj
        rw [low t (some j) j wt.2 (by simp), low u (some j) j wu.2 (by simp)]
      · have := h j
        simpa [Tab.get, hj] using this

/-- Canonical tables are determined by what they read. -/
theorem Tab.wf_ext [DecidableEq α] (d : Nat → α) (t u : Tab α) (wt : Tab.wf d t = true) (wu : Tab.wf d u = true)
    (h : ∀ k, Tab.get (d k) t k = Tab.get (d k) u k) : t = u := Tab.wfFrom_ext d t u none none wt wu h

/-! ### Memories -/

theorem Mem.wf_write (d : Byte) (m : Tab Byte) (a : Nat) (bs : List Byte) (w : Tab.wf (fun _ => d) m = true) :
    Tab.wf (fun _ => d) (Mem.write d m a bs) = true := by
  induction bs generalizing m a with
  | nil => exact w
  | cons b bs ih => exact ih _ _ (Tab.wf_set (fun _ => d) m a b w)

/-- A write leaves every byte outside it alone. -/
theorem Mem.get_write_ne (d : Byte) (m : Tab Byte) (a j : Nat) (bs : List Byte) (h : j < a ∨ a + bs.length ≤ j) :
    Tab.get d (Mem.write d m a bs) j = Tab.get d m j := by
  induction bs generalizing m a with
  | nil => rfl
  | cons b bs ih =>
    simp only [Mem.write]
    rw [ih _ _ (by simp at h; omega), Tab.get_set_ne d d m a j b (by simp at h; omega)]

/-- A byte read back after a write is the byte written. -/
theorem Mem.get_write (d : Byte) (m : Tab Byte) (a i : Nat) (bs : List Byte) (h : i < bs.length) :
    Tab.get d (Mem.write d m a bs) (a + i) = bs[i] := by
  induction bs generalizing m a i with
  | nil => exact absurd h (by simp)
  | cons b bs ih =>
    simp only [Mem.write]
    cases i with
    | zero => rw [Mem.get_write_ne d _ (a + 1) (a + 0) bs (by omega)]; simp
    | succ i =>
      have := ih (Tab.set d m a b) (a + 1) i (by simpa using h)
      simpa [Nat.add_assoc, Nat.add_comm 1 i] using this

/-- Reading as many bytes as were written gives them back. -/
theorem Mem.read_write (d : Byte) (m : Tab Byte) (a : Nat) (bs : List Byte) :
    Mem.read d (Mem.write d m a bs) a bs.length = bs := by
  apply List.ext_getElem
  · simp [Mem.read]
  · intro i h1 h2
    simp only [Mem.read, List.getElem_map, List.getElem_range]
    exact Mem.get_write d m a i bs h2

end Sys2Proof
end

