-- ==== Sys2Proof/Laws/Keeps.lean ====
section
/-!
SUPPORT. What a part of the machine keeps of a state: `Keeps` composes, follows the branches of a definition, and holds of
an update of one part of State. Every definition that changes State has one lemma of this form (Laws/Frame1.lean and on).
-/

namespace Sys2Proof.Machine

theorem Field.same_refl (f : Field) (s : State) : f.same s s := by cases f <;> rfl

theorem Field.same_trans {f : Field} {s t u : State} (a : f.same s t) (b : f.same t u) : f.same s u := by
  cases f <;> exact Eq.trans b a

theorem Keeps.refl {l : List Field} {s : State} : Keeps l s s := ⟨rfl, fun f _ => f.same_refl s, fun _ h => h⟩

theorem Keeps.trans {l : List Field} {s t u : State} (a : Keeps l s t) (b : Keeps l t u) : Keeps l s u :=
  ⟨b.queue.trans a.queue, fun f h => Field.same_trans (a.same f h) (b.same f h), fun f h => b.canon f (a.canon f h)⟩

/-- A longer list of parts says less. -/
theorem Keeps.weaken {k l : List Field} {s t : State} (a : Keeps k s t) (h : k.all l.contains = true) : Keeps l s t :=
  ⟨a.queue, fun f hf => a.same f (by
    cases hk : k.contains f with
    | false => rfl
    | true =>
      have := List.all_eq_true.mp h f (by simpa using hk)
      rw [this] at hf
      cases hf), a.canon⟩

/-- A change of every part. -/
theorem Keeps.all {l : List Field} {s t : State} (q : t.pending = s.pending)
    (c : ∀ f : Field, f.canon s = true → f.canon t = true) (h : ∀ f, l.contains f = true) : Keeps l s t :=
  ⟨q, fun f hf => absurd (hf.symm.trans (h f)) (by decide), c⟩

/-- Lists of parts within one another. -/
theorem Field.within {a b l : List Field} (h : a.all b.contains = true) (k : b.all l.contains = true) :
    a.all l.contains = true := by
  simp only [List.all_eq_true] at h k ⊢
  exact fun f hf => k f (by simpa using h f hf)

/-- The last operation of a chain, then the ones before it. -/
theorem Keeps.next {k l : List Field} {s t u : State} (b : Keeps k t u) (h : k.all l.contains = true) (a : Keeps l s t) :
    Keeps l s u := a.trans (b.weaken h)

theorem Keeps.snd {α : Type} {l : List Field} {s t : State} {x : α} {p : α × State} (e : p = (x, t))
    (h : Keeps l s p.2) : Keeps l s t := by
  rw [e] at h
  exact h

theorem Keeps.ite {l : List Field} {s a b : State} {c : Prop} [Decidable c] (h : Keeps l s a) (k : Keeps l s b) :
    Keeps l s (if c then a else b) := by
  split
  · exact h
  · exact k

theorem Keeps.dite {l : List Field} {s : State} {c : Prop} [Decidable c] {a : c → State} {b : ¬c → State}
    (h : ∀ x, Keeps l s (a x)) (k : ∀ x, Keeps l s (b x)) : Keeps l s (if x : c then a x else b x) := by
  split
  · exact h _
  · exact k _

theorem Keeps.ite2 {α : Type} {l : List Field} {s : State} {a b : α × State} {c : Prop} [Decidable c]
    (h : Keeps l s a.2) (k : Keeps l s b.2) : Keeps l s (if c then a else b).2 := by
  split
  · exact h
  · exact k

theorem Keeps.foldl {α : Type} {l : List Field} {f : State → α → State} {xs : List α} {s0 s : State}
    (h : ∀ s x, Keeps l s (f s x)) (k : Keeps l s0 s) : Keeps l s0 (xs.foldl f s) := by
  induction xs generalizing s with
  | nil => exact k
  | cons x xs ih => exact ih (k.trans (h s x))

theorem Keeps.each {α : Type} {l : List Field} {f : State → α → State} {xs : List α} {s0 s : State}
    (h : ∀ s x, Keeps l s (f s x)) (k : Keeps l s0 s) : Keeps l s0 (s.each xs f) := Keeps.foldl h k

theorem Keeps.foldl2 {α β : Type} {l : List Field} {f : β × State → α → β × State} {xs : List α} {s0 : State}
    {p : β × State} (h : ∀ q x, Keeps l q.2 (f q x).2) (k : Keeps l s0 p.2) : Keeps l s0 (xs.foldl f p).2 := by
  induction xs generalizing p with
  | nil => exact k
  | cons x xs ih => exact ih (k.trans (h p x))

theorem Keeps.foldl3 {α β γ : Type} {l : List Field} {f : β × γ × State → α → β × γ × State} {xs : List α} {s0 : State}
    {p : β × γ × State} (h : ∀ q x, Keeps l q.2.2 (f q x).2.2) (k : Keeps l s0 p.2.2) :
    Keeps l s0 (xs.foldl f p).2.2 := by
  induction xs generalizing p with
  | nil => exact k
  | cons x xs ih => exact ih (k.trans (h p x))

/-! ### Memories -/

theorem Mems.wf_parts (m : Mems) : m.wf = true ↔
    Tab.wf (fun _ => 0#8) m.dram = true ∧ Tab.wf (fun _ => 0#8) m.ctl = true ∧ Tab.wf (fun _ => 0xFF#8) m.flash = true ∧
      Tab.wf (fun _ => 0#8) m.store = true ∧ Tab.wf (fun _ => 0#8) m.floor = true := by
  simp only [Mems.wf, Bool.and_eq_true]
  constructor
  · rintro ⟨⟨⟨⟨a, b⟩, c⟩, d⟩, e⟩
    exact ⟨a, b, c, d, e⟩
  · rintro ⟨a, b, c, d, e⟩
    exact ⟨⟨⟨⟨a, b⟩, c⟩, d⟩, e⟩

theorem Mems.wf_dram {m : Mems} {a : Nat} {b : List Byte} (h : m.wf = true) :
    Mems.wf { m with dram := Mem.write 0 m.dram a b } = true := by
  rw [Mems.wf_parts] at h ⊢
  exact ⟨Mem.wf_write _ _ _ _ h.1, h.2⟩

theorem Mems.wf_ctl {m : Mems} {a : Nat} {b : List Byte} (h : m.wf = true) :
    Mems.wf { m with ctl := Mem.write 0 m.ctl a b } = true := by
  rw [Mems.wf_parts] at h ⊢
  exact ⟨h.1, Mem.wf_write _ _ _ _ h.2.1, h.2.2⟩

theorem Mems.wf_flash {m : Mems} {a : Nat} {b : List Byte} (h : m.wf = true) :
    Mems.wf { m with flash := Mem.write 0xFF#8 m.flash a b } = true := by
  rw [Mems.wf_parts] at h ⊢
  exact ⟨h.1, h.2.1, Mem.wf_write _ _ _ _ h.2.2.1, h.2.2.2⟩

theorem Mems.wf_store {m : Mems} {a : Nat} {b : List Byte} (h : m.wf = true) :
    Mems.wf { m with store := Mem.write 0 m.store a b } = true := by
  rw [Mems.wf_parts] at h ⊢
  exact ⟨h.1, h.2.1, h.2.2.1, Mem.wf_write _ _ _ _ h.2.2.2.1, h.2.2.2.2⟩

theorem Mems.wf_floor {m : Mems} {a : Nat} {b : List Byte} (h : m.wf = true) :
    Mems.wf { m with floor := Mem.write 0 m.floor a b } = true := by
  rw [Mems.wf_parts] at h ⊢
  exact ⟨h.1, h.2.1, h.2.2.1, h.2.2.2.1, Mem.wf_write _ _ _ _ h.2.2.2.2⟩

/-! ### Updates of one part -/

theorem Keeps.set_time {l : List Field} {s x : State} {v} (hl : l.contains .time = true) (h : Keeps l s x) :
    Keeps l s { x with time := v } :=
  ⟨h.queue, fun f hf => by cases f <;> first | exact h.same _ hf | exact absurd (hf.symm.trans hl) (by decide),
   fun f hf => by cases f <;> exact h.canon _ hf⟩

theorem Keeps.set_ticks {l : List Field} {s x : State} {v} (hl : l.contains .ticks = true) (h : Keeps l s x) :
    Keeps l s { x with ticks := v } :=
  ⟨h.queue, fun f hf => by cases f <;> first | exact h.same _ hf | exact absurd (hf.symm.trans hl) (by decide),
   fun f hf => by cases f <;> exact h.canon _ hf⟩

theorem Keeps.set_rate {l : List Field} {s x : State} {v} (hl : l.contains .rate = true) (h : Keeps l s x) :
    Keeps l s { x with rate := v } :=
  ⟨h.queue, fun f hf => by cases f <;> first | exact h.same _ hf | exact absurd (hf.symm.trans hl) (by decide),
   fun f hf => by cases f <;> exact h.canon _ hf⟩

theorem Keeps.set_cells {l : List Field} {s x : State} {v} (hl : l.contains .cells = true)
    (hc : Field.canon .cells x = true → Tab.wf cellReset v = true) (h : Keeps l s x) : Keeps l s { x with cells := v } :=
  ⟨h.queue, fun f hf => by cases f <;> first | exact h.same _ hf | exact absurd (hf.symm.trans hl) (by decide),
   fun f hf => by cases f <;> first | exact h.canon _ hf | exact hc (h.canon _ hf)⟩

theorem Keeps.set_latches {l : List Field} {s x : State} {v} (hl : l.contains .latches = true)
    (hc : Field.canon .latches x = true → Tab.wf (fun _ => 0#32) v = true) (h : Keeps l s x) : Keeps l s { x with latches := v } :=
  ⟨h.queue, fun f hf => by cases f <;> first | exact h.same _ hf | exact absurd (hf.symm.trans hl) (by decide),
   fun f hf => by cases f <;> first | exact h.canon _ hf | exact hc (h.canon _ hf)⟩

theorem Keeps.set_hif {l : List Field} {s x : State} {v} (hl : l.contains .hif = true) (h : Keeps l s x) :
    Keeps l s { x with hif := v } :=
  ⟨h.queue, fun f hf => by cases f <;> first | exact h.same _ hf | exact absurd (hf.symm.trans hl) (by decide),
   fun f hf => by cases f <;> exact h.canon _ hf⟩

theorem Keeps.set_cmds {l : List Field} {s x : State} {v} (hl : l.contains .cmds = true)
    (hc : Field.canon .cmds x = true → Tab.wf (fun _ => {}) v = true) (h : Keeps l s x) : Keeps l s { x with cmds := v } :=
  ⟨h.queue, fun f hf => by cases f <;> first | exact h.same _ hf | exact absurd (hf.symm.trans hl) (by decide),
   fun f hf => by cases f <;> first | exact h.canon _ hf | exact hc (h.canon _ hf)⟩

theorem Keeps.set_slices {l : List Field} {s x : State} {v} (hl : l.contains .slices = true)
    (hc : Field.canon .slices x = true → Tab.wf (fun _ => {}) v = true) (h : Keeps l s x) : Keeps l s { x with slices := v } :=
  ⟨h.queue, fun f hf => by cases f <;> first | exact h.same _ hf | exact absurd (hf.symm.trans hl) (by decide),
   fun f hf => by cases f <;> first | exact h.canon _ hf | exact hc (h.canon _ hf)⟩

theorem Keeps.set_haul {l : List Field} {s x : State} {v} (hl : l.contains .haul = true) (h : Keeps l s x) :
    Keeps l s { x with haul := v } :=
  ⟨h.queue, fun f hf => by cases f <;> first | exact h.same _ hf | exact absurd (hf.symm.trans hl) (by decide),
   fun f hf => by cases f <;> exact h.canon _ hf⟩

theorem Keeps.set_outs {l : List Field} {s x : State} {v} (hl : l.contains .outs = true)
    (hc : Field.canon .outs x = true → Tab.wf (fun _ => {}) v = true) (h : Keeps l s x) : Keeps l s { x with outs := v } :=
  ⟨h.queue, fun f hf => by cases f <;> first | exact h.same _ hf | exact absurd (hf.symm.trans hl) (by decide),
   fun f hf => by cases f <;> first | exact h.canon _ hf | exact hc (h.canon _ hf)⟩

theorem Keeps.set_lyr {l : List Field} {s x : State} {v} (hl : l.contains .lyr = true)
    (hc : Field.canon .lyr x = true → Tab.wf (fun _ => {}) v = true) (h : Keeps l s x) : Keeps l s { x with lyr := v } :=
  ⟨h.queue, fun f hf => by cases f <;> first | exact h.same _ hf | exact absurd (hf.symm.trans hl) (by decide),
   fun f hf => by cases f <;> first | exact h.canon _ hf | exact hc (h.canon _ hf)⟩

theorem Keeps.set_lyrSnap {l : List Field} {s x : State} {v} (hl : l.contains .lyrSnap = true)
    (hc : Field.canon .lyrSnap x = true → Tab.wf (fun _ => []) v = true) (h : Keeps l s x) : Keeps l s { x with lyrSnap := v } :=
  ⟨h.queue, fun f hf => by cases f <;> first | exact h.same _ hf | exact absurd (hf.symm.trans hl) (by decide),
   fun f hf => by cases f <;> first | exact h.canon _ hf | exact hc (h.canon _ hf)⟩

theorem Keeps.set_csr {l : List Field} {s x : State} {v} (hl : l.contains .csr = true)
    (hc : Field.canon .csr x = true → Tab.wf (fun _ => {}) v = true) (h : Keeps l s x) : Keeps l s { x with csr := v } :=
  ⟨h.queue, fun f hf => by cases f <;> first | exact h.same _ hf | exact absurd (hf.symm.trans hl) (by decide),
   fun f hf => by cases f <;> first | exact h.canon _ hf | exact hc (h.canon _ hf)⟩

theorem Keeps.set_cvu {l : List Field} {s x : State} {v} (hl : l.contains .cvu = true)
    (hc : Field.canon .cvu x = true → Tab.wf (fun _ => .idle) v = true) (h : Keeps l s x) : Keeps l s { x with cvu := v } :=
  ⟨h.queue, fun f hf => by cases f <;> first | exact h.same _ hf | exact absurd (hf.symm.trans hl) (by decide),
   fun f hf => by cases f <;> first | exact h.canon _ hf | exact hc (h.canon _ hf)⟩

theorem Keeps.set_floor {l : List Field} {s x : State} {v} (hl : l.contains .floor = true)
    (hc : Field.canon .floor x = true → Tab.wf (fun _ => {}) v = true) (h : Keeps l s x) : Keeps l s { x with floor := v } :=
  ⟨h.queue, fun f hf => by cases f <;> first | exact h.same _ hf | exact absurd (hf.symm.trans hl) (by decide),
   fun f hf => by cases f <;> first | exact h.canon _ hf | exact hc (h.canon _ hf)⟩

theorem Keeps.set_cvSnap {l : List Field} {s x : State} {v} (hl : l.contains .cvSnap = true)
    (hc : Field.canon .cvSnap x = true → Tab.wf (fun _ => []) v = true) (h : Keeps l s x) : Keeps l s { x with cvSnap := v } :=
  ⟨h.queue, fun f hf => by cases f <;> first | exact h.same _ hf | exact absurd (hf.symm.trans hl) (by decide),
   fun f hf => by cases f <;> first | exact h.canon _ hf | exact hc (h.canon _ hf)⟩

theorem Keeps.set_tch {l : List Field} {s x : State} {v} (hl : l.contains .tch = true)
    (hc : Field.canon .tch x = true → Tab.wf (fun _ => {}) v = true) (h : Keeps l s x) : Keeps l s { x with tch := v } :=
  ⟨h.queue, fun f hf => by cases f <;> first | exact h.same _ hf | exact absurd (hf.symm.trans hl) (by decide),
   fun f hf => by cases f <;> first | exact h.canon _ hf | exact hc (h.canon _ hf)⟩

theorem Keeps.set_reflexDirty {l : List Field} {s x : State} {v} (hl : l.contains .reflexDirty = true) (h : Keeps l s x) :
    Keeps l s { x with reflexDirty := v } :=
  ⟨h.queue, fun f hf => by cases f <;> first | exact h.same _ hf | exact absurd (hf.symm.trans hl) (by decide),
   fun f hf => by cases f <;> exact h.canon _ hf⟩

theorem Keeps.set_pwResync {l : List Field} {s x : State} {v} (hl : l.contains .pwResync = true) (h : Keeps l s x) :
    Keeps l s { x with pwResync := v } :=
  ⟨h.queue, fun f hf => by cases f <;> first | exact h.same _ hf | exact absurd (hf.symm.trans hl) (by decide),
   fun f hf => by cases f <;> exact h.canon _ hf⟩

theorem Keeps.set_hap {l : List Field} {s x : State} {v} (hl : l.contains .hap = true)
    (hc : Field.canon .hap x = true → Tab.wf (fun _ => {}) v = true) (h : Keeps l s x) : Keeps l s { x with hap := v } :=
  ⟨h.queue, fun f hf => by cases f <;> first | exact h.same _ hf | exact absurd (hf.symm.trans hl) (by decide),
   fun f hf => by cases f <;> first | exact h.canon _ hf | exact hc (h.canon _ hf)⟩

theorem Keeps.set_hapShared {l : List Field} {s x : State} {v} (hl : l.contains .hapShared = true) (h : Keeps l s x) :
    Keeps l s { x with hapShared := v } :=
  ⟨h.queue, fun f hf => by cases f <;> first | exact h.same _ hf | exact absurd (hf.symm.trans hl) (by decide),
   fun f hf => by cases f <;> exact h.canon _ hf⟩

theorem Keeps.set_hst {l : List Field} {s x : State} {v} (hl : l.contains .hst = true)
    (hc : Field.canon .hst x = true → Tab.wf (fun _ => {}) v = true) (h : Keeps l s x) : Keeps l s { x with hst := v } :=
  ⟨h.queue, fun f hf => by cases f <;> first | exact h.same _ hf | exact absurd (hf.symm.trans hl) (by decide),
   fun f hf => by cases f <;> first | exact h.canon _ hf | exact hc (h.canon _ hf)⟩

theorem Keeps.set_ast {l : List Field} {s x : State} {v} (hl : l.contains .ast = true)
    (hc : Field.canon .ast x = true → Tab.wf (fun _ => {}) v = true) (h : Keeps l s x) : Keeps l s { x with ast := v } :=
  ⟨h.queue, fun f hf => by cases f <;> first | exact h.same _ hf | exact absurd (hf.symm.trans hl) (by decide),
   fun f hf => by cases f <;> first | exact h.canon _ hf | exact hc (h.canon _ hf)⟩

theorem Keeps.set_tdm {l : List Field} {s x : State} {v} (hl : l.contains .tdm = true)
    (hc : Field.canon .tdm x = true → Tab.wf (fun _ => {}) v = true) (h : Keeps l s x) : Keeps l s { x with tdm := v } :=
  ⟨h.queue, fun f hf => by cases f <;> first | exact h.same _ hf | exact absurd (hf.symm.trans hl) (by decide),
   fun f hf => by cases f <;> first | exact h.canon _ hf | exact hc (h.canon _ hf)⟩

theorem Keeps.set_wld {l : List Field} {s x : State} {v} (hl : l.contains .wld = true)
    (hc : Field.canon .wld x = true → Tab.wf (fun _ => {}) v.cores = true) (h : Keeps l s x) :
    Keeps l s { x with wld := v } :=
  ⟨h.queue, fun f hf => by cases f <;> first | exact h.same _ hf | exact absurd (hf.symm.trans hl) (by decide),
   fun f hf => by cases f <;> first | exact h.canon _ hf | exact hc (h.canon _ hf)⟩

theorem Keeps.set_cic {l : List Field} {s x : State} {v} (hl : l.contains .cic = true)
    (hc : Field.canon .cic x = true → Tab.wf (fun _ => {}) v.srcs = true) (h : Keeps l s x) :
    Keeps l s { x with cic := v } :=
  ⟨h.queue, fun f hf => by cases f <;> first | exact h.same _ hf | exact absurd (hf.symm.trans hl) (by decide),
   fun f hf => by cases f <;> first | exact h.canon _ hf | exact hc (h.canon _ hf)⟩

theorem Keeps.set_dmc {l : List Field} {s x : State} {v} (hl : l.contains .dmc = true) (h : Keeps l s x) :
    Keeps l s { x with dmc := v } :=
  ⟨h.queue, fun f hf => by cases f <;> first | exact h.same _ hf | exact absurd (hf.symm.trans hl) (by decide),
   fun f hf => by cases f <;> exact h.canon _ hf⟩

theorem Keeps.set_reductions {l : List Field} {s x : State} {v} (hl : l.contains .reductions = true) (h : Keeps l s x) :
    Keeps l s { x with reductions := v } :=
  ⟨h.queue, fun f hf => by cases f <;> first | exact h.same _ hf | exact absurd (hf.symm.trans hl) (by decide),
   fun f hf => by cases f <;> exact h.canon _ hf⟩

theorem Keeps.set_clk {l : List Field} {s x : State} {v} (hl : l.contains .clk = true) (h : Keeps l s x) :
    Keeps l s { x with clk := v } :=
  ⟨h.queue, fun f hf => by cases f <;> first | exact h.same _ hf | exact absurd (hf.symm.trans hl) (by decide),
   fun f hf => by cases f <;> exact h.canon _ hf⟩

theorem Keeps.set_pair {l : List Field} {s x : State} {v} (hl : l.contains .pair = true) (h : Keeps l s x) :
    Keeps l s { x with pair := v } :=
  ⟨h.queue, fun f hf => by cases f <;> first | exact h.same _ hf | exact absurd (hf.symm.trans hl) (by decide),
   fun f hf => by cases f <;> exact h.canon _ hf⟩

theorem Keeps.set_pwr {l : List Field} {s x : State} {v} (hl : l.contains .pwr = true) (h : Keeps l s x) :
    Keeps l s { x with pwr := v } :=
  ⟨h.queue, fun f hf => by cases f <;> first | exact h.same _ hf | exact absurd (hf.symm.trans hl) (by decide),
   fun f hf => by cases f <;> exact h.canon _ hf⟩

theorem Keeps.set_mem {l : List Field} {s x : State} {v : Mems} (hl : l.contains .mem = true)
    (hc : x.mem.wf = true → v.wf = true) (h : Keeps l s x) : Keeps l s { x with mem := v } :=
  ⟨h.queue, fun f hf => by cases f <;> first | exact h.same _ hf | exact absurd (hf.symm.trans hl) (by decide),
   fun f hf => by cases f <;> first | exact h.canon _ hf | exact hc (h.canon _ hf)⟩

theorem Keeps.set_freeCtr {l : List Field} {s x : State} {v} (hl : l.contains .freeCtr = true) (h : Keeps l s x) :
    Keeps l s { x with freeCtr := v } :=
  ⟨h.queue, fun f hf => by cases f <;> first | exact h.same _ hf | exact absurd (hf.symm.trans hl) (by decide),
   fun f hf => by cases f <;> exact h.canon _ hf⟩

theorem Keeps.set_emits {l : List Field} {s x : State} {v} (hl : l.contains .emits = true) (h : Keeps l s x) :
    Keeps l s { x with emits := v } :=
  ⟨h.queue, fun f hf => by cases f <;> first | exact h.same _ hf | exact absurd (hf.symm.trans hl) (by decide),
   fun f hf => by cases f <;> exact h.canon _ hf⟩

theorem Keeps.set_resp {l : List Field} {s x : State} {v} (hl : l.contains .resp = true) (h : Keeps l s x) :
    Keeps l s { x with resp := v } :=
  ⟨h.queue, fun f hf => by cases f <;> first | exact h.same _ hf | exact absurd (hf.symm.trans hl) (by decide),
   fun f hf => by cases f <;> exact h.canon _ hf⟩

end Sys2Proof.Machine
end

