-- ==== Sys2Proof/Laws/Frame1.lean ====
section
/-!
SUPPORT. What each operation of the machine keeps (part 1 of 9): the parts of State that it may change are listed, every other
part stays, the queue stays, and no table leaves its canonical form.
-/

namespace Sys2Proof.Machine

theorem State.wr_keeps (s : State) (a : ℕ) (w : Word) : Keeps [.cells] s (State.wr s a w) := by
  unfold State.wr
  refine Keeps.set_cells (x := s) rfl (fun h => Tab.wf_set _ _ _ _ h) ?_
  exact Keeps.refl

theorem State.put_keeps (s : State) (a : ℕ) (f : Fld) (v : ℕ) : Keeps [.cells] s (State.put s a f v) := by
  unfold State.put
  refine Keeps.next (State.wr_keeps ..) rfl ?_
  exact Keeps.refl

theorem State.setStage_keeps (s : State) (n : ℕ) : Keeps [.cells] s (State.setStage s n) := by
  unfold State.setStage
  refine Keeps.next (State.put_keeps ..) rfl ?_
  exact Keeps.refl

theorem State.setLocked_keeps (s : State) (i : ℕ) (b : Bool) : Keeps [.cells] s (State.setLocked s i b) := by
  unfold State.setLocked
  refine Keeps.next (State.put_keeps ..) rfl ?_
  exact Keeps.refl

theorem State.startPll_keeps (s : State) (i : ℕ) : Keeps [.clk] s (State.startPll s i) := by
  unfold State.startPll
  refine Keeps.set_clk (x := s) rfl ?_
  exact Keeps.refl

theorem State.setDom_keeps (s : State) (d : ℕ) (x : Dom) : Keeps [.clk] s (State.setDom s d x) := by
  unfold State.setDom
  refine Keeps.set_clk (x := s) rfl ?_
  exact Keeps.refl

theorem State.bootPll_keeps (s : State) (i : ℕ) : Keeps [.cells, .clk] s (State.bootPll s i) := by
  unfold State.bootPll
  show let r3 := _; Keeps _ _ r3
  intro r3
  extract_lets -descend +onlyGivenNames st4 at r3
  have hst4 : Keeps [.cells, .clk] s st4 := by
    subst st4
    refine Keeps.next (State.setLocked_keeps ..) rfl ?_
    refine Keeps.next (State.startPll_keeps ..) rfl ?_
    exact Keeps.refl
  try clear_value st4
  subst r3
  refine Keeps.each (fun st5 x6 => ?_) ?_
  · refine Keeps.next (State.setDom_keeps ..) rfl ?_
    exact Keeps.refl
  · exact hst4

theorem State.setCore_keeps (s : State) (i : ℕ) (x : CoreSt) : Keeps [.wld] s (State.setCore s i x) := by
  unfold State.setCore
  refine Keeps.set_wld (x := s) rfl (fun h => Tab.wf_set _ _ _ _ h) ?_
  exact Keeps.refl

theorem State.wake_keeps (s : State) : Keeps [.wld] s (State.wake s) := by
  unfold State.wake
  refine Keeps.each (fun st2 x3 => ?_) ?_
  · show let r4 := _; Keeps _ _ r4
    intro r4
    extract_lets -descend +onlyGivenNames v5 at r4
    subst r4
    refine Keeps.ite ?_ ?_
    · refine Keeps.next (State.setCore_keeps ..) rfl ?_
      exact Keeps.refl
    · exact Keeps.refl
  · exact Keeps.refl

theorem State.setSrc_keeps (s : State) (i : ℕ) (x : Src) : Keeps [.cic] s (State.setSrc s i x) := by
  unfold State.setSrc
  refine Keeps.set_cic (x := s) rfl (fun h => Tab.wf_set _ _ _ _ h) ?_
  exact Keeps.refl

theorem State.setInput_keeps (s : State) (n : ℕ) (b : Bool) : Keeps [.wld, .cic] s (State.setInput s n b) := by
  unfold State.setInput
  refine Keeps.next (State.wake_keeps ..) rfl ?_
  refine Keeps.next (State.setSrc_keeps ..) rfl ?_
  exact Keeps.refl

theorem State.syncSource_keeps (s : State) (pg : ℕ) : Keeps [.wld, .cic] s (State.syncSource s pg) := by
  unfold State.syncSource
  split
  · exact Keeps.refl
  · refine Keeps.ite ?_ ?_
    · exact Keeps.refl
    · split
      · refine Keeps.next (State.setInput_keeps ..) rfl ?_
        exact Keeps.refl
      · exact Keeps.refl

theorem State.openGate_keeps (s : State) (g : ℕ) : Keeps [.cells, .wld, .cic, .clk] s (State.openGate s g) := by
  unfold State.openGate
  show let r3 := _; Keeps _ _ r3
  intro r3
  extract_lets -descend +onlyGivenNames st4 at r3
  have hst4 : Keeps [.cells, .wld, .cic, .clk] s st4 := by
    subst st4
    refine Keeps.next (State.put_keeps ..) rfl ?_
    exact Keeps.refl
  try clear_value st4
  subst r3
  refine Keeps.next (State.syncSource_keeps ..) rfl ?_
  refine Keeps.set_clk (x := st4) rfl ?_
  exact hst4

theorem State.railSwitch_keeps (s : State) : Keeps [.hapShared] s (State.railSwitch s) := by
  unfold State.railSwitch
  refine Keeps.set_hapShared (x := s) rfl ?_
  exact Keeps.refl

theorem State.setF_keeps (s : State) (a : ℕ) (f : Fld) : Keeps [.cells] s (State.setF s a f) := by
  unfold State.setF
  refine Keeps.next (State.put_keeps ..) rfl ?_
  exact Keeps.refl

theorem State.bootClocks_keeps (s : State) : Keeps [.cells, .hapShared, .wld, .cic, .clk] s (State.bootClocks s) := by
  unfold State.bootClocks
  show let r2 := _; Keeps _ _ r2
  intro r2
  extract_lets -descend +onlyGivenNames st3 at r2
  have hst3 : Keeps [.cells, .hapShared, .wld, .cic, .clk] s st3 := by
    subst st3
    refine Keeps.each (fun st4 x5 => ?_) ?_
    · refine Keeps.next (State.openGate_keeps ..) rfl ?_
      exact Keeps.refl
    · exact Keeps.refl
  try clear_value st3
  extract_lets -descend +onlyGivenNames st6 at r2
  have hst6 : Keeps [.cells, .hapShared, .wld, .cic, .clk] s st6 := by
    subst st6
    refine Keeps.next (State.railSwitch_keeps ..) rfl ?_
    refine Keeps.next (State.setF_keeps ..) rfl ?_
    exact hst3
  try clear_value st6
  extract_lets -descend +onlyGivenNames st7 at r2
  have hst7 : Keeps [.cells, .hapShared, .wld, .cic, .clk] s st7 := by
    subst st7
    refine Keeps.next (State.bootPll_keeps ..) rfl ?_
    refine Keeps.next (State.bootPll_keeps ..) rfl ?_
    refine Keeps.next (State.bootPll_keeps ..) rfl ?_
    exact hst6
  try clear_value st7
  subst r2
  refine Keeps.next (State.setStage_keeps ..) rfl ?_
  refine Keeps.next (State.startPll_keeps ..) rfl ?_
  refine Keeps.next (State.startPll_keeps ..) rfl ?_
  exact hst7

theorem State.bootFirmware_keeps (s : State) : Keeps [.cells, .pwr] s (State.bootFirmware s).2 := by
  unfold State.bootFirmware
  show let r2 := _; Keeps _ _ (Prod.snd r2)
  intro r2
  extract_lets -descend +onlyGivenNames st3 at r2
  have hst3 : Keeps [.cells, .pwr] s st3 := by
    subst st3
    refine Keeps.next (State.setStage_keeps ..) rfl ?_
    exact Keeps.refl
  try clear_value st3
  extract_lets -descend +onlyGivenNames v4 at r2
  extract_lets -descend +onlyGivenNames v5 at r2
  extract_lets -descend +onlyGivenNames v6 at r2
  extract_lets -descend +onlyGivenNames v7 at r2
  extract_lets -descend +onlyGivenNames st8 at r2
  have hst8 : Keeps [.cells, .pwr] s st8 := by
    subst st8
    refine Keeps.set_pwr (x := st3) rfl ?_
    exact hst3
  try clear_value st8
  extract_lets -descend +onlyGivenNames st9 at r2
  have hst9 : Keeps [.cells, .pwr] s st9 := by
    subst st9
    refine Keeps.next (State.put_keeps ..) rfl ?_
    exact hst8
  try clear_value st9
  extract_lets -descend +onlyGivenNames v10 at r2
  extract_lets -descend +onlyGivenNames v11 at r2
  subst r2
  refine Keeps.ite2 ?_ ?_
  · show let r12 := _; Keeps _ _ (Prod.snd r12)
    intro r12
    extract_lets -descend +onlyGivenNames st13 at r12
    have hst13 : Keeps [.cells, .pwr] s st13 := by
      subst st13
      refine Keeps.next (State.put_keeps ..) rfl ?_
      refine Keeps.next (State.put_keeps ..) rfl ?_
      exact hst9
    try clear_value st13
    subst r12
    show Keeps _ _ _
    exact hst13
  · show let r14 := _; Keeps _ _ (Prod.snd r14)
    intro r14
    extract_lets -descend +onlyGivenNames st15 at r14
    have hst15 : Keeps [.cells, .pwr] s st15 := by
      subst st15
      refine Keeps.next (State.put_keeps ..) rfl ?_
      exact hst9
    try clear_value st15
    subst r14
    refine Keeps.ite2 ?_ ?_
    · show let r16 := _; Keeps _ _ (Prod.snd r16)
      intro r16
      extract_lets -descend +onlyGivenNames st17 at r16
      have hst17 : Keeps [.cells, .pwr] s st17 := by
        subst st17
        refine Keeps.next (State.put_keeps ..) rfl ?_
        refine Keeps.next (State.put_keeps ..) rfl ?_
        exact hst15
      try clear_value st17
      subst r16
      show Keeps _ _ _
      exact hst17
    · show Keeps _ _ _
      exact hst15

theorem State.emit_keeps (s : State) (e : Emit) : Keeps [.emits] s (State.emit s e) := by
  unfold State.emit
  refine Keeps.set_emits (x := s) rfl ?_
  exact Keeps.refl

theorem State.send_keeps (s : State) (m : Msg) : Keeps [.pair, .emits] s (State.send s m) := by
  unfold State.send
  refine Keeps.ite ?_ ?_
  · exact Keeps.refl
  · refine Keeps.ite ?_ ?_
    · show let r3 := _; Keeps _ _ r3
      intro r3
      extract_lets -descend +onlyGivenNames v4 at r3
      extract_lets -descend +onlyGivenNames st5 at r3
      have hst5 : Keeps [.pair, .emits] s st5 := by
        subst st5
        refine Keeps.next (State.emit_keeps ..) rfl ?_
        exact Keeps.refl
      try clear_value st5
      subst r3
      refine Keeps.set_pair (x := st5) rfl ?_
      exact hst5
    · refine Keeps.set_pair (x := s) rfl ?_
      exact Keeps.refl

theorem State.mirror_keeps (s : State) (m : Msg) : Keeps [.pair, .emits] s (State.mirror s m) := by
  unfold State.mirror
  refine Keeps.ite ?_ ?_
  · refine Keeps.next (State.send_keeps ..) rfl ?_
    exact Keeps.refl
  · exact Keeps.refl

theorem State.floorStore_keeps (s : State) (o : ℕ) (off : ℕ) (data : List Byte) : Keeps [.pair, .mem, .emits] s
    (State.floorStore s o off data) := by
  unfold State.floorStore
  refine Keeps.next (State.mirror_keeps ..) rfl ?_
  refine Keeps.set_mem (x := s) rfl Mems.wf_floor ?_
  exact Keeps.refl

theorem State.wrN_keeps (s : State) (a : ℕ) (n : ℕ) : Keeps [.cells] s (State.wrN s a n) := by
  unfold State.wrN
  refine Keeps.next (State.wr_keeps ..) rfl ?_
  exact Keeps.refl

theorem State.bootFloor_keeps (s : State) (base : ℕ) (o : ℕ) : Keeps [.cells, .wld, .cic, .clk, .pair, .mem, .emits]
    s (State.bootFloor s base o) := by
  unfold State.bootFloor
  split
  · exact Keeps.refl
  · show let r4 := _; Keeps _ _ r4
    intro r4
    extract_lets -descend +onlyGivenNames st5 at r4
    have hst5 : Keeps [.cells, .wld, .cic, .clk, .pair, .mem, .emits] s st5 := by
      subst st5
      refine Keeps.next (State.floorStore_keeps ..) rfl ?_
      refine Keeps.next (State.openGate_keeps ..) rfl ?_
      exact Keeps.refl
    try clear_value st5
    extract_lets -descend +onlyGivenNames v6 at r4
    extract_lets -descend +onlyGivenNames st7 at r4
    have hst7 : Keeps [.cells, .wld, .cic, .clk, .pair, .mem, .emits] s st7 := by
      subst st7
      refine Keeps.next (State.wrN_keeps ..) rfl ?_
      exact hst5
    try clear_value st7
    subst r4
    refine Keeps.next (State.wr_keeps ..) rfl ?_
    refine Keeps.next (State.wrN_keeps ..) rfl ?_
    exact hst7

theorem State.setChan_keeps (s : State) (i : ℕ) (x : HapSt) : Keeps [.hap] s (State.setChan s i x) := by
  unfold State.setChan
  refine Keeps.set_hap (x := s) rfl (fun h => Tab.wf_set _ _ _ _ h) ?_
  exact Keeps.refl

theorem State.updChan_keeps (s : State) (i : ℕ) (f : HapSt → HapSt) : Keeps [.hap] s (State.updChan s i f) := by
  unfold State.updChan
  refine Keeps.next (State.setChan_keeps ..) rfl ?_
  exact Keeps.refl

theorem State.clrF_keeps (s : State) (a : ℕ) (f : Fld) : Keeps [.cells] s (State.clrF s a f) := by
  unfold State.clrF
  refine Keeps.next (State.put_keeps ..) rfl ?_
  exact Keeps.refl

theorem State.publish_keeps (s : State) : Keeps [.cells, .hap, .hapShared] s (State.publish s) := by
  unfold State.publish
  refine Keeps.ite ?_ ?_
  · exact Keeps.refl
  · show let r2 := _; Keeps _ _ r2
    intro r2
    extract_lets -descend +onlyGivenNames st3 at r2
    have hst3 : Keeps [.cells, .hap, .hapShared] s st3 := by
      subst st3
      refine Keeps.set_hapShared (x := s) rfl ?_
      exact Keeps.refl
    try clear_value st3
    extract_lets -descend +onlyGivenNames st4 at r2
    have hst4 : Keeps [.cells, .hap, .hapShared] s st4 := by
      subst st4
      refine Keeps.each (fun st5 x6 => ?_) ?_
      · refine Keeps.next (State.updChan_keeps ..) rfl ?_
        exact Keeps.refl
      · exact hst3
    try clear_value st4
    subst r2
    refine Keeps.next (State.clrF_keeps ..) rfl ?_
    exact hst4

theorem State.bootEffects_keeps (s : State) (base : ℕ) : Keeps [.cells, .hap, .hapShared, .wld, .cic, .clk, .mem] s
    (State.bootEffects s base) := by
  unfold State.bootEffects
  split
  · exact Keeps.refl
  · show let r3 := _; Keeps _ _ r3
    intro r3
    extract_lets -descend +onlyGivenNames st4 at r3
    have hst4 : Keeps [.cells, .hap, .hapShared, .wld, .cic, .clk, .mem] s st4 := by
      subst st4
      refine Keeps.next (State.openGate_keeps ..) rfl ?_
      exact Keeps.refl
    try clear_value st4
    extract_lets -descend +onlyGivenNames st5 at r3
    have hst5 : Keeps [.cells, .hap, .hapShared, .wld, .cic, .clk, .mem] s st5 := by
      subst st5
      refine Keeps.set_mem (x := st4) rfl Mems.wf_store ?_
      exact hst4
    try clear_value st5
    subst r3
    refine Keeps.next (State.publish_keeps ..) rfl ?_
    refine Keeps.set_hapShared (x := st5) rfl ?_
    exact hst5

theorem State.bootMemory_keeps (s : State) (b : Option (List Byte)) : Keeps [.cells] s (State.bootMemory s b) := by
  unfold State.bootMemory
  split
  · show let r3 := _; Keeps _ _ r3
    intro r3
    extract_lets -descend +onlyGivenNames st4 at r3
    have hst4 : Keeps [.cells] s st4 := by
      subst st4
      refine Keeps.next (State.wrN_keeps ..) rfl ?_
      exact Keeps.refl
    try clear_value st4
    extract_lets -descend +onlyGivenNames st5 at r3
    have hst5 : Keeps [.cells] s st5 := by
      subst st5
      refine Keeps.next (State.put_keeps ..) rfl ?_
      refine Keeps.next (State.wrN_keeps ..) rfl ?_
      exact hst4
    try clear_value st5
    extract_lets -descend +onlyGivenNames st6 at r3
    have hst6 : Keeps [.cells] s st6 := by
      subst st6
      refine Keeps.each (fun st7 x8 => ?_) ?_
      · refine Keeps.next (State.wrN_keeps ..) rfl ?_
        exact Keeps.refl
      · exact hst5
    try clear_value st6
    subst r3
    refine Keeps.next (State.wrN_keeps ..) rfl ?_
    exact hst6
  · show let r9 := _; Keeps _ _ r9
    intro r9
    extract_lets -descend +onlyGivenNames st10 at r9
    have hst10 : Keeps [.cells] s st10 := by
      subst st10
      refine Keeps.next (State.wrN_keeps ..) rfl ?_
      refine Keeps.next (State.wrN_keeps ..) rfl ?_
      exact Keeps.refl
    try clear_value st10
    subst r9
    refine Keeps.next (State.wrN_keeps ..) rfl ?_
    refine Keeps.next (State.put_keeps ..) rfl ?_
    exact hst10

theorem State.bootSections_keeps (s : State) (base : ℕ) : Keeps [.cells, .hif, .pair, .mem] s (State.bootSections s
    base) := by
  unfold State.bootSections
  show let r3 := _; Keeps _ _ r3
  intro r3
  extract_lets -descend +onlyGivenNames v4 at r3
  extract_lets -descend +onlyGivenNames v5 at r3
  extract_lets -descend +onlyGivenNames st6 at r3
  have hst6 : Keeps [.cells, .hif, .pair, .mem] s st6 := by
    subst st6
    split
    · refine Keeps.set_hif (x := s) rfl ?_
      exact Keeps.refl
    · exact Keeps.refl
  try clear_value st6
  extract_lets -descend +onlyGivenNames v7 at r3
  extract_lets -descend +onlyGivenNames st8 at r3
  have hst8 : Keeps [.cells, .hif, .pair, .mem] s st8 := by
    subst st8
    refine Keeps.set_pair (x := st6) rfl ?_
    exact hst6
  try clear_value st8
  extract_lets -descend +onlyGivenNames st9 at r3
  have hst9 : Keeps [.cells, .hif, .pair, .mem] s st9 := by
    subst st9
    refine Keeps.next (State.wrN_keeps ..) rfl ?_
    exact hst8
  try clear_value st9
  subst r3
  split
  · refine Keeps.set_mem (x := st9) rfl Mems.wf_ctl ?_
    exact hst9
  · exact hst9

theorem State.bootStation_keeps (s : State) : Keeps [.cells, .hif, .hap, .hapShared, .wld, .cic, .clk, .pair, .mem,
    .emits] s (State.bootStation s) := by
  unfold State.bootStation
  show let r2 := _; Keeps _ _ r2
  intro r2
  extract_lets -descend +onlyGivenNames st3 at r2
  have hst3 : Keeps [.cells, .hif, .hap, .hapShared, .wld, .cic, .clk, .pair, .mem, .emits] s st3 := by
    subst st3
    refine Keeps.next (State.setStage_keeps ..) rfl ?_
    exact Keeps.refl
  try clear_value st3
  extract_lets -descend +onlyGivenNames v4 at r2
  extract_lets -descend +onlyGivenNames st5 at r2
  have hst5 : Keeps [.cells, .hif, .hap, .hapShared, .wld, .cic, .clk, .pair, .mem, .emits] s st5 := by
    subst st5
    refine Keeps.next (State.put_keeps ..) rfl ?_
    exact hst3
  try clear_value st5
  subst r2
  refine Keeps.ite ?_ ?_
  · show let r6 := _; Keeps _ _ r6
    intro r6
    extract_lets -descend +onlyGivenNames st7 at r6
    have hst7 : Keeps [.cells, .hif, .hap, .hapShared, .wld, .cic, .clk, .pair, .mem, .emits] s st7 := by
      subst st7
      refine Keeps.next (State.bootEffects_keeps ..) rfl ?_
      refine Keeps.each (fun st8 x9 => ?_) ?_
      · refine Keeps.next (State.bootFloor_keeps ..) rfl ?_
        exact Keeps.refl
      · exact hst5
    try clear_value st7
    extract_lets -descend +onlyGivenNames st10 at r6
    have hst10 : Keeps [.cells, .hif, .hap, .hapShared, .wld, .cic, .clk, .pair, .mem, .emits] s st10 := by
      subst st10
      refine Keeps.next (State.setF_keeps ..) rfl ?_
      refine Keeps.next (State.bootSections_keeps ..) rfl ?_
      exact hst7
    try clear_value st10
    subst r6
    refine Keeps.next (State.bootMemory_keeps ..) rfl ?_
    exact hst10
  · show let r11 := _; Keeps _ _ r11
    intro r11
    extract_lets -descend +onlyGivenNames st12 at r11
    have hst12 : Keeps [.cells, .hif, .hap, .hapShared, .wld, .cic, .clk, .pair, .mem, .emits] s st12 := by
      subst st12
      refine Keeps.set_pair (x := st5) rfl ?_
      exact hst5
    try clear_value st12
    subst r11
    refine Keeps.next (State.bootMemory_keeps ..) rfl ?_
    exact hst12

theorem State.decide_keeps (s : State) (d : PairDecision) : Keeps [.pair, .emits] s (State.decide s d) := by
  unfold State.decide
  refine Keeps.next (State.mirror_keeps ..) rfl ?_
  exact Keeps.refl

theorem State.setCause_keeps (s : State) (i : ℕ) (b : Bool) : Keeps [.cells, .pair, .emits] s (State.setCause s i b)
    := by
  unfold State.setCause
  refine Keeps.ite ?_ ?_
  · exact Keeps.refl
  · show let r4 := _; Keeps _ _ r4
    intro r4
    extract_lets -descend +onlyGivenNames st5 at r4
    have hst5 : Keeps [.cells, .pair, .emits] s st5 := by
      subst st5
      refine Keeps.next (State.put_keeps ..) rfl ?_
      exact Keeps.refl
    try clear_value st5
    subst r4
    refine Keeps.next (State.decide_keeps ..) rfl ?_
    exact hst5

theorem State.syncCauses_keeps (s : State) : Keeps [.cells, .pair, .emits] s (State.syncCauses s) := by
  unfold State.syncCauses
  show let r2 := _; Keeps _ _ r2
  intro r2
  extract_lets -descend +onlyGivenNames st3 at r2
  have hst3 : Keeps [.cells, .pair, .emits] s st3 := by
    subst st3
    refine Keeps.next (State.setCause_keeps ..) rfl ?_
    exact Keeps.refl
  try clear_value st3
  subst r2
  refine Keeps.next (State.setCause_keeps ..) rfl ?_
  exact hst3

theorem State.holdLine_keeps (s : State) (v : ℕ) : Keeps [.hif] s (State.holdLine s v) := by
  unfold State.holdLine
  refine Keeps.ite ?_ ?_
  · exact Keeps.refl
  · refine Keeps.set_hif (x := s) rfl ?_
    exact Keeps.refl

theorem State.sendMsix_keeps (s : State) (vec : ℕ) : Keeps [.hif, .emits] s (State.sendMsix s vec) := by
  unfold State.sendMsix
  show let r3 := _; Keeps _ _ r3
  intro r3
  extract_lets -descend +onlyGivenNames st4 at r3
  have hst4 : Keeps [.hif, .emits] s st4 := by
    subst st4
    refine Keeps.next (State.emit_keeps ..) rfl ?_
    exact Keeps.refl
  try clear_value st4
  subst r3
  refine Keeps.set_hif (x := st4) rfl ?_
  exact hst4

theorem State.dueMsix_keeps (s : State) (vec : ℕ) : Keeps [.hif, .emits] s (State.dueMsix s vec) := by
  unfold State.dueMsix
  refine Keeps.ite ?_ ?_
  · refine Keeps.set_hif (x := s) rfl ?_
    exact Keeps.refl
  · refine Keeps.next (State.sendMsix_keeps ..) rfl ?_
    exact Keeps.refl

theorem State.setPba_keeps (s : State) (vec : ℕ) (b : Bool) : Keeps [.cells] s (State.setPba s vec b) := by
  unfold State.setPba
  refine Keeps.next (State.put_keeps ..) rfl ?_
  exact Keeps.refl

theorem State.message_keeps (s : State) (vec : ℕ) : Keeps [.cells, .hif, .emits] s (State.message s vec) := by
  unfold State.message
  refine Keeps.ite ?_ ?_
  · refine Keeps.next (State.dueMsix_keeps ..) rfl ?_
    exact Keeps.refl
  · refine Keeps.next (State.setPba_keeps ..) rfl ?_
    exact Keeps.refl

theorem State.signal_keeps (s : State) (sl : Option ℕ) (v : ℕ) : Keeps [.cells, .hif, .emits] s (State.signal s sl
    v) := by
  unfold State.signal
  refine Keeps.ite ?_ ?_
  · exact Keeps.refl
  · show let r4 := _; Keeps _ _ r4
    intro r4
    extract_lets -descend +onlyGivenNames st5 at r4
    have hst5 : Keeps [.cells, .hif, .emits] s st5 := by
      subst st5
      split
      · refine Keeps.ite ?_ ?_
        · exact Keeps.refl
        · refine Keeps.next (State.put_keeps ..) rfl ?_
          exact Keeps.refl
      · refine Keeps.next (State.put_keeps ..) rfl ?_
        exact Keeps.refl
    try clear_value st5
    subst r4
    refine Keeps.ite ?_ ?_
    · refine Keeps.next (State.holdLine_keeps ..) rfl ?_
      exact hst5
    · refine Keeps.next (State.message_keeps ..) rfl ?_
      exact hst5

theorem State.signalPage_keeps (s : State) (pg : ℕ) : Keeps [.cells, .hif, .emits] s (State.signalPage s pg) := by
  unfold State.signalPage
  split
  · exact Keeps.refl
  · refine Keeps.ite ?_ ?_
    · refine Keeps.next (State.signal_keeps ..) rfl ?_
      exact Keeps.refl
    · split
      · refine Keeps.next (State.signal_keeps ..) rfl ?_
        exact Keeps.refl
      · exact Keeps.refl

theorem State.afterOutput_keeps (s : State) (pg : ℕ) (old : Bool) : Keeps [.cells, .hif, .wld, .cic, .emits] s
    (State.afterOutput s pg old) := by
  unfold State.afterOutput
  show let r4 := _; Keeps _ _ r4
  intro r4
  extract_lets -descend +onlyGivenNames st5 at r4
  have hst5 : Keeps [.cells, .hif, .wld, .cic, .emits] s st5 := by
    subst st5
    refine Keeps.next (State.syncSource_keeps ..) rfl ?_
    exact Keeps.refl
  try clear_value st5
  subst r4
  refine Keeps.ite ?_ ?_
  · refine Keeps.next (State.signalPage_keeps ..) rfl ?_
    exact hst5
  · exact hst5

theorem State.pageEvent_keeps (s : State) (pg : ℕ) (bits : ℕ) : Keeps [.cells, .hif, .wld, .cic, .emits] s
    (State.pageEvent s pg bits) := by
  unfold State.pageEvent
  show let r4 := _; Keeps _ _ r4
  intro r4
  extract_lets -descend +onlyGivenNames v5 at r4
  subst r4
  refine Keeps.ite ?_ ?_
  · show let r6 := _; Keeps _ _ r6
    intro r6
    extract_lets -descend +onlyGivenNames v7 at r6
    subst r6
    refine Keeps.next (State.afterOutput_keeps ..) rfl ?_
    refine Keeps.next (State.wr_keeps ..) rfl ?_
    exact Keeps.refl
  · exact Keeps.refl

theorem State.event_keeps (s : State) (ty : ℕ) (inst : ℕ) (bit : ℕ) : Keeps [.cells, .hif, .wld, .cic, .emits] s
    (State.event s ty inst bit) := by
  unfold State.event
  refine Keeps.next (State.pageEvent_keeps ..) rfl ?_
  exact Keeps.refl

theorem State.syncReff_keeps (s : State) : Keeps [.cells, .hif, .wld, .cic, .emits] s (State.syncReff s) := by
  unfold State.syncReff
  refine Keeps.ite ?_ ?_
  · show let r2 := _; Keeps _ _ r2
    intro r2
    extract_lets -descend +onlyGivenNames v3 at r2
    extract_lets -descend +onlyGivenNames v4 at r2
    extract_lets -descend +onlyGivenNames st5 at r2
    have hst5 : Keeps [.cells, .hif, .wld, .cic, .emits] s st5 := by
      subst st5
      refine Keeps.next (State.put_keeps ..) rfl ?_
      exact Keeps.refl
    try clear_value st5
    subst r2
    refine Keeps.ite ?_ ?_
    · refine Keeps.next (State.event_keeps ..) rfl ?_
      exact hst5
    · refine Keeps.ite ?_ ?_
      · refine Keeps.next (State.event_keeps ..) rfl ?_
        exact hst5
      · exact hst5
  · exact Keeps.refl

theorem State.trained_keeps (s : State) : Keeps [.cells, .hif, .wld, .cic, .pair, .emits] s (State.trained s) := by
  unfold State.trained
  show let r2 := _; Keeps _ _ r2
  intro r2
  extract_lets -descend +onlyGivenNames v3 at r2
  extract_lets -descend +onlyGivenNames st4 at r2
  have hst4 : Keeps [.cells, .hif, .wld, .cic, .pair, .emits] s st4 := by
    subst st4
    refine Keeps.each (fun st5 x6 => ?_) ?_
    · refine Keeps.next (State.put_keeps ..) rfl ?_
      refine Keeps.next (State.setF_keeps ..) rfl ?_
      exact Keeps.refl
    · exact Keeps.refl
  try clear_value st4
  extract_lets -descend +onlyGivenNames st7 at r2
  have hst7 : Keeps [.cells, .hif, .wld, .cic, .pair, .emits] s st7 := by
    subst st7
    refine Keeps.next (State.put_keeps ..) rfl ?_
    exact hst4
  try clear_value st7
  subst r2
  refine Keeps.next (State.syncCauses_keeps ..) rfl ?_
  refine Keeps.next (State.syncReff_keeps ..) rfl ?_
  refine Keeps.next (State.setF_keeps ..) rfl ?_
  exact hst7

theorem State.bootDram_keeps (s : State) : Keeps [.cells, .hif, .wld, .cic, .clk, .pair, .emits] s (State.bootDram
    s) := by
  unfold State.bootDram
  show let r2 := _; Keeps _ _ r2
  intro r2
  extract_lets -descend +onlyGivenNames st3 at r2
  have hst3 : Keeps [.cells, .hif, .wld, .cic, .clk, .pair, .emits] s st3 := by
    subst st3
    refine Keeps.next (State.setStage_keeps ..) rfl ?_
    exact Keeps.refl
  try clear_value st3
  extract_lets -descend +onlyGivenNames st4 at r2
  have hst4 : Keeps [.cells, .hif, .wld, .cic, .clk, .pair, .emits] s st4 := by
    subst st4
    refine Keeps.each (fun st5 x6 => ?_) ?_
    · refine Keeps.next (State.openGate_keeps ..) rfl ?_
      exact Keeps.refl
    · exact hst3
  try clear_value st4
  extract_lets -descend +onlyGivenNames st7 at r2
  have hst7 : Keeps [.cells, .hif, .wld, .cic, .clk, .pair, .emits] s st7 := by
    subst st7
    refine Keeps.next (State.setF_keeps ..) rfl ?_
    refine Keeps.next (State.bootPll_keeps ..) rfl ?_
    exact hst4
  try clear_value st7
  subst r2
  refine Keeps.ite ?_ ?_
  · refine Keeps.next (State.trained_keeps ..) rfl ?_
    exact hst7
  · refine Keeps.next (State.setStage_keeps ..) rfl ?_
    exact hst7

theorem State.loadCode_keeps (s : State) (base : ℕ) (ty : ℕ) : Keeps [.mem] s (State.loadCode s base ty) := by
  unfold State.loadCode
  split
  · exact Keeps.refl
  · refine Keeps.set_mem (x := s) rfl Mems.wf_ctl ?_
    exact Keeps.refl

theorem State.startWorldDog_keeps (s : State) : Keeps [.wld] s (State.startWorldDog s) := by
  unfold State.startWorldDog
  show let r2 := _; Keeps _ _ r2
  intro r2
  extract_lets -descend +onlyGivenNames v3 at r2
  subst r2
  refine Keeps.set_wld (x := s) rfl id ?_
  exact Keeps.refl

theorem State.updCore_keeps (s : State) (i : ℕ) (f : CoreSt → CoreSt) : Keeps [.wld] s (State.updCore s i f) := by
  unfold State.updCore
  refine Keeps.next (State.setCore_keeps ..) rfl ?_
  exact Keeps.refl

theorem State.bootProtected_keeps (s : State) (base : ℕ) : Keeps [.cells, .wld, .pwr, .mem] s (State.bootProtected s
    base) := by
  unfold State.bootProtected
  show let r3 := _; Keeps _ _ r3
  intro r3
  extract_lets -descend +onlyGivenNames st4 at r3
  have hst4 : Keeps [.cells, .wld, .pwr, .mem] s st4 := by
    subst st4
    refine Keeps.set_pwr (x := s) rfl ?_
    exact Keeps.refl
  try clear_value st4
  extract_lets -descend +onlyGivenNames st5 at r3
  have hst5 : Keeps [.cells, .wld, .pwr, .mem] s st5 := by
    subst st5
    refine Keeps.next (State.loadCode_keeps ..) rfl ?_
    refine Keeps.next (State.loadCode_keeps ..) rfl ?_
    exact hst4
  try clear_value st5
  extract_lets -descend +onlyGivenNames st6 at r3
  have hst6 : Keeps [.cells, .wld, .pwr, .mem] s st6 := by
    subst st6
    refine Keeps.next (State.wrN_keeps ..) rfl ?_
    exact hst5
  try clear_value st6
  extract_lets -descend +onlyGivenNames st7 at r3
  have hst7 : Keeps [.cells, .wld, .pwr, .mem] s st7 := by
    subst st7
    refine Keeps.next (State.startWorldDog_keeps ..) rfl ?_
    refine Keeps.next (State.setF_keeps ..) rfl ?_
    exact hst6
  try clear_value st7
  extract_lets -descend +onlyGivenNames st8 at r3
  have hst8 : Keeps [.cells, .wld, .pwr, .mem] s st8 := by
    subst st8
    refine Keeps.next (State.updCore_keeps ..) rfl ?_
    exact hst7
  try clear_value st8
  subst r3
  refine Keeps.next (State.setStage_keeps ..) rfl ?_
  exact hst8

theorem State.becomeReady_keeps (s : State) (stage : Nat) : Keeps [.cells, .hif, .pwr] s (s.becomeReady stage) := by
  unfold State.becomeReady
  show let r := _; Keeps _ _ r
  intro r
  extract_lets -descend +onlyGivenNames st at r
  have hst : Keeps [.cells, .hif, .pwr] s st := by
    subst st
    refine Keeps.next (State.setStage_keeps ..) rfl ?_
    refine Keeps.next (State.setF_keeps ..) rfl ?_
    exact Keeps.refl
  clear_value st
  subst r
  exact Keeps.set_pwr (x := { st with hif := { st.hif with retry := false } }) rfl (Keeps.set_hif rfl hst)

theorem State.updPair_keeps (s : State) (f : Pair → Pair) : Keeps [.pair] s (State.updPair s f) := by
  unfold State.updPair
  refine Keeps.set_pair (x := s) rfl ?_
  exact Keeps.refl

theorem State.setPair_keeps (s : State) (st : ℕ) (role : ℕ) : Keeps [.cells, .hif, .wld, .cic, .emits] s
    (State.setPair s st role) := by
  unfold State.setPair
  refine Keeps.ite ?_ ?_
  · exact Keeps.refl
  · refine Keeps.next (State.event_keeps ..) rfl ?_
    refine Keeps.next (State.put_keeps ..) rfl ?_
    refine Keeps.next (State.put_keeps ..) rfl ?_
    exact Keeps.refl

theorem State.bootRest_keeps (s : State) (c : Bool) : Keeps [.cells, .hif, .hap, .hapShared, .wld, .cic, .clk,
    .pair, .pwr, .mem, .emits] s (State.bootRest s c) := by
  unfold State.bootRest
  show let r3 := _; Keeps _ _ r3
  intro r3
  extract_lets -descend +onlyGivenNames st4 at r3
  have hst4 : Keeps [.cells, .hif, .hap, .hapShared, .wld, .cic, .clk, .pair, .pwr, .mem, .emits] s st4 := by
    subst st4
    refine Keeps.next (State.bootProtected_keeps ..) rfl ?_
    refine Keeps.next (State.bootDram_keeps ..) rfl ?_
    refine Keeps.next (State.bootStation_keeps ..) rfl ?_
    exact Keeps.refl
  try clear_value st4
  subst r3
  refine Keeps.ite ?_ ?_
  · refine Keeps.next (State.updPair_keeps ..) rfl ?_
    refine Keeps.next (State.setPair_keeps ..) rfl ?_
    exact hst4
  · exact hst4

theorem State.bootNext_keeps (s : State) (c : Option Bool) : Keeps [.cells, .hif, .hap, .hapShared, .wld, .cic,
    .clk, .pair, .pwr, .mem, .emits] s (State.bootNext s c) := by
  unfold State.bootNext
  split
  · refine Keeps.next (State.becomeReady_keeps ..) rfl ?_
    exact Keeps.refl
  · refine Keeps.next (State.bootRest_keeps ..) rfl ?_
    exact Keeps.refl

theorem State.boot_keeps (s : State) : Keeps [.cells, .hif, .hap, .hapShared, .wld, .cic, .clk, .pair, .pwr, .mem,
    .emits] s s.boot := by
  unfold State.boot
  have h : Keeps [.cells, .hif, .hap, .hapShared, .wld, .cic, .clk, .pair, .pwr, .mem, .emits] s (State.bootClocks {
      s with pwr := { s.pwr with bootDue := false } }).bootFirmware.2 :=
    Keeps.next (State.bootFirmware_keeps ..) rfl (Keeps.next (State.bootClocks_keeps ..) rfl (Keeps.set_pwr rfl
        Keeps.refl))
  generalize State.bootFirmware _ = q at h ⊢
  exact Keeps.next (State.bootNext_keeps ..) rfl h

theorem State.bootWhenFree_keeps (s : State) : Keeps [.cells, .hif, .hap, .hapShared, .wld, .cic, .clk, .pair, .pwr,
    .mem, .emits] s (State.bootWhenFree s) := by
  unfold State.bootWhenFree
  refine Keeps.ite ?_ ?_
  · refine Keeps.set_pwr (x := s) rfl ?_
    exact Keeps.refl
  · refine Keeps.next (State.boot_keeps ..) rfl ?_
    exact Keeps.refl

theorem State.pwChanged_keeps (s : State) : Keeps [.cells, .hif, .emits] s (State.pwChanged s) := by
  unfold State.pwChanged
  refine Keeps.next (State.signal_keeps ..) rfl ?_
  refine Keeps.next (State.setF_keeps ..) rfl ?_
  exact Keeps.refl

theorem State.takeToken_keeps (s : State) (c : ℕ) : Keeps [.wld] s (State.takeToken s c) := by
  unfold State.takeToken
  refine Keeps.set_wld (x := s) rfl id ?_
  exact Keeps.refl

theorem State.saveRegs_keeps (s : State) (c : ℕ) (all : Bool) : Keeps [.mem] s (State.saveRegs s c all) := by
  unfold State.saveRegs
  show let r4 := _; Keeps _ _ r4
  intro r4
  extract_lets -descend +onlyGivenNames v5 at r4
  extract_lets -descend +onlyGivenNames v6 at r4
  subst r4
  refine Keeps.set_mem (x := s) rfl Mems.wf_ctl ?_
  exact Keeps.refl

theorem State.enterRestart_keeps (s : State) (c : Nat) : Keeps [.wld, .mem] s (s.enterRestart c) := by
  unfold State.enterRestart
  dsimp only
  refine Keeps.set_wld rfl id ?_
  refine Keeps.next (State.setCore_keeps ..) rfl ?_
  refine Keeps.next (State.takeToken_keeps ..) rfl ?_
  exact (State.saveRegs_keeps ..).weaken rfl

theorem doRestartEntry_keeps (s : State) : Keeps [.cells, .hif, .wld, .mem, .emits] s (doRestartEntry s) := by
  unfold doRestartEntry
  refine Keeps.ite ?_ ?_
  · exact Keeps.refl
  · split
    · exact Keeps.refl
    · show let r2 := _; Keeps _ _ r2
      intro r2
      extract_lets -descend +onlyGivenNames v3 at r2
      subst r2
      refine Keeps.ite ?_ ?_
      · show let r4 := _; Keeps _ _ r4
        intro r4
        extract_lets -descend +onlyGivenNames st5 at r4
        have hst5 : Keeps [.cells, .hif, .wld, .mem, .emits] s st5 := by
          subst st5
          refine Keeps.set_wld (x := s) rfl id ?_
          exact Keeps.refl
        try clear_value st5
        subst r4
        refine Keeps.next (State.pwChanged_keeps ..) rfl ?_
        refine Keeps.next (State.clrF_keeps ..) rfl ?_
        refine Keeps.next (State.setF_keeps ..) rfl ?_
        exact hst5
      · show let r6 := _; Keeps _ _ r6
        intro r6
        extract_lets -descend +onlyGivenNames st7 at r6
        have hst7 : Keeps [.cells, .hif, .wld, .mem, .emits] s st7 := by
          subst st7
          refine Keeps.next (State.loadCode_keeps ..) rfl ?_
          refine Keeps.next (State.setF_keeps ..) rfl ?_
          exact Keeps.refl
        try clear_value st7
        subst r6
        refine Keeps.next (State.enterRestart_keeps ..) rfl ?_
        exact hst7

theorem State.noteExit_keeps (s : State) : Keeps [.cells] s (State.noteExit s) := by
  unfold State.noteExit
  refine Keeps.ite ?_ ?_
  · refine Keeps.next (State.setStage_keeps ..) rfl ?_
    exact Keeps.refl
  · exact Keeps.refl

theorem State.free_keeps (s : State) (n : ℕ) : Keeps [.freeCtr] s (State.free s n).2 := by
  unfold State.free
  show Keeps _ _ _
  refine Keeps.set_freeCtr (x := s) rfl ?_
  exact Keeps.refl

theorem State.illegal_keeps (s : State) (c : ℕ) : Keeps [.wld, .freeCtr] s (State.illegal s c) := by
  unfold State.illegal
  split
  · rename_i _ st3 e4
    have hst3 : Keeps [.wld, .freeCtr] s st3 := by
      refine Keeps.snd e4 ?_
      refine Keeps.next (State.free_keeps ..) rfl ?_
      exact Keeps.refl
    refine Keeps.next (State.updCore_keeps ..) rfl ?_
    exact hst3

theorem State.freeToken_keeps (s : State) : Keeps [.wld] s (State.freeToken s) := by
  unfold State.freeToken
  refine Keeps.set_wld (x := s) rfl id ?_
  exact Keeps.refl

theorem State.leave_keeps (s : State) (c : ℕ) (rdStatus : ℕ) (a0 : Word) (a1 : Word) : Keeps [.wld] s (State.leave s
    c rdStatus a0 a1) := by
  unfold State.leave
  show let r6 := _; Keeps _ _ r6
  intro r6
  extract_lets -descend +onlyGivenNames v7 at r6
  extract_lets -descend +onlyGivenNames v8 at r6
  extract_lets -descend +onlyGivenNames st9 at r6
  have hst9 : Keeps [.wld] s st9 := by
    subst st9
    refine Keeps.next (State.setCore_keeps ..) rfl ?_
    exact Keeps.refl
  try clear_value st9
  subst r6
  refine Keeps.ite ?_ ?_
  · refine Keeps.next (State.freeToken_keeps ..) rfl ?_
    exact hst9
  · exact hst9

theorem doWorldExit_keeps (c : ℕ) (s : State) : Keeps [.wld, .freeCtr] s (doWorldExit c s) := by
  unfold doWorldExit
  show let r3 := _; Keeps _ _ r3
  intro r3
  extract_lets -descend +onlyGivenNames v4 at r3
  subst r3
  refine Keeps.ite ?_ ?_
  · exact Keeps.refl
  · refine Keeps.ite ?_ ?_
    · refine Keeps.next (State.illegal_keeps ..) rfl ?_
      exact Keeps.refl
    · refine Keeps.ite ?_ ?_
      · refine Keeps.next (State.leave_keeps ..) rfl ?_
        exact Keeps.refl
      · refine Keeps.ite ?_ ?_
        · refine Keeps.ite ?_ ?_
          · refine Keeps.next (State.leave_keeps ..) rfl ?_
            exact Keeps.refl
          · refine Keeps.next (State.updCore_keeps ..) rfl ?_
            exact Keeps.refl
        · refine Keeps.next (State.leave_keeps ..) rfl ?_
          exact Keeps.refl

theorem exitWorld_keeps (c : ℕ) (s : State) : Keeps [.cells, .wld, .freeCtr] s (exitWorld c s) := by
  unfold exitWorld
  show let r3 := _; Keeps _ _ r3
  intro r3
  extract_lets -descend +onlyGivenNames v4 at r3
  extract_lets -descend +onlyGivenNames st5 at r3
  have hst5 : Keeps [.cells, .wld, .freeCtr] s st5 := by
    subst st5
    refine Keeps.next (doWorldExit_keeps ..) rfl ?_
    exact Keeps.refl
  try clear_value st5
  subst r3
  refine Keeps.ite ?_ ?_
  · refine Keeps.next (State.noteExit_keeps ..) rfl ?_
    exact hst5
  · exact hst5

theorem State.startSoftReset_keeps (s : State) (ty : ℕ) (pg : ℕ) : Keeps [.hif] s (State.startSoftReset s ty pg) := by
  unfold State.startSoftReset
  refine Keeps.ite ?_ ?_
  · refine Keeps.set_hif (x := s) rfl ?_
    exact Keeps.refl
  · exact Keeps.refl

theorem State.setPanel_keeps (s : State) (i : ℕ) (x : TchSt) : Keeps [.tch] s (State.setPanel s i x) := by
  unfold State.setPanel
  refine Keeps.set_tch (x := s) rfl (fun h => Tab.wf_set _ _ _ _ h) ?_
  exact Keeps.refl

theorem State.updPanel_keeps (s : State) (i : ℕ) (f : TchSt → TchSt) : Keeps [.tch] s (State.updPanel s i f) := by
  unfold State.updPanel
  refine Keeps.next (State.setPanel_keeps ..) rfl ?_
  exact Keeps.refl

theorem doPanelEnable_keeps (n : ℕ) (on : Bool) (s : State) : Keeps [.cells, .tch] s (doPanelEnable n on s) := by
  unfold doPanelEnable
  show let r4 := _; Keeps _ _ r4
  intro r4
  extract_lets -descend +onlyGivenNames v5 at r4
  subst r4
  refine Keeps.ite ?_ ?_
  · exact Keeps.refl
  · refine Keeps.ite ?_ ?_
    · refine Keeps.ite ?_ ?_
      · refine Keeps.next (State.setF_keeps ..) rfl ?_
        exact Keeps.refl
      · refine Keeps.next (State.updPanel_keeps ..) rfl ?_
        refine Keeps.next (State.put_keeps ..) rfl ?_
        exact Keeps.refl
    · refine Keeps.next (State.updPanel_keeps ..) rfl ?_
      refine Keeps.next (State.put_keeps ..) rfl ?_
      exact Keeps.refl

theorem State.issueOne_keeps (s : State) (g : Gather) (r : ℕ × ℕ × ℕ) : Keeps [.hif, .emits] s (State.issueOne s g
    r) := by
  unfold State.issueOne
  show let r4 := _; Keeps _ _ r4
  intro r4
  extract_lets -descend +onlyGivenNames v5 at r4
  extract_lets -descend +onlyGivenNames v6 at r4
  extract_lets -descend +onlyGivenNames st7 at r4
  have hst7 : Keeps [.hif, .emits] s st7 := by
    subst st7
    refine Keeps.next (State.emit_keeps ..) rfl ?_
    exact Keeps.refl
  try clear_value st7
  subst r4
  refine Keeps.set_hif (x := st7) rfl ?_
  exact hst7

theorem State.issueUpTo_keeps (n : Nat) (s : State) : Keeps [.hif, .emits] s (State.issueUpTo n s) := by
  induction n generalizing s with
  | zero => exact Keeps.refl
  | succ n ih =>
    unfold State.issueUpTo
    refine Keeps.ite Keeps.refl ?_
    split
    · exact Keeps.refl
    · split
      · exact Keeps.refl
      · exact Keeps.next (ih _) rfl ((State.issueOne_keeps ..).weaken rfl)

theorem State.issueReads_keeps (s : State) : Keeps [.hif, .emits] s (State.issueReads s) := by
  unfold State.issueReads
  refine Keeps.next (State.issueUpTo_keeps ..) rfl ?_
  exact Keeps.refl

theorem State.hostRead_keeps (s : State) (use : ReadFor) (pasid : Option (BitVec 20)) (runs : List (ℕ × ℕ)) : Keeps
    [.hif, .emits] s (State.hostRead s use pasid runs) := by
  unfold State.hostRead
  show let r5 := _; Keeps _ _ r5
  intro r5
  extract_lets -descend +onlyGivenNames v6 at r5
  subst r5
  refine Keeps.next (State.issueReads_keeps ..) rfl ?_
  refine Keeps.set_hif (x := s) rfl ?_
  exact Keeps.refl

theorem State.setSpace_keeps (s : State) (i : ℕ) (x : CmdSpace) : Keeps [.cmds] s (State.setSpace s i x) := by
  unfold State.setSpace
  refine Keeps.set_cmds (x := s) rfl (fun h => Tab.wf_set _ _ _ _ h) ?_
  exact Keeps.refl

theorem State.fetchEntry_keeps (s : State) (sp : ℕ) : Keeps [.hif, .cmds, .emits] s (State.fetchEntry s sp) := by
  unfold State.fetchEntry
  show let r3 := _; Keeps _ _ r3
  intro r3
  extract_lets -descend +onlyGivenNames v4 at r3
  subst r3
  refine Keeps.ite ?_ ?_
  · refine Keeps.next (State.hostRead_keeps ..) rfl ?_
    refine Keeps.next (State.setSpace_keeps ..) rfl ?_
    exact Keeps.refl
  · exact Keeps.refl

theorem State.updHaul_keeps (s : State) (f : Haul → Haul) : Keeps [.haul] s (State.updHaul s f) := by
  unfold State.updHaul
  refine Keeps.set_haul (x := s) rfl ?_
  exact Keeps.refl

theorem State.setEngine_keeps (s : State) (e : ℕ) (x : Engine) : Keeps [.haul] s (State.setEngine s e x) := by
  unfold State.setEngine
  refine Keeps.next (State.updHaul_keeps ..) rfl ?_
  exact Keeps.refl

theorem State.takeSegment_keeps (s : State) (e : ℕ) (x : Xfer) : Keeps [.hif, .haul, .emits] s (State.takeSegment s
    e x) := by
  unfold State.takeSegment
  show let r4 := _; Keeps _ _ r4
  intro r4
  extract_lets -descend +onlyGivenNames st5 at r4
  have hst5 : Keeps [.hif, .haul, .emits] s st5 := by
    subst st5
    refine Keeps.next (State.setEngine_keeps ..) rfl ?_
    exact Keeps.refl
  try clear_value st5
  subst r4
  split
  · exact hst5
  · refine Keeps.ite ?_ ?_
    · refine Keeps.next (State.hostRead_keeps ..) rfl ?_
      exact hst5
    · exact hst5

theorem State.dropCredits_keeps (s : State) : Keeps [.haul] s (State.dropCredits s) := by
  unfold State.dropCredits
  show let r2 := _; Keeps _ _ r2
  intro r2
  extract_lets -descend +onlyGivenNames v3 at r2
  subst r2
  refine Keeps.next (State.updHaul_keeps ..) rfl ?_
  exact Keeps.refl

theorem State.pickFor_keeps {s t : State} {e : Nat} (h : s.pickFor e = some t) : Keeps [.hif, .haul, .emits] s t := by
  unfold State.pickFor at h
  split at h
  · cases h
    exact State.takeSegment_keeps ..
  · dsimp only at h
    split at h
    · cases h
    · split at h
      · cases h
      · simp only [Option.map_eq_some_iff] at h
        obtain ⟨x, _, rfl⟩ := h
        refine Keeps.next (State.takeSegment_keeps ..) rfl ?_
        refine Keeps.next (State.updHaul_keeps ..) rfl ?_
        refine Keeps.next (State.dropCredits_keeps ..) rfl ?_
        exact Keeps.refl

theorem State.pick_keeps (n : Nat) (s : State) : Keeps [.hif, .haul, .freeCtr, .emits] s (State.pick n s) := by
  induction n generalizing s with
  | zero => exact Keeps.refl
  | succ n ih =>
    unfold State.pick
    split
    · exact Keeps.refl
    · dsimp only
      split
      · rename_i h
        refine Keeps.next (ih _) rfl ?_
        refine Keeps.next (State.pickFor_keeps h) rfl ?_
        refine Keeps.next (State.free_keeps ..) rfl ?_
        exact Keeps.refl
      · exact (State.dropCredits_keeps ..).weaken rfl

theorem State.updSpace_keeps (s : State) (i : ℕ) (f : CmdSpace → CmdSpace) : Keeps [.cmds] s (State.updSpace s i f)
    := by
  unfold State.updSpace
  refine Keeps.next (State.setSpace_keeps ..) rfl ?_
  exact Keeps.refl

theorem State.count_keeps (s : State) (a : ℕ) (f : Fld) (n : ℕ) : Keeps [.cells] s (State.count s a f n) := by
  unfold State.count
  refine Keeps.next (State.put_keeps ..) rfl ?_
  exact Keeps.refl

theorem State.loseEvent_keeps (s : State) (sp : ℕ) : Keeps [.cells, .cmds] s (State.loseEvent s sp) := by
  unfold State.loseEvent
  refine Keeps.next (State.updSpace_keeps ..) rfl ?_
  refine Keeps.next (State.count_keeps ..) rfl ?_
  exact Keeps.refl

theorem State.dlogStall_keeps (s : State) (i : ℕ) : Keeps [.cells] s (State.dlogStall s i) := by
  unfold State.dlogStall
  refine Keeps.next (State.count_keeps ..) rfl ?_
  refine Keeps.next (State.setF_keeps ..) rfl ?_
  exact Keeps.refl

theorem State.holdRec_keeps (s : State) (sp : ℕ) (r : Rec) : Keeps [.cells, .cmds] s (State.holdRec s sp r) := by
  unfold State.holdRec
  refine Keeps.ite ?_ ?_
  · refine Keeps.ite ?_ ?_
    · refine Keeps.next (State.loseEvent_keeps ..) rfl ?_
      exact Keeps.refl
    · refine Keeps.next (State.setF_keeps ..) rfl ?_
      exact Keeps.refl
  · show let r4 := _; Keeps _ _ r4
    intro r4
    extract_lets -descend +onlyGivenNames st5 at r4
    have hst5 : Keeps [.cells, .cmds] s st5 := by
      subst st5
      refine Keeps.ite ?_ ?_
      · refine Keeps.next (State.dlogStall_keeps ..) rfl ?_
        exact Keeps.refl
      · exact Keeps.refl
    try clear_value st5
    subst r4
    refine Keeps.next (State.updSpace_keeps ..) rfl ?_
    exact hst5

theorem State.hostWrite_keeps (s : State) (pasid : Option (BitVec 20)) (addr : ℕ) (data : List Byte) (relaxed :
    Bool) : Keeps [.emits] s (State.hostWrite s pasid addr data relaxed) := by
  unfold State.hostWrite
  refine Keeps.ite ?_ ?_
  · refine Keeps.each (fun st6 x7 => ?_) ?_
    · split
      · refine Keeps.next (State.emit_keeps ..) rfl ?_
        exact Keeps.refl
    · exact Keeps.refl
  · exact Keeps.refl

theorem State.dlogEntry_keeps (s : State) (i : ℕ) (page : ℕ) (kind : ℕ) : Keeps [.cells, .pair, .emits] s
    (State.dlogEntry s i page kind) := by
  unfold State.dlogEntry
  show let r5 := _; Keeps _ _ r5
  intro r5
  extract_lets -descend +onlyGivenNames v6 at r5
  extract_lets -descend +onlyGivenNames v7 at r5
  extract_lets -descend +onlyGivenNames v8 at r5
  extract_lets -descend +onlyGivenNames st9 at r5
  have hst9 : Keeps [.cells, .pair, .emits] s st9 := by
    subst st9
    refine Keeps.next (State.hostWrite_keeps ..) rfl ?_
    exact Keeps.refl
  try clear_value st9
  extract_lets -descend +onlyGivenNames st10 at r5
  have hst10 : Keeps [.cells, .pair, .emits] s st10 := by
    subst st10
    refine Keeps.next (State.wrN_keeps ..) rfl ?_
    exact hst9
  try clear_value st10
  subst r5
  refine Keeps.dite (fun _ => ?_) (fun _ => ?_)
  · refine Keeps.next (State.decide_keeps ..) rfl ?_
    exact hst10
  · exact hst10

theorem State.dlogWrite_keeps (s : State) (i : ℕ) (addr : ℕ) (len : ℕ) (kind : ℕ) : Keeps [.cells, .pair, .emits] s
    (State.dlogWrite s i addr len kind) := by
  unfold State.dlogWrite
  refine Keeps.ite ?_ ?_
  · refine Keeps.each (fun st6 x7 => ?_) ?_
    · refine Keeps.next (State.dlogEntry_keeps ..) rfl ?_
      exact Keeps.refl
    · exact Keeps.refl
  · exact Keeps.refl

theorem State.signalRecord_keeps (s : State) (sp : ℕ) (r : Rec) : Keeps [.cells, .hif, .emits] s (State.signalRecord
    s sp r) := by
  unfold State.signalRecord
  refine Keeps.ite ?_ ?_
  · refine Keeps.next (State.signal_keeps ..) rfl ?_
    exact Keeps.refl
  · refine Keeps.ite ?_ ?_
    · exact Keeps.refl
    · refine Keeps.next (State.signal_keeps ..) rfl ?_
      exact Keeps.refl

theorem State.writeRec_keeps (s : State) (sp : ℕ) (r : Rec) : Keeps [.cells, .hif, .cmds, .pair, .emits] s
    (State.writeRec s sp r) := by
  unfold State.writeRec
  show let r4 := _; Keeps _ _ r4
  intro r4
  extract_lets -descend +onlyGivenNames v5 at r4
  extract_lets -descend +onlyGivenNames v6 at r4
  extract_lets -descend +onlyGivenNames v7 at r4
  extract_lets -descend +onlyGivenNames v8 at r4
  extract_lets -descend +onlyGivenNames st9 at r4
  have hst9 : Keeps [.cells, .hif, .cmds, .pair, .emits] s st9 := by
    subst st9
    refine Keeps.next (State.hostWrite_keeps ..) rfl ?_
    exact Keeps.refl
  try clear_value st9
  extract_lets -descend +onlyGivenNames st10 at r4
  have hst10 : Keeps [.cells, .hif, .cmds, .pair, .emits] s st10 := by
    subst st10
    refine Keeps.next (State.hostWrite_keeps ..) rfl ?_
    exact hst9
  try clear_value st10
  extract_lets -descend +onlyGivenNames st11 at r4
  have hst11 : Keeps [.cells, .hif, .cmds, .pair, .emits] s st11 := by
    subst st11
    refine Keeps.ite ?_ ?_
    · refine Keeps.next (State.dlogWrite_keeps ..) rfl ?_
      exact hst10
    · exact hst10
  try clear_value st11
  extract_lets -descend +onlyGivenNames st12 at r4
  have hst12 : Keeps [.cells, .hif, .cmds, .pair, .emits] s st12 := by
    subst st12
    refine Keeps.next (State.wrN_keeps ..) rfl ?_
    exact hst11
  try clear_value st12
  extract_lets -descend +onlyGivenNames st13 at r4
  have hst13 : Keeps [.cells, .hif, .cmds, .pair, .emits] s st13 := by
    subst st13
    refine Keeps.ite ?_ ?_
    · exact hst12
    · refine Keeps.next (State.setSpace_keeps ..) rfl ?_
      exact hst12
  try clear_value st13
  extract_lets -descend +onlyGivenNames st14 at r4
  have hst14 : Keeps [.cells, .hif, .cmds, .pair, .emits] s st14 := by
    subst st14
    refine Keeps.dite (fun _ => ?_) (fun _ => ?_)
    · refine Keeps.next (State.decide_keeps ..) rfl ?_
      exact hst13
    · exact hst13
  try clear_value st14
  subst r4
  refine Keeps.next (State.signalRecord_keeps ..) rfl ?_
  exact hst14

theorem State.putRec_keeps (s : State) (sp : ℕ) (r : Rec) : Keeps [.cells, .hif, .cmds, .pair, .emits] s
    (State.putRec s sp r) := by
  unfold State.putRec
  refine Keeps.ite ?_ ?_
  · refine Keeps.next (State.holdRec_keeps ..) rfl ?_
    exact Keeps.refl
  · refine Keeps.next (State.writeRec_keeps ..) rfl ?_
    exact Keeps.refl

theorem State.tellLost_keeps (s : State) (sp : ℕ) : Keeps [.cells, .hif, .cmds, .pair, .emits] s (State.tellLost s
    sp) := by
  unfold State.tellLost
  show let r3 := _; Keeps _ _ r3
  intro r3
  extract_lets -descend +onlyGivenNames v4 at r3
  subst r3
  refine Keeps.ite ?_ ?_
  · refine Keeps.next (State.putRec_keeps ..) rfl ?_
    refine Keeps.next (State.setSpace_keeps ..) rfl ?_
    exact Keeps.refl
  · exact Keeps.refl

theorem State.completeAt_keeps (s : State) (sp : ℕ) (handle : ℕ) (status : ℕ) (result : List Byte) (time : ℕ) :
    Keeps [.cells, .hif, .cmds, .pair, .emits] s (State.completeAt s sp handle status result time) := by
  unfold State.completeAt
  split
  · exact Keeps.refl
  · refine Keeps.ite ?_ ?_
    · exact Keeps.refl
    · show let r7 := _; Keeps _ _ r7
      intro r7
      extract_lets -descend +onlyGivenNames v8 at r7
      extract_lets -descend +onlyGivenNames st9 at r7
      have hst9 : Keeps [.cells, .hif, .cmds, .pair, .emits] s st9 := by
        subst st9
        refine Keeps.next (State.updSpace_keeps ..) rfl ?_
        exact Keeps.refl
      try clear_value st9
      subst r7
      refine Keeps.next (State.tellLost_keeps ..) rfl ?_
      refine Keeps.next (State.putRec_keeps ..) rfl ?_
      exact hst9

theorem State.complete_keeps (s : State) (sp : ℕ) (handle : ℕ) (status : ℕ) (result : List Byte) : Keeps [.cells,
    .hif, .cmds, .pair, .emits] s (State.complete s sp handle status result) := by
  unfold State.complete
  refine Keeps.next (State.completeAt_keeps ..) rfl ?_
  exact Keeps.refl

theorem State.fail_keeps (s : State) (sp : ℕ) (handle : ℕ) (status : ℕ) (detail : ℕ) : Keeps [.cells, .hif, .cmds,
    .pair, .emits] s (State.fail s sp handle status detail) := by
  unfold State.fail
  refine Keeps.next (State.complete_keeps ..) rfl ?_
  exact Keeps.refl

theorem State.putVersion_keeps (s : State) (vid : ℕ) (v : Option Version) : Keeps [.haul] s (State.putVersion s vid
    v) := by
  unfold State.putVersion
  refine Keeps.next (State.updHaul_keeps ..) rfl ?_
  exact Keeps.refl

theorem State.allocate_keeps (s : State) (sl : ℕ) (ident : ℕ) (len : ℕ) : Keeps [.haul, .pair, .freeCtr, .emits] s
    (State.allocate s sl ident len).2 := by
  unfold State.allocate
  show let r5 := _; Keeps _ _ (Prod.snd r5)
  intro r5
  extract_lets -descend +onlyGivenNames v6 at r5
  extract_lets -descend +onlyGivenNames v7 at r5
  subst r5
  split
  · rename_i _ st8 e9
    have hst8 : Keeps [.haul, .pair, .freeCtr, .emits] s st8 := by
      refine Keeps.snd e9 ?_
      refine Keeps.next (State.free_keeps ..) rfl ?_
      exact Keeps.refl
    show let r10 := _; Keeps _ _ (Prod.snd r10)
    intro r10
    extract_lets -descend +onlyGivenNames v11 at r10
    extract_lets -descend +onlyGivenNames v12 at r10
    extract_lets -descend +onlyGivenNames st13 at r10
    have hst13 : Keeps [.haul, .pair, .freeCtr, .emits] s st13 := by
      subst st13
      refine Keeps.next (State.updHaul_keeps ..) rfl ?_
      exact hst8
    try clear_value st13
    extract_lets -descend +onlyGivenNames st14 at r10
    have hst14 : Keeps [.haul, .pair, .freeCtr, .emits] s st14 := by
      subst st14
      refine Keeps.next (State.putVersion_keeps ..) rfl ?_
      exact hst13
    try clear_value st14
    extract_lets -descend +onlyGivenNames st15 at r10
    have hst15 : Keeps [.haul, .pair, .freeCtr, .emits] s st15 := by
      subst st15
      refine Keeps.dite (fun _ => ?_) (fun _ => ?_)
      · refine Keeps.next (State.decide_keeps ..) rfl ?_
        exact hst14
      · exact hst14
    try clear_value st15
    subst r10
    show Keeps _ _ _
    exact hst15

theorem State.putSurface_keeps (s : State) (sl : ℕ) (ident : ℕ) (x : Option Surface) : Keeps [.haul] s
    (State.putSurface s sl ident x) := by
  unfold State.putSurface
  refine Keeps.next (State.updHaul_keeps ..) rfl ?_
  exact Keeps.refl

theorem State.takeIdent_keeps {s t : State} {sl w h f k i : Nat} (e : s.takeIdent sl w h f k = some (i, t)) :
    Keeps [.haul, .pair, .emits] s t := by
  unfold State.takeIdent at e
  simp only [Option.map_eq_some_iff] at e
  obtain ⟨x, _, e⟩ := e
  cases e
  refine Keeps.dite (fun _ => ?_) (fun _ => ?_)
  · refine Keeps.next (State.decide_keeps ..) rfl ?_
    refine Keeps.next (State.putSurface_keeps ..) rfl ?_
    exact (State.updHaul_keeps ..).weaken rfl
  · refine Keeps.next (State.putSurface_keeps ..) rfl ?_
    exact (State.updHaul_keeps ..).weaken rfl

theorem State.importTarget_keeps {s t : State} {sl i v : Nat} {ws : List Word}
    (e : s.importTarget sl ws = .ok (i, v, t)) : Keeps [.haul, .pair, .freeCtr, .emits] s t := by
  unfold State.importTarget at e
  dsimp only at e
  split at e
  · cases e
  · split at e
    · cases e
      exact (State.allocate_keeps ..).weaken rfl
    · split at e
      · cases e
      · rename_i h
        cases e
        exact Keeps.next (State.allocate_keeps ..) rfl ((State.takeIdent_keeps h).weaken rfl)

theorem State.addXfer_keeps (s : State) (x : Xfer) : Keeps [.haul] s (State.addXfer s x) := by
  unfold State.addXfer
  refine Keeps.next (State.updHaul_keeps ..) rfl ?_
  exact Keeps.refl

theorem State.setCvFeed_keeps (s : State) (i : ℕ) (x : Feed) : Keeps [.cvu] s (State.setCvFeed s i x) := by
  unfold State.setCvFeed
  refine Keeps.set_cvu (x := s) rfl (fun h => Tab.wf_set _ _ _ _ h) ?_
  exact Keeps.refl

theorem State.cvStart_keeps (s : State) (n : ℕ) (f : Feed) (r : ℕ) : Keeps [.cells, .cvu] s (State.cvStart s n f r)
    := by
  unfold State.cvStart
  refine Keeps.next (State.wrN_keeps ..) rfl ?_
  refine Keeps.next (State.wrN_keeps ..) rfl ?_
  refine Keeps.next (State.setCvFeed_keeps ..) rfl ?_
  exact Keeps.refl

theorem State.snoopOn_keeps (s : State) (sp : ℕ) (handle : ℕ) (u : Option (ℕ × Bool)) : Keeps [.cells, .cvu] s
    (State.snoopOn s sp handle u) := by
  unfold State.snoopOn
  split
  · exact Keeps.refl
  · refine Keeps.next (State.cvStart_keeps ..) rfl ?_
    exact Keeps.refl

end Sys2Proof.Machine
end

