-- ==== Sys2Proof/Laws/State.lean ====
section
/-!
SUPPORT. What each update of State leaves: one lemma per field per update, and each accessor after each update of its own table.
-/

namespace Sys2Proof.Machine

@[simp] theorem State.wr_time (s : State) (a : Nat) (w : Word) :
    (s.wr a w).time = s.time := rfl
@[simp] theorem State.wr_ticks (s : State) (a : Nat) (w : Word) :
    (s.wr a w).ticks = s.ticks := rfl
@[simp] theorem State.wr_rate (s : State) (a : Nat) (w : Word) :
    (s.wr a w).rate = s.rate := rfl
@[simp] theorem State.wr_latches (s : State) (a : Nat) (w : Word) :
    (s.wr a w).latches = s.latches := rfl
@[simp] theorem State.wr_hif (s : State) (a : Nat) (w : Word) :
    (s.wr a w).hif = s.hif := rfl
@[simp] theorem State.wr_cmds (s : State) (a : Nat) (w : Word) :
    (s.wr a w).cmds = s.cmds := rfl
@[simp] theorem State.wr_slices (s : State) (a : Nat) (w : Word) :
    (s.wr a w).slices = s.slices := rfl
@[simp] theorem State.wr_haul (s : State) (a : Nat) (w : Word) :
    (s.wr a w).haul = s.haul := rfl
@[simp] theorem State.wr_outs (s : State) (a : Nat) (w : Word) :
    (s.wr a w).outs = s.outs := rfl
@[simp] theorem State.wr_lyr (s : State) (a : Nat) (w : Word) :
    (s.wr a w).lyr = s.lyr := rfl
@[simp] theorem State.wr_lyrSnap (s : State) (a : Nat) (w : Word) :
    (s.wr a w).lyrSnap = s.lyrSnap := rfl
@[simp] theorem State.wr_csr (s : State) (a : Nat) (w : Word) :
    (s.wr a w).csr = s.csr := rfl
@[simp] theorem State.wr_cvu (s : State) (a : Nat) (w : Word) :
    (s.wr a w).cvu = s.cvu := rfl
@[simp] theorem State.wr_floor (s : State) (a : Nat) (w : Word) :
    (s.wr a w).floor = s.floor := rfl
@[simp] theorem State.wr_cvSnap (s : State) (a : Nat) (w : Word) :
    (s.wr a w).cvSnap = s.cvSnap := rfl
@[simp] theorem State.wr_tch (s : State) (a : Nat) (w : Word) :
    (s.wr a w).tch = s.tch := rfl
@[simp] theorem State.wr_reflexDirty (s : State) (a : Nat) (w : Word) :
    (s.wr a w).reflexDirty = s.reflexDirty := rfl
@[simp] theorem State.wr_pwResync (s : State) (a : Nat) (w : Word) :
    (s.wr a w).pwResync = s.pwResync := rfl
@[simp] theorem State.wr_hap (s : State) (a : Nat) (w : Word) :
    (s.wr a w).hap = s.hap := rfl
@[simp] theorem State.wr_hapShared (s : State) (a : Nat) (w : Word) :
    (s.wr a w).hapShared = s.hapShared := rfl
@[simp] theorem State.wr_hst (s : State) (a : Nat) (w : Word) :
    (s.wr a w).hst = s.hst := rfl
@[simp] theorem State.wr_ast (s : State) (a : Nat) (w : Word) :
    (s.wr a w).ast = s.ast := rfl
@[simp] theorem State.wr_tdm (s : State) (a : Nat) (w : Word) :
    (s.wr a w).tdm = s.tdm := rfl
@[simp] theorem State.wr_wld (s : State) (a : Nat) (w : Word) :
    (s.wr a w).wld = s.wld := rfl
@[simp] theorem State.wr_cic (s : State) (a : Nat) (w : Word) :
    (s.wr a w).cic = s.cic := rfl
@[simp] theorem State.wr_dmc (s : State) (a : Nat) (w : Word) :
    (s.wr a w).dmc = s.dmc := rfl
@[simp] theorem State.wr_reductions (s : State) (a : Nat) (w : Word) :
    (s.wr a w).reductions = s.reductions := rfl
@[simp] theorem State.wr_clk (s : State) (a : Nat) (w : Word) :
    (s.wr a w).clk = s.clk := rfl
@[simp] theorem State.wr_pair (s : State) (a : Nat) (w : Word) :
    (s.wr a w).pair = s.pair := rfl
@[simp] theorem State.wr_pwr (s : State) (a : Nat) (w : Word) :
    (s.wr a w).pwr = s.pwr := rfl
@[simp] theorem State.wr_mem (s : State) (a : Nat) (w : Word) :
    (s.wr a w).mem = s.mem := rfl
@[simp] theorem State.wr_freeCtr (s : State) (a : Nat) (w : Word) :
    (s.wr a w).freeCtr = s.freeCtr := rfl
@[simp] theorem State.wr_emits (s : State) (a : Nat) (w : Word) :
    (s.wr a w).emits = s.emits := rfl
@[simp] theorem State.wr_resp (s : State) (a : Nat) (w : Word) :
    (s.wr a w).resp = s.resp := rfl
@[simp] theorem State.wr_pending (s : State) (a : Nat) (w : Word) :
    (s.wr a w).pending = s.pending := rfl

@[simp] theorem State.wrN_time (s : State) (a n : Nat) :
    (s.wrN a n).time = s.time := rfl
@[simp] theorem State.wrN_ticks (s : State) (a n : Nat) :
    (s.wrN a n).ticks = s.ticks := rfl
@[simp] theorem State.wrN_rate (s : State) (a n : Nat) :
    (s.wrN a n).rate = s.rate := rfl
@[simp] theorem State.wrN_latches (s : State) (a n : Nat) :
    (s.wrN a n).latches = s.latches := rfl
@[simp] theorem State.wrN_hif (s : State) (a n : Nat) :
    (s.wrN a n).hif = s.hif := rfl
@[simp] theorem State.wrN_cmds (s : State) (a n : Nat) :
    (s.wrN a n).cmds = s.cmds := rfl
@[simp] theorem State.wrN_slices (s : State) (a n : Nat) :
    (s.wrN a n).slices = s.slices := rfl
@[simp] theorem State.wrN_haul (s : State) (a n : Nat) :
    (s.wrN a n).haul = s.haul := rfl
@[simp] theorem State.wrN_outs (s : State) (a n : Nat) :
    (s.wrN a n).outs = s.outs := rfl
@[simp] theorem State.wrN_lyr (s : State) (a n : Nat) :
    (s.wrN a n).lyr = s.lyr := rfl
@[simp] theorem State.wrN_lyrSnap (s : State) (a n : Nat) :
    (s.wrN a n).lyrSnap = s.lyrSnap := rfl
@[simp] theorem State.wrN_csr (s : State) (a n : Nat) :
    (s.wrN a n).csr = s.csr := rfl
@[simp] theorem State.wrN_cvu (s : State) (a n : Nat) :
    (s.wrN a n).cvu = s.cvu := rfl
@[simp] theorem State.wrN_floor (s : State) (a n : Nat) :
    (s.wrN a n).floor = s.floor := rfl
@[simp] theorem State.wrN_cvSnap (s : State) (a n : Nat) :
    (s.wrN a n).cvSnap = s.cvSnap := rfl
@[simp] theorem State.wrN_tch (s : State) (a n : Nat) :
    (s.wrN a n).tch = s.tch := rfl
@[simp] theorem State.wrN_reflexDirty (s : State) (a n : Nat) :
    (s.wrN a n).reflexDirty = s.reflexDirty := rfl
@[simp] theorem State.wrN_pwResync (s : State) (a n : Nat) :
    (s.wrN a n).pwResync = s.pwResync := rfl
@[simp] theorem State.wrN_hap (s : State) (a n : Nat) :
    (s.wrN a n).hap = s.hap := rfl
@[simp] theorem State.wrN_hapShared (s : State) (a n : Nat) :
    (s.wrN a n).hapShared = s.hapShared := rfl
@[simp] theorem State.wrN_hst (s : State) (a n : Nat) :
    (s.wrN a n).hst = s.hst := rfl
@[simp] theorem State.wrN_ast (s : State) (a n : Nat) :
    (s.wrN a n).ast = s.ast := rfl
@[simp] theorem State.wrN_tdm (s : State) (a n : Nat) :
    (s.wrN a n).tdm = s.tdm := rfl
@[simp] theorem State.wrN_wld (s : State) (a n : Nat) :
    (s.wrN a n).wld = s.wld := rfl
@[simp] theorem State.wrN_cic (s : State) (a n : Nat) :
    (s.wrN a n).cic = s.cic := rfl
@[simp] theorem State.wrN_dmc (s : State) (a n : Nat) :
    (s.wrN a n).dmc = s.dmc := rfl
@[simp] theorem State.wrN_reductions (s : State) (a n : Nat) :
    (s.wrN a n).reductions = s.reductions := rfl
@[simp] theorem State.wrN_clk (s : State) (a n : Nat) :
    (s.wrN a n).clk = s.clk := rfl
@[simp] theorem State.wrN_pair (s : State) (a n : Nat) :
    (s.wrN a n).pair = s.pair := rfl
@[simp] theorem State.wrN_pwr (s : State) (a n : Nat) :
    (s.wrN a n).pwr = s.pwr := rfl
@[simp] theorem State.wrN_mem (s : State) (a n : Nat) :
    (s.wrN a n).mem = s.mem := rfl
@[simp] theorem State.wrN_freeCtr (s : State) (a n : Nat) :
    (s.wrN a n).freeCtr = s.freeCtr := rfl
@[simp] theorem State.wrN_emits (s : State) (a n : Nat) :
    (s.wrN a n).emits = s.emits := rfl
@[simp] theorem State.wrN_resp (s : State) (a n : Nat) :
    (s.wrN a n).resp = s.resp := rfl
@[simp] theorem State.wrN_pending (s : State) (a n : Nat) :
    (s.wrN a n).pending = s.pending := rfl

@[simp] theorem State.put_time (s : State) (a : Nat) (f : Fld) (v : Nat) :
    (s.put a f v).time = s.time := rfl
@[simp] theorem State.put_ticks (s : State) (a : Nat) (f : Fld) (v : Nat) :
    (s.put a f v).ticks = s.ticks := rfl
@[simp] theorem State.put_rate (s : State) (a : Nat) (f : Fld) (v : Nat) :
    (s.put a f v).rate = s.rate := rfl
@[simp] theorem State.put_latches (s : State) (a : Nat) (f : Fld) (v : Nat) :
    (s.put a f v).latches = s.latches := rfl
@[simp] theorem State.put_hif (s : State) (a : Nat) (f : Fld) (v : Nat) :
    (s.put a f v).hif = s.hif := rfl
@[simp] theorem State.put_cmds (s : State) (a : Nat) (f : Fld) (v : Nat) :
    (s.put a f v).cmds = s.cmds := rfl
@[simp] theorem State.put_slices (s : State) (a : Nat) (f : Fld) (v : Nat) :
    (s.put a f v).slices = s.slices := rfl
@[simp] theorem State.put_haul (s : State) (a : Nat) (f : Fld) (v : Nat) :
    (s.put a f v).haul = s.haul := rfl
@[simp] theorem State.put_outs (s : State) (a : Nat) (f : Fld) (v : Nat) :
    (s.put a f v).outs = s.outs := rfl
@[simp] theorem State.put_lyr (s : State) (a : Nat) (f : Fld) (v : Nat) :
    (s.put a f v).lyr = s.lyr := rfl
@[simp] theorem State.put_lyrSnap (s : State) (a : Nat) (f : Fld) (v : Nat) :
    (s.put a f v).lyrSnap = s.lyrSnap := rfl
@[simp] theorem State.put_csr (s : State) (a : Nat) (f : Fld) (v : Nat) :
    (s.put a f v).csr = s.csr := rfl
@[simp] theorem State.put_cvu (s : State) (a : Nat) (f : Fld) (v : Nat) :
    (s.put a f v).cvu = s.cvu := rfl
@[simp] theorem State.put_floor (s : State) (a : Nat) (f : Fld) (v : Nat) :
    (s.put a f v).floor = s.floor := rfl
@[simp] theorem State.put_cvSnap (s : State) (a : Nat) (f : Fld) (v : Nat) :
    (s.put a f v).cvSnap = s.cvSnap := rfl
@[simp] theorem State.put_tch (s : State) (a : Nat) (f : Fld) (v : Nat) :
    (s.put a f v).tch = s.tch := rfl
@[simp] theorem State.put_reflexDirty (s : State) (a : Nat) (f : Fld) (v : Nat) :
    (s.put a f v).reflexDirty = s.reflexDirty := rfl
@[simp] theorem State.put_pwResync (s : State) (a : Nat) (f : Fld) (v : Nat) :
    (s.put a f v).pwResync = s.pwResync := rfl
@[simp] theorem State.put_hap (s : State) (a : Nat) (f : Fld) (v : Nat) :
    (s.put a f v).hap = s.hap := rfl
@[simp] theorem State.put_hapShared (s : State) (a : Nat) (f : Fld) (v : Nat) :
    (s.put a f v).hapShared = s.hapShared := rfl
@[simp] theorem State.put_hst (s : State) (a : Nat) (f : Fld) (v : Nat) :
    (s.put a f v).hst = s.hst := rfl
@[simp] theorem State.put_ast (s : State) (a : Nat) (f : Fld) (v : Nat) :
    (s.put a f v).ast = s.ast := rfl
@[simp] theorem State.put_tdm (s : State) (a : Nat) (f : Fld) (v : Nat) :
    (s.put a f v).tdm = s.tdm := rfl
@[simp] theorem State.put_wld (s : State) (a : Nat) (f : Fld) (v : Nat) :
    (s.put a f v).wld = s.wld := rfl
@[simp] theorem State.put_cic (s : State) (a : Nat) (f : Fld) (v : Nat) :
    (s.put a f v).cic = s.cic := rfl
@[simp] theorem State.put_dmc (s : State) (a : Nat) (f : Fld) (v : Nat) :
    (s.put a f v).dmc = s.dmc := rfl
@[simp] theorem State.put_reductions (s : State) (a : Nat) (f : Fld) (v : Nat) :
    (s.put a f v).reductions = s.reductions := rfl
@[simp] theorem State.put_clk (s : State) (a : Nat) (f : Fld) (v : Nat) :
    (s.put a f v).clk = s.clk := rfl
@[simp] theorem State.put_pair (s : State) (a : Nat) (f : Fld) (v : Nat) :
    (s.put a f v).pair = s.pair := rfl
@[simp] theorem State.put_pwr (s : State) (a : Nat) (f : Fld) (v : Nat) :
    (s.put a f v).pwr = s.pwr := rfl
@[simp] theorem State.put_mem (s : State) (a : Nat) (f : Fld) (v : Nat) :
    (s.put a f v).mem = s.mem := rfl
@[simp] theorem State.put_freeCtr (s : State) (a : Nat) (f : Fld) (v : Nat) :
    (s.put a f v).freeCtr = s.freeCtr := rfl
@[simp] theorem State.put_emits (s : State) (a : Nat) (f : Fld) (v : Nat) :
    (s.put a f v).emits = s.emits := rfl
@[simp] theorem State.put_resp (s : State) (a : Nat) (f : Fld) (v : Nat) :
    (s.put a f v).resp = s.resp := rfl
@[simp] theorem State.put_pending (s : State) (a : Nat) (f : Fld) (v : Nat) :
    (s.put a f v).pending = s.pending := rfl

@[simp] theorem State.setF_time (s : State) (a : Nat) (f : Fld) :
    (s.setF a f).time = s.time := rfl
@[simp] theorem State.setF_ticks (s : State) (a : Nat) (f : Fld) :
    (s.setF a f).ticks = s.ticks := rfl
@[simp] theorem State.setF_rate (s : State) (a : Nat) (f : Fld) :
    (s.setF a f).rate = s.rate := rfl
@[simp] theorem State.setF_latches (s : State) (a : Nat) (f : Fld) :
    (s.setF a f).latches = s.latches := rfl
@[simp] theorem State.setF_hif (s : State) (a : Nat) (f : Fld) :
    (s.setF a f).hif = s.hif := rfl
@[simp] theorem State.setF_cmds (s : State) (a : Nat) (f : Fld) :
    (s.setF a f).cmds = s.cmds := rfl
@[simp] theorem State.setF_slices (s : State) (a : Nat) (f : Fld) :
    (s.setF a f).slices = s.slices := rfl
@[simp] theorem State.setF_haul (s : State) (a : Nat) (f : Fld) :
    (s.setF a f).haul = s.haul := rfl
@[simp] theorem State.setF_outs (s : State) (a : Nat) (f : Fld) :
    (s.setF a f).outs = s.outs := rfl
@[simp] theorem State.setF_lyr (s : State) (a : Nat) (f : Fld) :
    (s.setF a f).lyr = s.lyr := rfl
@[simp] theorem State.setF_lyrSnap (s : State) (a : Nat) (f : Fld) :
    (s.setF a f).lyrSnap = s.lyrSnap := rfl
@[simp] theorem State.setF_csr (s : State) (a : Nat) (f : Fld) :
    (s.setF a f).csr = s.csr := rfl
@[simp] theorem State.setF_cvu (s : State) (a : Nat) (f : Fld) :
    (s.setF a f).cvu = s.cvu := rfl
@[simp] theorem State.setF_floor (s : State) (a : Nat) (f : Fld) :
    (s.setF a f).floor = s.floor := rfl
@[simp] theorem State.setF_cvSnap (s : State) (a : Nat) (f : Fld) :
    (s.setF a f).cvSnap = s.cvSnap := rfl
@[simp] theorem State.setF_tch (s : State) (a : Nat) (f : Fld) :
    (s.setF a f).tch = s.tch := rfl
@[simp] theorem State.setF_reflexDirty (s : State) (a : Nat) (f : Fld) :
    (s.setF a f).reflexDirty = s.reflexDirty := rfl
@[simp] theorem State.setF_pwResync (s : State) (a : Nat) (f : Fld) :
    (s.setF a f).pwResync = s.pwResync := rfl
@[simp] theorem State.setF_hap (s : State) (a : Nat) (f : Fld) :
    (s.setF a f).hap = s.hap := rfl
@[simp] theorem State.setF_hapShared (s : State) (a : Nat) (f : Fld) :
    (s.setF a f).hapShared = s.hapShared := rfl
@[simp] theorem State.setF_hst (s : State) (a : Nat) (f : Fld) :
    (s.setF a f).hst = s.hst := rfl
@[simp] theorem State.setF_ast (s : State) (a : Nat) (f : Fld) :
    (s.setF a f).ast = s.ast := rfl
@[simp] theorem State.setF_tdm (s : State) (a : Nat) (f : Fld) :
    (s.setF a f).tdm = s.tdm := rfl
@[simp] theorem State.setF_wld (s : State) (a : Nat) (f : Fld) :
    (s.setF a f).wld = s.wld := rfl
@[simp] theorem State.setF_cic (s : State) (a : Nat) (f : Fld) :
    (s.setF a f).cic = s.cic := rfl
@[simp] theorem State.setF_dmc (s : State) (a : Nat) (f : Fld) :
    (s.setF a f).dmc = s.dmc := rfl
@[simp] theorem State.setF_reductions (s : State) (a : Nat) (f : Fld) :
    (s.setF a f).reductions = s.reductions := rfl
@[simp] theorem State.setF_clk (s : State) (a : Nat) (f : Fld) :
    (s.setF a f).clk = s.clk := rfl
@[simp] theorem State.setF_pair (s : State) (a : Nat) (f : Fld) :
    (s.setF a f).pair = s.pair := rfl
@[simp] theorem State.setF_pwr (s : State) (a : Nat) (f : Fld) :
    (s.setF a f).pwr = s.pwr := rfl
@[simp] theorem State.setF_mem (s : State) (a : Nat) (f : Fld) :
    (s.setF a f).mem = s.mem := rfl
@[simp] theorem State.setF_freeCtr (s : State) (a : Nat) (f : Fld) :
    (s.setF a f).freeCtr = s.freeCtr := rfl
@[simp] theorem State.setF_emits (s : State) (a : Nat) (f : Fld) :
    (s.setF a f).emits = s.emits := rfl
@[simp] theorem State.setF_resp (s : State) (a : Nat) (f : Fld) :
    (s.setF a f).resp = s.resp := rfl
@[simp] theorem State.setF_pending (s : State) (a : Nat) (f : Fld) :
    (s.setF a f).pending = s.pending := rfl

@[simp] theorem State.clrF_time (s : State) (a : Nat) (f : Fld) :
    (s.clrF a f).time = s.time := rfl
@[simp] theorem State.clrF_ticks (s : State) (a : Nat) (f : Fld) :
    (s.clrF a f).ticks = s.ticks := rfl
@[simp] theorem State.clrF_rate (s : State) (a : Nat) (f : Fld) :
    (s.clrF a f).rate = s.rate := rfl
@[simp] theorem State.clrF_latches (s : State) (a : Nat) (f : Fld) :
    (s.clrF a f).latches = s.latches := rfl
@[simp] theorem State.clrF_hif (s : State) (a : Nat) (f : Fld) :
    (s.clrF a f).hif = s.hif := rfl
@[simp] theorem State.clrF_cmds (s : State) (a : Nat) (f : Fld) :
    (s.clrF a f).cmds = s.cmds := rfl
@[simp] theorem State.clrF_slices (s : State) (a : Nat) (f : Fld) :
    (s.clrF a f).slices = s.slices := rfl
@[simp] theorem State.clrF_haul (s : State) (a : Nat) (f : Fld) :
    (s.clrF a f).haul = s.haul := rfl
@[simp] theorem State.clrF_outs (s : State) (a : Nat) (f : Fld) :
    (s.clrF a f).outs = s.outs := rfl
@[simp] theorem State.clrF_lyr (s : State) (a : Nat) (f : Fld) :
    (s.clrF a f).lyr = s.lyr := rfl
@[simp] theorem State.clrF_lyrSnap (s : State) (a : Nat) (f : Fld) :
    (s.clrF a f).lyrSnap = s.lyrSnap := rfl
@[simp] theorem State.clrF_csr (s : State) (a : Nat) (f : Fld) :
    (s.clrF a f).csr = s.csr := rfl
@[simp] theorem State.clrF_cvu (s : State) (a : Nat) (f : Fld) :
    (s.clrF a f).cvu = s.cvu := rfl
@[simp] theorem State.clrF_floor (s : State) (a : Nat) (f : Fld) :
    (s.clrF a f).floor = s.floor := rfl
@[simp] theorem State.clrF_cvSnap (s : State) (a : Nat) (f : Fld) :
    (s.clrF a f).cvSnap = s.cvSnap := rfl
@[simp] theorem State.clrF_tch (s : State) (a : Nat) (f : Fld) :
    (s.clrF a f).tch = s.tch := rfl
@[simp] theorem State.clrF_reflexDirty (s : State) (a : Nat) (f : Fld) :
    (s.clrF a f).reflexDirty = s.reflexDirty := rfl
@[simp] theorem State.clrF_pwResync (s : State) (a : Nat) (f : Fld) :
    (s.clrF a f).pwResync = s.pwResync := rfl
@[simp] theorem State.clrF_hap (s : State) (a : Nat) (f : Fld) :
    (s.clrF a f).hap = s.hap := rfl
@[simp] theorem State.clrF_hapShared (s : State) (a : Nat) (f : Fld) :
    (s.clrF a f).hapShared = s.hapShared := rfl
@[simp] theorem State.clrF_hst (s : State) (a : Nat) (f : Fld) :
    (s.clrF a f).hst = s.hst := rfl
@[simp] theorem State.clrF_ast (s : State) (a : Nat) (f : Fld) :
    (s.clrF a f).ast = s.ast := rfl
@[simp] theorem State.clrF_tdm (s : State) (a : Nat) (f : Fld) :
    (s.clrF a f).tdm = s.tdm := rfl
@[simp] theorem State.clrF_wld (s : State) (a : Nat) (f : Fld) :
    (s.clrF a f).wld = s.wld := rfl
@[simp] theorem State.clrF_cic (s : State) (a : Nat) (f : Fld) :
    (s.clrF a f).cic = s.cic := rfl
@[simp] theorem State.clrF_dmc (s : State) (a : Nat) (f : Fld) :
    (s.clrF a f).dmc = s.dmc := rfl
@[simp] theorem State.clrF_reductions (s : State) (a : Nat) (f : Fld) :
    (s.clrF a f).reductions = s.reductions := rfl
@[simp] theorem State.clrF_clk (s : State) (a : Nat) (f : Fld) :
    (s.clrF a f).clk = s.clk := rfl
@[simp] theorem State.clrF_pair (s : State) (a : Nat) (f : Fld) :
    (s.clrF a f).pair = s.pair := rfl
@[simp] theorem State.clrF_pwr (s : State) (a : Nat) (f : Fld) :
    (s.clrF a f).pwr = s.pwr := rfl
@[simp] theorem State.clrF_mem (s : State) (a : Nat) (f : Fld) :
    (s.clrF a f).mem = s.mem := rfl
@[simp] theorem State.clrF_freeCtr (s : State) (a : Nat) (f : Fld) :
    (s.clrF a f).freeCtr = s.freeCtr := rfl
@[simp] theorem State.clrF_emits (s : State) (a : Nat) (f : Fld) :
    (s.clrF a f).emits = s.emits := rfl
@[simp] theorem State.clrF_resp (s : State) (a : Nat) (f : Fld) :
    (s.clrF a f).resp = s.resp := rfl
@[simp] theorem State.clrF_pending (s : State) (a : Nat) (f : Fld) :
    (s.clrF a f).pending = s.pending := rfl

@[simp] theorem State.count_time (s : State) (a : Nat) (f : Fld) (n : Nat) :
    (s.count a f n).time = s.time := rfl
@[simp] theorem State.count_ticks (s : State) (a : Nat) (f : Fld) (n : Nat) :
    (s.count a f n).ticks = s.ticks := rfl
@[simp] theorem State.count_rate (s : State) (a : Nat) (f : Fld) (n : Nat) :
    (s.count a f n).rate = s.rate := rfl
@[simp] theorem State.count_latches (s : State) (a : Nat) (f : Fld) (n : Nat) :
    (s.count a f n).latches = s.latches := rfl
@[simp] theorem State.count_hif (s : State) (a : Nat) (f : Fld) (n : Nat) :
    (s.count a f n).hif = s.hif := rfl
@[simp] theorem State.count_cmds (s : State) (a : Nat) (f : Fld) (n : Nat) :
    (s.count a f n).cmds = s.cmds := rfl
@[simp] theorem State.count_slices (s : State) (a : Nat) (f : Fld) (n : Nat) :
    (s.count a f n).slices = s.slices := rfl
@[simp] theorem State.count_haul (s : State) (a : Nat) (f : Fld) (n : Nat) :
    (s.count a f n).haul = s.haul := rfl
@[simp] theorem State.count_outs (s : State) (a : Nat) (f : Fld) (n : Nat) :
    (s.count a f n).outs = s.outs := rfl
@[simp] theorem State.count_lyr (s : State) (a : Nat) (f : Fld) (n : Nat) :
    (s.count a f n).lyr = s.lyr := rfl
@[simp] theorem State.count_lyrSnap (s : State) (a : Nat) (f : Fld) (n : Nat) :
    (s.count a f n).lyrSnap = s.lyrSnap := rfl
@[simp] theorem State.count_csr (s : State) (a : Nat) (f : Fld) (n : Nat) :
    (s.count a f n).csr = s.csr := rfl
@[simp] theorem State.count_cvu (s : State) (a : Nat) (f : Fld) (n : Nat) :
    (s.count a f n).cvu = s.cvu := rfl
@[simp] theorem State.count_floor (s : State) (a : Nat) (f : Fld) (n : Nat) :
    (s.count a f n).floor = s.floor := rfl
@[simp] theorem State.count_cvSnap (s : State) (a : Nat) (f : Fld) (n : Nat) :
    (s.count a f n).cvSnap = s.cvSnap := rfl
@[simp] theorem State.count_tch (s : State) (a : Nat) (f : Fld) (n : Nat) :
    (s.count a f n).tch = s.tch := rfl
@[simp] theorem State.count_reflexDirty (s : State) (a : Nat) (f : Fld) (n : Nat) :
    (s.count a f n).reflexDirty = s.reflexDirty := rfl
@[simp] theorem State.count_pwResync (s : State) (a : Nat) (f : Fld) (n : Nat) :
    (s.count a f n).pwResync = s.pwResync := rfl
@[simp] theorem State.count_hap (s : State) (a : Nat) (f : Fld) (n : Nat) :
    (s.count a f n).hap = s.hap := rfl
@[simp] theorem State.count_hapShared (s : State) (a : Nat) (f : Fld) (n : Nat) :
    (s.count a f n).hapShared = s.hapShared := rfl
@[simp] theorem State.count_hst (s : State) (a : Nat) (f : Fld) (n : Nat) :
    (s.count a f n).hst = s.hst := rfl
@[simp] theorem State.count_ast (s : State) (a : Nat) (f : Fld) (n : Nat) :
    (s.count a f n).ast = s.ast := rfl
@[simp] theorem State.count_tdm (s : State) (a : Nat) (f : Fld) (n : Nat) :
    (s.count a f n).tdm = s.tdm := rfl
@[simp] theorem State.count_wld (s : State) (a : Nat) (f : Fld) (n : Nat) :
    (s.count a f n).wld = s.wld := rfl
@[simp] theorem State.count_cic (s : State) (a : Nat) (f : Fld) (n : Nat) :
    (s.count a f n).cic = s.cic := rfl
@[simp] theorem State.count_dmc (s : State) (a : Nat) (f : Fld) (n : Nat) :
    (s.count a f n).dmc = s.dmc := rfl
@[simp] theorem State.count_reductions (s : State) (a : Nat) (f : Fld) (n : Nat) :
    (s.count a f n).reductions = s.reductions := rfl
@[simp] theorem State.count_clk (s : State) (a : Nat) (f : Fld) (n : Nat) :
    (s.count a f n).clk = s.clk := rfl
@[simp] theorem State.count_pair (s : State) (a : Nat) (f : Fld) (n : Nat) :
    (s.count a f n).pair = s.pair := rfl
@[simp] theorem State.count_pwr (s : State) (a : Nat) (f : Fld) (n : Nat) :
    (s.count a f n).pwr = s.pwr := rfl
@[simp] theorem State.count_mem (s : State) (a : Nat) (f : Fld) (n : Nat) :
    (s.count a f n).mem = s.mem := rfl
@[simp] theorem State.count_freeCtr (s : State) (a : Nat) (f : Fld) (n : Nat) :
    (s.count a f n).freeCtr = s.freeCtr := rfl
@[simp] theorem State.count_emits (s : State) (a : Nat) (f : Fld) (n : Nat) :
    (s.count a f n).emits = s.emits := rfl
@[simp] theorem State.count_resp (s : State) (a : Nat) (f : Fld) (n : Nat) :
    (s.count a f n).resp = s.resp := rfl
@[simp] theorem State.count_pending (s : State) (a : Nat) (f : Fld) (n : Nat) :
    (s.count a f n).pending = s.pending := rfl

@[simp] theorem State.resetKeys_time (s : State) (p : Nat → Bool) :
    (s.resetKeys p).time = s.time := rfl
@[simp] theorem State.resetKeys_ticks (s : State) (p : Nat → Bool) :
    (s.resetKeys p).ticks = s.ticks := rfl
@[simp] theorem State.resetKeys_rate (s : State) (p : Nat → Bool) :
    (s.resetKeys p).rate = s.rate := rfl
@[simp] theorem State.resetKeys_latches (s : State) (p : Nat → Bool) :
    (s.resetKeys p).latches = s.latches := rfl
@[simp] theorem State.resetKeys_hif (s : State) (p : Nat → Bool) :
    (s.resetKeys p).hif = s.hif := rfl
@[simp] theorem State.resetKeys_cmds (s : State) (p : Nat → Bool) :
    (s.resetKeys p).cmds = s.cmds := rfl
@[simp] theorem State.resetKeys_slices (s : State) (p : Nat → Bool) :
    (s.resetKeys p).slices = s.slices := rfl
@[simp] theorem State.resetKeys_haul (s : State) (p : Nat → Bool) :
    (s.resetKeys p).haul = s.haul := rfl
@[simp] theorem State.resetKeys_outs (s : State) (p : Nat → Bool) :
    (s.resetKeys p).outs = s.outs := rfl
@[simp] theorem State.resetKeys_lyr (s : State) (p : Nat → Bool) :
    (s.resetKeys p).lyr = s.lyr := rfl
@[simp] theorem State.resetKeys_lyrSnap (s : State) (p : Nat → Bool) :
    (s.resetKeys p).lyrSnap = s.lyrSnap := rfl
@[simp] theorem State.resetKeys_csr (s : State) (p : Nat → Bool) :
    (s.resetKeys p).csr = s.csr := rfl
@[simp] theorem State.resetKeys_cvu (s : State) (p : Nat → Bool) :
    (s.resetKeys p).cvu = s.cvu := rfl
@[simp] theorem State.resetKeys_floor (s : State) (p : Nat → Bool) :
    (s.resetKeys p).floor = s.floor := rfl
@[simp] theorem State.resetKeys_cvSnap (s : State) (p : Nat → Bool) :
    (s.resetKeys p).cvSnap = s.cvSnap := rfl
@[simp] theorem State.resetKeys_tch (s : State) (p : Nat → Bool) :
    (s.resetKeys p).tch = s.tch := rfl
@[simp] theorem State.resetKeys_reflexDirty (s : State) (p : Nat → Bool) :
    (s.resetKeys p).reflexDirty = s.reflexDirty := rfl
@[simp] theorem State.resetKeys_pwResync (s : State) (p : Nat → Bool) :
    (s.resetKeys p).pwResync = s.pwResync := rfl
@[simp] theorem State.resetKeys_hap (s : State) (p : Nat → Bool) :
    (s.resetKeys p).hap = s.hap := rfl
@[simp] theorem State.resetKeys_hapShared (s : State) (p : Nat → Bool) :
    (s.resetKeys p).hapShared = s.hapShared := rfl
@[simp] theorem State.resetKeys_hst (s : State) (p : Nat → Bool) :
    (s.resetKeys p).hst = s.hst := rfl
@[simp] theorem State.resetKeys_ast (s : State) (p : Nat → Bool) :
    (s.resetKeys p).ast = s.ast := rfl
@[simp] theorem State.resetKeys_tdm (s : State) (p : Nat → Bool) :
    (s.resetKeys p).tdm = s.tdm := rfl
@[simp] theorem State.resetKeys_wld (s : State) (p : Nat → Bool) :
    (s.resetKeys p).wld = s.wld := rfl
@[simp] theorem State.resetKeys_cic (s : State) (p : Nat → Bool) :
    (s.resetKeys p).cic = s.cic := rfl
@[simp] theorem State.resetKeys_dmc (s : State) (p : Nat → Bool) :
    (s.resetKeys p).dmc = s.dmc := rfl
@[simp] theorem State.resetKeys_reductions (s : State) (p : Nat → Bool) :
    (s.resetKeys p).reductions = s.reductions := rfl
@[simp] theorem State.resetKeys_clk (s : State) (p : Nat → Bool) :
    (s.resetKeys p).clk = s.clk := rfl
@[simp] theorem State.resetKeys_pair (s : State) (p : Nat → Bool) :
    (s.resetKeys p).pair = s.pair := rfl
@[simp] theorem State.resetKeys_pwr (s : State) (p : Nat → Bool) :
    (s.resetKeys p).pwr = s.pwr := rfl
@[simp] theorem State.resetKeys_mem (s : State) (p : Nat → Bool) :
    (s.resetKeys p).mem = s.mem := rfl
@[simp] theorem State.resetKeys_freeCtr (s : State) (p : Nat → Bool) :
    (s.resetKeys p).freeCtr = s.freeCtr := rfl
@[simp] theorem State.resetKeys_emits (s : State) (p : Nat → Bool) :
    (s.resetKeys p).emits = s.emits := rfl
@[simp] theorem State.resetKeys_resp (s : State) (p : Nat → Bool) :
    (s.resetKeys p).resp = s.resp := rfl
@[simp] theorem State.resetKeys_pending (s : State) (p : Nat → Bool) :
    (s.resetKeys p).pending = s.pending := rfl

@[simp] theorem State.emit_time (s : State) (e : Emit) :
    (s.emit e).time = s.time := rfl
@[simp] theorem State.emit_ticks (s : State) (e : Emit) :
    (s.emit e).ticks = s.ticks := rfl
@[simp] theorem State.emit_rate (s : State) (e : Emit) :
    (s.emit e).rate = s.rate := rfl
@[simp] theorem State.emit_cells (s : State) (e : Emit) :
    (s.emit e).cells = s.cells := rfl
@[simp] theorem State.emit_latches (s : State) (e : Emit) :
    (s.emit e).latches = s.latches := rfl
@[simp] theorem State.emit_hif (s : State) (e : Emit) :
    (s.emit e).hif = s.hif := rfl
@[simp] theorem State.emit_cmds (s : State) (e : Emit) :
    (s.emit e).cmds = s.cmds := rfl
@[simp] theorem State.emit_slices (s : State) (e : Emit) :
    (s.emit e).slices = s.slices := rfl
@[simp] theorem State.emit_haul (s : State) (e : Emit) :
    (s.emit e).haul = s.haul := rfl
@[simp] theorem State.emit_outs (s : State) (e : Emit) :
    (s.emit e).outs = s.outs := rfl
@[simp] theorem State.emit_lyr (s : State) (e : Emit) :
    (s.emit e).lyr = s.lyr := rfl
@[simp] theorem State.emit_lyrSnap (s : State) (e : Emit) :
    (s.emit e).lyrSnap = s.lyrSnap := rfl
@[simp] theorem State.emit_csr (s : State) (e : Emit) :
    (s.emit e).csr = s.csr := rfl
@[simp] theorem State.emit_cvu (s : State) (e : Emit) :
    (s.emit e).cvu = s.cvu := rfl
@[simp] theorem State.emit_floor (s : State) (e : Emit) :
    (s.emit e).floor = s.floor := rfl
@[simp] theorem State.emit_cvSnap (s : State) (e : Emit) :
    (s.emit e).cvSnap = s.cvSnap := rfl
@[simp] theorem State.emit_tch (s : State) (e : Emit) :
    (s.emit e).tch = s.tch := rfl
@[simp] theorem State.emit_reflexDirty (s : State) (e : Emit) :
    (s.emit e).reflexDirty = s.reflexDirty := rfl
@[simp] theorem State.emit_pwResync (s : State) (e : Emit) :
    (s.emit e).pwResync = s.pwResync := rfl
@[simp] theorem State.emit_hap (s : State) (e : Emit) :
    (s.emit e).hap = s.hap := rfl
@[simp] theorem State.emit_hapShared (s : State) (e : Emit) :
    (s.emit e).hapShared = s.hapShared := rfl
@[simp] theorem State.emit_hst (s : State) (e : Emit) :
    (s.emit e).hst = s.hst := rfl
@[simp] theorem State.emit_ast (s : State) (e : Emit) :
    (s.emit e).ast = s.ast := rfl
@[simp] theorem State.emit_tdm (s : State) (e : Emit) :
    (s.emit e).tdm = s.tdm := rfl
@[simp] theorem State.emit_wld (s : State) (e : Emit) :
    (s.emit e).wld = s.wld := rfl
@[simp] theorem State.emit_cic (s : State) (e : Emit) :
    (s.emit e).cic = s.cic := rfl
@[simp] theorem State.emit_dmc (s : State) (e : Emit) :
    (s.emit e).dmc = s.dmc := rfl
@[simp] theorem State.emit_reductions (s : State) (e : Emit) :
    (s.emit e).reductions = s.reductions := rfl
@[simp] theorem State.emit_clk (s : State) (e : Emit) :
    (s.emit e).clk = s.clk := rfl
@[simp] theorem State.emit_pair (s : State) (e : Emit) :
    (s.emit e).pair = s.pair := rfl
@[simp] theorem State.emit_pwr (s : State) (e : Emit) :
    (s.emit e).pwr = s.pwr := rfl
@[simp] theorem State.emit_mem (s : State) (e : Emit) :
    (s.emit e).mem = s.mem := rfl
@[simp] theorem State.emit_freeCtr (s : State) (e : Emit) :
    (s.emit e).freeCtr = s.freeCtr := rfl
@[simp] theorem State.emit_resp (s : State) (e : Emit) :
    (s.emit e).resp = s.resp := rfl
@[simp] theorem State.emit_pending (s : State) (e : Emit) :
    (s.emit e).pending = s.pending := rfl

@[simp] theorem State.begin_time (s : State) :
    (s.begin).time = s.time := rfl
@[simp] theorem State.begin_ticks (s : State) :
    (s.begin).ticks = s.ticks := rfl
@[simp] theorem State.begin_rate (s : State) :
    (s.begin).rate = s.rate := rfl
@[simp] theorem State.begin_cells (s : State) :
    (s.begin).cells = s.cells := rfl
@[simp] theorem State.begin_latches (s : State) :
    (s.begin).latches = s.latches := rfl
@[simp] theorem State.begin_hif (s : State) :
    (s.begin).hif = s.hif := rfl
@[simp] theorem State.begin_cmds (s : State) :
    (s.begin).cmds = s.cmds := rfl
@[simp] theorem State.begin_slices (s : State) :
    (s.begin).slices = s.slices := rfl
@[simp] theorem State.begin_haul (s : State) :
    (s.begin).haul = s.haul := rfl
@[simp] theorem State.begin_outs (s : State) :
    (s.begin).outs = s.outs := rfl
@[simp] theorem State.begin_lyr (s : State) :
    (s.begin).lyr = s.lyr := rfl
@[simp] theorem State.begin_lyrSnap (s : State) :
    (s.begin).lyrSnap = s.lyrSnap := rfl
@[simp] theorem State.begin_csr (s : State) :
    (s.begin).csr = s.csr := rfl
@[simp] theorem State.begin_cvu (s : State) :
    (s.begin).cvu = s.cvu := rfl
@[simp] theorem State.begin_floor (s : State) :
    (s.begin).floor = s.floor := rfl
@[simp] theorem State.begin_cvSnap (s : State) :
    (s.begin).cvSnap = s.cvSnap := rfl
@[simp] theorem State.begin_tch (s : State) :
    (s.begin).tch = s.tch := rfl
@[simp] theorem State.begin_reflexDirty (s : State) :
    (s.begin).reflexDirty = s.reflexDirty := rfl
@[simp] theorem State.begin_pwResync (s : State) :
    (s.begin).pwResync = s.pwResync := rfl
@[simp] theorem State.begin_hap (s : State) :
    (s.begin).hap = s.hap := rfl
@[simp] theorem State.begin_hapShared (s : State) :
    (s.begin).hapShared = s.hapShared := rfl
@[simp] theorem State.begin_hst (s : State) :
    (s.begin).hst = s.hst := rfl
@[simp] theorem State.begin_ast (s : State) :
    (s.begin).ast = s.ast := rfl
@[simp] theorem State.begin_tdm (s : State) :
    (s.begin).tdm = s.tdm := rfl
@[simp] theorem State.begin_wld (s : State) :
    (s.begin).wld = s.wld := rfl
@[simp] theorem State.begin_cic (s : State) :
    (s.begin).cic = s.cic := rfl
@[simp] theorem State.begin_dmc (s : State) :
    (s.begin).dmc = s.dmc := rfl
@[simp] theorem State.begin_reductions (s : State) :
    (s.begin).reductions = s.reductions := rfl
@[simp] theorem State.begin_clk (s : State) :
    (s.begin).clk = s.clk := rfl
@[simp] theorem State.begin_pair (s : State) :
    (s.begin).pair = s.pair := rfl
@[simp] theorem State.begin_pwr (s : State) :
    (s.begin).pwr = s.pwr := rfl
@[simp] theorem State.begin_mem (s : State) :
    (s.begin).mem = s.mem := rfl
@[simp] theorem State.begin_freeCtr (s : State) :
    (s.begin).freeCtr = s.freeCtr := rfl
@[simp] theorem State.begin_pending (s : State) :
    (s.begin).pending = s.pending := rfl

@[simp] theorem State.at_ticks (s : State) (t : Nat) :
    (s.at t).ticks = s.ticks := rfl
@[simp] theorem State.at_rate (s : State) (t : Nat) :
    (s.at t).rate = s.rate := rfl
@[simp] theorem State.at_cells (s : State) (t : Nat) :
    (s.at t).cells = s.cells := rfl
@[simp] theorem State.at_latches (s : State) (t : Nat) :
    (s.at t).latches = s.latches := rfl
@[simp] theorem State.at_hif (s : State) (t : Nat) :
    (s.at t).hif = s.hif := rfl
@[simp] theorem State.at_cmds (s : State) (t : Nat) :
    (s.at t).cmds = s.cmds := rfl
@[simp] theorem State.at_slices (s : State) (t : Nat) :
    (s.at t).slices = s.slices := rfl
@[simp] theorem State.at_haul (s : State) (t : Nat) :
    (s.at t).haul = s.haul := rfl
@[simp] theorem State.at_outs (s : State) (t : Nat) :
    (s.at t).outs = s.outs := rfl
@[simp] theorem State.at_lyr (s : State) (t : Nat) :
    (s.at t).lyr = s.lyr := rfl
@[simp] theorem State.at_lyrSnap (s : State) (t : Nat) :
    (s.at t).lyrSnap = s.lyrSnap := rfl
@[simp] theorem State.at_csr (s : State) (t : Nat) :
    (s.at t).csr = s.csr := rfl
@[simp] theorem State.at_cvu (s : State) (t : Nat) :
    (s.at t).cvu = s.cvu := rfl
@[simp] theorem State.at_floor (s : State) (t : Nat) :
    (s.at t).floor = s.floor := rfl
@[simp] theorem State.at_cvSnap (s : State) (t : Nat) :
    (s.at t).cvSnap = s.cvSnap := rfl
@[simp] theorem State.at_tch (s : State) (t : Nat) :
    (s.at t).tch = s.tch := rfl
@[simp] theorem State.at_reflexDirty (s : State) (t : Nat) :
    (s.at t).reflexDirty = s.reflexDirty := rfl
@[simp] theorem State.at_pwResync (s : State) (t : Nat) :
    (s.at t).pwResync = s.pwResync := rfl
@[simp] theorem State.at_hap (s : State) (t : Nat) :
    (s.at t).hap = s.hap := rfl
@[simp] theorem State.at_hapShared (s : State) (t : Nat) :
    (s.at t).hapShared = s.hapShared := rfl
@[simp] theorem State.at_hst (s : State) (t : Nat) :
    (s.at t).hst = s.hst := rfl
@[simp] theorem State.at_ast (s : State) (t : Nat) :
    (s.at t).ast = s.ast := rfl
@[simp] theorem State.at_tdm (s : State) (t : Nat) :
    (s.at t).tdm = s.tdm := rfl
@[simp] theorem State.at_wld (s : State) (t : Nat) :
    (s.at t).wld = s.wld := rfl
@[simp] theorem State.at_cic (s : State) (t : Nat) :
    (s.at t).cic = s.cic := rfl
@[simp] theorem State.at_dmc (s : State) (t : Nat) :
    (s.at t).dmc = s.dmc := rfl
@[simp] theorem State.at_reductions (s : State) (t : Nat) :
    (s.at t).reductions = s.reductions := rfl
@[simp] theorem State.at_clk (s : State) (t : Nat) :
    (s.at t).clk = s.clk := rfl
@[simp] theorem State.at_pair (s : State) (t : Nat) :
    (s.at t).pair = s.pair := rfl
@[simp] theorem State.at_pwr (s : State) (t : Nat) :
    (s.at t).pwr = s.pwr := rfl
@[simp] theorem State.at_mem (s : State) (t : Nat) :
    (s.at t).mem = s.mem := rfl
@[simp] theorem State.at_freeCtr (s : State) (t : Nat) :
    (s.at t).freeCtr = s.freeCtr := rfl
@[simp] theorem State.at_emits (s : State) (t : Nat) :
    (s.at t).emits = s.emits := rfl
@[simp] theorem State.at_resp (s : State) (t : Nat) :
    (s.at t).resp = s.resp := rfl
@[simp] theorem State.at_pending (s : State) (t : Nat) :
    (s.at t).pending = s.pending := rfl

@[simp] theorem State.setSlice_time (s : State) (i : Nat) (x : Slice) :
    (s.setSlice i x).time = s.time := rfl
@[simp] theorem State.setSlice_ticks (s : State) (i : Nat) (x : Slice) :
    (s.setSlice i x).ticks = s.ticks := rfl
@[simp] theorem State.setSlice_rate (s : State) (i : Nat) (x : Slice) :
    (s.setSlice i x).rate = s.rate := rfl
@[simp] theorem State.setSlice_cells (s : State) (i : Nat) (x : Slice) :
    (s.setSlice i x).cells = s.cells := rfl
@[simp] theorem State.setSlice_latches (s : State) (i : Nat) (x : Slice) :
    (s.setSlice i x).latches = s.latches := rfl
@[simp] theorem State.setSlice_hif (s : State) (i : Nat) (x : Slice) :
    (s.setSlice i x).hif = s.hif := rfl
@[simp] theorem State.setSlice_cmds (s : State) (i : Nat) (x : Slice) :
    (s.setSlice i x).cmds = s.cmds := rfl
@[simp] theorem State.setSlice_haul (s : State) (i : Nat) (x : Slice) :
    (s.setSlice i x).haul = s.haul := rfl
@[simp] theorem State.setSlice_outs (s : State) (i : Nat) (x : Slice) :
    (s.setSlice i x).outs = s.outs := rfl
@[simp] theorem State.setSlice_lyr (s : State) (i : Nat) (x : Slice) :
    (s.setSlice i x).lyr = s.lyr := rfl
@[simp] theorem State.setSlice_lyrSnap (s : State) (i : Nat) (x : Slice) :
    (s.setSlice i x).lyrSnap = s.lyrSnap := rfl
@[simp] theorem State.setSlice_csr (s : State) (i : Nat) (x : Slice) :
    (s.setSlice i x).csr = s.csr := rfl
@[simp] theorem State.setSlice_cvu (s : State) (i : Nat) (x : Slice) :
    (s.setSlice i x).cvu = s.cvu := rfl
@[simp] theorem State.setSlice_floor (s : State) (i : Nat) (x : Slice) :
    (s.setSlice i x).floor = s.floor := rfl
@[simp] theorem State.setSlice_cvSnap (s : State) (i : Nat) (x : Slice) :
    (s.setSlice i x).cvSnap = s.cvSnap := rfl
@[simp] theorem State.setSlice_tch (s : State) (i : Nat) (x : Slice) :
    (s.setSlice i x).tch = s.tch := rfl
@[simp] theorem State.setSlice_reflexDirty (s : State) (i : Nat) (x : Slice) :
    (s.setSlice i x).reflexDirty = s.reflexDirty := rfl
@[simp] theorem State.setSlice_pwResync (s : State) (i : Nat) (x : Slice) :
    (s.setSlice i x).pwResync = s.pwResync := rfl
@[simp] theorem State.setSlice_hap (s : State) (i : Nat) (x : Slice) :
    (s.setSlice i x).hap = s.hap := rfl
@[simp] theorem State.setSlice_hapShared (s : State) (i : Nat) (x : Slice) :
    (s.setSlice i x).hapShared = s.hapShared := rfl
@[simp] theorem State.setSlice_hst (s : State) (i : Nat) (x : Slice) :
    (s.setSlice i x).hst = s.hst := rfl
@[simp] theorem State.setSlice_ast (s : State) (i : Nat) (x : Slice) :
    (s.setSlice i x).ast = s.ast := rfl
@[simp] theorem State.setSlice_tdm (s : State) (i : Nat) (x : Slice) :
    (s.setSlice i x).tdm = s.tdm := rfl
@[simp] theorem State.setSlice_wld (s : State) (i : Nat) (x : Slice) :
    (s.setSlice i x).wld = s.wld := rfl
@[simp] theorem State.setSlice_cic (s : State) (i : Nat) (x : Slice) :
    (s.setSlice i x).cic = s.cic := rfl
@[simp] theorem State.setSlice_dmc (s : State) (i : Nat) (x : Slice) :
    (s.setSlice i x).dmc = s.dmc := rfl
@[simp] theorem State.setSlice_reductions (s : State) (i : Nat) (x : Slice) :
    (s.setSlice i x).reductions = s.reductions := rfl
@[simp] theorem State.setSlice_clk (s : State) (i : Nat) (x : Slice) :
    (s.setSlice i x).clk = s.clk := rfl
@[simp] theorem State.setSlice_pair (s : State) (i : Nat) (x : Slice) :
    (s.setSlice i x).pair = s.pair := rfl
@[simp] theorem State.setSlice_pwr (s : State) (i : Nat) (x : Slice) :
    (s.setSlice i x).pwr = s.pwr := rfl
@[simp] theorem State.setSlice_mem (s : State) (i : Nat) (x : Slice) :
    (s.setSlice i x).mem = s.mem := rfl
@[simp] theorem State.setSlice_freeCtr (s : State) (i : Nat) (x : Slice) :
    (s.setSlice i x).freeCtr = s.freeCtr := rfl
@[simp] theorem State.setSlice_emits (s : State) (i : Nat) (x : Slice) :
    (s.setSlice i x).emits = s.emits := rfl
@[simp] theorem State.setSlice_resp (s : State) (i : Nat) (x : Slice) :
    (s.setSlice i x).resp = s.resp := rfl
@[simp] theorem State.setSlice_pending (s : State) (i : Nat) (x : Slice) :
    (s.setSlice i x).pending = s.pending := rfl

@[simp] theorem State.updSlice_time (s : State) (i : Nat) (f : Slice → Slice) :
    (s.updSlice i f).time = s.time := rfl
@[simp] theorem State.updSlice_ticks (s : State) (i : Nat) (f : Slice → Slice) :
    (s.updSlice i f).ticks = s.ticks := rfl
@[simp] theorem State.updSlice_rate (s : State) (i : Nat) (f : Slice → Slice) :
    (s.updSlice i f).rate = s.rate := rfl
@[simp] theorem State.updSlice_cells (s : State) (i : Nat) (f : Slice → Slice) :
    (s.updSlice i f).cells = s.cells := rfl
@[simp] theorem State.updSlice_latches (s : State) (i : Nat) (f : Slice → Slice) :
    (s.updSlice i f).latches = s.latches := rfl
@[simp] theorem State.updSlice_hif (s : State) (i : Nat) (f : Slice → Slice) :
    (s.updSlice i f).hif = s.hif := rfl
@[simp] theorem State.updSlice_cmds (s : State) (i : Nat) (f : Slice → Slice) :
    (s.updSlice i f).cmds = s.cmds := rfl
@[simp] theorem State.updSlice_haul (s : State) (i : Nat) (f : Slice → Slice) :
    (s.updSlice i f).haul = s.haul := rfl
@[simp] theorem State.updSlice_outs (s : State) (i : Nat) (f : Slice → Slice) :
    (s.updSlice i f).outs = s.outs := rfl
@[simp] theorem State.updSlice_lyr (s : State) (i : Nat) (f : Slice → Slice) :
    (s.updSlice i f).lyr = s.lyr := rfl
@[simp] theorem State.updSlice_lyrSnap (s : State) (i : Nat) (f : Slice → Slice) :
    (s.updSlice i f).lyrSnap = s.lyrSnap := rfl
@[simp] theorem State.updSlice_csr (s : State) (i : Nat) (f : Slice → Slice) :
    (s.updSlice i f).csr = s.csr := rfl
@[simp] theorem State.updSlice_cvu (s : State) (i : Nat) (f : Slice → Slice) :
    (s.updSlice i f).cvu = s.cvu := rfl
@[simp] theorem State.updSlice_floor (s : State) (i : Nat) (f : Slice → Slice) :
    (s.updSlice i f).floor = s.floor := rfl
@[simp] theorem State.updSlice_cvSnap (s : State) (i : Nat) (f : Slice → Slice) :
    (s.updSlice i f).cvSnap = s.cvSnap := rfl
@[simp] theorem State.updSlice_tch (s : State) (i : Nat) (f : Slice → Slice) :
    (s.updSlice i f).tch = s.tch := rfl
@[simp] theorem State.updSlice_reflexDirty (s : State) (i : Nat) (f : Slice → Slice) :
    (s.updSlice i f).reflexDirty = s.reflexDirty := rfl
@[simp] theorem State.updSlice_pwResync (s : State) (i : Nat) (f : Slice → Slice) :
    (s.updSlice i f).pwResync = s.pwResync := rfl
@[simp] theorem State.updSlice_hap (s : State) (i : Nat) (f : Slice → Slice) :
    (s.updSlice i f).hap = s.hap := rfl
@[simp] theorem State.updSlice_hapShared (s : State) (i : Nat) (f : Slice → Slice) :
    (s.updSlice i f).hapShared = s.hapShared := rfl
@[simp] theorem State.updSlice_hst (s : State) (i : Nat) (f : Slice → Slice) :
    (s.updSlice i f).hst = s.hst := rfl
@[simp] theorem State.updSlice_ast (s : State) (i : Nat) (f : Slice → Slice) :
    (s.updSlice i f).ast = s.ast := rfl
@[simp] theorem State.updSlice_tdm (s : State) (i : Nat) (f : Slice → Slice) :
    (s.updSlice i f).tdm = s.tdm := rfl
@[simp] theorem State.updSlice_wld (s : State) (i : Nat) (f : Slice → Slice) :
    (s.updSlice i f).wld = s.wld := rfl
@[simp] theorem State.updSlice_cic (s : State) (i : Nat) (f : Slice → Slice) :
    (s.updSlice i f).cic = s.cic := rfl
@[simp] theorem State.updSlice_dmc (s : State) (i : Nat) (f : Slice → Slice) :
    (s.updSlice i f).dmc = s.dmc := rfl
@[simp] theorem State.updSlice_reductions (s : State) (i : Nat) (f : Slice → Slice) :
    (s.updSlice i f).reductions = s.reductions := rfl
@[simp] theorem State.updSlice_clk (s : State) (i : Nat) (f : Slice → Slice) :
    (s.updSlice i f).clk = s.clk := rfl
@[simp] theorem State.updSlice_pair (s : State) (i : Nat) (f : Slice → Slice) :
    (s.updSlice i f).pair = s.pair := rfl
@[simp] theorem State.updSlice_pwr (s : State) (i : Nat) (f : Slice → Slice) :
    (s.updSlice i f).pwr = s.pwr := rfl
@[simp] theorem State.updSlice_mem (s : State) (i : Nat) (f : Slice → Slice) :
    (s.updSlice i f).mem = s.mem := rfl
@[simp] theorem State.updSlice_freeCtr (s : State) (i : Nat) (f : Slice → Slice) :
    (s.updSlice i f).freeCtr = s.freeCtr := rfl
@[simp] theorem State.updSlice_emits (s : State) (i : Nat) (f : Slice → Slice) :
    (s.updSlice i f).emits = s.emits := rfl
@[simp] theorem State.updSlice_resp (s : State) (i : Nat) (f : Slice → Slice) :
    (s.updSlice i f).resp = s.resp := rfl
@[simp] theorem State.updSlice_pending (s : State) (i : Nat) (f : Slice → Slice) :
    (s.updSlice i f).pending = s.pending := rfl

@[simp] theorem State.setSpace_time (s : State) (i : Nat) (x : CmdSpace) :
    (s.setSpace i x).time = s.time := rfl
@[simp] theorem State.setSpace_ticks (s : State) (i : Nat) (x : CmdSpace) :
    (s.setSpace i x).ticks = s.ticks := rfl
@[simp] theorem State.setSpace_rate (s : State) (i : Nat) (x : CmdSpace) :
    (s.setSpace i x).rate = s.rate := rfl
@[simp] theorem State.setSpace_cells (s : State) (i : Nat) (x : CmdSpace) :
    (s.setSpace i x).cells = s.cells := rfl
@[simp] theorem State.setSpace_latches (s : State) (i : Nat) (x : CmdSpace) :
    (s.setSpace i x).latches = s.latches := rfl
@[simp] theorem State.setSpace_hif (s : State) (i : Nat) (x : CmdSpace) :
    (s.setSpace i x).hif = s.hif := rfl
@[simp] theorem State.setSpace_slices (s : State) (i : Nat) (x : CmdSpace) :
    (s.setSpace i x).slices = s.slices := rfl
@[simp] theorem State.setSpace_haul (s : State) (i : Nat) (x : CmdSpace) :
    (s.setSpace i x).haul = s.haul := rfl
@[simp] theorem State.setSpace_outs (s : State) (i : Nat) (x : CmdSpace) :
    (s.setSpace i x).outs = s.outs := rfl
@[simp] theorem State.setSpace_lyr (s : State) (i : Nat) (x : CmdSpace) :
    (s.setSpace i x).lyr = s.lyr := rfl
@[simp] theorem State.setSpace_lyrSnap (s : State) (i : Nat) (x : CmdSpace) :
    (s.setSpace i x).lyrSnap = s.lyrSnap := rfl
@[simp] theorem State.setSpace_csr (s : State) (i : Nat) (x : CmdSpace) :
    (s.setSpace i x).csr = s.csr := rfl
@[simp] theorem State.setSpace_cvu (s : State) (i : Nat) (x : CmdSpace) :
    (s.setSpace i x).cvu = s.cvu := rfl
@[simp] theorem State.setSpace_floor (s : State) (i : Nat) (x : CmdSpace) :
    (s.setSpace i x).floor = s.floor := rfl
@[simp] theorem State.setSpace_cvSnap (s : State) (i : Nat) (x : CmdSpace) :
    (s.setSpace i x).cvSnap = s.cvSnap := rfl
@[simp] theorem State.setSpace_tch (s : State) (i : Nat) (x : CmdSpace) :
    (s.setSpace i x).tch = s.tch := rfl
@[simp] theorem State.setSpace_reflexDirty (s : State) (i : Nat) (x : CmdSpace) :
    (s.setSpace i x).reflexDirty = s.reflexDirty := rfl
@[simp] theorem State.setSpace_pwResync (s : State) (i : Nat) (x : CmdSpace) :
    (s.setSpace i x).pwResync = s.pwResync := rfl
@[simp] theorem State.setSpace_hap (s : State) (i : Nat) (x : CmdSpace) :
    (s.setSpace i x).hap = s.hap := rfl
@[simp] theorem State.setSpace_hapShared (s : State) (i : Nat) (x : CmdSpace) :
    (s.setSpace i x).hapShared = s.hapShared := rfl
@[simp] theorem State.setSpace_hst (s : State) (i : Nat) (x : CmdSpace) :
    (s.setSpace i x).hst = s.hst := rfl
@[simp] theorem State.setSpace_ast (s : State) (i : Nat) (x : CmdSpace) :
    (s.setSpace i x).ast = s.ast := rfl
@[simp] theorem State.setSpace_tdm (s : State) (i : Nat) (x : CmdSpace) :
    (s.setSpace i x).tdm = s.tdm := rfl
@[simp] theorem State.setSpace_wld (s : State) (i : Nat) (x : CmdSpace) :
    (s.setSpace i x).wld = s.wld := rfl
@[simp] theorem State.setSpace_cic (s : State) (i : Nat) (x : CmdSpace) :
    (s.setSpace i x).cic = s.cic := rfl
@[simp] theorem State.setSpace_dmc (s : State) (i : Nat) (x : CmdSpace) :
    (s.setSpace i x).dmc = s.dmc := rfl
@[simp] theorem State.setSpace_reductions (s : State) (i : Nat) (x : CmdSpace) :
    (s.setSpace i x).reductions = s.reductions := rfl
@[simp] theorem State.setSpace_clk (s : State) (i : Nat) (x : CmdSpace) :
    (s.setSpace i x).clk = s.clk := rfl
@[simp] theorem State.setSpace_pair (s : State) (i : Nat) (x : CmdSpace) :
    (s.setSpace i x).pair = s.pair := rfl
@[simp] theorem State.setSpace_pwr (s : State) (i : Nat) (x : CmdSpace) :
    (s.setSpace i x).pwr = s.pwr := rfl
@[simp] theorem State.setSpace_mem (s : State) (i : Nat) (x : CmdSpace) :
    (s.setSpace i x).mem = s.mem := rfl
@[simp] theorem State.setSpace_freeCtr (s : State) (i : Nat) (x : CmdSpace) :
    (s.setSpace i x).freeCtr = s.freeCtr := rfl
@[simp] theorem State.setSpace_emits (s : State) (i : Nat) (x : CmdSpace) :
    (s.setSpace i x).emits = s.emits := rfl
@[simp] theorem State.setSpace_resp (s : State) (i : Nat) (x : CmdSpace) :
    (s.setSpace i x).resp = s.resp := rfl
@[simp] theorem State.setSpace_pending (s : State) (i : Nat) (x : CmdSpace) :
    (s.setSpace i x).pending = s.pending := rfl

@[simp] theorem State.updSpace_time (s : State) (i : Nat) (f : CmdSpace → CmdSpace) :
    (s.updSpace i f).time = s.time := rfl
@[simp] theorem State.updSpace_ticks (s : State) (i : Nat) (f : CmdSpace → CmdSpace) :
    (s.updSpace i f).ticks = s.ticks := rfl
@[simp] theorem State.updSpace_rate (s : State) (i : Nat) (f : CmdSpace → CmdSpace) :
    (s.updSpace i f).rate = s.rate := rfl
@[simp] theorem State.updSpace_cells (s : State) (i : Nat) (f : CmdSpace → CmdSpace) :
    (s.updSpace i f).cells = s.cells := rfl
@[simp] theorem State.updSpace_latches (s : State) (i : Nat) (f : CmdSpace → CmdSpace) :
    (s.updSpace i f).latches = s.latches := rfl
@[simp] theorem State.updSpace_hif (s : State) (i : Nat) (f : CmdSpace → CmdSpace) :
    (s.updSpace i f).hif = s.hif := rfl
@[simp] theorem State.updSpace_slices (s : State) (i : Nat) (f : CmdSpace → CmdSpace) :
    (s.updSpace i f).slices = s.slices := rfl
@[simp] theorem State.updSpace_haul (s : State) (i : Nat) (f : CmdSpace → CmdSpace) :
    (s.updSpace i f).haul = s.haul := rfl
@[simp] theorem State.updSpace_outs (s : State) (i : Nat) (f : CmdSpace → CmdSpace) :
    (s.updSpace i f).outs = s.outs := rfl
@[simp] theorem State.updSpace_lyr (s : State) (i : Nat) (f : CmdSpace → CmdSpace) :
    (s.updSpace i f).lyr = s.lyr := rfl
@[simp] theorem State.updSpace_lyrSnap (s : State) (i : Nat) (f : CmdSpace → CmdSpace) :
    (s.updSpace i f).lyrSnap = s.lyrSnap := rfl
@[simp] theorem State.updSpace_csr (s : State) (i : Nat) (f : CmdSpace → CmdSpace) :
    (s.updSpace i f).csr = s.csr := rfl
@[simp] theorem State.updSpace_cvu (s : State) (i : Nat) (f : CmdSpace → CmdSpace) :
    (s.updSpace i f).cvu = s.cvu := rfl
@[simp] theorem State.updSpace_floor (s : State) (i : Nat) (f : CmdSpace → CmdSpace) :
    (s.updSpace i f).floor = s.floor := rfl
@[simp] theorem State.updSpace_cvSnap (s : State) (i : Nat) (f : CmdSpace → CmdSpace) :
    (s.updSpace i f).cvSnap = s.cvSnap := rfl
@[simp] theorem State.updSpace_tch (s : State) (i : Nat) (f : CmdSpace → CmdSpace) :
    (s.updSpace i f).tch = s.tch := rfl
@[simp] theorem State.updSpace_reflexDirty (s : State) (i : Nat) (f : CmdSpace → CmdSpace) :
    (s.updSpace i f).reflexDirty = s.reflexDirty := rfl
@[simp] theorem State.updSpace_pwResync (s : State) (i : Nat) (f : CmdSpace → CmdSpace) :
    (s.updSpace i f).pwResync = s.pwResync := rfl
@[simp] theorem State.updSpace_hap (s : State) (i : Nat) (f : CmdSpace → CmdSpace) :
    (s.updSpace i f).hap = s.hap := rfl
@[simp] theorem State.updSpace_hapShared (s : State) (i : Nat) (f : CmdSpace → CmdSpace) :
    (s.updSpace i f).hapShared = s.hapShared := rfl
@[simp] theorem State.updSpace_hst (s : State) (i : Nat) (f : CmdSpace → CmdSpace) :
    (s.updSpace i f).hst = s.hst := rfl
@[simp] theorem State.updSpace_ast (s : State) (i : Nat) (f : CmdSpace → CmdSpace) :
    (s.updSpace i f).ast = s.ast := rfl
@[simp] theorem State.updSpace_tdm (s : State) (i : Nat) (f : CmdSpace → CmdSpace) :
    (s.updSpace i f).tdm = s.tdm := rfl
@[simp] theorem State.updSpace_wld (s : State) (i : Nat) (f : CmdSpace → CmdSpace) :
    (s.updSpace i f).wld = s.wld := rfl
@[simp] theorem State.updSpace_cic (s : State) (i : Nat) (f : CmdSpace → CmdSpace) :
    (s.updSpace i f).cic = s.cic := rfl
@[simp] theorem State.updSpace_dmc (s : State) (i : Nat) (f : CmdSpace → CmdSpace) :
    (s.updSpace i f).dmc = s.dmc := rfl
@[simp] theorem State.updSpace_reductions (s : State) (i : Nat) (f : CmdSpace → CmdSpace) :
    (s.updSpace i f).reductions = s.reductions := rfl
@[simp] theorem State.updSpace_clk (s : State) (i : Nat) (f : CmdSpace → CmdSpace) :
    (s.updSpace i f).clk = s.clk := rfl
@[simp] theorem State.updSpace_pair (s : State) (i : Nat) (f : CmdSpace → CmdSpace) :
    (s.updSpace i f).pair = s.pair := rfl
@[simp] theorem State.updSpace_pwr (s : State) (i : Nat) (f : CmdSpace → CmdSpace) :
    (s.updSpace i f).pwr = s.pwr := rfl
@[simp] theorem State.updSpace_mem (s : State) (i : Nat) (f : CmdSpace → CmdSpace) :
    (s.updSpace i f).mem = s.mem := rfl
@[simp] theorem State.updSpace_freeCtr (s : State) (i : Nat) (f : CmdSpace → CmdSpace) :
    (s.updSpace i f).freeCtr = s.freeCtr := rfl
@[simp] theorem State.updSpace_emits (s : State) (i : Nat) (f : CmdSpace → CmdSpace) :
    (s.updSpace i f).emits = s.emits := rfl
@[simp] theorem State.updSpace_resp (s : State) (i : Nat) (f : CmdSpace → CmdSpace) :
    (s.updSpace i f).resp = s.resp := rfl
@[simp] theorem State.updSpace_pending (s : State) (i : Nat) (f : CmdSpace → CmdSpace) :
    (s.updSpace i f).pending = s.pending := rfl

@[simp] theorem State.setOut_time (s : State) (i : Nat) (x : OutSt) :
    (s.setOut i x).time = s.time := rfl
@[simp] theorem State.setOut_ticks (s : State) (i : Nat) (x : OutSt) :
    (s.setOut i x).ticks = s.ticks := rfl
@[simp] theorem State.setOut_rate (s : State) (i : Nat) (x : OutSt) :
    (s.setOut i x).rate = s.rate := rfl
@[simp] theorem State.setOut_cells (s : State) (i : Nat) (x : OutSt) :
    (s.setOut i x).cells = s.cells := rfl
@[simp] theorem State.setOut_latches (s : State) (i : Nat) (x : OutSt) :
    (s.setOut i x).latches = s.latches := rfl
@[simp] theorem State.setOut_hif (s : State) (i : Nat) (x : OutSt) :
    (s.setOut i x).hif = s.hif := rfl
@[simp] theorem State.setOut_cmds (s : State) (i : Nat) (x : OutSt) :
    (s.setOut i x).cmds = s.cmds := rfl
@[simp] theorem State.setOut_slices (s : State) (i : Nat) (x : OutSt) :
    (s.setOut i x).slices = s.slices := rfl
@[simp] theorem State.setOut_haul (s : State) (i : Nat) (x : OutSt) :
    (s.setOut i x).haul = s.haul := rfl
@[simp] theorem State.setOut_lyr (s : State) (i : Nat) (x : OutSt) :
    (s.setOut i x).lyr = s.lyr := rfl
@[simp] theorem State.setOut_lyrSnap (s : State) (i : Nat) (x : OutSt) :
    (s.setOut i x).lyrSnap = s.lyrSnap := rfl
@[simp] theorem State.setOut_csr (s : State) (i : Nat) (x : OutSt) :
    (s.setOut i x).csr = s.csr := rfl
@[simp] theorem State.setOut_cvu (s : State) (i : Nat) (x : OutSt) :
    (s.setOut i x).cvu = s.cvu := rfl
@[simp] theorem State.setOut_floor (s : State) (i : Nat) (x : OutSt) :
    (s.setOut i x).floor = s.floor := rfl
@[simp] theorem State.setOut_cvSnap (s : State) (i : Nat) (x : OutSt) :
    (s.setOut i x).cvSnap = s.cvSnap := rfl
@[simp] theorem State.setOut_tch (s : State) (i : Nat) (x : OutSt) :
    (s.setOut i x).tch = s.tch := rfl
@[simp] theorem State.setOut_reflexDirty (s : State) (i : Nat) (x : OutSt) :
    (s.setOut i x).reflexDirty = s.reflexDirty := rfl
@[simp] theorem State.setOut_pwResync (s : State) (i : Nat) (x : OutSt) :
    (s.setOut i x).pwResync = s.pwResync := rfl
@[simp] theorem State.setOut_hap (s : State) (i : Nat) (x : OutSt) :
    (s.setOut i x).hap = s.hap := rfl
@[simp] theorem State.setOut_hapShared (s : State) (i : Nat) (x : OutSt) :
    (s.setOut i x).hapShared = s.hapShared := rfl
@[simp] theorem State.setOut_hst (s : State) (i : Nat) (x : OutSt) :
    (s.setOut i x).hst = s.hst := rfl
@[simp] theorem State.setOut_ast (s : State) (i : Nat) (x : OutSt) :
    (s.setOut i x).ast = s.ast := rfl
@[simp] theorem State.setOut_tdm (s : State) (i : Nat) (x : OutSt) :
    (s.setOut i x).tdm = s.tdm := rfl
@[simp] theorem State.setOut_wld (s : State) (i : Nat) (x : OutSt) :
    (s.setOut i x).wld = s.wld := rfl
@[simp] theorem State.setOut_cic (s : State) (i : Nat) (x : OutSt) :
    (s.setOut i x).cic = s.cic := rfl
@[simp] theorem State.setOut_dmc (s : State) (i : Nat) (x : OutSt) :
    (s.setOut i x).dmc = s.dmc := rfl
@[simp] theorem State.setOut_reductions (s : State) (i : Nat) (x : OutSt) :
    (s.setOut i x).reductions = s.reductions := rfl
@[simp] theorem State.setOut_clk (s : State) (i : Nat) (x : OutSt) :
    (s.setOut i x).clk = s.clk := rfl
@[simp] theorem State.setOut_pair (s : State) (i : Nat) (x : OutSt) :
    (s.setOut i x).pair = s.pair := rfl
@[simp] theorem State.setOut_pwr (s : State) (i : Nat) (x : OutSt) :
    (s.setOut i x).pwr = s.pwr := rfl
@[simp] theorem State.setOut_mem (s : State) (i : Nat) (x : OutSt) :
    (s.setOut i x).mem = s.mem := rfl
@[simp] theorem State.setOut_freeCtr (s : State) (i : Nat) (x : OutSt) :
    (s.setOut i x).freeCtr = s.freeCtr := rfl
@[simp] theorem State.setOut_emits (s : State) (i : Nat) (x : OutSt) :
    (s.setOut i x).emits = s.emits := rfl
@[simp] theorem State.setOut_resp (s : State) (i : Nat) (x : OutSt) :
    (s.setOut i x).resp = s.resp := rfl
@[simp] theorem State.setOut_pending (s : State) (i : Nat) (x : OutSt) :
    (s.setOut i x).pending = s.pending := rfl

@[simp] theorem State.updOut_time (s : State) (i : Nat) (f : OutSt → OutSt) :
    (s.updOut i f).time = s.time := rfl
@[simp] theorem State.updOut_ticks (s : State) (i : Nat) (f : OutSt → OutSt) :
    (s.updOut i f).ticks = s.ticks := rfl
@[simp] theorem State.updOut_rate (s : State) (i : Nat) (f : OutSt → OutSt) :
    (s.updOut i f).rate = s.rate := rfl
@[simp] theorem State.updOut_cells (s : State) (i : Nat) (f : OutSt → OutSt) :
    (s.updOut i f).cells = s.cells := rfl
@[simp] theorem State.updOut_latches (s : State) (i : Nat) (f : OutSt → OutSt) :
    (s.updOut i f).latches = s.latches := rfl
@[simp] theorem State.updOut_hif (s : State) (i : Nat) (f : OutSt → OutSt) :
    (s.updOut i f).hif = s.hif := rfl
@[simp] theorem State.updOut_cmds (s : State) (i : Nat) (f : OutSt → OutSt) :
    (s.updOut i f).cmds = s.cmds := rfl
@[simp] theorem State.updOut_slices (s : State) (i : Nat) (f : OutSt → OutSt) :
    (s.updOut i f).slices = s.slices := rfl
@[simp] theorem State.updOut_haul (s : State) (i : Nat) (f : OutSt → OutSt) :
    (s.updOut i f).haul = s.haul := rfl
@[simp] theorem State.updOut_lyr (s : State) (i : Nat) (f : OutSt → OutSt) :
    (s.updOut i f).lyr = s.lyr := rfl
@[simp] theorem State.updOut_lyrSnap (s : State) (i : Nat) (f : OutSt → OutSt) :
    (s.updOut i f).lyrSnap = s.lyrSnap := rfl
@[simp] theorem State.updOut_csr (s : State) (i : Nat) (f : OutSt → OutSt) :
    (s.updOut i f).csr = s.csr := rfl
@[simp] theorem State.updOut_cvu (s : State) (i : Nat) (f : OutSt → OutSt) :
    (s.updOut i f).cvu = s.cvu := rfl
@[simp] theorem State.updOut_floor (s : State) (i : Nat) (f : OutSt → OutSt) :
    (s.updOut i f).floor = s.floor := rfl
@[simp] theorem State.updOut_cvSnap (s : State) (i : Nat) (f : OutSt → OutSt) :
    (s.updOut i f).cvSnap = s.cvSnap := rfl
@[simp] theorem State.updOut_tch (s : State) (i : Nat) (f : OutSt → OutSt) :
    (s.updOut i f).tch = s.tch := rfl
@[simp] theorem State.updOut_reflexDirty (s : State) (i : Nat) (f : OutSt → OutSt) :
    (s.updOut i f).reflexDirty = s.reflexDirty := rfl
@[simp] theorem State.updOut_pwResync (s : State) (i : Nat) (f : OutSt → OutSt) :
    (s.updOut i f).pwResync = s.pwResync := rfl
@[simp] theorem State.updOut_hap (s : State) (i : Nat) (f : OutSt → OutSt) :
    (s.updOut i f).hap = s.hap := rfl
@[simp] theorem State.updOut_hapShared (s : State) (i : Nat) (f : OutSt → OutSt) :
    (s.updOut i f).hapShared = s.hapShared := rfl
@[simp] theorem State.updOut_hst (s : State) (i : Nat) (f : OutSt → OutSt) :
    (s.updOut i f).hst = s.hst := rfl
@[simp] theorem State.updOut_ast (s : State) (i : Nat) (f : OutSt → OutSt) :
    (s.updOut i f).ast = s.ast := rfl
@[simp] theorem State.updOut_tdm (s : State) (i : Nat) (f : OutSt → OutSt) :
    (s.updOut i f).tdm = s.tdm := rfl
@[simp] theorem State.updOut_wld (s : State) (i : Nat) (f : OutSt → OutSt) :
    (s.updOut i f).wld = s.wld := rfl
@[simp] theorem State.updOut_cic (s : State) (i : Nat) (f : OutSt → OutSt) :
    (s.updOut i f).cic = s.cic := rfl
@[simp] theorem State.updOut_dmc (s : State) (i : Nat) (f : OutSt → OutSt) :
    (s.updOut i f).dmc = s.dmc := rfl
@[simp] theorem State.updOut_reductions (s : State) (i : Nat) (f : OutSt → OutSt) :
    (s.updOut i f).reductions = s.reductions := rfl
@[simp] theorem State.updOut_clk (s : State) (i : Nat) (f : OutSt → OutSt) :
    (s.updOut i f).clk = s.clk := rfl
@[simp] theorem State.updOut_pair (s : State) (i : Nat) (f : OutSt → OutSt) :
    (s.updOut i f).pair = s.pair := rfl
@[simp] theorem State.updOut_pwr (s : State) (i : Nat) (f : OutSt → OutSt) :
    (s.updOut i f).pwr = s.pwr := rfl
@[simp] theorem State.updOut_mem (s : State) (i : Nat) (f : OutSt → OutSt) :
    (s.updOut i f).mem = s.mem := rfl
@[simp] theorem State.updOut_freeCtr (s : State) (i : Nat) (f : OutSt → OutSt) :
    (s.updOut i f).freeCtr = s.freeCtr := rfl
@[simp] theorem State.updOut_emits (s : State) (i : Nat) (f : OutSt → OutSt) :
    (s.updOut i f).emits = s.emits := rfl
@[simp] theorem State.updOut_resp (s : State) (i : Nat) (f : OutSt → OutSt) :
    (s.updOut i f).resp = s.resp := rfl
@[simp] theorem State.updOut_pending (s : State) (i : Nat) (f : OutSt → OutSt) :
    (s.updOut i f).pending = s.pending := rfl

@[simp] theorem State.setLayer_time (s : State) (i : Nat) (x : LyrSt) :
    (s.setLayer i x).time = s.time := rfl
@[simp] theorem State.setLayer_ticks (s : State) (i : Nat) (x : LyrSt) :
    (s.setLayer i x).ticks = s.ticks := rfl
@[simp] theorem State.setLayer_rate (s : State) (i : Nat) (x : LyrSt) :
    (s.setLayer i x).rate = s.rate := rfl
@[simp] theorem State.setLayer_cells (s : State) (i : Nat) (x : LyrSt) :
    (s.setLayer i x).cells = s.cells := rfl
@[simp] theorem State.setLayer_latches (s : State) (i : Nat) (x : LyrSt) :
    (s.setLayer i x).latches = s.latches := rfl
@[simp] theorem State.setLayer_hif (s : State) (i : Nat) (x : LyrSt) :
    (s.setLayer i x).hif = s.hif := rfl
@[simp] theorem State.setLayer_cmds (s : State) (i : Nat) (x : LyrSt) :
    (s.setLayer i x).cmds = s.cmds := rfl
@[simp] theorem State.setLayer_slices (s : State) (i : Nat) (x : LyrSt) :
    (s.setLayer i x).slices = s.slices := rfl
@[simp] theorem State.setLayer_haul (s : State) (i : Nat) (x : LyrSt) :
    (s.setLayer i x).haul = s.haul := rfl
@[simp] theorem State.setLayer_outs (s : State) (i : Nat) (x : LyrSt) :
    (s.setLayer i x).outs = s.outs := rfl
@[simp] theorem State.setLayer_lyrSnap (s : State) (i : Nat) (x : LyrSt) :
    (s.setLayer i x).lyrSnap = s.lyrSnap := rfl
@[simp] theorem State.setLayer_csr (s : State) (i : Nat) (x : LyrSt) :
    (s.setLayer i x).csr = s.csr := rfl
@[simp] theorem State.setLayer_cvu (s : State) (i : Nat) (x : LyrSt) :
    (s.setLayer i x).cvu = s.cvu := rfl
@[simp] theorem State.setLayer_floor (s : State) (i : Nat) (x : LyrSt) :
    (s.setLayer i x).floor = s.floor := rfl
@[simp] theorem State.setLayer_cvSnap (s : State) (i : Nat) (x : LyrSt) :
    (s.setLayer i x).cvSnap = s.cvSnap := rfl
@[simp] theorem State.setLayer_tch (s : State) (i : Nat) (x : LyrSt) :
    (s.setLayer i x).tch = s.tch := rfl
@[simp] theorem State.setLayer_reflexDirty (s : State) (i : Nat) (x : LyrSt) :
    (s.setLayer i x).reflexDirty = s.reflexDirty := rfl
@[simp] theorem State.setLayer_pwResync (s : State) (i : Nat) (x : LyrSt) :
    (s.setLayer i x).pwResync = s.pwResync := rfl
@[simp] theorem State.setLayer_hap (s : State) (i : Nat) (x : LyrSt) :
    (s.setLayer i x).hap = s.hap := rfl
@[simp] theorem State.setLayer_hapShared (s : State) (i : Nat) (x : LyrSt) :
    (s.setLayer i x).hapShared = s.hapShared := rfl
@[simp] theorem State.setLayer_hst (s : State) (i : Nat) (x : LyrSt) :
    (s.setLayer i x).hst = s.hst := rfl
@[simp] theorem State.setLayer_ast (s : State) (i : Nat) (x : LyrSt) :
    (s.setLayer i x).ast = s.ast := rfl
@[simp] theorem State.setLayer_tdm (s : State) (i : Nat) (x : LyrSt) :
    (s.setLayer i x).tdm = s.tdm := rfl
@[simp] theorem State.setLayer_wld (s : State) (i : Nat) (x : LyrSt) :
    (s.setLayer i x).wld = s.wld := rfl
@[simp] theorem State.setLayer_cic (s : State) (i : Nat) (x : LyrSt) :
    (s.setLayer i x).cic = s.cic := rfl
@[simp] theorem State.setLayer_dmc (s : State) (i : Nat) (x : LyrSt) :
    (s.setLayer i x).dmc = s.dmc := rfl
@[simp] theorem State.setLayer_reductions (s : State) (i : Nat) (x : LyrSt) :
    (s.setLayer i x).reductions = s.reductions := rfl
@[simp] theorem State.setLayer_clk (s : State) (i : Nat) (x : LyrSt) :
    (s.setLayer i x).clk = s.clk := rfl
@[simp] theorem State.setLayer_pair (s : State) (i : Nat) (x : LyrSt) :
    (s.setLayer i x).pair = s.pair := rfl
@[simp] theorem State.setLayer_pwr (s : State) (i : Nat) (x : LyrSt) :
    (s.setLayer i x).pwr = s.pwr := rfl
@[simp] theorem State.setLayer_mem (s : State) (i : Nat) (x : LyrSt) :
    (s.setLayer i x).mem = s.mem := rfl
@[simp] theorem State.setLayer_freeCtr (s : State) (i : Nat) (x : LyrSt) :
    (s.setLayer i x).freeCtr = s.freeCtr := rfl
@[simp] theorem State.setLayer_emits (s : State) (i : Nat) (x : LyrSt) :
    (s.setLayer i x).emits = s.emits := rfl
@[simp] theorem State.setLayer_resp (s : State) (i : Nat) (x : LyrSt) :
    (s.setLayer i x).resp = s.resp := rfl
@[simp] theorem State.setLayer_pending (s : State) (i : Nat) (x : LyrSt) :
    (s.setLayer i x).pending = s.pending := rfl

@[simp] theorem State.updLayer_time (s : State) (i : Nat) (f : LyrSt → LyrSt) :
    (s.updLayer i f).time = s.time := rfl
@[simp] theorem State.updLayer_ticks (s : State) (i : Nat) (f : LyrSt → LyrSt) :
    (s.updLayer i f).ticks = s.ticks := rfl
@[simp] theorem State.updLayer_rate (s : State) (i : Nat) (f : LyrSt → LyrSt) :
    (s.updLayer i f).rate = s.rate := rfl
@[simp] theorem State.updLayer_cells (s : State) (i : Nat) (f : LyrSt → LyrSt) :
    (s.updLayer i f).cells = s.cells := rfl
@[simp] theorem State.updLayer_latches (s : State) (i : Nat) (f : LyrSt → LyrSt) :
    (s.updLayer i f).latches = s.latches := rfl
@[simp] theorem State.updLayer_hif (s : State) (i : Nat) (f : LyrSt → LyrSt) :
    (s.updLayer i f).hif = s.hif := rfl
@[simp] theorem State.updLayer_cmds (s : State) (i : Nat) (f : LyrSt → LyrSt) :
    (s.updLayer i f).cmds = s.cmds := rfl
@[simp] theorem State.updLayer_slices (s : State) (i : Nat) (f : LyrSt → LyrSt) :
    (s.updLayer i f).slices = s.slices := rfl
@[simp] theorem State.updLayer_haul (s : State) (i : Nat) (f : LyrSt → LyrSt) :
    (s.updLayer i f).haul = s.haul := rfl
@[simp] theorem State.updLayer_outs (s : State) (i : Nat) (f : LyrSt → LyrSt) :
    (s.updLayer i f).outs = s.outs := rfl
@[simp] theorem State.updLayer_lyrSnap (s : State) (i : Nat) (f : LyrSt → LyrSt) :
    (s.updLayer i f).lyrSnap = s.lyrSnap := rfl
@[simp] theorem State.updLayer_csr (s : State) (i : Nat) (f : LyrSt → LyrSt) :
    (s.updLayer i f).csr = s.csr := rfl
@[simp] theorem State.updLayer_cvu (s : State) (i : Nat) (f : LyrSt → LyrSt) :
    (s.updLayer i f).cvu = s.cvu := rfl
@[simp] theorem State.updLayer_floor (s : State) (i : Nat) (f : LyrSt → LyrSt) :
    (s.updLayer i f).floor = s.floor := rfl
@[simp] theorem State.updLayer_cvSnap (s : State) (i : Nat) (f : LyrSt → LyrSt) :
    (s.updLayer i f).cvSnap = s.cvSnap := rfl
@[simp] theorem State.updLayer_tch (s : State) (i : Nat) (f : LyrSt → LyrSt) :
    (s.updLayer i f).tch = s.tch := rfl
@[simp] theorem State.updLayer_reflexDirty (s : State) (i : Nat) (f : LyrSt → LyrSt) :
    (s.updLayer i f).reflexDirty = s.reflexDirty := rfl
@[simp] theorem State.updLayer_pwResync (s : State) (i : Nat) (f : LyrSt → LyrSt) :
    (s.updLayer i f).pwResync = s.pwResync := rfl
@[simp] theorem State.updLayer_hap (s : State) (i : Nat) (f : LyrSt → LyrSt) :
    (s.updLayer i f).hap = s.hap := rfl
@[simp] theorem State.updLayer_hapShared (s : State) (i : Nat) (f : LyrSt → LyrSt) :
    (s.updLayer i f).hapShared = s.hapShared := rfl
@[simp] theorem State.updLayer_hst (s : State) (i : Nat) (f : LyrSt → LyrSt) :
    (s.updLayer i f).hst = s.hst := rfl
@[simp] theorem State.updLayer_ast (s : State) (i : Nat) (f : LyrSt → LyrSt) :
    (s.updLayer i f).ast = s.ast := rfl
@[simp] theorem State.updLayer_tdm (s : State) (i : Nat) (f : LyrSt → LyrSt) :
    (s.updLayer i f).tdm = s.tdm := rfl
@[simp] theorem State.updLayer_wld (s : State) (i : Nat) (f : LyrSt → LyrSt) :
    (s.updLayer i f).wld = s.wld := rfl
@[simp] theorem State.updLayer_cic (s : State) (i : Nat) (f : LyrSt → LyrSt) :
    (s.updLayer i f).cic = s.cic := rfl
@[simp] theorem State.updLayer_dmc (s : State) (i : Nat) (f : LyrSt → LyrSt) :
    (s.updLayer i f).dmc = s.dmc := rfl
@[simp] theorem State.updLayer_reductions (s : State) (i : Nat) (f : LyrSt → LyrSt) :
    (s.updLayer i f).reductions = s.reductions := rfl
@[simp] theorem State.updLayer_clk (s : State) (i : Nat) (f : LyrSt → LyrSt) :
    (s.updLayer i f).clk = s.clk := rfl
@[simp] theorem State.updLayer_pair (s : State) (i : Nat) (f : LyrSt → LyrSt) :
    (s.updLayer i f).pair = s.pair := rfl
@[simp] theorem State.updLayer_pwr (s : State) (i : Nat) (f : LyrSt → LyrSt) :
    (s.updLayer i f).pwr = s.pwr := rfl
@[simp] theorem State.updLayer_mem (s : State) (i : Nat) (f : LyrSt → LyrSt) :
    (s.updLayer i f).mem = s.mem := rfl
@[simp] theorem State.updLayer_freeCtr (s : State) (i : Nat) (f : LyrSt → LyrSt) :
    (s.updLayer i f).freeCtr = s.freeCtr := rfl
@[simp] theorem State.updLayer_emits (s : State) (i : Nat) (f : LyrSt → LyrSt) :
    (s.updLayer i f).emits = s.emits := rfl
@[simp] theorem State.updLayer_resp (s : State) (i : Nat) (f : LyrSt → LyrSt) :
    (s.updLayer i f).resp = s.resp := rfl
@[simp] theorem State.updLayer_pending (s : State) (i : Nat) (f : LyrSt → LyrSt) :
    (s.updLayer i f).pending = s.pending := rfl

@[simp] theorem State.setRegion_time (s : State) (i : Nat) (x : CsrSt) :
    (s.setRegion i x).time = s.time := rfl
@[simp] theorem State.setRegion_ticks (s : State) (i : Nat) (x : CsrSt) :
    (s.setRegion i x).ticks = s.ticks := rfl
@[simp] theorem State.setRegion_rate (s : State) (i : Nat) (x : CsrSt) :
    (s.setRegion i x).rate = s.rate := rfl
@[simp] theorem State.setRegion_cells (s : State) (i : Nat) (x : CsrSt) :
    (s.setRegion i x).cells = s.cells := rfl
@[simp] theorem State.setRegion_latches (s : State) (i : Nat) (x : CsrSt) :
    (s.setRegion i x).latches = s.latches := rfl
@[simp] theorem State.setRegion_hif (s : State) (i : Nat) (x : CsrSt) :
    (s.setRegion i x).hif = s.hif := rfl
@[simp] theorem State.setRegion_cmds (s : State) (i : Nat) (x : CsrSt) :
    (s.setRegion i x).cmds = s.cmds := rfl
@[simp] theorem State.setRegion_slices (s : State) (i : Nat) (x : CsrSt) :
    (s.setRegion i x).slices = s.slices := rfl
@[simp] theorem State.setRegion_haul (s : State) (i : Nat) (x : CsrSt) :
    (s.setRegion i x).haul = s.haul := rfl
@[simp] theorem State.setRegion_outs (s : State) (i : Nat) (x : CsrSt) :
    (s.setRegion i x).outs = s.outs := rfl
@[simp] theorem State.setRegion_lyr (s : State) (i : Nat) (x : CsrSt) :
    (s.setRegion i x).lyr = s.lyr := rfl
@[simp] theorem State.setRegion_lyrSnap (s : State) (i : Nat) (x : CsrSt) :
    (s.setRegion i x).lyrSnap = s.lyrSnap := rfl
@[simp] theorem State.setRegion_cvu (s : State) (i : Nat) (x : CsrSt) :
    (s.setRegion i x).cvu = s.cvu := rfl
@[simp] theorem State.setRegion_floor (s : State) (i : Nat) (x : CsrSt) :
    (s.setRegion i x).floor = s.floor := rfl
@[simp] theorem State.setRegion_cvSnap (s : State) (i : Nat) (x : CsrSt) :
    (s.setRegion i x).cvSnap = s.cvSnap := rfl
@[simp] theorem State.setRegion_tch (s : State) (i : Nat) (x : CsrSt) :
    (s.setRegion i x).tch = s.tch := rfl
@[simp] theorem State.setRegion_reflexDirty (s : State) (i : Nat) (x : CsrSt) :
    (s.setRegion i x).reflexDirty = s.reflexDirty := rfl
@[simp] theorem State.setRegion_pwResync (s : State) (i : Nat) (x : CsrSt) :
    (s.setRegion i x).pwResync = s.pwResync := rfl
@[simp] theorem State.setRegion_hap (s : State) (i : Nat) (x : CsrSt) :
    (s.setRegion i x).hap = s.hap := rfl
@[simp] theorem State.setRegion_hapShared (s : State) (i : Nat) (x : CsrSt) :
    (s.setRegion i x).hapShared = s.hapShared := rfl
@[simp] theorem State.setRegion_hst (s : State) (i : Nat) (x : CsrSt) :
    (s.setRegion i x).hst = s.hst := rfl
@[simp] theorem State.setRegion_ast (s : State) (i : Nat) (x : CsrSt) :
    (s.setRegion i x).ast = s.ast := rfl
@[simp] theorem State.setRegion_tdm (s : State) (i : Nat) (x : CsrSt) :
    (s.setRegion i x).tdm = s.tdm := rfl
@[simp] theorem State.setRegion_wld (s : State) (i : Nat) (x : CsrSt) :
    (s.setRegion i x).wld = s.wld := rfl
@[simp] theorem State.setRegion_cic (s : State) (i : Nat) (x : CsrSt) :
    (s.setRegion i x).cic = s.cic := rfl
@[simp] theorem State.setRegion_dmc (s : State) (i : Nat) (x : CsrSt) :
    (s.setRegion i x).dmc = s.dmc := rfl
@[simp] theorem State.setRegion_reductions (s : State) (i : Nat) (x : CsrSt) :
    (s.setRegion i x).reductions = s.reductions := rfl
@[simp] theorem State.setRegion_clk (s : State) (i : Nat) (x : CsrSt) :
    (s.setRegion i x).clk = s.clk := rfl
@[simp] theorem State.setRegion_pair (s : State) (i : Nat) (x : CsrSt) :
    (s.setRegion i x).pair = s.pair := rfl
@[simp] theorem State.setRegion_pwr (s : State) (i : Nat) (x : CsrSt) :
    (s.setRegion i x).pwr = s.pwr := rfl
@[simp] theorem State.setRegion_mem (s : State) (i : Nat) (x : CsrSt) :
    (s.setRegion i x).mem = s.mem := rfl
@[simp] theorem State.setRegion_freeCtr (s : State) (i : Nat) (x : CsrSt) :
    (s.setRegion i x).freeCtr = s.freeCtr := rfl
@[simp] theorem State.setRegion_emits (s : State) (i : Nat) (x : CsrSt) :
    (s.setRegion i x).emits = s.emits := rfl
@[simp] theorem State.setRegion_resp (s : State) (i : Nat) (x : CsrSt) :
    (s.setRegion i x).resp = s.resp := rfl
@[simp] theorem State.setRegion_pending (s : State) (i : Nat) (x : CsrSt) :
    (s.setRegion i x).pending = s.pending := rfl

@[simp] theorem State.setPanel_time (s : State) (i : Nat) (x : TchSt) :
    (s.setPanel i x).time = s.time := rfl
@[simp] theorem State.setPanel_ticks (s : State) (i : Nat) (x : TchSt) :
    (s.setPanel i x).ticks = s.ticks := rfl
@[simp] theorem State.setPanel_rate (s : State) (i : Nat) (x : TchSt) :
    (s.setPanel i x).rate = s.rate := rfl
@[simp] theorem State.setPanel_cells (s : State) (i : Nat) (x : TchSt) :
    (s.setPanel i x).cells = s.cells := rfl
@[simp] theorem State.setPanel_latches (s : State) (i : Nat) (x : TchSt) :
    (s.setPanel i x).latches = s.latches := rfl
@[simp] theorem State.setPanel_hif (s : State) (i : Nat) (x : TchSt) :
    (s.setPanel i x).hif = s.hif := rfl
@[simp] theorem State.setPanel_cmds (s : State) (i : Nat) (x : TchSt) :
    (s.setPanel i x).cmds = s.cmds := rfl
@[simp] theorem State.setPanel_slices (s : State) (i : Nat) (x : TchSt) :
    (s.setPanel i x).slices = s.slices := rfl
@[simp] theorem State.setPanel_haul (s : State) (i : Nat) (x : TchSt) :
    (s.setPanel i x).haul = s.haul := rfl
@[simp] theorem State.setPanel_outs (s : State) (i : Nat) (x : TchSt) :
    (s.setPanel i x).outs = s.outs := rfl
@[simp] theorem State.setPanel_lyr (s : State) (i : Nat) (x : TchSt) :
    (s.setPanel i x).lyr = s.lyr := rfl
@[simp] theorem State.setPanel_lyrSnap (s : State) (i : Nat) (x : TchSt) :
    (s.setPanel i x).lyrSnap = s.lyrSnap := rfl
@[simp] theorem State.setPanel_csr (s : State) (i : Nat) (x : TchSt) :
    (s.setPanel i x).csr = s.csr := rfl
@[simp] theorem State.setPanel_cvu (s : State) (i : Nat) (x : TchSt) :
    (s.setPanel i x).cvu = s.cvu := rfl
@[simp] theorem State.setPanel_floor (s : State) (i : Nat) (x : TchSt) :
    (s.setPanel i x).floor = s.floor := rfl
@[simp] theorem State.setPanel_cvSnap (s : State) (i : Nat) (x : TchSt) :
    (s.setPanel i x).cvSnap = s.cvSnap := rfl
@[simp] theorem State.setPanel_reflexDirty (s : State) (i : Nat) (x : TchSt) :
    (s.setPanel i x).reflexDirty = s.reflexDirty := rfl
@[simp] theorem State.setPanel_pwResync (s : State) (i : Nat) (x : TchSt) :
    (s.setPanel i x).pwResync = s.pwResync := rfl
@[simp] theorem State.setPanel_hap (s : State) (i : Nat) (x : TchSt) :
    (s.setPanel i x).hap = s.hap := rfl
@[simp] theorem State.setPanel_hapShared (s : State) (i : Nat) (x : TchSt) :
    (s.setPanel i x).hapShared = s.hapShared := rfl
@[simp] theorem State.setPanel_hst (s : State) (i : Nat) (x : TchSt) :
    (s.setPanel i x).hst = s.hst := rfl
@[simp] theorem State.setPanel_ast (s : State) (i : Nat) (x : TchSt) :
    (s.setPanel i x).ast = s.ast := rfl
@[simp] theorem State.setPanel_tdm (s : State) (i : Nat) (x : TchSt) :
    (s.setPanel i x).tdm = s.tdm := rfl
@[simp] theorem State.setPanel_wld (s : State) (i : Nat) (x : TchSt) :
    (s.setPanel i x).wld = s.wld := rfl
@[simp] theorem State.setPanel_cic (s : State) (i : Nat) (x : TchSt) :
    (s.setPanel i x).cic = s.cic := rfl
@[simp] theorem State.setPanel_dmc (s : State) (i : Nat) (x : TchSt) :
    (s.setPanel i x).dmc = s.dmc := rfl
@[simp] theorem State.setPanel_reductions (s : State) (i : Nat) (x : TchSt) :
    (s.setPanel i x).reductions = s.reductions := rfl
@[simp] theorem State.setPanel_clk (s : State) (i : Nat) (x : TchSt) :
    (s.setPanel i x).clk = s.clk := rfl
@[simp] theorem State.setPanel_pair (s : State) (i : Nat) (x : TchSt) :
    (s.setPanel i x).pair = s.pair := rfl
@[simp] theorem State.setPanel_pwr (s : State) (i : Nat) (x : TchSt) :
    (s.setPanel i x).pwr = s.pwr := rfl
@[simp] theorem State.setPanel_mem (s : State) (i : Nat) (x : TchSt) :
    (s.setPanel i x).mem = s.mem := rfl
@[simp] theorem State.setPanel_freeCtr (s : State) (i : Nat) (x : TchSt) :
    (s.setPanel i x).freeCtr = s.freeCtr := rfl
@[simp] theorem State.setPanel_emits (s : State) (i : Nat) (x : TchSt) :
    (s.setPanel i x).emits = s.emits := rfl
@[simp] theorem State.setPanel_resp (s : State) (i : Nat) (x : TchSt) :
    (s.setPanel i x).resp = s.resp := rfl
@[simp] theorem State.setPanel_pending (s : State) (i : Nat) (x : TchSt) :
    (s.setPanel i x).pending = s.pending := rfl

@[simp] theorem State.updPanel_time (s : State) (i : Nat) (f : TchSt → TchSt) :
    (s.updPanel i f).time = s.time := rfl
@[simp] theorem State.updPanel_ticks (s : State) (i : Nat) (f : TchSt → TchSt) :
    (s.updPanel i f).ticks = s.ticks := rfl
@[simp] theorem State.updPanel_rate (s : State) (i : Nat) (f : TchSt → TchSt) :
    (s.updPanel i f).rate = s.rate := rfl
@[simp] theorem State.updPanel_cells (s : State) (i : Nat) (f : TchSt → TchSt) :
    (s.updPanel i f).cells = s.cells := rfl
@[simp] theorem State.updPanel_latches (s : State) (i : Nat) (f : TchSt → TchSt) :
    (s.updPanel i f).latches = s.latches := rfl
@[simp] theorem State.updPanel_hif (s : State) (i : Nat) (f : TchSt → TchSt) :
    (s.updPanel i f).hif = s.hif := rfl
@[simp] theorem State.updPanel_cmds (s : State) (i : Nat) (f : TchSt → TchSt) :
    (s.updPanel i f).cmds = s.cmds := rfl
@[simp] theorem State.updPanel_slices (s : State) (i : Nat) (f : TchSt → TchSt) :
    (s.updPanel i f).slices = s.slices := rfl
@[simp] theorem State.updPanel_haul (s : State) (i : Nat) (f : TchSt → TchSt) :
    (s.updPanel i f).haul = s.haul := rfl
@[simp] theorem State.updPanel_outs (s : State) (i : Nat) (f : TchSt → TchSt) :
    (s.updPanel i f).outs = s.outs := rfl
@[simp] theorem State.updPanel_lyr (s : State) (i : Nat) (f : TchSt → TchSt) :
    (s.updPanel i f).lyr = s.lyr := rfl
@[simp] theorem State.updPanel_lyrSnap (s : State) (i : Nat) (f : TchSt → TchSt) :
    (s.updPanel i f).lyrSnap = s.lyrSnap := rfl
@[simp] theorem State.updPanel_csr (s : State) (i : Nat) (f : TchSt → TchSt) :
    (s.updPanel i f).csr = s.csr := rfl
@[simp] theorem State.updPanel_cvu (s : State) (i : Nat) (f : TchSt → TchSt) :
    (s.updPanel i f).cvu = s.cvu := rfl
@[simp] theorem State.updPanel_floor (s : State) (i : Nat) (f : TchSt → TchSt) :
    (s.updPanel i f).floor = s.floor := rfl
@[simp] theorem State.updPanel_cvSnap (s : State) (i : Nat) (f : TchSt → TchSt) :
    (s.updPanel i f).cvSnap = s.cvSnap := rfl
@[simp] theorem State.updPanel_reflexDirty (s : State) (i : Nat) (f : TchSt → TchSt) :
    (s.updPanel i f).reflexDirty = s.reflexDirty := rfl
@[simp] theorem State.updPanel_pwResync (s : State) (i : Nat) (f : TchSt → TchSt) :
    (s.updPanel i f).pwResync = s.pwResync := rfl
@[simp] theorem State.updPanel_hap (s : State) (i : Nat) (f : TchSt → TchSt) :
    (s.updPanel i f).hap = s.hap := rfl
@[simp] theorem State.updPanel_hapShared (s : State) (i : Nat) (f : TchSt → TchSt) :
    (s.updPanel i f).hapShared = s.hapShared := rfl
@[simp] theorem State.updPanel_hst (s : State) (i : Nat) (f : TchSt → TchSt) :
    (s.updPanel i f).hst = s.hst := rfl
@[simp] theorem State.updPanel_ast (s : State) (i : Nat) (f : TchSt → TchSt) :
    (s.updPanel i f).ast = s.ast := rfl
@[simp] theorem State.updPanel_tdm (s : State) (i : Nat) (f : TchSt → TchSt) :
    (s.updPanel i f).tdm = s.tdm := rfl
@[simp] theorem State.updPanel_wld (s : State) (i : Nat) (f : TchSt → TchSt) :
    (s.updPanel i f).wld = s.wld := rfl
@[simp] theorem State.updPanel_cic (s : State) (i : Nat) (f : TchSt → TchSt) :
    (s.updPanel i f).cic = s.cic := rfl
@[simp] theorem State.updPanel_dmc (s : State) (i : Nat) (f : TchSt → TchSt) :
    (s.updPanel i f).dmc = s.dmc := rfl
@[simp] theorem State.updPanel_reductions (s : State) (i : Nat) (f : TchSt → TchSt) :
    (s.updPanel i f).reductions = s.reductions := rfl
@[simp] theorem State.updPanel_clk (s : State) (i : Nat) (f : TchSt → TchSt) :
    (s.updPanel i f).clk = s.clk := rfl
@[simp] theorem State.updPanel_pair (s : State) (i : Nat) (f : TchSt → TchSt) :
    (s.updPanel i f).pair = s.pair := rfl
@[simp] theorem State.updPanel_pwr (s : State) (i : Nat) (f : TchSt → TchSt) :
    (s.updPanel i f).pwr = s.pwr := rfl
@[simp] theorem State.updPanel_mem (s : State) (i : Nat) (f : TchSt → TchSt) :
    (s.updPanel i f).mem = s.mem := rfl
@[simp] theorem State.updPanel_freeCtr (s : State) (i : Nat) (f : TchSt → TchSt) :
    (s.updPanel i f).freeCtr = s.freeCtr := rfl
@[simp] theorem State.updPanel_emits (s : State) (i : Nat) (f : TchSt → TchSt) :
    (s.updPanel i f).emits = s.emits := rfl
@[simp] theorem State.updPanel_resp (s : State) (i : Nat) (f : TchSt → TchSt) :
    (s.updPanel i f).resp = s.resp := rfl
@[simp] theorem State.updPanel_pending (s : State) (i : Nat) (f : TchSt → TchSt) :
    (s.updPanel i f).pending = s.pending := rfl

@[simp] theorem State.setChan_time (s : State) (i : Nat) (x : HapSt) :
    (s.setChan i x).time = s.time := rfl
@[simp] theorem State.setChan_ticks (s : State) (i : Nat) (x : HapSt) :
    (s.setChan i x).ticks = s.ticks := rfl
@[simp] theorem State.setChan_rate (s : State) (i : Nat) (x : HapSt) :
    (s.setChan i x).rate = s.rate := rfl
@[simp] theorem State.setChan_cells (s : State) (i : Nat) (x : HapSt) :
    (s.setChan i x).cells = s.cells := rfl
@[simp] theorem State.setChan_latches (s : State) (i : Nat) (x : HapSt) :
    (s.setChan i x).latches = s.latches := rfl
@[simp] theorem State.setChan_hif (s : State) (i : Nat) (x : HapSt) :
    (s.setChan i x).hif = s.hif := rfl
@[simp] theorem State.setChan_cmds (s : State) (i : Nat) (x : HapSt) :
    (s.setChan i x).cmds = s.cmds := rfl
@[simp] theorem State.setChan_slices (s : State) (i : Nat) (x : HapSt) :
    (s.setChan i x).slices = s.slices := rfl
@[simp] theorem State.setChan_haul (s : State) (i : Nat) (x : HapSt) :
    (s.setChan i x).haul = s.haul := rfl
@[simp] theorem State.setChan_outs (s : State) (i : Nat) (x : HapSt) :
    (s.setChan i x).outs = s.outs := rfl
@[simp] theorem State.setChan_lyr (s : State) (i : Nat) (x : HapSt) :
    (s.setChan i x).lyr = s.lyr := rfl
@[simp] theorem State.setChan_lyrSnap (s : State) (i : Nat) (x : HapSt) :
    (s.setChan i x).lyrSnap = s.lyrSnap := rfl
@[simp] theorem State.setChan_csr (s : State) (i : Nat) (x : HapSt) :
    (s.setChan i x).csr = s.csr := rfl
@[simp] theorem State.setChan_cvu (s : State) (i : Nat) (x : HapSt) :
    (s.setChan i x).cvu = s.cvu := rfl
@[simp] theorem State.setChan_floor (s : State) (i : Nat) (x : HapSt) :
    (s.setChan i x).floor = s.floor := rfl
@[simp] theorem State.setChan_cvSnap (s : State) (i : Nat) (x : HapSt) :
    (s.setChan i x).cvSnap = s.cvSnap := rfl
@[simp] theorem State.setChan_tch (s : State) (i : Nat) (x : HapSt) :
    (s.setChan i x).tch = s.tch := rfl
@[simp] theorem State.setChan_reflexDirty (s : State) (i : Nat) (x : HapSt) :
    (s.setChan i x).reflexDirty = s.reflexDirty := rfl
@[simp] theorem State.setChan_pwResync (s : State) (i : Nat) (x : HapSt) :
    (s.setChan i x).pwResync = s.pwResync := rfl
@[simp] theorem State.setChan_hapShared (s : State) (i : Nat) (x : HapSt) :
    (s.setChan i x).hapShared = s.hapShared := rfl
@[simp] theorem State.setChan_hst (s : State) (i : Nat) (x : HapSt) :
    (s.setChan i x).hst = s.hst := rfl
@[simp] theorem State.setChan_ast (s : State) (i : Nat) (x : HapSt) :
    (s.setChan i x).ast = s.ast := rfl
@[simp] theorem State.setChan_tdm (s : State) (i : Nat) (x : HapSt) :
    (s.setChan i x).tdm = s.tdm := rfl
@[simp] theorem State.setChan_wld (s : State) (i : Nat) (x : HapSt) :
    (s.setChan i x).wld = s.wld := rfl
@[simp] theorem State.setChan_cic (s : State) (i : Nat) (x : HapSt) :
    (s.setChan i x).cic = s.cic := rfl
@[simp] theorem State.setChan_dmc (s : State) (i : Nat) (x : HapSt) :
    (s.setChan i x).dmc = s.dmc := rfl
@[simp] theorem State.setChan_reductions (s : State) (i : Nat) (x : HapSt) :
    (s.setChan i x).reductions = s.reductions := rfl
@[simp] theorem State.setChan_clk (s : State) (i : Nat) (x : HapSt) :
    (s.setChan i x).clk = s.clk := rfl
@[simp] theorem State.setChan_pair (s : State) (i : Nat) (x : HapSt) :
    (s.setChan i x).pair = s.pair := rfl
@[simp] theorem State.setChan_pwr (s : State) (i : Nat) (x : HapSt) :
    (s.setChan i x).pwr = s.pwr := rfl
@[simp] theorem State.setChan_mem (s : State) (i : Nat) (x : HapSt) :
    (s.setChan i x).mem = s.mem := rfl
@[simp] theorem State.setChan_freeCtr (s : State) (i : Nat) (x : HapSt) :
    (s.setChan i x).freeCtr = s.freeCtr := rfl
@[simp] theorem State.setChan_emits (s : State) (i : Nat) (x : HapSt) :
    (s.setChan i x).emits = s.emits := rfl
@[simp] theorem State.setChan_resp (s : State) (i : Nat) (x : HapSt) :
    (s.setChan i x).resp = s.resp := rfl
@[simp] theorem State.setChan_pending (s : State) (i : Nat) (x : HapSt) :
    (s.setChan i x).pending = s.pending := rfl

@[simp] theorem State.updChan_time (s : State) (i : Nat) (f : HapSt → HapSt) :
    (s.updChan i f).time = s.time := rfl
@[simp] theorem State.updChan_ticks (s : State) (i : Nat) (f : HapSt → HapSt) :
    (s.updChan i f).ticks = s.ticks := rfl
@[simp] theorem State.updChan_rate (s : State) (i : Nat) (f : HapSt → HapSt) :
    (s.updChan i f).rate = s.rate := rfl
@[simp] theorem State.updChan_cells (s : State) (i : Nat) (f : HapSt → HapSt) :
    (s.updChan i f).cells = s.cells := rfl
@[simp] theorem State.updChan_latches (s : State) (i : Nat) (f : HapSt → HapSt) :
    (s.updChan i f).latches = s.latches := rfl
@[simp] theorem State.updChan_hif (s : State) (i : Nat) (f : HapSt → HapSt) :
    (s.updChan i f).hif = s.hif := rfl
@[simp] theorem State.updChan_cmds (s : State) (i : Nat) (f : HapSt → HapSt) :
    (s.updChan i f).cmds = s.cmds := rfl
@[simp] theorem State.updChan_slices (s : State) (i : Nat) (f : HapSt → HapSt) :
    (s.updChan i f).slices = s.slices := rfl
@[simp] theorem State.updChan_haul (s : State) (i : Nat) (f : HapSt → HapSt) :
    (s.updChan i f).haul = s.haul := rfl
@[simp] theorem State.updChan_outs (s : State) (i : Nat) (f : HapSt → HapSt) :
    (s.updChan i f).outs = s.outs := rfl
@[simp] theorem State.updChan_lyr (s : State) (i : Nat) (f : HapSt → HapSt) :
    (s.updChan i f).lyr = s.lyr := rfl
@[simp] theorem State.updChan_lyrSnap (s : State) (i : Nat) (f : HapSt → HapSt) :
    (s.updChan i f).lyrSnap = s.lyrSnap := rfl
@[simp] theorem State.updChan_csr (s : State) (i : Nat) (f : HapSt → HapSt) :
    (s.updChan i f).csr = s.csr := rfl
@[simp] theorem State.updChan_cvu (s : State) (i : Nat) (f : HapSt → HapSt) :
    (s.updChan i f).cvu = s.cvu := rfl
@[simp] theorem State.updChan_floor (s : State) (i : Nat) (f : HapSt → HapSt) :
    (s.updChan i f).floor = s.floor := rfl
@[simp] theorem State.updChan_cvSnap (s : State) (i : Nat) (f : HapSt → HapSt) :
    (s.updChan i f).cvSnap = s.cvSnap := rfl
@[simp] theorem State.updChan_tch (s : State) (i : Nat) (f : HapSt → HapSt) :
    (s.updChan i f).tch = s.tch := rfl
@[simp] theorem State.updChan_reflexDirty (s : State) (i : Nat) (f : HapSt → HapSt) :
    (s.updChan i f).reflexDirty = s.reflexDirty := rfl
@[simp] theorem State.updChan_pwResync (s : State) (i : Nat) (f : HapSt → HapSt) :
    (s.updChan i f).pwResync = s.pwResync := rfl
@[simp] theorem State.updChan_hapShared (s : State) (i : Nat) (f : HapSt → HapSt) :
    (s.updChan i f).hapShared = s.hapShared := rfl
@[simp] theorem State.updChan_hst (s : State) (i : Nat) (f : HapSt → HapSt) :
    (s.updChan i f).hst = s.hst := rfl
@[simp] theorem State.updChan_ast (s : State) (i : Nat) (f : HapSt → HapSt) :
    (s.updChan i f).ast = s.ast := rfl
@[simp] theorem State.updChan_tdm (s : State) (i : Nat) (f : HapSt → HapSt) :
    (s.updChan i f).tdm = s.tdm := rfl
@[simp] theorem State.updChan_wld (s : State) (i : Nat) (f : HapSt → HapSt) :
    (s.updChan i f).wld = s.wld := rfl
@[simp] theorem State.updChan_cic (s : State) (i : Nat) (f : HapSt → HapSt) :
    (s.updChan i f).cic = s.cic := rfl
@[simp] theorem State.updChan_dmc (s : State) (i : Nat) (f : HapSt → HapSt) :
    (s.updChan i f).dmc = s.dmc := rfl
@[simp] theorem State.updChan_reductions (s : State) (i : Nat) (f : HapSt → HapSt) :
    (s.updChan i f).reductions = s.reductions := rfl
@[simp] theorem State.updChan_clk (s : State) (i : Nat) (f : HapSt → HapSt) :
    (s.updChan i f).clk = s.clk := rfl
@[simp] theorem State.updChan_pair (s : State) (i : Nat) (f : HapSt → HapSt) :
    (s.updChan i f).pair = s.pair := rfl
@[simp] theorem State.updChan_pwr (s : State) (i : Nat) (f : HapSt → HapSt) :
    (s.updChan i f).pwr = s.pwr := rfl
@[simp] theorem State.updChan_mem (s : State) (i : Nat) (f : HapSt → HapSt) :
    (s.updChan i f).mem = s.mem := rfl
@[simp] theorem State.updChan_freeCtr (s : State) (i : Nat) (f : HapSt → HapSt) :
    (s.updChan i f).freeCtr = s.freeCtr := rfl
@[simp] theorem State.updChan_emits (s : State) (i : Nat) (f : HapSt → HapSt) :
    (s.updChan i f).emits = s.emits := rfl
@[simp] theorem State.updChan_resp (s : State) (i : Nat) (f : HapSt → HapSt) :
    (s.updChan i f).resp = s.resp := rfl
@[simp] theorem State.updChan_pending (s : State) (i : Nat) (f : HapSt → HapSt) :
    (s.updChan i f).pending = s.pending := rfl

@[simp] theorem State.setCore_time (s : State) (i : Nat) (x : CoreSt) :
    (s.setCore i x).time = s.time := rfl
@[simp] theorem State.setCore_ticks (s : State) (i : Nat) (x : CoreSt) :
    (s.setCore i x).ticks = s.ticks := rfl
@[simp] theorem State.setCore_rate (s : State) (i : Nat) (x : CoreSt) :
    (s.setCore i x).rate = s.rate := rfl
@[simp] theorem State.setCore_cells (s : State) (i : Nat) (x : CoreSt) :
    (s.setCore i x).cells = s.cells := rfl
@[simp] theorem State.setCore_latches (s : State) (i : Nat) (x : CoreSt) :
    (s.setCore i x).latches = s.latches := rfl
@[simp] theorem State.setCore_hif (s : State) (i : Nat) (x : CoreSt) :
    (s.setCore i x).hif = s.hif := rfl
@[simp] theorem State.setCore_cmds (s : State) (i : Nat) (x : CoreSt) :
    (s.setCore i x).cmds = s.cmds := rfl
@[simp] theorem State.setCore_slices (s : State) (i : Nat) (x : CoreSt) :
    (s.setCore i x).slices = s.slices := rfl
@[simp] theorem State.setCore_haul (s : State) (i : Nat) (x : CoreSt) :
    (s.setCore i x).haul = s.haul := rfl
@[simp] theorem State.setCore_outs (s : State) (i : Nat) (x : CoreSt) :
    (s.setCore i x).outs = s.outs := rfl
@[simp] theorem State.setCore_lyr (s : State) (i : Nat) (x : CoreSt) :
    (s.setCore i x).lyr = s.lyr := rfl
@[simp] theorem State.setCore_lyrSnap (s : State) (i : Nat) (x : CoreSt) :
    (s.setCore i x).lyrSnap = s.lyrSnap := rfl
@[simp] theorem State.setCore_csr (s : State) (i : Nat) (x : CoreSt) :
    (s.setCore i x).csr = s.csr := rfl
@[simp] theorem State.setCore_cvu (s : State) (i : Nat) (x : CoreSt) :
    (s.setCore i x).cvu = s.cvu := rfl
@[simp] theorem State.setCore_floor (s : State) (i : Nat) (x : CoreSt) :
    (s.setCore i x).floor = s.floor := rfl
@[simp] theorem State.setCore_cvSnap (s : State) (i : Nat) (x : CoreSt) :
    (s.setCore i x).cvSnap = s.cvSnap := rfl
@[simp] theorem State.setCore_tch (s : State) (i : Nat) (x : CoreSt) :
    (s.setCore i x).tch = s.tch := rfl
@[simp] theorem State.setCore_reflexDirty (s : State) (i : Nat) (x : CoreSt) :
    (s.setCore i x).reflexDirty = s.reflexDirty := rfl
@[simp] theorem State.setCore_pwResync (s : State) (i : Nat) (x : CoreSt) :
    (s.setCore i x).pwResync = s.pwResync := rfl
@[simp] theorem State.setCore_hap (s : State) (i : Nat) (x : CoreSt) :
    (s.setCore i x).hap = s.hap := rfl
@[simp] theorem State.setCore_hapShared (s : State) (i : Nat) (x : CoreSt) :
    (s.setCore i x).hapShared = s.hapShared := rfl
@[simp] theorem State.setCore_hst (s : State) (i : Nat) (x : CoreSt) :
    (s.setCore i x).hst = s.hst := rfl
@[simp] theorem State.setCore_ast (s : State) (i : Nat) (x : CoreSt) :
    (s.setCore i x).ast = s.ast := rfl
@[simp] theorem State.setCore_tdm (s : State) (i : Nat) (x : CoreSt) :
    (s.setCore i x).tdm = s.tdm := rfl
@[simp] theorem State.setCore_cic (s : State) (i : Nat) (x : CoreSt) :
    (s.setCore i x).cic = s.cic := rfl
@[simp] theorem State.setCore_dmc (s : State) (i : Nat) (x : CoreSt) :
    (s.setCore i x).dmc = s.dmc := rfl
@[simp] theorem State.setCore_reductions (s : State) (i : Nat) (x : CoreSt) :
    (s.setCore i x).reductions = s.reductions := rfl
@[simp] theorem State.setCore_clk (s : State) (i : Nat) (x : CoreSt) :
    (s.setCore i x).clk = s.clk := rfl
@[simp] theorem State.setCore_pair (s : State) (i : Nat) (x : CoreSt) :
    (s.setCore i x).pair = s.pair := rfl
@[simp] theorem State.setCore_pwr (s : State) (i : Nat) (x : CoreSt) :
    (s.setCore i x).pwr = s.pwr := rfl
@[simp] theorem State.setCore_mem (s : State) (i : Nat) (x : CoreSt) :
    (s.setCore i x).mem = s.mem := rfl
@[simp] theorem State.setCore_freeCtr (s : State) (i : Nat) (x : CoreSt) :
    (s.setCore i x).freeCtr = s.freeCtr := rfl
@[simp] theorem State.setCore_emits (s : State) (i : Nat) (x : CoreSt) :
    (s.setCore i x).emits = s.emits := rfl
@[simp] theorem State.setCore_resp (s : State) (i : Nat) (x : CoreSt) :
    (s.setCore i x).resp = s.resp := rfl
@[simp] theorem State.setCore_pending (s : State) (i : Nat) (x : CoreSt) :
    (s.setCore i x).pending = s.pending := rfl

@[simp] theorem State.updCore_time (s : State) (i : Nat) (f : CoreSt → CoreSt) :
    (s.updCore i f).time = s.time := rfl
@[simp] theorem State.updCore_ticks (s : State) (i : Nat) (f : CoreSt → CoreSt) :
    (s.updCore i f).ticks = s.ticks := rfl
@[simp] theorem State.updCore_rate (s : State) (i : Nat) (f : CoreSt → CoreSt) :
    (s.updCore i f).rate = s.rate := rfl
@[simp] theorem State.updCore_cells (s : State) (i : Nat) (f : CoreSt → CoreSt) :
    (s.updCore i f).cells = s.cells := rfl
@[simp] theorem State.updCore_latches (s : State) (i : Nat) (f : CoreSt → CoreSt) :
    (s.updCore i f).latches = s.latches := rfl
@[simp] theorem State.updCore_hif (s : State) (i : Nat) (f : CoreSt → CoreSt) :
    (s.updCore i f).hif = s.hif := rfl
@[simp] theorem State.updCore_cmds (s : State) (i : Nat) (f : CoreSt → CoreSt) :
    (s.updCore i f).cmds = s.cmds := rfl
@[simp] theorem State.updCore_slices (s : State) (i : Nat) (f : CoreSt → CoreSt) :
    (s.updCore i f).slices = s.slices := rfl
@[simp] theorem State.updCore_haul (s : State) (i : Nat) (f : CoreSt → CoreSt) :
    (s.updCore i f).haul = s.haul := rfl
@[simp] theorem State.updCore_outs (s : State) (i : Nat) (f : CoreSt → CoreSt) :
    (s.updCore i f).outs = s.outs := rfl
@[simp] theorem State.updCore_lyr (s : State) (i : Nat) (f : CoreSt → CoreSt) :
    (s.updCore i f).lyr = s.lyr := rfl
@[simp] theorem State.updCore_lyrSnap (s : State) (i : Nat) (f : CoreSt → CoreSt) :
    (s.updCore i f).lyrSnap = s.lyrSnap := rfl
@[simp] theorem State.updCore_csr (s : State) (i : Nat) (f : CoreSt → CoreSt) :
    (s.updCore i f).csr = s.csr := rfl
@[simp] theorem State.updCore_cvu (s : State) (i : Nat) (f : CoreSt → CoreSt) :
    (s.updCore i f).cvu = s.cvu := rfl
@[simp] theorem State.updCore_floor (s : State) (i : Nat) (f : CoreSt → CoreSt) :
    (s.updCore i f).floor = s.floor := rfl
@[simp] theorem State.updCore_cvSnap (s : State) (i : Nat) (f : CoreSt → CoreSt) :
    (s.updCore i f).cvSnap = s.cvSnap := rfl
@[simp] theorem State.updCore_tch (s : State) (i : Nat) (f : CoreSt → CoreSt) :
    (s.updCore i f).tch = s.tch := rfl
@[simp] theorem State.updCore_reflexDirty (s : State) (i : Nat) (f : CoreSt → CoreSt) :
    (s.updCore i f).reflexDirty = s.reflexDirty := rfl
@[simp] theorem State.updCore_pwResync (s : State) (i : Nat) (f : CoreSt → CoreSt) :
    (s.updCore i f).pwResync = s.pwResync := rfl
@[simp] theorem State.updCore_hap (s : State) (i : Nat) (f : CoreSt → CoreSt) :
    (s.updCore i f).hap = s.hap := rfl
@[simp] theorem State.updCore_hapShared (s : State) (i : Nat) (f : CoreSt → CoreSt) :
    (s.updCore i f).hapShared = s.hapShared := rfl
@[simp] theorem State.updCore_hst (s : State) (i : Nat) (f : CoreSt → CoreSt) :
    (s.updCore i f).hst = s.hst := rfl
@[simp] theorem State.updCore_ast (s : State) (i : Nat) (f : CoreSt → CoreSt) :
    (s.updCore i f).ast = s.ast := rfl
@[simp] theorem State.updCore_tdm (s : State) (i : Nat) (f : CoreSt → CoreSt) :
    (s.updCore i f).tdm = s.tdm := rfl
@[simp] theorem State.updCore_cic (s : State) (i : Nat) (f : CoreSt → CoreSt) :
    (s.updCore i f).cic = s.cic := rfl
@[simp] theorem State.updCore_dmc (s : State) (i : Nat) (f : CoreSt → CoreSt) :
    (s.updCore i f).dmc = s.dmc := rfl
@[simp] theorem State.updCore_reductions (s : State) (i : Nat) (f : CoreSt → CoreSt) :
    (s.updCore i f).reductions = s.reductions := rfl
@[simp] theorem State.updCore_clk (s : State) (i : Nat) (f : CoreSt → CoreSt) :
    (s.updCore i f).clk = s.clk := rfl
@[simp] theorem State.updCore_pair (s : State) (i : Nat) (f : CoreSt → CoreSt) :
    (s.updCore i f).pair = s.pair := rfl
@[simp] theorem State.updCore_pwr (s : State) (i : Nat) (f : CoreSt → CoreSt) :
    (s.updCore i f).pwr = s.pwr := rfl
@[simp] theorem State.updCore_mem (s : State) (i : Nat) (f : CoreSt → CoreSt) :
    (s.updCore i f).mem = s.mem := rfl
@[simp] theorem State.updCore_freeCtr (s : State) (i : Nat) (f : CoreSt → CoreSt) :
    (s.updCore i f).freeCtr = s.freeCtr := rfl
@[simp] theorem State.updCore_emits (s : State) (i : Nat) (f : CoreSt → CoreSt) :
    (s.updCore i f).emits = s.emits := rfl
@[simp] theorem State.updCore_resp (s : State) (i : Nat) (f : CoreSt → CoreSt) :
    (s.updCore i f).resp = s.resp := rfl
@[simp] theorem State.updCore_pending (s : State) (i : Nat) (f : CoreSt → CoreSt) :
    (s.updCore i f).pending = s.pending := rfl

@[simp] theorem State.setSrc_time (s : State) (i : Nat) (x : Src) :
    (s.setSrc i x).time = s.time := rfl
@[simp] theorem State.setSrc_ticks (s : State) (i : Nat) (x : Src) :
    (s.setSrc i x).ticks = s.ticks := rfl
@[simp] theorem State.setSrc_rate (s : State) (i : Nat) (x : Src) :
    (s.setSrc i x).rate = s.rate := rfl
@[simp] theorem State.setSrc_cells (s : State) (i : Nat) (x : Src) :
    (s.setSrc i x).cells = s.cells := rfl
@[simp] theorem State.setSrc_latches (s : State) (i : Nat) (x : Src) :
    (s.setSrc i x).latches = s.latches := rfl
@[simp] theorem State.setSrc_hif (s : State) (i : Nat) (x : Src) :
    (s.setSrc i x).hif = s.hif := rfl
@[simp] theorem State.setSrc_cmds (s : State) (i : Nat) (x : Src) :
    (s.setSrc i x).cmds = s.cmds := rfl
@[simp] theorem State.setSrc_slices (s : State) (i : Nat) (x : Src) :
    (s.setSrc i x).slices = s.slices := rfl
@[simp] theorem State.setSrc_haul (s : State) (i : Nat) (x : Src) :
    (s.setSrc i x).haul = s.haul := rfl
@[simp] theorem State.setSrc_outs (s : State) (i : Nat) (x : Src) :
    (s.setSrc i x).outs = s.outs := rfl
@[simp] theorem State.setSrc_lyr (s : State) (i : Nat) (x : Src) :
    (s.setSrc i x).lyr = s.lyr := rfl
@[simp] theorem State.setSrc_lyrSnap (s : State) (i : Nat) (x : Src) :
    (s.setSrc i x).lyrSnap = s.lyrSnap := rfl
@[simp] theorem State.setSrc_csr (s : State) (i : Nat) (x : Src) :
    (s.setSrc i x).csr = s.csr := rfl
@[simp] theorem State.setSrc_cvu (s : State) (i : Nat) (x : Src) :
    (s.setSrc i x).cvu = s.cvu := rfl
@[simp] theorem State.setSrc_floor (s : State) (i : Nat) (x : Src) :
    (s.setSrc i x).floor = s.floor := rfl
@[simp] theorem State.setSrc_cvSnap (s : State) (i : Nat) (x : Src) :
    (s.setSrc i x).cvSnap = s.cvSnap := rfl
@[simp] theorem State.setSrc_tch (s : State) (i : Nat) (x : Src) :
    (s.setSrc i x).tch = s.tch := rfl
@[simp] theorem State.setSrc_reflexDirty (s : State) (i : Nat) (x : Src) :
    (s.setSrc i x).reflexDirty = s.reflexDirty := rfl
@[simp] theorem State.setSrc_pwResync (s : State) (i : Nat) (x : Src) :
    (s.setSrc i x).pwResync = s.pwResync := rfl
@[simp] theorem State.setSrc_hap (s : State) (i : Nat) (x : Src) :
    (s.setSrc i x).hap = s.hap := rfl
@[simp] theorem State.setSrc_hapShared (s : State) (i : Nat) (x : Src) :
    (s.setSrc i x).hapShared = s.hapShared := rfl
@[simp] theorem State.setSrc_hst (s : State) (i : Nat) (x : Src) :
    (s.setSrc i x).hst = s.hst := rfl
@[simp] theorem State.setSrc_ast (s : State) (i : Nat) (x : Src) :
    (s.setSrc i x).ast = s.ast := rfl
@[simp] theorem State.setSrc_tdm (s : State) (i : Nat) (x : Src) :
    (s.setSrc i x).tdm = s.tdm := rfl
@[simp] theorem State.setSrc_wld (s : State) (i : Nat) (x : Src) :
    (s.setSrc i x).wld = s.wld := rfl
@[simp] theorem State.setSrc_dmc (s : State) (i : Nat) (x : Src) :
    (s.setSrc i x).dmc = s.dmc := rfl
@[simp] theorem State.setSrc_reductions (s : State) (i : Nat) (x : Src) :
    (s.setSrc i x).reductions = s.reductions := rfl
@[simp] theorem State.setSrc_clk (s : State) (i : Nat) (x : Src) :
    (s.setSrc i x).clk = s.clk := rfl
@[simp] theorem State.setSrc_pair (s : State) (i : Nat) (x : Src) :
    (s.setSrc i x).pair = s.pair := rfl
@[simp] theorem State.setSrc_pwr (s : State) (i : Nat) (x : Src) :
    (s.setSrc i x).pwr = s.pwr := rfl
@[simp] theorem State.setSrc_mem (s : State) (i : Nat) (x : Src) :
    (s.setSrc i x).mem = s.mem := rfl
@[simp] theorem State.setSrc_freeCtr (s : State) (i : Nat) (x : Src) :
    (s.setSrc i x).freeCtr = s.freeCtr := rfl
@[simp] theorem State.setSrc_emits (s : State) (i : Nat) (x : Src) :
    (s.setSrc i x).emits = s.emits := rfl
@[simp] theorem State.setSrc_resp (s : State) (i : Nat) (x : Src) :
    (s.setSrc i x).resp = s.resp := rfl
@[simp] theorem State.setSrc_pending (s : State) (i : Nat) (x : Src) :
    (s.setSrc i x).pending = s.pending := rfl

@[simp] theorem State.updHst_time (s : State) (i : Nat) (f : HstSt → HstSt) :
    (s.updHst i f).time = s.time := rfl
@[simp] theorem State.updHst_ticks (s : State) (i : Nat) (f : HstSt → HstSt) :
    (s.updHst i f).ticks = s.ticks := rfl
@[simp] theorem State.updHst_rate (s : State) (i : Nat) (f : HstSt → HstSt) :
    (s.updHst i f).rate = s.rate := rfl
@[simp] theorem State.updHst_cells (s : State) (i : Nat) (f : HstSt → HstSt) :
    (s.updHst i f).cells = s.cells := rfl
@[simp] theorem State.updHst_latches (s : State) (i : Nat) (f : HstSt → HstSt) :
    (s.updHst i f).latches = s.latches := rfl
@[simp] theorem State.updHst_hif (s : State) (i : Nat) (f : HstSt → HstSt) :
    (s.updHst i f).hif = s.hif := rfl
@[simp] theorem State.updHst_cmds (s : State) (i : Nat) (f : HstSt → HstSt) :
    (s.updHst i f).cmds = s.cmds := rfl
@[simp] theorem State.updHst_slices (s : State) (i : Nat) (f : HstSt → HstSt) :
    (s.updHst i f).slices = s.slices := rfl
@[simp] theorem State.updHst_haul (s : State) (i : Nat) (f : HstSt → HstSt) :
    (s.updHst i f).haul = s.haul := rfl
@[simp] theorem State.updHst_outs (s : State) (i : Nat) (f : HstSt → HstSt) :
    (s.updHst i f).outs = s.outs := rfl
@[simp] theorem State.updHst_lyr (s : State) (i : Nat) (f : HstSt → HstSt) :
    (s.updHst i f).lyr = s.lyr := rfl
@[simp] theorem State.updHst_lyrSnap (s : State) (i : Nat) (f : HstSt → HstSt) :
    (s.updHst i f).lyrSnap = s.lyrSnap := rfl
@[simp] theorem State.updHst_csr (s : State) (i : Nat) (f : HstSt → HstSt) :
    (s.updHst i f).csr = s.csr := rfl
@[simp] theorem State.updHst_cvu (s : State) (i : Nat) (f : HstSt → HstSt) :
    (s.updHst i f).cvu = s.cvu := rfl
@[simp] theorem State.updHst_floor (s : State) (i : Nat) (f : HstSt → HstSt) :
    (s.updHst i f).floor = s.floor := rfl
@[simp] theorem State.updHst_cvSnap (s : State) (i : Nat) (f : HstSt → HstSt) :
    (s.updHst i f).cvSnap = s.cvSnap := rfl
@[simp] theorem State.updHst_tch (s : State) (i : Nat) (f : HstSt → HstSt) :
    (s.updHst i f).tch = s.tch := rfl
@[simp] theorem State.updHst_reflexDirty (s : State) (i : Nat) (f : HstSt → HstSt) :
    (s.updHst i f).reflexDirty = s.reflexDirty := rfl
@[simp] theorem State.updHst_pwResync (s : State) (i : Nat) (f : HstSt → HstSt) :
    (s.updHst i f).pwResync = s.pwResync := rfl
@[simp] theorem State.updHst_hap (s : State) (i : Nat) (f : HstSt → HstSt) :
    (s.updHst i f).hap = s.hap := rfl
@[simp] theorem State.updHst_hapShared (s : State) (i : Nat) (f : HstSt → HstSt) :
    (s.updHst i f).hapShared = s.hapShared := rfl
@[simp] theorem State.updHst_ast (s : State) (i : Nat) (f : HstSt → HstSt) :
    (s.updHst i f).ast = s.ast := rfl
@[simp] theorem State.updHst_tdm (s : State) (i : Nat) (f : HstSt → HstSt) :
    (s.updHst i f).tdm = s.tdm := rfl
@[simp] theorem State.updHst_wld (s : State) (i : Nat) (f : HstSt → HstSt) :
    (s.updHst i f).wld = s.wld := rfl
@[simp] theorem State.updHst_cic (s : State) (i : Nat) (f : HstSt → HstSt) :
    (s.updHst i f).cic = s.cic := rfl
@[simp] theorem State.updHst_dmc (s : State) (i : Nat) (f : HstSt → HstSt) :
    (s.updHst i f).dmc = s.dmc := rfl
@[simp] theorem State.updHst_reductions (s : State) (i : Nat) (f : HstSt → HstSt) :
    (s.updHst i f).reductions = s.reductions := rfl
@[simp] theorem State.updHst_clk (s : State) (i : Nat) (f : HstSt → HstSt) :
    (s.updHst i f).clk = s.clk := rfl
@[simp] theorem State.updHst_pair (s : State) (i : Nat) (f : HstSt → HstSt) :
    (s.updHst i f).pair = s.pair := rfl
@[simp] theorem State.updHst_pwr (s : State) (i : Nat) (f : HstSt → HstSt) :
    (s.updHst i f).pwr = s.pwr := rfl
@[simp] theorem State.updHst_mem (s : State) (i : Nat) (f : HstSt → HstSt) :
    (s.updHst i f).mem = s.mem := rfl
@[simp] theorem State.updHst_freeCtr (s : State) (i : Nat) (f : HstSt → HstSt) :
    (s.updHst i f).freeCtr = s.freeCtr := rfl
@[simp] theorem State.updHst_emits (s : State) (i : Nat) (f : HstSt → HstSt) :
    (s.updHst i f).emits = s.emits := rfl
@[simp] theorem State.updHst_resp (s : State) (i : Nat) (f : HstSt → HstSt) :
    (s.updHst i f).resp = s.resp := rfl
@[simp] theorem State.updHst_pending (s : State) (i : Nat) (f : HstSt → HstSt) :
    (s.updHst i f).pending = s.pending := rfl

@[simp] theorem State.updAst_time (s : State) (i : Nat) (f : AstSt → AstSt) :
    (s.updAst i f).time = s.time := rfl
@[simp] theorem State.updAst_ticks (s : State) (i : Nat) (f : AstSt → AstSt) :
    (s.updAst i f).ticks = s.ticks := rfl
@[simp] theorem State.updAst_rate (s : State) (i : Nat) (f : AstSt → AstSt) :
    (s.updAst i f).rate = s.rate := rfl
@[simp] theorem State.updAst_cells (s : State) (i : Nat) (f : AstSt → AstSt) :
    (s.updAst i f).cells = s.cells := rfl
@[simp] theorem State.updAst_latches (s : State) (i : Nat) (f : AstSt → AstSt) :
    (s.updAst i f).latches = s.latches := rfl
@[simp] theorem State.updAst_hif (s : State) (i : Nat) (f : AstSt → AstSt) :
    (s.updAst i f).hif = s.hif := rfl
@[simp] theorem State.updAst_cmds (s : State) (i : Nat) (f : AstSt → AstSt) :
    (s.updAst i f).cmds = s.cmds := rfl
@[simp] theorem State.updAst_slices (s : State) (i : Nat) (f : AstSt → AstSt) :
    (s.updAst i f).slices = s.slices := rfl
@[simp] theorem State.updAst_haul (s : State) (i : Nat) (f : AstSt → AstSt) :
    (s.updAst i f).haul = s.haul := rfl
@[simp] theorem State.updAst_outs (s : State) (i : Nat) (f : AstSt → AstSt) :
    (s.updAst i f).outs = s.outs := rfl
@[simp] theorem State.updAst_lyr (s : State) (i : Nat) (f : AstSt → AstSt) :
    (s.updAst i f).lyr = s.lyr := rfl
@[simp] theorem State.updAst_lyrSnap (s : State) (i : Nat) (f : AstSt → AstSt) :
    (s.updAst i f).lyrSnap = s.lyrSnap := rfl
@[simp] theorem State.updAst_csr (s : State) (i : Nat) (f : AstSt → AstSt) :
    (s.updAst i f).csr = s.csr := rfl
@[simp] theorem State.updAst_cvu (s : State) (i : Nat) (f : AstSt → AstSt) :
    (s.updAst i f).cvu = s.cvu := rfl
@[simp] theorem State.updAst_floor (s : State) (i : Nat) (f : AstSt → AstSt) :
    (s.updAst i f).floor = s.floor := rfl
@[simp] theorem State.updAst_cvSnap (s : State) (i : Nat) (f : AstSt → AstSt) :
    (s.updAst i f).cvSnap = s.cvSnap := rfl
@[simp] theorem State.updAst_tch (s : State) (i : Nat) (f : AstSt → AstSt) :
    (s.updAst i f).tch = s.tch := rfl
@[simp] theorem State.updAst_reflexDirty (s : State) (i : Nat) (f : AstSt → AstSt) :
    (s.updAst i f).reflexDirty = s.reflexDirty := rfl
@[simp] theorem State.updAst_pwResync (s : State) (i : Nat) (f : AstSt → AstSt) :
    (s.updAst i f).pwResync = s.pwResync := rfl
@[simp] theorem State.updAst_hap (s : State) (i : Nat) (f : AstSt → AstSt) :
    (s.updAst i f).hap = s.hap := rfl
@[simp] theorem State.updAst_hapShared (s : State) (i : Nat) (f : AstSt → AstSt) :
    (s.updAst i f).hapShared = s.hapShared := rfl
@[simp] theorem State.updAst_hst (s : State) (i : Nat) (f : AstSt → AstSt) :
    (s.updAst i f).hst = s.hst := rfl
@[simp] theorem State.updAst_tdm (s : State) (i : Nat) (f : AstSt → AstSt) :
    (s.updAst i f).tdm = s.tdm := rfl
@[simp] theorem State.updAst_wld (s : State) (i : Nat) (f : AstSt → AstSt) :
    (s.updAst i f).wld = s.wld := rfl
@[simp] theorem State.updAst_cic (s : State) (i : Nat) (f : AstSt → AstSt) :
    (s.updAst i f).cic = s.cic := rfl
@[simp] theorem State.updAst_dmc (s : State) (i : Nat) (f : AstSt → AstSt) :
    (s.updAst i f).dmc = s.dmc := rfl
@[simp] theorem State.updAst_reductions (s : State) (i : Nat) (f : AstSt → AstSt) :
    (s.updAst i f).reductions = s.reductions := rfl
@[simp] theorem State.updAst_clk (s : State) (i : Nat) (f : AstSt → AstSt) :
    (s.updAst i f).clk = s.clk := rfl
@[simp] theorem State.updAst_pair (s : State) (i : Nat) (f : AstSt → AstSt) :
    (s.updAst i f).pair = s.pair := rfl
@[simp] theorem State.updAst_pwr (s : State) (i : Nat) (f : AstSt → AstSt) :
    (s.updAst i f).pwr = s.pwr := rfl
@[simp] theorem State.updAst_mem (s : State) (i : Nat) (f : AstSt → AstSt) :
    (s.updAst i f).mem = s.mem := rfl
@[simp] theorem State.updAst_freeCtr (s : State) (i : Nat) (f : AstSt → AstSt) :
    (s.updAst i f).freeCtr = s.freeCtr := rfl
@[simp] theorem State.updAst_emits (s : State) (i : Nat) (f : AstSt → AstSt) :
    (s.updAst i f).emits = s.emits := rfl
@[simp] theorem State.updAst_resp (s : State) (i : Nat) (f : AstSt → AstSt) :
    (s.updAst i f).resp = s.resp := rfl
@[simp] theorem State.updAst_pending (s : State) (i : Nat) (f : AstSt → AstSt) :
    (s.updAst i f).pending = s.pending := rfl

@[simp] theorem State.setCvFeed_time (s : State) (i : Nat) (x : Feed) :
    (s.setCvFeed i x).time = s.time := rfl
@[simp] theorem State.setCvFeed_ticks (s : State) (i : Nat) (x : Feed) :
    (s.setCvFeed i x).ticks = s.ticks := rfl
@[simp] theorem State.setCvFeed_rate (s : State) (i : Nat) (x : Feed) :
    (s.setCvFeed i x).rate = s.rate := rfl
@[simp] theorem State.setCvFeed_cells (s : State) (i : Nat) (x : Feed) :
    (s.setCvFeed i x).cells = s.cells := rfl
@[simp] theorem State.setCvFeed_latches (s : State) (i : Nat) (x : Feed) :
    (s.setCvFeed i x).latches = s.latches := rfl
@[simp] theorem State.setCvFeed_hif (s : State) (i : Nat) (x : Feed) :
    (s.setCvFeed i x).hif = s.hif := rfl
@[simp] theorem State.setCvFeed_cmds (s : State) (i : Nat) (x : Feed) :
    (s.setCvFeed i x).cmds = s.cmds := rfl
@[simp] theorem State.setCvFeed_slices (s : State) (i : Nat) (x : Feed) :
    (s.setCvFeed i x).slices = s.slices := rfl
@[simp] theorem State.setCvFeed_haul (s : State) (i : Nat) (x : Feed) :
    (s.setCvFeed i x).haul = s.haul := rfl
@[simp] theorem State.setCvFeed_outs (s : State) (i : Nat) (x : Feed) :
    (s.setCvFeed i x).outs = s.outs := rfl
@[simp] theorem State.setCvFeed_lyr (s : State) (i : Nat) (x : Feed) :
    (s.setCvFeed i x).lyr = s.lyr := rfl
@[simp] theorem State.setCvFeed_lyrSnap (s : State) (i : Nat) (x : Feed) :
    (s.setCvFeed i x).lyrSnap = s.lyrSnap := rfl
@[simp] theorem State.setCvFeed_csr (s : State) (i : Nat) (x : Feed) :
    (s.setCvFeed i x).csr = s.csr := rfl
@[simp] theorem State.setCvFeed_floor (s : State) (i : Nat) (x : Feed) :
    (s.setCvFeed i x).floor = s.floor := rfl
@[simp] theorem State.setCvFeed_cvSnap (s : State) (i : Nat) (x : Feed) :
    (s.setCvFeed i x).cvSnap = s.cvSnap := rfl
@[simp] theorem State.setCvFeed_tch (s : State) (i : Nat) (x : Feed) :
    (s.setCvFeed i x).tch = s.tch := rfl
@[simp] theorem State.setCvFeed_reflexDirty (s : State) (i : Nat) (x : Feed) :
    (s.setCvFeed i x).reflexDirty = s.reflexDirty := rfl
@[simp] theorem State.setCvFeed_pwResync (s : State) (i : Nat) (x : Feed) :
    (s.setCvFeed i x).pwResync = s.pwResync := rfl
@[simp] theorem State.setCvFeed_hap (s : State) (i : Nat) (x : Feed) :
    (s.setCvFeed i x).hap = s.hap := rfl
@[simp] theorem State.setCvFeed_hapShared (s : State) (i : Nat) (x : Feed) :
    (s.setCvFeed i x).hapShared = s.hapShared := rfl
@[simp] theorem State.setCvFeed_hst (s : State) (i : Nat) (x : Feed) :
    (s.setCvFeed i x).hst = s.hst := rfl
@[simp] theorem State.setCvFeed_ast (s : State) (i : Nat) (x : Feed) :
    (s.setCvFeed i x).ast = s.ast := rfl
@[simp] theorem State.setCvFeed_tdm (s : State) (i : Nat) (x : Feed) :
    (s.setCvFeed i x).tdm = s.tdm := rfl
@[simp] theorem State.setCvFeed_wld (s : State) (i : Nat) (x : Feed) :
    (s.setCvFeed i x).wld = s.wld := rfl
@[simp] theorem State.setCvFeed_cic (s : State) (i : Nat) (x : Feed) :
    (s.setCvFeed i x).cic = s.cic := rfl
@[simp] theorem State.setCvFeed_dmc (s : State) (i : Nat) (x : Feed) :
    (s.setCvFeed i x).dmc = s.dmc := rfl
@[simp] theorem State.setCvFeed_reductions (s : State) (i : Nat) (x : Feed) :
    (s.setCvFeed i x).reductions = s.reductions := rfl
@[simp] theorem State.setCvFeed_clk (s : State) (i : Nat) (x : Feed) :
    (s.setCvFeed i x).clk = s.clk := rfl
@[simp] theorem State.setCvFeed_pair (s : State) (i : Nat) (x : Feed) :
    (s.setCvFeed i x).pair = s.pair := rfl
@[simp] theorem State.setCvFeed_pwr (s : State) (i : Nat) (x : Feed) :
    (s.setCvFeed i x).pwr = s.pwr := rfl
@[simp] theorem State.setCvFeed_mem (s : State) (i : Nat) (x : Feed) :
    (s.setCvFeed i x).mem = s.mem := rfl
@[simp] theorem State.setCvFeed_freeCtr (s : State) (i : Nat) (x : Feed) :
    (s.setCvFeed i x).freeCtr = s.freeCtr := rfl
@[simp] theorem State.setCvFeed_emits (s : State) (i : Nat) (x : Feed) :
    (s.setCvFeed i x).emits = s.emits := rfl
@[simp] theorem State.setCvFeed_resp (s : State) (i : Nat) (x : Feed) :
    (s.setCvFeed i x).resp = s.resp := rfl
@[simp] theorem State.setCvFeed_pending (s : State) (i : Nat) (x : Feed) :
    (s.setCvFeed i x).pending = s.pending := rfl

@[simp] theorem State.updFloor_time (s : State) (i : Nat) (f : FloorSt → FloorSt) :
    (s.updFloor i f).time = s.time := rfl
@[simp] theorem State.updFloor_ticks (s : State) (i : Nat) (f : FloorSt → FloorSt) :
    (s.updFloor i f).ticks = s.ticks := rfl
@[simp] theorem State.updFloor_rate (s : State) (i : Nat) (f : FloorSt → FloorSt) :
    (s.updFloor i f).rate = s.rate := rfl
@[simp] theorem State.updFloor_cells (s : State) (i : Nat) (f : FloorSt → FloorSt) :
    (s.updFloor i f).cells = s.cells := rfl
@[simp] theorem State.updFloor_latches (s : State) (i : Nat) (f : FloorSt → FloorSt) :
    (s.updFloor i f).latches = s.latches := rfl
@[simp] theorem State.updFloor_hif (s : State) (i : Nat) (f : FloorSt → FloorSt) :
    (s.updFloor i f).hif = s.hif := rfl
@[simp] theorem State.updFloor_cmds (s : State) (i : Nat) (f : FloorSt → FloorSt) :
    (s.updFloor i f).cmds = s.cmds := rfl
@[simp] theorem State.updFloor_slices (s : State) (i : Nat) (f : FloorSt → FloorSt) :
    (s.updFloor i f).slices = s.slices := rfl
@[simp] theorem State.updFloor_haul (s : State) (i : Nat) (f : FloorSt → FloorSt) :
    (s.updFloor i f).haul = s.haul := rfl
@[simp] theorem State.updFloor_outs (s : State) (i : Nat) (f : FloorSt → FloorSt) :
    (s.updFloor i f).outs = s.outs := rfl
@[simp] theorem State.updFloor_lyr (s : State) (i : Nat) (f : FloorSt → FloorSt) :
    (s.updFloor i f).lyr = s.lyr := rfl
@[simp] theorem State.updFloor_lyrSnap (s : State) (i : Nat) (f : FloorSt → FloorSt) :
    (s.updFloor i f).lyrSnap = s.lyrSnap := rfl
@[simp] theorem State.updFloor_csr (s : State) (i : Nat) (f : FloorSt → FloorSt) :
    (s.updFloor i f).csr = s.csr := rfl
@[simp] theorem State.updFloor_cvu (s : State) (i : Nat) (f : FloorSt → FloorSt) :
    (s.updFloor i f).cvu = s.cvu := rfl
@[simp] theorem State.updFloor_cvSnap (s : State) (i : Nat) (f : FloorSt → FloorSt) :
    (s.updFloor i f).cvSnap = s.cvSnap := rfl
@[simp] theorem State.updFloor_tch (s : State) (i : Nat) (f : FloorSt → FloorSt) :
    (s.updFloor i f).tch = s.tch := rfl
@[simp] theorem State.updFloor_reflexDirty (s : State) (i : Nat) (f : FloorSt → FloorSt) :
    (s.updFloor i f).reflexDirty = s.reflexDirty := rfl
@[simp] theorem State.updFloor_pwResync (s : State) (i : Nat) (f : FloorSt → FloorSt) :
    (s.updFloor i f).pwResync = s.pwResync := rfl
@[simp] theorem State.updFloor_hap (s : State) (i : Nat) (f : FloorSt → FloorSt) :
    (s.updFloor i f).hap = s.hap := rfl
@[simp] theorem State.updFloor_hapShared (s : State) (i : Nat) (f : FloorSt → FloorSt) :
    (s.updFloor i f).hapShared = s.hapShared := rfl
@[simp] theorem State.updFloor_hst (s : State) (i : Nat) (f : FloorSt → FloorSt) :
    (s.updFloor i f).hst = s.hst := rfl
@[simp] theorem State.updFloor_ast (s : State) (i : Nat) (f : FloorSt → FloorSt) :
    (s.updFloor i f).ast = s.ast := rfl
@[simp] theorem State.updFloor_tdm (s : State) (i : Nat) (f : FloorSt → FloorSt) :
    (s.updFloor i f).tdm = s.tdm := rfl
@[simp] theorem State.updFloor_wld (s : State) (i : Nat) (f : FloorSt → FloorSt) :
    (s.updFloor i f).wld = s.wld := rfl
@[simp] theorem State.updFloor_cic (s : State) (i : Nat) (f : FloorSt → FloorSt) :
    (s.updFloor i f).cic = s.cic := rfl
@[simp] theorem State.updFloor_dmc (s : State) (i : Nat) (f : FloorSt → FloorSt) :
    (s.updFloor i f).dmc = s.dmc := rfl
@[simp] theorem State.updFloor_reductions (s : State) (i : Nat) (f : FloorSt → FloorSt) :
    (s.updFloor i f).reductions = s.reductions := rfl
@[simp] theorem State.updFloor_clk (s : State) (i : Nat) (f : FloorSt → FloorSt) :
    (s.updFloor i f).clk = s.clk := rfl
@[simp] theorem State.updFloor_pair (s : State) (i : Nat) (f : FloorSt → FloorSt) :
    (s.updFloor i f).pair = s.pair := rfl
@[simp] theorem State.updFloor_pwr (s : State) (i : Nat) (f : FloorSt → FloorSt) :
    (s.updFloor i f).pwr = s.pwr := rfl
@[simp] theorem State.updFloor_mem (s : State) (i : Nat) (f : FloorSt → FloorSt) :
    (s.updFloor i f).mem = s.mem := rfl
@[simp] theorem State.updFloor_freeCtr (s : State) (i : Nat) (f : FloorSt → FloorSt) :
    (s.updFloor i f).freeCtr = s.freeCtr := rfl
@[simp] theorem State.updFloor_emits (s : State) (i : Nat) (f : FloorSt → FloorSt) :
    (s.updFloor i f).emits = s.emits := rfl
@[simp] theorem State.updFloor_resp (s : State) (i : Nat) (f : FloorSt → FloorSt) :
    (s.updFloor i f).resp = s.resp := rfl
@[simp] theorem State.updFloor_pending (s : State) (i : Nat) (f : FloorSt → FloorSt) :
    (s.updFloor i f).pending = s.pending := rfl

@[simp] theorem State.updTdm_time (s : State) (i : Nat) (f : TdmSt → TdmSt) :
    (s.updTdm i f).time = s.time := rfl
@[simp] theorem State.updTdm_ticks (s : State) (i : Nat) (f : TdmSt → TdmSt) :
    (s.updTdm i f).ticks = s.ticks := rfl
@[simp] theorem State.updTdm_rate (s : State) (i : Nat) (f : TdmSt → TdmSt) :
    (s.updTdm i f).rate = s.rate := rfl
@[simp] theorem State.updTdm_cells (s : State) (i : Nat) (f : TdmSt → TdmSt) :
    (s.updTdm i f).cells = s.cells := rfl
@[simp] theorem State.updTdm_latches (s : State) (i : Nat) (f : TdmSt → TdmSt) :
    (s.updTdm i f).latches = s.latches := rfl
@[simp] theorem State.updTdm_hif (s : State) (i : Nat) (f : TdmSt → TdmSt) :
    (s.updTdm i f).hif = s.hif := rfl
@[simp] theorem State.updTdm_cmds (s : State) (i : Nat) (f : TdmSt → TdmSt) :
    (s.updTdm i f).cmds = s.cmds := rfl
@[simp] theorem State.updTdm_slices (s : State) (i : Nat) (f : TdmSt → TdmSt) :
    (s.updTdm i f).slices = s.slices := rfl
@[simp] theorem State.updTdm_haul (s : State) (i : Nat) (f : TdmSt → TdmSt) :
    (s.updTdm i f).haul = s.haul := rfl
@[simp] theorem State.updTdm_outs (s : State) (i : Nat) (f : TdmSt → TdmSt) :
    (s.updTdm i f).outs = s.outs := rfl
@[simp] theorem State.updTdm_lyr (s : State) (i : Nat) (f : TdmSt → TdmSt) :
    (s.updTdm i f).lyr = s.lyr := rfl
@[simp] theorem State.updTdm_lyrSnap (s : State) (i : Nat) (f : TdmSt → TdmSt) :
    (s.updTdm i f).lyrSnap = s.lyrSnap := rfl
@[simp] theorem State.updTdm_csr (s : State) (i : Nat) (f : TdmSt → TdmSt) :
    (s.updTdm i f).csr = s.csr := rfl
@[simp] theorem State.updTdm_cvu (s : State) (i : Nat) (f : TdmSt → TdmSt) :
    (s.updTdm i f).cvu = s.cvu := rfl
@[simp] theorem State.updTdm_floor (s : State) (i : Nat) (f : TdmSt → TdmSt) :
    (s.updTdm i f).floor = s.floor := rfl
@[simp] theorem State.updTdm_cvSnap (s : State) (i : Nat) (f : TdmSt → TdmSt) :
    (s.updTdm i f).cvSnap = s.cvSnap := rfl
@[simp] theorem State.updTdm_tch (s : State) (i : Nat) (f : TdmSt → TdmSt) :
    (s.updTdm i f).tch = s.tch := rfl
@[simp] theorem State.updTdm_reflexDirty (s : State) (i : Nat) (f : TdmSt → TdmSt) :
    (s.updTdm i f).reflexDirty = s.reflexDirty := rfl
@[simp] theorem State.updTdm_pwResync (s : State) (i : Nat) (f : TdmSt → TdmSt) :
    (s.updTdm i f).pwResync = s.pwResync := rfl
@[simp] theorem State.updTdm_hap (s : State) (i : Nat) (f : TdmSt → TdmSt) :
    (s.updTdm i f).hap = s.hap := rfl
@[simp] theorem State.updTdm_hapShared (s : State) (i : Nat) (f : TdmSt → TdmSt) :
    (s.updTdm i f).hapShared = s.hapShared := rfl
@[simp] theorem State.updTdm_hst (s : State) (i : Nat) (f : TdmSt → TdmSt) :
    (s.updTdm i f).hst = s.hst := rfl
@[simp] theorem State.updTdm_ast (s : State) (i : Nat) (f : TdmSt → TdmSt) :
    (s.updTdm i f).ast = s.ast := rfl
@[simp] theorem State.updTdm_wld (s : State) (i : Nat) (f : TdmSt → TdmSt) :
    (s.updTdm i f).wld = s.wld := rfl
@[simp] theorem State.updTdm_cic (s : State) (i : Nat) (f : TdmSt → TdmSt) :
    (s.updTdm i f).cic = s.cic := rfl
@[simp] theorem State.updTdm_dmc (s : State) (i : Nat) (f : TdmSt → TdmSt) :
    (s.updTdm i f).dmc = s.dmc := rfl
@[simp] theorem State.updTdm_reductions (s : State) (i : Nat) (f : TdmSt → TdmSt) :
    (s.updTdm i f).reductions = s.reductions := rfl
@[simp] theorem State.updTdm_clk (s : State) (i : Nat) (f : TdmSt → TdmSt) :
    (s.updTdm i f).clk = s.clk := rfl
@[simp] theorem State.updTdm_pair (s : State) (i : Nat) (f : TdmSt → TdmSt) :
    (s.updTdm i f).pair = s.pair := rfl
@[simp] theorem State.updTdm_pwr (s : State) (i : Nat) (f : TdmSt → TdmSt) :
    (s.updTdm i f).pwr = s.pwr := rfl
@[simp] theorem State.updTdm_mem (s : State) (i : Nat) (f : TdmSt → TdmSt) :
    (s.updTdm i f).mem = s.mem := rfl
@[simp] theorem State.updTdm_freeCtr (s : State) (i : Nat) (f : TdmSt → TdmSt) :
    (s.updTdm i f).freeCtr = s.freeCtr := rfl
@[simp] theorem State.updTdm_emits (s : State) (i : Nat) (f : TdmSt → TdmSt) :
    (s.updTdm i f).emits = s.emits := rfl
@[simp] theorem State.updTdm_resp (s : State) (i : Nat) (f : TdmSt → TdmSt) :
    (s.updTdm i f).resp = s.resp := rfl
@[simp] theorem State.updTdm_pending (s : State) (i : Nat) (f : TdmSt → TdmSt) :
    (s.updTdm i f).pending = s.pending := rfl

@[simp] theorem State.updHaul_time (s : State) (f : Haul → Haul) :
    (s.updHaul f).time = s.time := rfl
@[simp] theorem State.updHaul_ticks (s : State) (f : Haul → Haul) :
    (s.updHaul f).ticks = s.ticks := rfl
@[simp] theorem State.updHaul_rate (s : State) (f : Haul → Haul) :
    (s.updHaul f).rate = s.rate := rfl
@[simp] theorem State.updHaul_cells (s : State) (f : Haul → Haul) :
    (s.updHaul f).cells = s.cells := rfl
@[simp] theorem State.updHaul_latches (s : State) (f : Haul → Haul) :
    (s.updHaul f).latches = s.latches := rfl
@[simp] theorem State.updHaul_hif (s : State) (f : Haul → Haul) :
    (s.updHaul f).hif = s.hif := rfl
@[simp] theorem State.updHaul_cmds (s : State) (f : Haul → Haul) :
    (s.updHaul f).cmds = s.cmds := rfl
@[simp] theorem State.updHaul_slices (s : State) (f : Haul → Haul) :
    (s.updHaul f).slices = s.slices := rfl
@[simp] theorem State.updHaul_outs (s : State) (f : Haul → Haul) :
    (s.updHaul f).outs = s.outs := rfl
@[simp] theorem State.updHaul_lyr (s : State) (f : Haul → Haul) :
    (s.updHaul f).lyr = s.lyr := rfl
@[simp] theorem State.updHaul_lyrSnap (s : State) (f : Haul → Haul) :
    (s.updHaul f).lyrSnap = s.lyrSnap := rfl
@[simp] theorem State.updHaul_csr (s : State) (f : Haul → Haul) :
    (s.updHaul f).csr = s.csr := rfl
@[simp] theorem State.updHaul_cvu (s : State) (f : Haul → Haul) :
    (s.updHaul f).cvu = s.cvu := rfl
@[simp] theorem State.updHaul_floor (s : State) (f : Haul → Haul) :
    (s.updHaul f).floor = s.floor := rfl
@[simp] theorem State.updHaul_cvSnap (s : State) (f : Haul → Haul) :
    (s.updHaul f).cvSnap = s.cvSnap := rfl
@[simp] theorem State.updHaul_tch (s : State) (f : Haul → Haul) :
    (s.updHaul f).tch = s.tch := rfl
@[simp] theorem State.updHaul_reflexDirty (s : State) (f : Haul → Haul) :
    (s.updHaul f).reflexDirty = s.reflexDirty := rfl
@[simp] theorem State.updHaul_pwResync (s : State) (f : Haul → Haul) :
    (s.updHaul f).pwResync = s.pwResync := rfl
@[simp] theorem State.updHaul_hap (s : State) (f : Haul → Haul) :
    (s.updHaul f).hap = s.hap := rfl
@[simp] theorem State.updHaul_hapShared (s : State) (f : Haul → Haul) :
    (s.updHaul f).hapShared = s.hapShared := rfl
@[simp] theorem State.updHaul_hst (s : State) (f : Haul → Haul) :
    (s.updHaul f).hst = s.hst := rfl
@[simp] theorem State.updHaul_ast (s : State) (f : Haul → Haul) :
    (s.updHaul f).ast = s.ast := rfl
@[simp] theorem State.updHaul_tdm (s : State) (f : Haul → Haul) :
    (s.updHaul f).tdm = s.tdm := rfl
@[simp] theorem State.updHaul_wld (s : State) (f : Haul → Haul) :
    (s.updHaul f).wld = s.wld := rfl
@[simp] theorem State.updHaul_cic (s : State) (f : Haul → Haul) :
    (s.updHaul f).cic = s.cic := rfl
@[simp] theorem State.updHaul_dmc (s : State) (f : Haul → Haul) :
    (s.updHaul f).dmc = s.dmc := rfl
@[simp] theorem State.updHaul_reductions (s : State) (f : Haul → Haul) :
    (s.updHaul f).reductions = s.reductions := rfl
@[simp] theorem State.updHaul_clk (s : State) (f : Haul → Haul) :
    (s.updHaul f).clk = s.clk := rfl
@[simp] theorem State.updHaul_pair (s : State) (f : Haul → Haul) :
    (s.updHaul f).pair = s.pair := rfl
@[simp] theorem State.updHaul_pwr (s : State) (f : Haul → Haul) :
    (s.updHaul f).pwr = s.pwr := rfl
@[simp] theorem State.updHaul_mem (s : State) (f : Haul → Haul) :
    (s.updHaul f).mem = s.mem := rfl
@[simp] theorem State.updHaul_freeCtr (s : State) (f : Haul → Haul) :
    (s.updHaul f).freeCtr = s.freeCtr := rfl
@[simp] theorem State.updHaul_emits (s : State) (f : Haul → Haul) :
    (s.updHaul f).emits = s.emits := rfl
@[simp] theorem State.updHaul_resp (s : State) (f : Haul → Haul) :
    (s.updHaul f).resp = s.resp := rfl
@[simp] theorem State.updHaul_pending (s : State) (f : Haul → Haul) :
    (s.updHaul f).pending = s.pending := rfl

@[simp] theorem State.updPair_time (s : State) (f : Pair → Pair) :
    (s.updPair f).time = s.time := rfl
@[simp] theorem State.updPair_ticks (s : State) (f : Pair → Pair) :
    (s.updPair f).ticks = s.ticks := rfl
@[simp] theorem State.updPair_rate (s : State) (f : Pair → Pair) :
    (s.updPair f).rate = s.rate := rfl
@[simp] theorem State.updPair_cells (s : State) (f : Pair → Pair) :
    (s.updPair f).cells = s.cells := rfl
@[simp] theorem State.updPair_latches (s : State) (f : Pair → Pair) :
    (s.updPair f).latches = s.latches := rfl
@[simp] theorem State.updPair_hif (s : State) (f : Pair → Pair) :
    (s.updPair f).hif = s.hif := rfl
@[simp] theorem State.updPair_cmds (s : State) (f : Pair → Pair) :
    (s.updPair f).cmds = s.cmds := rfl
@[simp] theorem State.updPair_slices (s : State) (f : Pair → Pair) :
    (s.updPair f).slices = s.slices := rfl
@[simp] theorem State.updPair_haul (s : State) (f : Pair → Pair) :
    (s.updPair f).haul = s.haul := rfl
@[simp] theorem State.updPair_outs (s : State) (f : Pair → Pair) :
    (s.updPair f).outs = s.outs := rfl
@[simp] theorem State.updPair_lyr (s : State) (f : Pair → Pair) :
    (s.updPair f).lyr = s.lyr := rfl
@[simp] theorem State.updPair_lyrSnap (s : State) (f : Pair → Pair) :
    (s.updPair f).lyrSnap = s.lyrSnap := rfl
@[simp] theorem State.updPair_csr (s : State) (f : Pair → Pair) :
    (s.updPair f).csr = s.csr := rfl
@[simp] theorem State.updPair_cvu (s : State) (f : Pair → Pair) :
    (s.updPair f).cvu = s.cvu := rfl
@[simp] theorem State.updPair_floor (s : State) (f : Pair → Pair) :
    (s.updPair f).floor = s.floor := rfl
@[simp] theorem State.updPair_cvSnap (s : State) (f : Pair → Pair) :
    (s.updPair f).cvSnap = s.cvSnap := rfl
@[simp] theorem State.updPair_tch (s : State) (f : Pair → Pair) :
    (s.updPair f).tch = s.tch := rfl
@[simp] theorem State.updPair_reflexDirty (s : State) (f : Pair → Pair) :
    (s.updPair f).reflexDirty = s.reflexDirty := rfl
@[simp] theorem State.updPair_pwResync (s : State) (f : Pair → Pair) :
    (s.updPair f).pwResync = s.pwResync := rfl
@[simp] theorem State.updPair_hap (s : State) (f : Pair → Pair) :
    (s.updPair f).hap = s.hap := rfl
@[simp] theorem State.updPair_hapShared (s : State) (f : Pair → Pair) :
    (s.updPair f).hapShared = s.hapShared := rfl
@[simp] theorem State.updPair_hst (s : State) (f : Pair → Pair) :
    (s.updPair f).hst = s.hst := rfl
@[simp] theorem State.updPair_ast (s : State) (f : Pair → Pair) :
    (s.updPair f).ast = s.ast := rfl
@[simp] theorem State.updPair_tdm (s : State) (f : Pair → Pair) :
    (s.updPair f).tdm = s.tdm := rfl
@[simp] theorem State.updPair_wld (s : State) (f : Pair → Pair) :
    (s.updPair f).wld = s.wld := rfl
@[simp] theorem State.updPair_cic (s : State) (f : Pair → Pair) :
    (s.updPair f).cic = s.cic := rfl
@[simp] theorem State.updPair_dmc (s : State) (f : Pair → Pair) :
    (s.updPair f).dmc = s.dmc := rfl
@[simp] theorem State.updPair_reductions (s : State) (f : Pair → Pair) :
    (s.updPair f).reductions = s.reductions := rfl
@[simp] theorem State.updPair_clk (s : State) (f : Pair → Pair) :
    (s.updPair f).clk = s.clk := rfl
@[simp] theorem State.updPair_pwr (s : State) (f : Pair → Pair) :
    (s.updPair f).pwr = s.pwr := rfl
@[simp] theorem State.updPair_mem (s : State) (f : Pair → Pair) :
    (s.updPair f).mem = s.mem := rfl
@[simp] theorem State.updPair_freeCtr (s : State) (f : Pair → Pair) :
    (s.updPair f).freeCtr = s.freeCtr := rfl
@[simp] theorem State.updPair_emits (s : State) (f : Pair → Pair) :
    (s.updPair f).emits = s.emits := rfl
@[simp] theorem State.updPair_resp (s : State) (f : Pair → Pair) :
    (s.updPair f).resp = s.resp := rfl
@[simp] theorem State.updPair_pending (s : State) (f : Pair → Pair) :
    (s.updPair f).pending = s.pending := rfl

@[simp] theorem State.setDom_time (s : State) (i : Nat) (x : Dom) :
    (s.setDom i x).time = s.time := rfl
@[simp] theorem State.setDom_ticks (s : State) (i : Nat) (x : Dom) :
    (s.setDom i x).ticks = s.ticks := rfl
@[simp] theorem State.setDom_rate (s : State) (i : Nat) (x : Dom) :
    (s.setDom i x).rate = s.rate := rfl
@[simp] theorem State.setDom_cells (s : State) (i : Nat) (x : Dom) :
    (s.setDom i x).cells = s.cells := rfl
@[simp] theorem State.setDom_latches (s : State) (i : Nat) (x : Dom) :
    (s.setDom i x).latches = s.latches := rfl
@[simp] theorem State.setDom_hif (s : State) (i : Nat) (x : Dom) :
    (s.setDom i x).hif = s.hif := rfl
@[simp] theorem State.setDom_cmds (s : State) (i : Nat) (x : Dom) :
    (s.setDom i x).cmds = s.cmds := rfl
@[simp] theorem State.setDom_slices (s : State) (i : Nat) (x : Dom) :
    (s.setDom i x).slices = s.slices := rfl
@[simp] theorem State.setDom_haul (s : State) (i : Nat) (x : Dom) :
    (s.setDom i x).haul = s.haul := rfl
@[simp] theorem State.setDom_outs (s : State) (i : Nat) (x : Dom) :
    (s.setDom i x).outs = s.outs := rfl
@[simp] theorem State.setDom_lyr (s : State) (i : Nat) (x : Dom) :
    (s.setDom i x).lyr = s.lyr := rfl
@[simp] theorem State.setDom_lyrSnap (s : State) (i : Nat) (x : Dom) :
    (s.setDom i x).lyrSnap = s.lyrSnap := rfl
@[simp] theorem State.setDom_csr (s : State) (i : Nat) (x : Dom) :
    (s.setDom i x).csr = s.csr := rfl
@[simp] theorem State.setDom_cvu (s : State) (i : Nat) (x : Dom) :
    (s.setDom i x).cvu = s.cvu := rfl
@[simp] theorem State.setDom_floor (s : State) (i : Nat) (x : Dom) :
    (s.setDom i x).floor = s.floor := rfl
@[simp] theorem State.setDom_cvSnap (s : State) (i : Nat) (x : Dom) :
    (s.setDom i x).cvSnap = s.cvSnap := rfl
@[simp] theorem State.setDom_tch (s : State) (i : Nat) (x : Dom) :
    (s.setDom i x).tch = s.tch := rfl
@[simp] theorem State.setDom_reflexDirty (s : State) (i : Nat) (x : Dom) :
    (s.setDom i x).reflexDirty = s.reflexDirty := rfl
@[simp] theorem State.setDom_pwResync (s : State) (i : Nat) (x : Dom) :
    (s.setDom i x).pwResync = s.pwResync := rfl
@[simp] theorem State.setDom_hap (s : State) (i : Nat) (x : Dom) :
    (s.setDom i x).hap = s.hap := rfl
@[simp] theorem State.setDom_hapShared (s : State) (i : Nat) (x : Dom) :
    (s.setDom i x).hapShared = s.hapShared := rfl
@[simp] theorem State.setDom_hst (s : State) (i : Nat) (x : Dom) :
    (s.setDom i x).hst = s.hst := rfl
@[simp] theorem State.setDom_ast (s : State) (i : Nat) (x : Dom) :
    (s.setDom i x).ast = s.ast := rfl
@[simp] theorem State.setDom_tdm (s : State) (i : Nat) (x : Dom) :
    (s.setDom i x).tdm = s.tdm := rfl
@[simp] theorem State.setDom_wld (s : State) (i : Nat) (x : Dom) :
    (s.setDom i x).wld = s.wld := rfl
@[simp] theorem State.setDom_cic (s : State) (i : Nat) (x : Dom) :
    (s.setDom i x).cic = s.cic := rfl
@[simp] theorem State.setDom_dmc (s : State) (i : Nat) (x : Dom) :
    (s.setDom i x).dmc = s.dmc := rfl
@[simp] theorem State.setDom_reductions (s : State) (i : Nat) (x : Dom) :
    (s.setDom i x).reductions = s.reductions := rfl
@[simp] theorem State.setDom_pair (s : State) (i : Nat) (x : Dom) :
    (s.setDom i x).pair = s.pair := rfl
@[simp] theorem State.setDom_pwr (s : State) (i : Nat) (x : Dom) :
    (s.setDom i x).pwr = s.pwr := rfl
@[simp] theorem State.setDom_mem (s : State) (i : Nat) (x : Dom) :
    (s.setDom i x).mem = s.mem := rfl
@[simp] theorem State.setDom_freeCtr (s : State) (i : Nat) (x : Dom) :
    (s.setDom i x).freeCtr = s.freeCtr := rfl
@[simp] theorem State.setDom_emits (s : State) (i : Nat) (x : Dom) :
    (s.setDom i x).emits = s.emits := rfl
@[simp] theorem State.setDom_resp (s : State) (i : Nat) (x : Dom) :
    (s.setDom i x).resp = s.resp := rfl
@[simp] theorem State.setDom_pending (s : State) (i : Nat) (x : Dom) :
    (s.setDom i x).pending = s.pending := rfl

@[simp] theorem State.setMark_time (s : State) (i m : Nat) :
    (s.setMark i m).time = s.time := rfl
@[simp] theorem State.setMark_ticks (s : State) (i m : Nat) :
    (s.setMark i m).ticks = s.ticks := rfl
@[simp] theorem State.setMark_rate (s : State) (i m : Nat) :
    (s.setMark i m).rate = s.rate := rfl
@[simp] theorem State.setMark_cells (s : State) (i m : Nat) :
    (s.setMark i m).cells = s.cells := rfl
@[simp] theorem State.setMark_latches (s : State) (i m : Nat) :
    (s.setMark i m).latches = s.latches := rfl
@[simp] theorem State.setMark_hif (s : State) (i m : Nat) :
    (s.setMark i m).hif = s.hif := rfl
@[simp] theorem State.setMark_cmds (s : State) (i m : Nat) :
    (s.setMark i m).cmds = s.cmds := rfl
@[simp] theorem State.setMark_slices (s : State) (i m : Nat) :
    (s.setMark i m).slices = s.slices := rfl
@[simp] theorem State.setMark_haul (s : State) (i m : Nat) :
    (s.setMark i m).haul = s.haul := rfl
@[simp] theorem State.setMark_outs (s : State) (i m : Nat) :
    (s.setMark i m).outs = s.outs := rfl
@[simp] theorem State.setMark_lyr (s : State) (i m : Nat) :
    (s.setMark i m).lyr = s.lyr := rfl
@[simp] theorem State.setMark_lyrSnap (s : State) (i m : Nat) :
    (s.setMark i m).lyrSnap = s.lyrSnap := rfl
@[simp] theorem State.setMark_csr (s : State) (i m : Nat) :
    (s.setMark i m).csr = s.csr := rfl
@[simp] theorem State.setMark_cvu (s : State) (i m : Nat) :
    (s.setMark i m).cvu = s.cvu := rfl
@[simp] theorem State.setMark_floor (s : State) (i m : Nat) :
    (s.setMark i m).floor = s.floor := rfl
@[simp] theorem State.setMark_cvSnap (s : State) (i m : Nat) :
    (s.setMark i m).cvSnap = s.cvSnap := rfl
@[simp] theorem State.setMark_tch (s : State) (i m : Nat) :
    (s.setMark i m).tch = s.tch := rfl
@[simp] theorem State.setMark_reflexDirty (s : State) (i m : Nat) :
    (s.setMark i m).reflexDirty = s.reflexDirty := rfl
@[simp] theorem State.setMark_pwResync (s : State) (i m : Nat) :
    (s.setMark i m).pwResync = s.pwResync := rfl
@[simp] theorem State.setMark_hap (s : State) (i m : Nat) :
    (s.setMark i m).hap = s.hap := rfl
@[simp] theorem State.setMark_hapShared (s : State) (i m : Nat) :
    (s.setMark i m).hapShared = s.hapShared := rfl
@[simp] theorem State.setMark_hst (s : State) (i m : Nat) :
    (s.setMark i m).hst = s.hst := rfl
@[simp] theorem State.setMark_ast (s : State) (i m : Nat) :
    (s.setMark i m).ast = s.ast := rfl
@[simp] theorem State.setMark_tdm (s : State) (i m : Nat) :
    (s.setMark i m).tdm = s.tdm := rfl
@[simp] theorem State.setMark_wld (s : State) (i m : Nat) :
    (s.setMark i m).wld = s.wld := rfl
@[simp] theorem State.setMark_cic (s : State) (i m : Nat) :
    (s.setMark i m).cic = s.cic := rfl
@[simp] theorem State.setMark_reductions (s : State) (i m : Nat) :
    (s.setMark i m).reductions = s.reductions := rfl
@[simp] theorem State.setMark_clk (s : State) (i m : Nat) :
    (s.setMark i m).clk = s.clk := rfl
@[simp] theorem State.setMark_pair (s : State) (i m : Nat) :
    (s.setMark i m).pair = s.pair := rfl
@[simp] theorem State.setMark_pwr (s : State) (i m : Nat) :
    (s.setMark i m).pwr = s.pwr := rfl
@[simp] theorem State.setMark_mem (s : State) (i m : Nat) :
    (s.setMark i m).mem = s.mem := rfl
@[simp] theorem State.setMark_freeCtr (s : State) (i m : Nat) :
    (s.setMark i m).freeCtr = s.freeCtr := rfl
@[simp] theorem State.setMark_emits (s : State) (i m : Nat) :
    (s.setMark i m).emits = s.emits := rfl
@[simp] theorem State.setMark_resp (s : State) (i m : Nat) :
    (s.setMark i m).resp = s.resp := rfl
@[simp] theorem State.setMark_pending (s : State) (i m : Nat) :
    (s.setMark i m).pending = s.pending := rfl

/-! ### Each accessor after the updates of its table -/

theorem State.rd_wr (s : State) (a b : Nat) (w : Word) : (s.wr a w).rd b = if b = a then w else s.rd b := by
  unfold State.rd State.wr
  split
  · subst_vars; exact Tab.get_set_same ..
  · exact Tab.get_set_ne _ _ _ _ _ _ (by assumption)

@[simp] theorem State.rd_wr_same (s : State) (a : Nat) (w : Word) : (s.wr a w).rd a = w := by simp [State.rd_wr]

theorem State.rd_wr_other (s : State) {a b : Nat} (w : Word) (h : b ≠ a) : (s.wr a w).rd b = s.rd b := by
  simp [State.rd_wr, h]

theorem State.rd_put_other (s : State) {a b : Nat} (f : Fld) (v : Nat) (h : b ≠ a) : (s.put a f v).rd b = s.rd b :=
  s.rd_wr_other _ h

theorem State.fld_put_other (s : State) {a b : Nat} (f g : Fld) (v : Nat) (h : b ≠ a) :
    (s.put a f v).fld b g = s.fld b g := by simp only [State.fld, s.rd_put_other f v h]

theorem State.fld_put_same (s : State) (a : Nat) (f : Fld) (v : Nat) (h : f.lo ≤ f.hi) (k : f.hi ≤ 31) :
    (s.put a f v).fld a f = v % 2 ^ (f.hi + 1 - f.lo) := by
  simp only [State.fld, State.put, State.rd_wr_same, Fld.get_put_same f _ v h k]

theorem State.fld_put_disjoint (s : State) (a : Nat) (f g : Fld) (v : Nat) (hf : f.lo ≤ f.hi) (kf : f.hi ≤ 31)
    (hg : g.lo ≤ g.hi) (d : g.hi < f.lo ∨ f.hi < g.lo) : (s.put a f v).fld a g = s.fld a g := by
  simp only [State.fld, State.put, State.rd_wr_same, Fld.get_put_disjoint f g _ v hf kf hg d]

theorem State.slice_setSlice (s : State) (i j : Nat) (x : Slice) :
    (s.setSlice i x).slice j = if j = i then x else s.slice j := by
  unfold State.slice State.setSlice
  simp only [Tab.get_set]

@[simp] theorem State.slice_setSlice_same (s : State) (i : Nat) (x : Slice) : (s.setSlice i x).slice i = x := by
  simp [State.slice_setSlice]

theorem State.space_setSpace (s : State) (i j : Nat) (x : CmdSpace) :
    (s.setSpace i x).space j = if j = i then x else s.space j := by
  unfold State.space State.setSpace
  simp only [Tab.get_set]

@[simp] theorem State.space_setSpace_same (s : State) (i : Nat) (x : CmdSpace) : (s.setSpace i x).space i = x := by
  simp [State.space_setSpace]

theorem State.out_setOut (s : State) (i j : Nat) (x : OutSt) :
    (s.setOut i x).out j = if j = i then x else s.out j := by
  unfold State.out State.setOut
  simp only [Tab.get_set]

@[simp] theorem State.out_setOut_same (s : State) (i : Nat) (x : OutSt) : (s.setOut i x).out i = x := by
  simp [State.out_setOut]

theorem State.layer_setLayer (s : State) (i j : Nat) (x : LyrSt) :
    (s.setLayer i x).layer j = if j = i then x else s.layer j := by
  unfold State.layer State.setLayer
  simp only [Tab.get_set]

@[simp] theorem State.layer_setLayer_same (s : State) (i : Nat) (x : LyrSt) : (s.setLayer i x).layer i = x := by
  simp [State.layer_setLayer]

theorem State.region_setRegion (s : State) (i j : Nat) (x : CsrSt) :
    (s.setRegion i x).region j = if j = i then x else s.region j := by
  unfold State.region State.setRegion
  simp only [Tab.get_set]

@[simp] theorem State.region_setRegion_same (s : State) (i : Nat) (x : CsrSt) : (s.setRegion i x).region i = x := by
  simp [State.region_setRegion]

theorem State.panel_setPanel (s : State) (i j : Nat) (x : TchSt) :
    (s.setPanel i x).panel j = if j = i then x else s.panel j := by
  unfold State.panel State.setPanel
  simp only [Tab.get_set]

@[simp] theorem State.panel_setPanel_same (s : State) (i : Nat) (x : TchSt) : (s.setPanel i x).panel i = x := by
  simp [State.panel_setPanel]

theorem State.chan_setChan (s : State) (i j : Nat) (x : HapSt) :
    (s.setChan i x).chan j = if j = i then x else s.chan j := by
  unfold State.chan State.setChan
  simp only [Tab.get_set]

@[simp] theorem State.chan_setChan_same (s : State) (i : Nat) (x : HapSt) : (s.setChan i x).chan i = x := by
  simp [State.chan_setChan]

theorem State.core_setCore (s : State) (i j : Nat) (x : CoreSt) :
    (s.setCore i x).core j = if j = i then x else s.core j := by
  unfold State.core State.setCore
  simp only [Tab.get_set]

@[simp] theorem State.core_setCore_same (s : State) (i : Nat) (x : CoreSt) : (s.setCore i x).core i = x := by
  simp [State.core_setCore]

theorem State.src_setSrc (s : State) (i j : Nat) (x : Src) :
    (s.setSrc i x).src j = if j = i then x else s.src j := by
  unfold State.src State.setSrc
  simp only [Tab.get_set]

@[simp] theorem State.src_setSrc_same (s : State) (i : Nat) (x : Src) : (s.setSrc i x).src i = x := by
  simp [State.src_setSrc]

@[simp] theorem State.slice_updSlice_same (s : State) (i : Nat) (f : Slice → Slice) :
    (s.updSlice i f).slice i = f (s.slice i) := by
  unfold State.updSlice; simp

theorem State.slice_updSlice_other (s : State) {i j : Nat} (f : Slice → Slice) (h : j ≠ i) :
    (s.updSlice i f).slice j = s.slice j := by
  unfold State.updSlice; simp [State.slice_setSlice, h]

@[simp] theorem State.space_updSpace_same (s : State) (i : Nat) (f : CmdSpace → CmdSpace) :
    (s.updSpace i f).space i = f (s.space i) := by
  unfold State.updSpace; simp

theorem State.space_updSpace_other (s : State) {i j : Nat} (f : CmdSpace → CmdSpace) (h : j ≠ i) :
    (s.updSpace i f).space j = s.space j := by
  unfold State.updSpace; simp [State.space_setSpace, h]

@[simp] theorem State.out_updOut_same (s : State) (i : Nat) (f : OutSt → OutSt) :
    (s.updOut i f).out i = f (s.out i) := by
  unfold State.updOut; simp

theorem State.out_updOut_other (s : State) {i j : Nat} (f : OutSt → OutSt) (h : j ≠ i) :
    (s.updOut i f).out j = s.out j := by
  unfold State.updOut; simp [State.out_setOut, h]

@[simp] theorem State.layer_updLayer_same (s : State) (i : Nat) (f : LyrSt → LyrSt) :
    (s.updLayer i f).layer i = f (s.layer i) := by
  unfold State.updLayer; simp

theorem State.layer_updLayer_other (s : State) {i j : Nat} (f : LyrSt → LyrSt) (h : j ≠ i) :
    (s.updLayer i f).layer j = s.layer j := by
  unfold State.updLayer; simp [State.layer_setLayer, h]

@[simp] theorem State.panel_updPanel_same (s : State) (i : Nat) (f : TchSt → TchSt) :
    (s.updPanel i f).panel i = f (s.panel i) := by
  unfold State.updPanel; simp

theorem State.panel_updPanel_other (s : State) {i j : Nat} (f : TchSt → TchSt) (h : j ≠ i) :
    (s.updPanel i f).panel j = s.panel j := by
  unfold State.updPanel; simp [State.panel_setPanel, h]

@[simp] theorem State.chan_updChan_same (s : State) (i : Nat) (f : HapSt → HapSt) :
    (s.updChan i f).chan i = f (s.chan i) := by
  unfold State.updChan; simp

theorem State.chan_updChan_other (s : State) {i j : Nat} (f : HapSt → HapSt) (h : j ≠ i) :
    (s.updChan i f).chan j = s.chan j := by
  unfold State.updChan; simp [State.chan_setChan, h]

@[simp] theorem State.core_updCore_same (s : State) (i : Nat) (f : CoreSt → CoreSt) :
    (s.updCore i f).core i = f (s.core i) := by
  unfold State.updCore; simp

theorem State.core_updCore_other (s : State) {i j : Nat} (f : CoreSt → CoreSt) (h : j ≠ i) :
    (s.updCore i f).core j = s.core j := by
  unfold State.updCore; simp [State.core_setCore, h]

end Sys2Proof.Machine
end

