-- ==== Sys2Proof/Laws/Bus.lean ====
section
/-!
SUPPORT. What a write of one register does when the bus serves it, and what an event of a page reaches.
-/

namespace Sys2Proof.Machine

/-! ### A write of one register -/

theorem dataWords_leBytes (v : Word) : dataWords (leBytes 4 v.toNat) = [v] := by
  have h : v.toNat < 2 ^ 32 := v.isLt
  have e : blobNum (leBytes 4 v.toNat) 0 4 = v.toNat := by
    simp only [blobNum, leBytes, leNat, List.drop, List.take, BitVec.toNat_ofNat]
    omega
  have l : dataWords (leBytes 4 v.toNat) = [w32 (blobNum (leBytes 4 v.toNat) (4 * 0) 4)] := by
    unfold dataWords
    have hl : (leBytes 4 v.toNat).length = 4 := rfl
    rw [hl]; rfl
  rw [l, Nat.mul_zero, e]
  congr 1
  simp [w32]

@[simp] theorem State.serves_begin (s : State) (r : Req) (off : Nat) : s.begin.serves r off = s.serves r off := rfl

@[simp] theorem State.reach_begin (s : State) (r : Req) (off : Nat) : s.begin.reach r off = s.reach r off := rfl

/-- What `serves` says, clause by clause. -/
theorem State.serves_spec {s : State} {r : Req} {off : Nat} (h : s.serves r off = true) :
    (∀ p, r = .host p → s.pasidOk p off = true) ∧
    ∃ ty inst, s.reach r off = some (ty, inst) ∧
      (Decidable.decide (ty < 0x100) && s.pageWorld1 (pageOf off) && !s.reqProtected r) = false ∧
      (Decidable.decide (0x100 ≤ ty) && s.windowFrozen inst) = false ∧ s.softResetting (pageOf off) = false ∧
      (s.secondary && !localPage off) = false := by
  unfold State.serves at h
  rw [Bool.and_eq_true] at h
  obtain ⟨h1, h2⟩ := h
  refine ⟨fun p e => by subst e; exact h1, ?_⟩
  split at h2
  · cases h2
  · rename_i ty inst e
    refine ⟨ty, inst, e, ?_⟩
    simp only [Bool.and_eq_true, Bool.not_eq_true'] at h2
    obtain ⟨⟨⟨a, b⟩, c⟩, d⟩ := h2
    exact ⟨a, b, c, d⟩

/-- A write of one register that the bus serves acts once, goes to the secondary, and completes. -/
theorem writeWord_of_serves {s : State} {r : Req} {off ty inst : Nat} {v : Word} (ha : off % 4 = 0)
    (h : s.serves r off = true) (hp : s.reach r off = some (ty, inst)) :
    writeWord r off v s = State.answered (writeReg r ty inst off v s) off v := by
  obtain ⟨h1, ty', inst', e, w, f, g, m⟩ := State.serves_spec h
  obtain ⟨rfl, rfl⟩ : ty = ty' ∧ inst = inst' := by
    rw [hp] at e; exact ⟨congrArg Prod.fst (Option.some.inj e), congrArg Prod.snd (Option.some.inj e)⟩
  have hl : (leBytes 4 v.toNat).length = 4 := rfl
  have hs : sizeOk true off (leBytes 4 v.toNat).length = true := by rw [hl]; simp [sizeOk, ha]
  have hw : s.writeAt r ty inst off (leBytes 4 v.toNat) false = (writeReg r ty inst off v s).mirrorReg off v false := by
    unfold State.writeAt
    rw [dataWords_leBytes]
    have f' : (decide (0x100 ≤ ty) && decide (0x040 ≤ off % 0x1000) && s.windowFrozen inst) = false := by
      revert f; cases decide (0x100 ≤ ty) <;> cases s.windowFrozen inst <;> simp
    simp only [Bool.false_eq_true, if_false, w, f', State.writeAll]
    unfold State.writeOne
    simp only [g, m, Bool.false_and, Bool.false_eq_true, if_false]
  unfold writeWord busWrite
  cases r with
  | host p =>
    simp only [h1 p rfl, Bool.not_true, Bool.and_false, Bool.false_eq_true, if_false, hp, hs, hw]
    rfl
  | core c =>
    simp only [Bool.false_eq_true, if_false, hp, hs, hw]
    rfl

/-! ### Events -/

theorem State.rd_setPba (s : State) (vec a : Nat) (b : Bool) (h : a ≠ K.pba (vec / 32)) :
    (s.setPba vec b).rd a = s.rd a := s.rd_put_other _ _ h

theorem State.rd_message (s : State) (vec a : Nat) (h : a ≠ K.pba (vec / 32)) : (s.message vec).rd a = s.rd a := by
  unfold State.message State.dueMsix
  split
  · split <;> rfl
  · exact s.rd_setPba vec a true h

theorem vecOf_lt (sl : Option Nat) (v : Nat) (h : v < 8) : vecOf sl v < 2048 := by
  unfold vecOf
  split
  · split <;> omega
  · omega

theorem State.rd_holdLine (s : State) (v a : Nat) : (s.holdLine v).rd a = s.rd a := by
  unfold State.holdLine
  split <;> rfl

theorem State.rd_signal (s : State) (sl : Option Nat) (v pg a : Nat) (hv : v < 8) (h : told pg a = false) :
    (s.signal sl v).rd a = s.rd a := by
  simp only [told, Bool.or_eq_false_iff, Bool.and_eq_false_iff, beq_eq_false_iff_ne, decide_eq_false_iff_not] at h
  obtain ⟨⟨-, h2⟩, h3⟩ := h
  have k : ∀ vec, vec < 2048 → a ≠ K.pba (vec / 32) := by
    intro vec hvec e
    simp only [K.pba] at h3 e
    omega
  unfold State.signal
  split
  · rfl
  · have hm := k _ (vecOf_lt sl v hv)
    have go : ∀ u : State, u.rd a = s.rd a →
        (if (sl == some 255 && (u.slice 255).st == .detached) = true then u.holdLine v else u.message (vecOf sl v)).rd a =
          s.rd a := by
      intro u hu
      split
      · exact (u.rd_holdLine v a).trans hu
      · exact (u.rd_message _ _ hm).trans hu
    split
    · split
      · exact go _ rfl
      · exact go _ (s.rd_put_other _ _ h2)
    · exact go _ (s.rd_put_other _ _ h2)

theorem State.rd_signalPage (s : State) (p pg a : Nat) (h : told pg a = false) : (s.signalPage p).rd a = s.rd a := by
  unfold State.signalPage
  split
  · rfl
  · split
    · exact s.rd_signal _ _ pg a (by omega) h
    · split
      · rename_i v hv
        refine s.rd_signal _ _ pg a ?_ h
        unfold State.stationLine at hv
        split at hv <;> (try split at hv) <;> simp_all
        all_goals omega
      · rfl

theorem State.rd_syncSource (s : State) (pg a : Nat) : (s.syncSource pg).rd a = s.rd a := by
  unfold State.rd
  rw [(syncSource_keeps s pg).same .cells rfl]

/-- An event of a page changes no register but those of `told`. -/
theorem State.rd_pageEvent (s : State) (pg bits a : Nat) (h : told pg a = false) : (s.pageEvent pg bits).rd a = s.rd a := by
  have hx : a ≠ pg + 0x10 := by
    simp only [told, Bool.or_eq_false_iff, beq_eq_false_iff_ne] at h
    exact h.1.1
  have go : ∀ old, ((s.wr (pg + 0x10) (s.rd (pg + 0x10) ||| w32 bits)).afterOutput pg old).rd a = s.rd a := by
    intro old
    unfold State.afterOutput
    simp only
    split
    · rw [State.rd_signalPage _ _ pg a h, State.rd_syncSource, s.rd_wr_other _ hx]
    · rw [State.rd_syncSource, s.rd_wr_other _ hx]
  unfold State.pageEvent
  simp only
  split
  · split
    · exact go _
    · rfl
  · rfl

theorem State.rd_event (s : State) (ty inst bit a : Nat) (h : told (pageBase ty inst) a = false) :
    (s.event ty inst bit).rd a = s.rd a := s.rd_pageEvent _ _ _ h

end Sys2Proof.Machine
end

