-- ==== Sys2Proof/Laws/Frame2.lean ====
section
/-!
SUPPORT. What each operation of the machine keeps (part 2 of 9): the parts of State that it may change are listed, every other
part stays, the queue stays, and no table leaves its canonical form.
-/

namespace Sys2Proof.Machine

theorem startImport_keeps (sl : ℕ) (c : Cmd) (s : State) : Keeps [.cells, .hif, .cmds, .haul, .cvu, .pair, .freeCtr,
    .emits] s (startImport sl c s) := by
  unfold startImport
  show let r4 := _; Keeps _ _ r4
  intro r4
  extract_lets -descend +onlyGivenNames v5 at r4
  extract_lets -descend +onlyGivenNames v6 at r4
  subst r4
  split
  · refine Keeps.ite ?_ ?_
    · refine Keeps.next (State.fail_keeps ..) rfl ?_
      exact Keeps.refl
    · split
      · refine Keeps.next (State.fail_keeps ..) rfl ?_
        exact Keeps.refl
      · split
        · refine Keeps.next (State.fail_keeps ..) rfl ?_
          exact Keeps.refl
        · rename_i _ _ st7 e8
          have hst7 : Keeps [.cells, .hif, .cmds, .haul, .cvu, .pair, .freeCtr, .emits] s st7 := by
            refine Keeps.next (State.importTarget_keeps e8) rfl ?_
            exact Keeps.refl
          split
          · show let r9 := _; Keeps _ _ r9
            intro r9
            extract_lets -descend +onlyGivenNames v10 at r9
            extract_lets -descend +onlyGivenNames v11 at r9
            extract_lets -descend +onlyGivenNames v12 at r9
            extract_lets -descend +onlyGivenNames st13 at r9
            have hst13 : Keeps [.cells, .hif, .cmds, .haul, .cvu, .pair, .freeCtr, .emits] s st13 := by
              subst st13
              refine Keeps.next (State.addXfer_keeps ..) rfl ?_
              exact hst7
            try clear_value st13
            subst r9
            refine Keeps.next (State.snoopOn_keeps ..) rfl ?_
            exact hst13

theorem State.hold_keeps (s : State) (vid : ℕ) (p : Holder) : Keeps [.haul] s (State.hold s vid p) := by
  unfold State.hold
  split
  · exact Keeps.refl
  · refine Keeps.ite ?_ ?_
    · exact Keeps.refl
    · refine Keeps.next (State.putVersion_keeps ..) rfl ?_
      exact Keeps.refl

theorem startExport_keeps (sl : ℕ) (c : Cmd) (s : State) : Keeps [.cells, .hif, .cmds, .haul, .cvu, .pair, .emits] s
    (startExport sl c s) := by
  unfold startExport
  show let r4 := _; Keeps _ _ r4
  intro r4
  extract_lets -descend +onlyGivenNames v5 at r4
  subst r4
  split
  · refine Keeps.next (State.fail_keeps ..) rfl ?_
    exact Keeps.refl
  · split
    · refine Keeps.next (State.fail_keeps ..) rfl ?_
      exact Keeps.refl
    · split
      · refine Keeps.next (State.fail_keeps ..) rfl ?_
        exact Keeps.refl
      · split
        · show let r6 := _; Keeps _ _ r6
          intro r6
          extract_lets -descend +onlyGivenNames v7 at r6
          extract_lets -descend +onlyGivenNames st8 at r6
          have hst8 : Keeps [.cells, .hif, .cmds, .haul, .cvu, .pair, .emits] s st8 := by
            subst st8
            refine Keeps.next (State.hold_keeps ..) rfl ?_
            exact Keeps.refl
          try clear_value st8
          extract_lets -descend +onlyGivenNames st9 at r6
          have hst9 : Keeps [.cells, .hif, .cmds, .haul, .cvu, .pair, .emits] s st9 := by
            subst st9
            refine Keeps.next (State.addXfer_keeps ..) rfl ?_
            exact hst8
          try clear_value st9
          subst r6
          refine Keeps.next (State.snoopOn_keeps ..) rfl ?_
          exact hst9

theorem State.setSlice_keeps (s : State) (i : ℕ) (x : Slice) : Keeps [.slices] s (State.setSlice s i x) := by
  unfold State.setSlice
  refine Keeps.set_slices (x := s) rfl (fun h => Tab.wf_set _ _ _ _ h) ?_
  exact Keeps.refl

theorem State.updSlice_keeps (s : State) (i : ℕ) (f : Slice → Slice) : Keeps [.slices] s (State.updSlice s i f) := by
  unfold State.updSlice
  refine Keeps.next (State.setSlice_keeps ..) rfl ?_
  exact Keeps.refl

theorem State.markFreed_keeps (s : State) (sl : ℕ) (ident : ℕ) : Keeps [.slices] s (State.markFreed s sl ident) := by
  unfold State.markFreed
  refine Keeps.next (State.updSlice_keeps ..) rfl ?_
  exact Keeps.refl

theorem State.markDirty_keeps (s : State) (sl : ℕ) (ident : ℕ) : Keeps [.slices] s (State.markDirty s sl ident) := by
  unfold State.markDirty
  refine Keeps.next (State.updSlice_keeps ..) rfl ?_
  exact Keeps.refl

theorem State.captureLost_keeps (s : State) (x : Xfer) : Keeps [.slices] s (State.captureLost s x) := by
  unfold State.captureLost
  refine Keeps.ite ?_ ?_
  · refine Keeps.each (fun st3 x4 => ?_) ?_
    · refine Keeps.next (State.markDirty_keeps ..) rfl ?_
      exact Keeps.refl
    · exact Keeps.refl
  · exact Keeps.refl

theorem State.tidyEngines_keeps (s : State) : Keeps [.haul] s (State.tidyEngines s) := by
  unfold State.tidyEngines
  refine Keeps.next (State.updHaul_keeps ..) rfl ?_
  exact Keeps.refl

theorem State.cancelReads_keeps (s : State) (p : ReadFor → Bool) : Keeps [.hif] s (State.cancelReads s p) := by
  unfold State.cancelReads
  refine Keeps.set_hif (x := s) rfl ?_
  exact Keeps.refl

theorem State.stopXfer_keeps (s : State) (sp : ℕ) (handle : ℕ) : Keeps [.hif, .slices, .haul] s (State.stopXfer s sp
    handle) := by
  unfold State.stopXfer
  show let r4 := _; Keeps _ _ r4
  intro r4
  extract_lets -descend +onlyGivenNames st5 at r4
  have hst5 : Keeps [.hif, .slices, .haul] s st5 := by
    subst st5
    refine Keeps.next (State.updHaul_keeps ..) rfl ?_
    exact Keeps.refl
  try clear_value st5
  extract_lets -descend +onlyGivenNames st6 at r4
  have hst6 : Keeps [.hif, .slices, .haul] s st6 := by
    subst st6
    refine Keeps.ite ?_ ?_
    · refine Keeps.next (State.updSlice_keeps ..) rfl ?_
      exact hst5
    · exact hst5
  try clear_value st6
  subst r4
  refine Keeps.next (State.cancelReads_keeps ..) rfl ?_
  exact hst6

theorem State.cvEnd_keeps (s : State) (n : ℕ) : Keeps [.cvu] s (State.cvEnd s n) := by
  unfold State.cvEnd
  refine Keeps.next (State.setCvFeed_keeps ..) rfl ?_
  exact Keeps.refl

theorem State.releaseDone_keeps (s : State) (v : Version) : Keeps [.cells, .hif, .cmds, .pair, .emits] s
    (State.releaseDone s v) := by
  unfold State.releaseDone
  refine Keeps.ite ?_ ?_
  · split
    · exact Keeps.refl
    · refine Keeps.next (State.complete_keeps ..) rfl ?_
      exact Keeps.refl
  · exact Keeps.refl

theorem State.freeVersion_keeps (s : State) (vid : ℕ) : Keeps [.cells, .hif, .cmds, .haul, .pair, .emits] s
    (State.freeVersion s vid) := by
  unfold State.freeVersion
  split
  · exact Keeps.refl
  · refine Keeps.next (State.releaseDone_keeps ..) rfl ?_
    refine Keeps.next (State.putVersion_keeps ..) rfl ?_
    exact Keeps.refl

theorem State.endHold_keeps (s : State) (vid : ℕ) (p : Holder) : Keeps [.cells, .hif, .cmds, .haul, .pair, .emits] s
    (State.endHold s vid p) := by
  unfold State.endHold
  split
  · exact Keeps.refl
  · refine Keeps.ite ?_ ?_
    · show let r4 := _; Keeps _ _ r4
      intro r4
      extract_lets -descend +onlyGivenNames v5 at r4
      extract_lets -descend +onlyGivenNames st6 at r4
      have hst6 : Keeps [.cells, .hif, .cmds, .haul, .pair, .emits] s st6 := by
        subst st6
        refine Keeps.next (State.putVersion_keeps ..) rfl ?_
        exact Keeps.refl
      try clear_value st6
      subst r4
      refine Keeps.ite ?_ ?_
      · refine Keeps.next (State.freeVersion_keeps ..) rfl ?_
        exact hst6
      · exact hst6
    · exact Keeps.refl

theorem State.endCmdHolds_keeps (s : State) (sp : ℕ) (handle : ℕ) : Keeps [.cells, .hif, .cmds, .haul, .pair,
    .emits] s (State.endCmdHolds s sp handle) := by
  unfold State.endCmdHolds
  refine Keeps.each (fun st4 x5 => ?_) ?_
  · refine Keeps.next (State.endHold_keeps ..) rfl ?_
    exact Keeps.refl
  · exact Keeps.refl

theorem State.dropXfer_keeps (s : State) (x : Xfer) : Keeps [.cells, .hif, .cmds, .slices, .haul, .cvu, .pair,
    .emits] s (State.dropXfer s x) := by
  unfold State.dropXfer
  show let r3 := _; Keeps _ _ r3
  intro r3
  extract_lets -descend +onlyGivenNames st4 at r3
  have hst4 : Keeps [.cells, .hif, .cmds, .slices, .haul, .cvu, .pair, .emits] s st4 := by
    subst st4
    refine Keeps.next (State.captureLost_keeps ..) rfl ?_
    exact Keeps.refl
  try clear_value st4
  extract_lets -descend +onlyGivenNames st5 at r3
  have hst5 : Keeps [.cells, .hif, .cmds, .slices, .haul, .cvu, .pair, .emits] s st5 := by
    subst st5
    refine Keeps.next (State.tidyEngines_keeps ..) rfl ?_
    refine Keeps.next (State.stopXfer_keeps ..) rfl ?_
    exact hst4
  try clear_value st5
  extract_lets -descend +onlyGivenNames st6 at r3
  have hst6 : Keeps [.cells, .hif, .cmds, .slices, .haul, .cvu, .pair, .emits] s st6 := by
    subst st6
    split
    · refine Keeps.next (State.cvEnd_keeps ..) rfl ?_
      exact hst5
    · exact hst5
  try clear_value st6
  extract_lets -descend +onlyGivenNames st7 at r3
  have hst7 : Keeps [.cells, .hif, .cmds, .slices, .haul, .cvu, .pair, .emits] s st7 := by
    subst st7
    refine Keeps.next (State.endCmdHolds_keeps ..) rfl ?_
    exact hst6
  try clear_value st7
  subst r3
  split
  · exact hst7
  · show let r8 := _; Keeps _ _ r8
    intro r8
    extract_lets -descend +onlyGivenNames v9 at r8
    extract_lets -descend +onlyGivenNames st10 at r8
    have hst10 : Keeps [.cells, .hif, .cmds, .slices, .haul, .cvu, .pair, .emits] s st10 := by
      subst st10
      refine Keeps.ite ?_ ?_
      · refine Keeps.next (State.putSurface_keeps ..) rfl ?_
        exact hst7
      · exact hst7
    try clear_value st10
    subst r8
    refine Keeps.next (State.freeVersion_keeps ..) rfl ?_
    exact hst10

theorem State.failXfer_keeps (s : State) (x : Xfer) (status : ℕ) (detail : ℕ) : Keeps [.cells, .hif, .cmds, .slices,
    .haul, .cvu, .pair, .emits] s (State.failXfer s x status detail) := by
  unfold State.failXfer
  refine Keeps.next (State.fail_keeps ..) rfl ?_
  refine Keeps.next (State.dropXfer_keeps ..) rfl ?_
  exact Keeps.refl

theorem State.endImportsInto_keeps (s : State) (sl : ℕ) (ident : ℕ) : Keeps [.cells, .hif, .cmds, .slices, .haul,
    .cvu, .pair, .emits] s (State.endImportsInto s sl ident) := by
  unfold State.endImportsInto
  refine Keeps.each (fun st4 x5 => ?_) ?_
  · refine Keeps.next (State.failXfer_keeps ..) rfl ?_
    exact Keeps.refl
  · exact Keeps.refl

theorem State.retire_keeps (s : State) (vid : ℕ) : Keeps [.cells, .hif, .cmds, .haul, .pair, .emits] s (State.retire
    s vid) := by
  unfold State.retire
  split
  · exact Keeps.refl
  · refine Keeps.ite ?_ ?_
    · refine Keeps.next (State.freeVersion_keeps ..) rfl ?_
      exact Keeps.refl
    · refine Keeps.next (State.putVersion_keeps ..) rfl ?_
      exact Keeps.refl

theorem State.retireAll_keeps (s : State) (sl : ℕ) (ident : ℕ) : Keeps [.cells, .hif, .cmds, .haul, .pair, .emits] s
    (State.retireAll s sl ident) := by
  unfold State.retireAll
  refine Keeps.each (fun st4 x5 => ?_) ?_
  · refine Keeps.ite ?_ ?_
    · refine Keeps.next (State.freeVersion_keeps ..) rfl ?_
      exact Keeps.refl
    · refine Keeps.next (State.retire_keeps ..) rfl ?_
      exact Keeps.refl
  · exact Keeps.refl

theorem startRelease_keeps (sl : ℕ) (c : Cmd) (s : State) : Keeps [.cells, .hif, .cmds, .slices, .haul, .cvu, .pair,
    .emits] s (startRelease sl c s) := by
  unfold startRelease
  show let r4 := _; Keeps _ _ r4
  intro r4
  extract_lets -descend +onlyGivenNames v5 at r4
  subst r4
  split
  · refine Keeps.next (State.fail_keeps ..) rfl ?_
    exact Keeps.refl
  · show let r6 := _; Keeps _ _ r6
    intro r6
    extract_lets -descend +onlyGivenNames st7 at r6
    have hst7 : Keeps [.cells, .hif, .cmds, .slices, .haul, .cvu, .pair, .emits] s st7 := by
      subst st7
      refine Keeps.next (State.markFreed_keeps ..) rfl ?_
      refine Keeps.next (State.putSurface_keeps ..) rfl ?_
      exact Keeps.refl
    try clear_value st7
    extract_lets -descend +onlyGivenNames st8 at r6
    have hst8 : Keeps [.cells, .hif, .cmds, .slices, .haul, .cvu, .pair, .emits] s st8 := by
      subst st8
      refine Keeps.next (State.endImportsInto_keeps ..) rfl ?_
      exact hst7
    try clear_value st8
    extract_lets -descend +onlyGivenNames v9 at r6
    subst r6
    refine Keeps.ite ?_ ?_
    · refine Keeps.next (State.complete_keeps ..) rfl ?_
      exact hst8
    · refine Keeps.next (State.retireAll_keeps ..) rfl ?_
      exact hst8

theorem State.setOut_keeps (s : State) (i : ℕ) (x : OutSt) : Keeps [.outs] s (State.setOut s i x) := by
  unfold State.setOut
  refine Keeps.set_outs (x := s) rfl (fun h => Tab.wf_set _ _ _ _ h) ?_
  exact Keeps.refl

theorem State.updOut_keeps (s : State) (i : ℕ) (f : OutSt → OutSt) : Keeps [.outs] s (State.updOut s i f) := by
  unfold State.updOut
  refine Keeps.next (State.setOut_keeps ..) rfl ?_
  exact Keeps.refl

theorem State.noteRefusal_keeps (s : State) (o : ℕ) (reason : ℕ) (probe : Bool) : Keeps [.cells, .hif, .wld, .cic,
    .emits] s (State.noteRefusal s o reason probe) := by
  unfold State.noteRefusal
  show let r5 := _; Keeps _ _ r5
  intro r5
  extract_lets -descend +onlyGivenNames st6 at r5
  have hst6 : Keeps [.cells, .hif, .wld, .cic, .emits] s st6 := by
    subst st6
    refine Keeps.next (State.put_keeps ..) rfl ?_
    exact Keeps.refl
  try clear_value st6
  extract_lets -descend +onlyGivenNames st7 at r5
  have hst7 : Keeps [.cells, .hif, .wld, .cic, .emits] s st7 := by
    subst st7
    refine Keeps.ite ?_ ?_
    · exact hst6
    · refine Keeps.next (State.count_keeps ..) rfl ?_
      exact hst6
  try clear_value st7
  subst r5
  refine Keeps.next (State.event_keeps ..) rfl ?_
  exact hst7

theorem State.capRefused_keeps (s : State) (slot : ℕ) (reason : ℕ) : Keeps [.cells, .hif, .wld, .cic, .emits] s
    (State.capRefused s slot reason) := by
  unfold State.capRefused
  show let r4 := _; Keeps _ _ r4
  intro r4
  extract_lets -descend +onlyGivenNames st5 at r4
  have hst5 : Keeps [.cells, .hif, .wld, .cic, .emits] s st5 := by
    subst st5
    refine Keeps.next (State.setF_keeps ..) rfl ?_
    refine Keeps.next (State.clrF_keeps ..) rfl ?_
    exact Keeps.refl
  try clear_value st5
  subst r4
  refine Keeps.next (State.event_keeps ..) rfl ?_
  refine Keeps.next (State.put_keeps ..) rfl ?_
  exact hst5

theorem State.endCommitHolds_keeps (s : State) (o : ℕ) (sp : ℕ) (handle : ℕ) : Keeps [.cells, .hif, .cmds, .haul,
    .pair, .emits] s (State.endCommitHolds s o sp handle) := by
  unfold State.endCommitHolds
  refine Keeps.each (fun st5 x6 => ?_) ?_
  · refine Keeps.next (State.endHold_keeps ..) rfl ?_
    exact Keeps.refl
  · exact Keeps.refl

theorem State.endCommit_keeps (s : State) (o : ℕ) (c : Commit) (status : ℕ) (detail : ℕ) : Keeps [.cells, .hif,
    .cmds, .haul, .pair, .emits] s (State.endCommit s o c status detail) := by
  unfold State.endCommit
  refine Keeps.ite ?_ ?_
  · exact Keeps.refl
  · refine Keeps.next (State.fail_keeps ..) rfl ?_
    refine Keeps.next (State.endCommitHolds_keeps ..) rfl ?_
    exact Keeps.refl

theorem State.refuse_keeps (s : State) (o : ℕ) (c : Commit) (f : Refused) : Keeps [.cells, .hif, .cmds, .haul, .wld,
    .cic, .pair, .emits] s (State.refuse s o c f) := by
  unfold State.refuse
  show let r5 := _; Keeps _ _ r5
  intro r5
  extract_lets -descend +onlyGivenNames st6 at r5
  have hst6 : Keeps [.cells, .hif, .cmds, .haul, .wld, .cic, .pair, .emits] s st6 := by
    subst st6
    refine Keeps.next (State.noteRefusal_keeps ..) rfl ?_
    exact Keeps.refl
  try clear_value st6
  extract_lets -descend +onlyGivenNames st7 at r5
  have hst7 : Keeps [.cells, .hif, .cmds, .haul, .wld, .cic, .pair, .emits] s st7 := by
    subst st7
    refine Keeps.dite (fun _ => ?_) (fun _ => ?_)
    · refine Keeps.next (State.decide_keeps ..) rfl ?_
      exact hst6
    · exact hst6
  try clear_value st7
  subst r5
  refine Keeps.ite ?_ ?_
  · refine Keeps.next (State.capRefused_keeps ..) rfl ?_
    exact hst7
  · refine Keeps.next (State.endCommit_keeps ..) rfl ?_
    exact hst7

theorem State.enqueueCommit_keeps (s : State) (o : ℕ) (c : Commit) : Keeps [.cells, .hif, .cmds, .haul, .outs, .wld,
    .cic, .pair, .emits] s (State.enqueueCommit s o c) := by
  unfold State.enqueueCommit
  refine Keeps.ite ?_ ?_
  · refine Keeps.next (State.refuse_keeps ..) rfl ?_
    exact Keeps.refl
  · refine Keeps.next (State.updOut_keeps ..) rfl ?_
    exact Keeps.refl

theorem startCommit_keeps (sl : ℕ) (c : Cmd) (s : State) : Keeps [.cells, .hif, .cmds, .haul, .outs, .wld, .cic,
    .pair, .emits] s (startCommit sl c s) := by
  unfold startCommit
  refine Keeps.each (fun st4 x5 => ?_) ?_
  · split
    · show let r6 := _; Keeps _ _ r6
      intro r6
      extract_lets -descend +onlyGivenNames st7 at r6
      have hst7 : Keeps [.cells, .hif, .cmds, .haul, .outs, .wld, .cic, .pair, .emits] st4 st7 := by
        subst st7
        refine Keeps.ite ?_ ?_
        · exact Keeps.refl
        · refine Keeps.next (State.updOut_keeps ..) rfl ?_
          exact Keeps.refl
      try clear_value st7
      subst r6
      refine Keeps.each (fun st8 x9 => ?_) ?_
      · refine Keeps.next (State.enqueueCommit_keeps ..) rfl ?_
        exact Keeps.refl
      · exact hst7
  · exact Keeps.refl

theorem startSeed_keeps (sp : ℕ) (c : Cmd) (s : State) : Keeps [.cells, .hif, .cmds, .haul, .cvu, .pair, .emits] s
    (startSeed sp c s) := by
  unfold startSeed
  show let r4 := _; Keeps _ _ r4
  intro r4
  extract_lets -descend +onlyGivenNames v5 at r4
  subst r4
  split
  · refine Keeps.next (State.fail_keeps ..) rfl ?_
    exact Keeps.refl
  · refine Keeps.ite ?_ ?_
    · refine Keeps.next (State.fail_keeps ..) rfl ?_
      exact Keeps.refl
    · show let r6 := _; Keeps _ _ r6
      intro r6
      extract_lets -descend +onlyGivenNames v7 at r6
      extract_lets -descend +onlyGivenNames st8 at r6
      have hst8 : Keeps [.cells, .hif, .cmds, .haul, .cvu, .pair, .emits] s st8 := by
        subst st8
        refine Keeps.next (State.cvStart_keeps ..) rfl ?_
        exact Keeps.refl
      try clear_value st8
      extract_lets -descend +onlyGivenNames v9 at r6
      subst r6
      refine Keeps.ite ?_ ?_
      · refine Keeps.next (State.complete_keeps ..) rfl ?_
        refine Keeps.next (State.cvEnd_keeps ..) rfl ?_
        exact hst8
      · refine Keeps.next (State.addXfer_keeps ..) rfl ?_
        exact hst8

theorem State.plainRead_keeps (s : State) (a : ℕ) : Keeps [.cells] s (State.plainRead s a).2 := by
  unfold State.plainRead
  split
  · show Keeps _ _ _
    exact Keeps.refl
  · show let r3 := _; Keeps _ _ (Prod.snd r3)
    intro r3
    extract_lets -descend +onlyGivenNames v4 at r3
    subst r3
    show Keeps _ _ _
    refine Keeps.next (State.wr_keeps ..) rfl ?_
    exact Keeps.refl

theorem readCmdPage_keeps (sp : ℕ) (off : ℕ) (s : State) : Keeps [.cells] s (readCmdPage sp off s).2 := by
  unfold readCmdPage
  refine Keeps.ite2 ?_ ?_
  · show Keeps _ _ _
    exact Keeps.refl
  · refine Keeps.next (State.plainRead_keeps ..) rfl ?_
    exact Keeps.refl

theorem State.readLow_keeps (s : State) (hi : ℕ) (who : ℕ) (v : ℕ) : Keeps [.latches] s (State.readLow s hi who v).2
    := by
  unfold State.readLow
  show Keeps _ _ _
  refine Keeps.set_latches (x := s) rfl (fun h => Tab.wf_set _ _ _ _ h) ?_
  exact Keeps.refl

theorem State.readHigh_keeps (s : State) (hi : ℕ) (who : ℕ) : Keeps [] s (State.readHigh s hi who).2 := by
  unfold State.readHigh
  show Keeps _ _ _
  exact Keeps.refl

theorem State.lyrAdvance_keeps (s : State) (sl : ℕ) : Keeps [.cells] s (State.lyrAdvance s sl) := by
  unfold State.lyrAdvance
  refine Keeps.next (State.put_keeps ..) rfl ?_
  exact Keeps.refl

theorem readLyrData_keeps (sl : ℕ) (s : State) : Keeps [.cells] s (readLyrData sl s).2 := by
  unfold readLyrData
  show let r3 := _; Keeps _ _ (Prod.snd r3)
  intro r3
  extract_lets -descend +onlyGivenNames v4 at r3
  extract_lets -descend +onlyGivenNames v5 at r3
  subst r3
  show Keeps _ _ _
  refine Keeps.next (State.lyrAdvance_keeps ..) rfl ?_
  exact Keeps.refl

theorem State.cvAdvance_keeps (s : State) (sl : ℕ) : Keeps [.cells] s (State.cvAdvance s sl) := by
  unfold State.cvAdvance
  split
  · refine Keeps.next (State.put_keeps ..) rfl ?_
    exact Keeps.refl

theorem readCvData_keeps (sl : ℕ) (s : State) : Keeps [.cells] s (readCvData sl s).2 := by
  unfold readCvData
  show Keeps _ _ _
  refine Keeps.next (State.cvAdvance_keeps ..) rfl ?_
  exact Keeps.refl

theorem readCvSummary_keeps (sl : ℕ) (s : State) : Keeps [.cells] s (readCvSummary sl s).2 := by
  unfold readCvSummary
  split
  · rename_i _ st3 e4
    have hst3 : Keeps [.cells] s st3 := by
      refine Keeps.snd e4 ?_
      refine Keeps.next (State.plainRead_keeps ..) rfl ?_
      exact Keeps.refl
    show Keeps _ _ _
    exact hst3

theorem readRfxData_keeps (sl : ℕ) (s : State) : Keeps [.cells] s (readRfxData sl s).2 := by
  unfold readRfxData
  show Keeps _ _ _
  refine Keeps.next (State.put_keeps ..) rfl ?_
  exact Keeps.refl

theorem State.hapSelAdvance_keeps (s : State) (sl : ℕ) : Keeps [.cells] s (State.hapSelAdvance s sl) := by
  unfold State.hapSelAdvance
  refine Keeps.next (State.put_keeps ..) rfl ?_
  exact Keeps.refl

theorem readHapData_keeps (sl : ℕ) (s : State) : Keeps [.cells] s (readHapData sl s).2 := by
  unfold readHapData
  split
  · refine Keeps.ite2 ?_ ?_
    · show let r3 := _; Keeps _ _ (Prod.snd r3)
      intro r3
      extract_lets -descend +onlyGivenNames v4 at r3
      subst r3
      show Keeps _ _ _
      refine Keeps.next (State.hapSelAdvance_keeps ..) rfl ?_
      refine Keeps.ite ?_ ?_
      · refine Keeps.next (State.put_keeps ..) rfl ?_
        exact Keeps.refl
      · exact Keeps.refl
    · show Keeps _ _ _
      refine Keeps.next (State.hapSelAdvance_keeps ..) rfl ?_
      exact Keeps.refl

theorem State.audSelAdvance_keeps (s : State) (sl : ℕ) : Keeps [.cells] s (State.audSelAdvance s sl) := by
  unfold State.audSelAdvance
  refine Keeps.next (State.put_keeps ..) rfl ?_
  exact Keeps.refl

theorem readAudData_keeps (sl : ℕ) (s : State) : Keeps [.cells] s (readAudData sl s).2 := by
  unfold readAudData
  show Keeps _ _ _
  refine Keeps.next (State.audSelAdvance_keeps ..) rfl ?_
  exact Keeps.refl

theorem State.clearedByRead_keeps (s : State) (a : Nat) : Keeps [.cells] s (s.clearedByRead a) := by
  exact State.plainRead_keeps ..

theorem readAudStatus_keeps (sl : Nat) (s : State) : Keeps [.cells] s (readAudStatus sl s).2 := by
  unfold readAudStatus
  dsimp only
  exact State.clearedByRead_keeps ..

theorem readWindow_keeps (sl : ℕ) (p : ℕ) (off : ℕ) (s : State) : Keeps [.cells, .latches] s (readWindow sl p off
    s).2 := by
  unfold readWindow
  split
  · refine Keeps.next (readCmdPage_keeps ..) rfl ?_
    exact Keeps.refl
  · show Keeps _ _ _
    exact Keeps.refl
  · show Keeps _ _ _
    exact Keeps.refl
  · show Keeps _ _ _
    exact Keeps.refl
  · show Keeps _ _ _
    exact Keeps.refl
  · show Keeps _ _ _
    exact Keeps.refl
  · refine Keeps.next (State.readLow_keeps ..) rfl ?_
    exact Keeps.refl
  · refine Keeps.next (State.readHigh_keeps ..) rfl ?_
    exact Keeps.refl
  · show Keeps _ _ _
    exact Keeps.refl
  · show Keeps _ _ _
    exact Keeps.refl
  · refine Keeps.next (readLyrData_keeps ..) rfl ?_
    exact Keeps.refl
  · show Keeps _ _ _
    exact Keeps.refl
  · refine Keeps.next (readCvData_keeps ..) rfl ?_
    exact Keeps.refl
  · refine Keeps.next (readCvSummary_keeps ..) rfl ?_
    exact Keeps.refl
  · refine Keeps.next (readRfxData_keeps ..) rfl ?_
    exact Keeps.refl
  · refine Keeps.next (readHapData_keeps ..) rfl ?_
    exact Keeps.refl
  · refine Keeps.next (readAudData_keeps ..) rfl ?_
    exact Keeps.refl
  · refine Keeps.next (readAudStatus_keeps ..) rfl ?_
    exact Keeps.refl
  · refine Keeps.next (State.plainRead_keeps ..) rfl ?_
    exact Keeps.refl

theorem startCapture_keeps (c : Cmd) (s : State) : Keeps [.cells, .latches, .hif, .cmds, .slices, .haul, .pair,
    .emits] s (startCapture c s) := by
  unfold startCapture
  show let r3 := _; Keeps _ _ r3
  intro r3
  extract_lets -descend +onlyGivenNames v4 at r3
  extract_lets -descend +onlyGivenNames v5 at r3
  extract_lets -descend +onlyGivenNames v6 at r3
  subst r3
  split
  · refine Keeps.next (State.fail_keeps ..) rfl ?_
    exact Keeps.refl
  · show let r7 := _; Keeps _ _ r7
    intro r7
    extract_lets -descend +onlyGivenNames v8 at r7
    subst r7
    refine Keeps.ite ?_ ?_
    · refine Keeps.next (State.fail_keeps ..) rfl ?_
      exact Keeps.refl
    · show let r9 := _; Keeps _ _ r9
      intro r9
      extract_lets -descend +onlyGivenNames v10 at r9
      extract_lets -descend +onlyGivenNames v11 at r9
      extract_lets -descend +onlyGivenNames v12 at r9
      extract_lets -descend +onlyGivenNames v13 at r9
      extract_lets -descend +onlyGivenNames st14 at r9
      have hst14 : Keeps [.cells, .latches, .hif, .cmds, .slices, .haul, .pair, .emits] s st14 := by
        subst st14
        refine Keeps.next (State.updSlice_keeps ..) rfl ?_
        exact Keeps.refl
      try clear_value st14
      extract_lets -descend +onlyGivenNames st15 at r9
      have hst15 : Keeps [.cells, .latches, .hif, .cmds, .slices, .haul, .pair, .emits] s st15 := by
        subst st15
        refine Keeps.each (fun st16 x17 => ?_) ?_
        · split
          · refine Keeps.next (State.hold_keeps ..) rfl ?_
            exact Keeps.refl
          · exact Keeps.refl
        · exact hst14
      try clear_value st15
      subst r9
      refine Keeps.next (State.addXfer_keeps ..) rfl ?_
      exact hst15

theorem startRestore_keeps (c : Cmd) (s : State) : Keeps [.cells, .hif, .cmds, .haul, .pair, .emits] s (startRestore
    c s) := by
  unfold startRestore
  show let r3 := _; Keeps _ _ r3
  intro r3
  extract_lets -descend +onlyGivenNames v4 at r3
  subst r3
  refine Keeps.ite ?_ ?_
  · refine Keeps.next (State.fail_keeps ..) rfl ?_
    exact Keeps.refl
  · refine Keeps.next (State.addXfer_keeps ..) rfl ?_
    exact Keeps.refl

theorem State.updFloor_keeps (s : State) (i : ℕ) (f : FloorSt → FloorSt) : Keeps [.floor] s (State.updFloor s i f) := by
  unfold State.updFloor
  refine Keeps.set_floor (x := s) rfl (fun h => Tab.wf_set _ _ _ _ h) ?_
  exact Keeps.refl

theorem State.floorXfer_keeps (s : State) (handle : ℕ) (len : ℕ) (addr : ℕ) : Keeps [.haul] s (State.floorXfer s
    handle len addr) := by
  unfold State.floorXfer
  refine Keeps.next (State.addXfer_keeps ..) rfl ?_
  exact Keeps.refl

theorem State.floorBegin_keeps (s : State) (o : ℕ) (src : FloorSrc) : Keeps [.cells, .haul, .floor] s
    (State.floorBegin s o src) := by
  unfold State.floorBegin
  show let r4 := _; Keeps _ _ r4
  intro r4
  extract_lets -descend +onlyGivenNames st5 at r4
  have hst5 : Keeps [.cells, .haul, .floor] s st5 := by
    subst st5
    refine Keeps.next (State.wrN_keeps ..) rfl ?_
    refine Keeps.next (State.wrN_keeps ..) rfl ?_
    exact Keeps.refl
  try clear_value st5
  extract_lets -descend +onlyGivenNames st6 at r4
  have hst6 : Keeps [.cells, .haul, .floor] s st6 := by
    subst st6
    refine Keeps.next (State.setF_keeps ..) rfl ?_
    exact hst5
  try clear_value st6
  extract_lets -descend +onlyGivenNames st7 at r4
  have hst7 : Keeps [.cells, .haul, .floor] s st7 := by
    subst st7
    refine Keeps.next (State.updFloor_keeps ..) rfl ?_
    exact hst6
  try clear_value st7
  subst r4
  split
  · exact hst7
  · split
    · refine Keeps.next (State.floorXfer_keeps ..) rfl ?_
      exact hst7
    · exact hst7

theorem State.floorArm_keeps (s : State) (o : ℕ) (src : FloorSrc) : Keeps [.cells, .haul, .floor] s (State.floorArm
    s o src) := by
  unfold State.floorArm
  refine Keeps.ite ?_ ?_
  · refine Keeps.next (State.updFloor_keeps ..) rfl ?_
    exact Keeps.refl
  · refine Keeps.next (State.floorBegin_keeps ..) rfl ?_
    exact Keeps.refl

theorem State.floorAsk_keeps (s : State) (o : ℕ) (src : FloorSrc) : Keeps [.cells, .haul, .floor] s (State.floorAsk
    s o src) := by
  unfold State.floorAsk
  refine Keeps.ite ?_ ?_
  · refine Keeps.next (State.updFloor_keeps ..) rfl ?_
    exact Keeps.refl
  · refine Keeps.next (State.floorArm_keeps ..) rfl ?_
    exact Keeps.refl

theorem startFloorLoad_keeps (c : Cmd) (s : State) : Keeps [.cells, .haul, .floor] s (startFloorLoad c s) := by
  unfold startFloorLoad
  refine Keeps.next (State.floorAsk_keeps ..) rfl ?_
  exact Keeps.refl

theorem State.startCmd_keeps (s : State) (sp : ℕ) (c : Cmd) : Keeps [.cells, .latches, .hif, .cmds, .slices, .haul,
    .outs, .cvu, .floor, .wld, .cic, .pair, .freeCtr, .emits] s (State.startCmd s sp c) := by
  unfold State.startCmd
  split
  · refine Keeps.next (startImport_keeps ..) rfl ?_
    exact Keeps.refl
  · refine Keeps.next (startExport_keeps ..) rfl ?_
    exact Keeps.refl
  · refine Keeps.next (startRelease_keeps ..) rfl ?_
    exact Keeps.refl
  · refine Keeps.next (startCommit_keeps ..) rfl ?_
    exact Keeps.refl
  · refine Keeps.next (startSeed_keeps ..) rfl ?_
    exact Keeps.refl
  · refine Keeps.next (State.complete_keeps ..) rfl ?_
    exact Keeps.refl
  · refine Keeps.next (startCapture_keeps ..) rfl ?_
    exact Keeps.refl
  · refine Keeps.next (startRestore_keeps ..) rfl ?_
    exact Keeps.refl
  · refine Keeps.next (startFloorLoad_keeps ..) rfl ?_
    exact Keeps.refl
  · exact Keeps.refl

theorem State.startFrom_keeps (sp n i : Nat) (b : Bool) (s : State) : Keeps [.cells, .latches, .hif, .cmds, .slices,
    .haul, .outs, .cvu, .floor, .wld, .cic, .pair, .freeCtr, .emits] s (State.startFrom sp n i b s) := by
  induction n generalizing i b s with
  | zero => exact Keeps.refl
  | succ n ih =>
    unfold State.startFrom
    dsimp only
    split
    · exact Keeps.refl
    · refine Keeps.ite (Keeps.ite ?_ (ih ..)) (ih ..)
      refine Keeps.next (ih ..) rfl ?_
      refine Keeps.next (State.startCmd_keeps ..) rfl ?_
      refine Keeps.next (State.updSpace_keeps ..) rfl ?_
      exact Keeps.refl

theorem State.startAll_keeps (s : State) : Keeps [.cells, .latches, .hif, .cmds, .slices, .haul, .outs, .cvu,
    .floor, .wld, .cic, .pair, .freeCtr, .emits] s (State.startAll s) := by
  unfold State.startAll
  refine Keeps.ite ?_ ?_
  · exact Keeps.refl
  · refine Keeps.each (fun st2 x3 => ?_) ?_
    · refine Keeps.next (State.startFrom_keeps ..) rfl ?_
      exact Keeps.refl
    · exact Keeps.refl

theorem State.startRounds_keeps (n : Nat) (s : State) : Keeps [.cells, .latches, .hif, .cmds, .slices, .haul, .outs,
    .cvu, .floor, .wld, .cic, .pair, .freeCtr, .emits] s (State.startRounds n s) := by
  induction n generalizing s with
  | zero => exact Keeps.refl
  | succ n ih =>
    unfold State.startRounds
    refine Keeps.ite ?_ ?_
    · refine Keeps.next (State.startAll_keeps ..) rfl ?_
      exact Keeps.refl
    · refine Keeps.next (ih _) rfl ?_
      refine Keeps.next (State.startAll_keeps ..) rfl ?_
      exact Keeps.refl

theorem State.settle_keeps (s : State) : Keeps [.cells, .latches, .hif, .cmds, .slices, .haul, .outs, .cvu, .floor,
    .wld, .cic, .pair, .freeCtr, .emits] s (State.settle s) := by
  unfold State.settle
  refine Keeps.next (State.pick_keeps ..) rfl ?_
  refine Keeps.next (State.startRounds_keeps ..) rfl ?_
  exact Keeps.refl

theorem State.updHst_keeps (s : State) (i : ℕ) (f : HstSt → HstSt) : Keeps [.hst] s (State.updHst s i f) := by
  unfold State.updHst
  refine Keeps.set_hst (x := s) rfl (fun h => Tab.wf_set _ _ _ _ h) ?_
  exact Keeps.refl

theorem State.updAst_keeps (s : State) (i : ℕ) (f : AstSt → AstSt) : Keeps [.ast] s (State.updAst s i f) := by
  unfold State.updAst
  refine Keeps.set_ast (x := s) rfl (fun h => Tab.wf_set _ _ _ _ h) ?_
  exact Keeps.refl

theorem State.fetchStream_keeps (s : State) (sl : ℕ) (ch : Option ℕ) : Keeps [.hif, .hst, .ast, .emits] s
    (State.fetchStream s sl ch) := by
  unfold State.fetchStream
  split
  · show let r4 := _; Keeps _ _ r4
    intro r4
    extract_lets -descend +onlyGivenNames v5 at r4
    extract_lets -descend +onlyGivenNames v6 at r4
    subst r4
    refine Keeps.ite ?_ ?_
    · show let r7 := _; Keeps _ _ r7
      intro r7
      extract_lets -descend +onlyGivenNames v8 at r7
      extract_lets -descend +onlyGivenNames st9 at r7
      have hst9 : Keeps [.hif, .hst, .ast, .emits] s st9 := by
        subst st9
        split
        · refine Keeps.next (State.updHst_keeps ..) rfl ?_
          exact Keeps.refl
        · refine Keeps.next (State.updAst_keeps ..) rfl ?_
          exact Keeps.refl
      try clear_value st9
      subst r7
      refine Keeps.next (State.hostRead_keeps ..) rfl ?_
      exact hst9
    · exact Keeps.refl

theorem State.fetchStreams_keeps (s : State) (sl : ℕ) : Keeps [.hif, .hst, .ast, .emits] s (State.fetchStreams s sl)
    := by
  unfold State.fetchStreams
  refine Keeps.next (State.fetchStream_keeps ..) rfl ?_
  refine Keeps.foldl (fun st3 x4 => ?_) ?_
  · refine Keeps.ite ?_ ?_
    · refine Keeps.next (State.fetchStream_keeps ..) rfl ?_
      exact Keeps.refl
    · exact Keeps.refl
  · exact Keeps.refl

theorem State.kick_keeps (s : State) : Keeps [.cells, .latches, .hif, .cmds, .slices, .haul, .outs, .cvu, .floor,
    .hst, .ast, .wld, .cic, .pair, .freeCtr, .emits] s (State.kick s) := by
  unfold State.kick
  show let r2 := _; Keeps _ _ r2
  intro r2
  extract_lets -descend +onlyGivenNames st3 at r2
  have hst3 : Keeps [.cells, .latches, .hif, .cmds, .slices, .haul, .outs, .cvu, .floor, .hst, .ast, .wld, .cic,
      .pair, .freeCtr, .emits] s st3 := by
    subst st3
    refine Keeps.next (State.issueReads_keeps ..) rfl ?_
    exact Keeps.refl
  try clear_value st3
  extract_lets -descend +onlyGivenNames st4 at r2
  have hst4 : Keeps [.cells, .latches, .hif, .cmds, .slices, .haul, .outs, .cvu, .floor, .hst, .ast, .wld, .cic,
      .pair, .freeCtr, .emits] s st4 := by
    subst st4
    refine Keeps.each (fun st5 x6 => ?_) ?_
    · refine Keeps.next (State.fetchEntry_keeps ..) rfl ?_
      exact Keeps.refl
    · exact hst3
  try clear_value st4
  extract_lets -descend +onlyGivenNames v7 at r2
  subst r2
  refine Keeps.next (State.settle_keeps ..) rfl ?_
  refine Keeps.each (fun st8 x9 => ?_) ?_
  · refine Keeps.next (State.fetchStreams_keeps ..) rfl ?_
    exact Keeps.refl
  · exact hst4

theorem State.lateCause_keeps (s : State) (o : ℕ) (shed : List ℕ) (cause : ℕ) : Keeps [.outs] s (State.lateCause s o
    shed cause) := by
  unfold State.lateCause
  show let r5 := _; Keeps _ _ r5
  intro r5
  extract_lets -descend +onlyGivenNames v6 at r5
  extract_lets -descend +onlyGivenNames v7 at r5
  extract_lets -descend +onlyGivenNames v8 at r5
  subst r5
  refine Keeps.next (State.setOut_keeps ..) rfl ?_
  exact Keeps.refl

theorem State.recompile_keeps (s : State) (o : ℕ) (shed : List ℕ) (cause : ℕ) : Keeps [.outs, .pair, .emits] s
    (State.recompile s o shed cause) := by
  unfold State.recompile
  show let r5 := _; Keeps _ _ r5
  intro r5
  extract_lets -descend +onlyGivenNames v6 at r5
  subst r5
  refine Keeps.ite ?_ ?_
  · refine Keeps.next (State.lateCause_keeps ..) rfl ?_
    exact Keeps.refl
  · show let r7 := _; Keeps _ _ r7
    intro r7
    extract_lets -descend +onlyGivenNames v8 at r7
    extract_lets -descend +onlyGivenNames v9 at r7
    extract_lets -descend +onlyGivenNames v10 at r7
    extract_lets -descend +onlyGivenNames st11 at r7
    have hst11 : Keeps [.outs, .pair, .emits] s st11 := by
      subst st11
      refine Keeps.next (State.setOut_keeps ..) rfl ?_
      exact Keeps.refl
    try clear_value st11
    subst r7
    split
    · refine Keeps.ite ?_ ?_
      · exact hst11
      · refine Keeps.dite (fun _ => ?_) (fun _ => ?_)
        · refine Keeps.next (State.decide_keeps ..) rfl ?_
          exact hst11
        · exact hst11
    · refine Keeps.ite ?_ ?_
      · exact hst11
      · refine Keeps.dite (fun _ => ?_) (fun _ => ?_)
        · refine Keeps.next (State.decide_keeps ..) rfl ?_
          exact hst11
        · exact hst11

theorem State.shedPass_keeps (s : State) (accepted : Bool) : Keeps [.outs, .pair, .emits] s (State.shedPass s
    accepted) := by
  unfold State.shedPass
  refine Keeps.ite ?_ ?_
  · exact Keeps.refl
  · show let r3 := _; Keeps _ _ r3
    intro r3
    extract_lets -descend +onlyGivenNames v4 at r3
    extract_lets -descend +onlyGivenNames v5 at r3
    subst r3
    refine Keeps.each (fun st6 x7 => ?_) ?_
    · refine Keeps.next (State.recompile_keeps ..) rfl ?_
      exact Keeps.refl
    · exact Keeps.refl

theorem State.writeEnable_keeps (s : State) (ty : ℕ) (inst : ℕ) (pg : ℕ) (on : Bool) : Keeps [.cells, .latches,
    .hif, .cmds, .slices, .haul, .outs, .cvu, .floor, .tch, .hap, .hst, .ast, .wld, .cic, .pair, .freeCtr, .emits] s
    (State.writeEnable s ty inst pg on) := by
  unfold State.writeEnable
  refine Keeps.ite ?_ ?_
  · exact Keeps.refl
  · show let r6 := _; Keeps _ _ r6
    intro r6
    extract_lets -descend +onlyGivenNames v7 at r6
    extract_lets -descend +onlyGivenNames st8 at r6
    have hst8 : Keeps [.cells, .latches, .hif, .cmds, .slices, .haul, .outs, .cvu, .floor, .tch, .hap, .hst, .ast,
        .wld, .cic, .pair, .freeCtr, .emits] s st8 := by
      subst st8
      refine Keeps.next (State.put_keeps ..) rfl ?_
      exact Keeps.refl
    try clear_value st8
    subst r6
    split
    · refine Keeps.next (doPanelEnable_keeps ..) rfl ?_
      exact Keeps.refl
    · refine Keeps.ite ?_ ?_
      · exact hst8
      · refine Keeps.next (State.updChan_keeps ..) rfl ?_
        exact hst8
    · refine Keeps.next (State.kick_keeps ..) rfl ?_
      exact hst8
    · refine Keeps.ite ?_ ?_
      · exact hst8
      · refine Keeps.next (State.shedPass_keeps ..) rfl ?_
        exact hst8
    · exact hst8

theorem State.writePageCtrl_keeps (s : State) (ty : ℕ) (inst : ℕ) (pg : ℕ) (v : Word) : Keeps [.cells, .latches,
    .hif, .cmds, .slices, .haul, .outs, .cvu, .floor, .tch, .hap, .hst, .ast, .wld, .cic, .pair, .freeCtr, .emits] s
    (State.writePageCtrl s ty inst pg v) := by
  unfold State.writePageCtrl
  show let r6 := _; Keeps _ _ r6
  intro r6
  extract_lets -descend +onlyGivenNames st7 at r6
  have hst7 : Keeps [.cells, .latches, .hif, .cmds, .slices, .haul, .outs, .cvu, .floor, .tch, .hap, .hst, .ast,
      .wld, .cic, .pair, .freeCtr, .emits] s st7 := by
    subst st7
    refine Keeps.next (State.writeEnable_keeps ..) rfl ?_
    exact Keeps.refl
  try clear_value st7
  subst r6
  refine Keeps.ite ?_ ?_
  · refine Keeps.next (State.startSoftReset_keeps ..) rfl ?_
    exact hst7
  · exact hst7

theorem doEventClear_keeps (pg : ℕ) (v : Word) (s : State) : Keeps [.cells, .hif, .wld, .cic, .emits] s
    (doEventClear pg v s) := by
  unfold doEventClear
  show let r4 := _; Keeps _ _ r4
  intro r4
  extract_lets -descend +onlyGivenNames v5 at r4
  extract_lets -descend +onlyGivenNames st6 at r4
  have hst6 : Keeps [.cells, .hif, .wld, .cic, .emits] s st6 := by
    subst st6
    refine Keeps.next (State.syncSource_keeps ..) rfl ?_
    refine Keeps.next (State.wr_keeps ..) rfl ?_
    exact Keeps.refl
  try clear_value st6
  subst r4
  refine Keeps.ite ?_ ?_
  · refine Keeps.next (State.signalPage_keeps ..) rfl ?_
    exact hst6
  · exact hst6

theorem doEventEnable_keeps (pg : ℕ) (v : Word) (s : State) : Keeps [.cells, .hif, .wld, .cic, .emits] s
    (doEventEnable pg v s) := by
  unfold doEventEnable
  split
  · exact Keeps.refl
  · show let r4 := _; Keeps _ _ r4
    intro r4
    extract_lets -descend +onlyGivenNames v5 at r4
    subst r4
    refine Keeps.next (State.afterOutput_keeps ..) rfl ?_
    refine Keeps.next (State.wrN_keeps ..) rfl ?_
    exact Keeps.refl

theorem doEventForce_keeps (pg : ℕ) (v : Word) (s : State) : Keeps [.cells, .hif, .wld, .cic, .emits] s
    (doEventForce pg v s) := by
  unfold doEventForce
  split
  · exact Keeps.refl
  · refine Keeps.next (State.pageEvent_keeps ..) rfl ?_
    exact Keeps.refl

theorem State.postEvent_keeps (s : State) (sp : ℕ) (status : ℕ) (result : List Byte) : Keeps [.cells, .hif, .cmds,
    .pair, .emits] s (State.postEvent s sp status result) := by
  unfold State.postEvent
  refine Keeps.ite ?_ ?_
  · exact Keeps.refl
  · refine Keeps.ite ?_ ?_
    · exact Keeps.refl
    · refine Keeps.ite ?_ ?_
      · refine Keeps.next (State.loseEvent_keeps ..) rfl ?_
        exact Keeps.refl
      · show let r5 := _; Keeps _ _ r5
        intro r5
        extract_lets -descend +onlyGivenNames st6 at r5
        have hst6 : Keeps [.cells, .hif, .cmds, .pair, .emits] s st6 := by
          subst st6
          refine Keeps.next (State.tellLost_keeps ..) rfl ?_
          exact Keeps.refl
        try clear_value st6
        subst r5
        refine Keeps.ite ?_ ?_
        · refine Keeps.next (State.putRec_keeps ..) rfl ?_
          exact hst6
        · refine Keeps.next (State.loseEvent_keeps ..) rfl ?_
          exact hst6

theorem State.noteGrant_keeps (s : State) (sl : ℕ) (change : ℕ) (kind : ℕ) (ord : ℕ) : Keeps [.cells, .hif, .cmds,
    .pair, .emits] s (State.noteGrant s sl change kind ord) := by
  unfold State.noteGrant
  show let r6 := _; Keeps _ _ r6
  intro r6
  extract_lets -descend +onlyGivenNames v7 at r6
  extract_lets -descend +onlyGivenNames st8 at r6
  have hst8 : Keeps [.cells, .hif, .cmds, .pair, .emits] s st8 := by
    subst st8
    refine Keeps.next (State.put_keeps ..) rfl ?_
    exact Keeps.refl
  try clear_value st8
  subst r6
  split
  · exact hst8
  · exact hst8
  · refine Keeps.next (State.postEvent_keeps ..) rfl ?_
    exact hst8

theorem State.grant_keeps (s : State) (sl : ℕ) (kind : ℕ) (global : ℕ) : Keeps [.cells, .hif, .cmds, .slices, .pair,
    .emits] s (State.grant s sl kind global) := by
  unfold State.grant
  show let r5 := _; Keeps _ _ r5
  intro r5
  extract_lets -descend +onlyGivenNames v6 at r5
  extract_lets -descend +onlyGivenNames st7 at r5
  have hst7 : Keeps [.cells, .hif, .cmds, .slices, .pair, .emits] s st7 := by
    subst st7
    refine Keeps.next (State.updSlice_keeps ..) rfl ?_
    exact Keeps.refl
  try clear_value st7
  subst r5
  refine Keeps.next (State.noteGrant_keeps ..) rfl ?_
  exact hst7

theorem State.setOwner_keeps (s : State) (pg : ℕ) (kind : ℕ) (sl : ℕ) : Keeps [.cells] s (State.setOwner s pg kind
    sl) := by
  unfold State.setOwner
  refine Keeps.next (State.put_keeps ..) rfl ?_
  refine Keeps.next (State.put_keeps ..) rfl ?_
  exact Keeps.refl

theorem State.setLayer_keeps (s : State) (i : ℕ) (x : LyrSt) : Keeps [.lyr] s (State.setLayer s i x) := by
  unfold State.setLayer
  refine Keeps.set_lyr (x := s) rfl (fun h => Tab.wf_set _ _ _ _ h) ?_
  exact Keeps.refl

theorem State.updLayer_keeps (s : State) (i : ℕ) (f : LyrSt → LyrSt) : Keeps [.lyr] s (State.updLayer s i f) := by
  unfold State.updLayer
  refine Keeps.next (State.setLayer_keeps ..) rfl ?_
  exact Keeps.refl

theorem State.clearLatched_keeps (s : State) (n : ℕ) : Keeps [.lyr] s (State.clearLatched s n) := by
  unfold State.clearLatched
  refine Keeps.next (State.updLayer_keeps ..) rfl ?_
  exact Keeps.refl

theorem State.setRegion_keeps (s : State) (i : ℕ) (x : CsrSt) : Keeps [.csr] s (State.setRegion s i x) := by
  unfold State.setRegion
  refine Keeps.set_csr (x := s) rfl (fun h => Tab.wf_set _ _ _ _ h) ?_
  exact Keeps.refl

theorem State.updRegion_keeps (s : State) (i : ℕ) (f : CsrSt → CsrSt) : Keeps [.csr] s (State.updRegion s i f) := by
  unfold State.updRegion
  refine Keeps.next (State.setRegion_keeps ..) rfl ?_
  exact Keeps.refl

theorem State.clearRegion_keeps (s : State) (n : ℕ) (silent : Bool) : Keeps [.csr] s (State.clearRegion s n silent)
    := by
  unfold State.clearRegion
  refine Keeps.next (State.updRegion_keeps ..) rfl ?_
  exact Keeps.refl

theorem State.remove_keeps (s : State) (o : ℕ) (a3 : Removal) : Keeps [.slices, .lyr, .csr] s (State.remove s o a3)
    := by
  unfold State.remove
  split
  · refine Keeps.next (State.clearLatched_keeps ..) rfl ?_
    exact Keeps.refl
  · show let r4 := _; Keeps _ _ r4
    intro r4
    extract_lets -descend +onlyGivenNames st5 at r4
    have hst5 : Keeps [.slices, .lyr, .csr] s st5 := by
      subst st5
      refine Keeps.each (fun st6 x7 => ?_) ?_
      · refine Keeps.next (State.clearLatched_keeps ..) rfl ?_
        exact Keeps.refl
      · exact Keeps.refl
    try clear_value st5
    subst r4
    refine Keeps.next (State.updSlice_keeps ..) rfl ?_
    exact hst5
  · refine Keeps.next (State.clearRegion_keeps ..) rfl ?_
    exact Keeps.refl

theorem State.sampleEvent_keeps (s : State) (n : ℕ) (what : ℕ) (frame : ℕ) (final : ℕ) (expect : ℕ) : Keeps [.cells,
    .hif, .cmds, .wld, .cic, .pair, .emits] s (State.sampleEvent s n what frame final expect) := by
  unfold State.sampleEvent
  split
  · exact Keeps.refl
  · refine Keeps.next (State.event_keeps ..) rfl ?_
    exact Keeps.refl
  · show let r7 := _; Keeps _ _ r7
    intro r7
    extract_lets -descend +onlyGivenNames v8 at r7
    subst r7
    refine Keeps.next (State.postEvent_keeps ..) rfl ?_
    exact Keeps.refl

theorem State.countOnset_keeps (s : State) (n : ℕ) : Keeps [.cells] s (State.countOnset s n) := by
  unfold State.countOnset
  split
  · refine Keeps.ite ?_ ?_
    · refine Keeps.next (State.count_keeps ..) rfl ?_
      exact Keeps.refl
    · exact Keeps.refl
  · exact Keeps.refl

theorem State.regionTurn_keeps (s : State) (n : ℕ) (frame : ℕ) (latched : Bool) : Keeps [.cells, .hif, .cmds, .csr,
    .wld, .cic, .pair, .emits] s (State.regionTurn s n frame latched) := by
  unfold State.regionTurn
  show let r5 := _; Keeps _ _ r5
  intro r5
  extract_lets -descend +onlyGivenNames v6 at r5
  extract_lets -descend +onlyGivenNames v7 at r5
  extract_lets -descend +onlyGivenNames v8 at r5
  subst r5
  split
  · show let r9 := _; Keeps _ _ r9
    intro r9
    extract_lets -descend +onlyGivenNames v10 at r9
    extract_lets -descend +onlyGivenNames v11 at r9
    subst r9
    split
    · refine Keeps.ite ?_ ?_
      · show let r12 := _; Keeps _ _ r12
        intro r12
        extract_lets -descend +onlyGivenNames st13 at r12
        have hst13 : Keeps [.cells, .hif, .cmds, .csr, .wld, .cic, .pair, .emits] s st13 := by
          subst st13
          refine Keeps.next (State.setRegion_keeps ..) rfl ?_
          exact Keeps.refl
        try clear_value st13
        subst r12
        refine Keeps.ite ?_ ?_
        · refine Keeps.ite ?_ ?_
          · refine Keeps.next (State.sampleEvent_keeps ..) rfl ?_
            exact hst13
          · refine Keeps.ite ?_ ?_
            · exact hst13
            · refine Keeps.next (State.sampleEvent_keeps ..) rfl ?_
              exact hst13
        · refine Keeps.ite ?_ ?_
          · refine Keeps.next (State.sampleEvent_keeps ..) rfl ?_
            exact hst13
          · exact hst13
      · refine Keeps.ite ?_ ?_
        · refine Keeps.ite ?_ ?_
          · refine Keeps.next (State.sampleEvent_keeps ..) rfl ?_
            refine Keeps.next (State.setRegion_keeps ..) rfl ?_
            exact Keeps.refl
          · refine Keeps.next (State.setRegion_keeps ..) rfl ?_
            exact Keeps.refl
        · refine Keeps.ite ?_ ?_
          · show let r14 := _; Keeps _ _ r14
            intro r14
            extract_lets -descend +onlyGivenNames st15 at r14
            have hst15 : Keeps [.cells, .hif, .cmds, .csr, .wld, .cic, .pair, .emits] s st15 := by
              subst st15
              refine Keeps.next (State.setRegion_keeps ..) rfl ?_
              exact Keeps.refl
            try clear_value st15
            subst r14
            refine Keeps.next (State.sampleEvent_keeps ..) rfl ?_
            refine Keeps.next (State.countOnset_keeps ..) rfl ?_
            exact hst15
          · refine Keeps.next (State.setRegion_keeps ..) rfl ?_
            exact Keeps.refl

theorem State.removeNow_keeps (s : State) (o : ℕ) (r : Removal) : Keeps [.cells, .hif, .cmds, .slices, .lyr, .csr,
    .wld, .cic, .pair, .emits] s (State.removeNow s o r) := by
  unfold State.removeNow
  show let r4 := _; Keeps _ _ r4
  intro r4
  extract_lets -descend +onlyGivenNames st5 at r4
  have hst5 : Keeps [.cells, .hif, .cmds, .slices, .lyr, .csr, .wld, .cic, .pair, .emits] s st5 := by
    subst st5
    refine Keeps.next (State.remove_keeps ..) rfl ?_
    exact Keeps.refl
  try clear_value st5
  subst r4
  split
  · refine Keeps.next (State.regionTurn_keeps ..) rfl ?_
    exact hst5
  · exact hst5

theorem State.askRemoval_keeps (s : State) (o : ℕ) (r : Removal) : Keeps [.cells, .hif, .cmds, .slices, .outs, .lyr,
    .csr, .wld, .cic, .pair, .emits] s (State.askRemoval s o r) := by
  unfold State.askRemoval
  refine Keeps.ite ?_ ?_
  · refine Keeps.ite ?_ ?_
    · refine Keeps.next (State.updOut_keeps ..) rfl ?_
      exact Keeps.refl
    · refine Keeps.next (State.updOut_keeps ..) rfl ?_
      exact Keeps.refl
  · refine Keeps.next (State.removeNow_keeps ..) rfl ?_
    exact Keeps.refl

theorem State.endCommits_keeps (s : State) (o : ℕ) (p : Commit → Bool) (status : ℕ) (detail : ℕ) : Keeps [.cells,
    .hif, .cmds, .haul, .outs, .pair, .emits] s (State.endCommits s o p status detail) := by
  unfold State.endCommits
  show let r6 := _; Keeps _ _ r6
  intro r6
  extract_lets -descend +onlyGivenNames v7 at r6
  extract_lets -descend +onlyGivenNames v8 at r6
  extract_lets -descend +onlyGivenNames v9 at r6
  extract_lets -descend +onlyGivenNames st10 at r6
  have hst10 : Keeps [.cells, .hif, .cmds, .haul, .outs, .pair, .emits] s st10 := by
    subst st10
    refine Keeps.next (State.setOut_keeps ..) rfl ?_
    exact Keeps.refl
  try clear_value st10
  subst r6
  refine Keeps.each (fun st11 x12 => ?_) ?_
  · refine Keeps.next (State.endCommit_keeps ..) rfl ?_
    exact Keeps.refl
  · exact hst10

theorem State.withdrawSlot_keeps (s : State) (n : ℕ) : Keeps [.cells, .hif, .cmds, .slices, .outs, .lyr, .csr, .wld,
    .cic, .pair, .emits] s (State.withdrawSlot s n) := by
  unfold State.withdrawSlot
  refine Keeps.next (State.askRemoval_keeps ..) rfl ?_
  refine Keeps.next (State.updLayer_keeps ..) rfl ?_
  exact Keeps.refl

theorem State.resetKeys_keeps (s : State) (p : ℕ → Bool) : Keeps [.cells] s (State.resetKeys s p) := by
  unfold State.resetKeys
  refine Keeps.set_cells (x := s) rfl (fun h => Tab.wf_filter _ _ _ h) ?_
  exact Keeps.refl

theorem State.cvReset_keeps (s : State) (n : ℕ) : Keeps [.cells, .cvu] s (State.cvReset s n) := by
  unfold State.cvReset
  refine Keeps.next (State.setCvFeed_keeps ..) rfl ?_
  refine Keeps.next (State.resetKeys_keeps ..) rfl ?_
  exact Keeps.refl

theorem State.stopUnit_keeps (s : State) (u : ℕ) : Keeps [.cells, .hif, .cmds, .slices, .haul, .cvu, .pair, .emits]
    s (State.stopUnit s u) := by
  unfold State.stopUnit
  show let r3 := _; Keeps _ _ r3
  intro r3
  extract_lets -descend +onlyGivenNames st4 at r3
  have hst4 : Keeps [.cells, .hif, .cmds, .slices, .haul, .cvu, .pair, .emits] s st4 := by
    subst st4
    split
    · exact Keeps.refl
    · split
      · refine Keeps.next (State.failXfer_keeps ..) rfl ?_
        exact Keeps.refl
      · exact Keeps.refl
    · split
      · refine Keeps.next (State.failXfer_keeps ..) rfl ?_
        exact Keeps.refl
      · exact Keeps.refl
  try clear_value st4
  subst r3
  refine Keeps.next (State.cvReset_keeps ..) rfl ?_
  exact hst4

theorem State.stripRegion_keeps (s : State) (n : ℕ) : Keeps [.outs] s (State.stripRegion s n) := by
  unfold State.stripRegion
  show let r3 := _; Keeps _ _ r3
  intro r3
  extract_lets -descend +onlyGivenNames v4 at r3
  subst r3
  refine Keeps.next (State.updOut_keeps ..) rfl ?_
  exact Keeps.refl

theorem State.clearRegionShadow_keeps (s : State) (n : ℕ) : Keeps [.csr] s (State.clearRegionShadow s n) := by
  unfold State.clearRegionShadow
  refine Keeps.next (State.updRegion_keeps ..) rfl ?_
  exact Keeps.refl

theorem State.withdrawRegion_keeps (s : State) (n : ℕ) : Keeps [.cells, .hif, .cmds, .slices, .outs, .lyr, .csr,
    .wld, .cic, .pair, .emits] s (State.withdrawRegion s n) := by
  unfold State.withdrawRegion
  refine Keeps.next (State.askRemoval_keeps ..) rfl ?_
  refine Keeps.next (State.stripRegion_keeps ..) rfl ?_
  refine Keeps.next (State.clearRegionShadow_keeps ..) rfl ?_
  exact Keeps.refl

theorem State.removeBindings_keeps (s : State) (sl : ℕ) (panel : Option ℕ) : Keeps [.cells, .reflexDirty] s
    (State.removeBindings s sl panel) := by
  unfold State.removeBindings
  show let r4 := _; Keeps _ _ r4
  intro r4
  extract_lets -descend +onlyGivenNames v5 at r4
  extract_lets -descend +onlyGivenNames st6 at r4
  have hst6 : Keeps [.cells, .reflexDirty] s st6 := by
    subst st6
    refine Keeps.next (State.resetKeys_keeps ..) rfl ?_
    exact Keeps.refl
  try clear_value st6
  subst r4
  refine Keeps.set_reflexDirty (x := st6) rfl ?_
  exact hst6

theorem State.orphan_keeps (s : State) (n : ℕ) (owner : ℕ) : Keeps [.tch] s (State.orphan s n owner) := by
  unfold State.orphan
  refine Keeps.next (State.updPanel_keeps ..) rfl ?_
  exact Keeps.refl

theorem State.countDropped_keeps (s : State) (n : ℕ) : Keeps [.cells, .hif, .wld, .cic, .emits] s
    (State.countDropped s n) := by
  unfold State.countDropped
  refine Keeps.next (State.event_keeps ..) rfl ?_
  refine Keeps.next (State.count_keeps ..) rfl ?_
  exact Keeps.refl

theorem State.dropPending_keeps (s : State) (n : ℕ) : Keeps [.cells, .hif, .hap, .wld, .cic, .emits] s
    (State.dropPending s n) := by
  unfold State.dropPending
  refine Keeps.ite ?_ ?_
  · refine Keeps.next (State.countDropped_keeps ..) rfl ?_
    refine Keeps.next (State.updChan_keeps ..) rfl ?_
    exact Keeps.refl
  · exact Keeps.refl

theorem State.withdrawHaptic_keeps (s : State) (n : ℕ) (who : ℕ) (isSlice : Bool) (what : StopOf) : Keeps [.cells,
    .hif, .hap, .wld, .cic, .emits] s (State.withdrawHaptic s n who isSlice what) := by
  unfold State.withdrawHaptic
  show let r6 := _; Keeps _ _ r6
  intro r6
  extract_lets -descend +onlyGivenNames st7 at r6
  have hst7 : Keeps [.cells, .hif, .hap, .wld, .cic, .emits] s st7 := by
    subst st7
    refine Keeps.ite ?_ ?_
    · refine Keeps.next (State.dropPending_keeps ..) rfl ?_
      exact Keeps.refl
    · exact Keeps.refl
  try clear_value st7
  extract_lets -descend +onlyGivenNames v8 at r6
  subst r6
  refine Keeps.next (State.updChan_keeps ..) rfl ?_
  exact hst7

theorem State.audioFade_keeps (s : State) (sl : ℕ) : Keeps [.ast] s (State.audioFade s sl) := by
  unfold State.audioFade
  refine Keeps.ite ?_ ?_
  · refine Keeps.next (State.updAst_keeps ..) rfl ?_
    exact Keeps.refl
  · exact Keeps.refl

theorem State.withdrawWork_keeps (s : State) (sl : ℕ) (kind : ℕ) (n : ℕ) : Keeps [.cells, .hif, .cmds, .slices,
    .haul, .outs, .lyr, .csr, .cvu, .tch, .reflexDirty, .hap, .ast, .wld, .cic, .pair, .emits] s (State.withdrawWork s
    sl kind n) := by
  unfold State.withdrawWork
  split
  · refine Keeps.next (State.askRemoval_keeps ..) rfl ?_
    refine Keeps.next (State.endCommits_keeps ..) rfl ?_
    exact Keeps.refl
  · show let r5 := _; Keeps _ _ r5
    intro r5
    extract_lets -descend +onlyGivenNames st6 at r5
    have hst6 : Keeps [.cells, .hif, .cmds, .slices, .haul, .outs, .lyr, .csr, .cvu, .tch, .reflexDirty, .hap, .ast,
        .wld, .cic, .pair, .emits] s st6 := by
      subst st6
      refine Keeps.each (fun st7 x8 => ?_) ?_
      · refine Keeps.next (State.endCommits_keeps ..) rfl ?_
        exact Keeps.refl
      · exact Keeps.refl
    try clear_value st6
    subst r5
    refine Keeps.next (State.withdrawSlot_keeps ..) rfl ?_
    exact hst6
  · refine Keeps.next (State.stopUnit_keeps ..) rfl ?_
    exact Keeps.refl
  · refine Keeps.next (State.withdrawRegion_keeps ..) rfl ?_
    exact Keeps.refl
  · refine Keeps.next (State.removeBindings_keeps ..) rfl ?_
    refine Keeps.next (State.orphan_keeps ..) rfl ?_
    exact Keeps.refl
  · refine Keeps.next (State.withdrawHaptic_keeps ..) rfl ?_
    exact Keeps.refl
  · refine Keeps.next (State.audioFade_keeps ..) rfl ?_
    exact Keeps.refl

theorem State.withdraw_keeps (s : State) (sl : ℕ) (kind : ℕ) (global : ℕ) : Keeps [.cells, .hif, .cmds, .slices,
    .haul, .outs, .lyr, .csr, .cvu, .tch, .reflexDirty, .hap, .ast, .wld, .cic, .pair, .emits] s (State.withdraw s sl
    kind global) := by
  unfold State.withdraw
  split
  · exact Keeps.refl
  · show let r5 := _; Keeps _ _ r5
    intro r5
    extract_lets -descend +onlyGivenNames st6 at r5
    have hst6 : Keeps [.cells, .hif, .cmds, .slices, .haul, .outs, .lyr, .csr, .cvu, .tch, .reflexDirty, .hap, .ast,
        .wld, .cic, .pair, .emits] s st6 := by
      subst st6
      refine Keeps.next (State.withdrawWork_keeps ..) rfl ?_
      exact Keeps.refl
    try clear_value st6
    extract_lets -descend +onlyGivenNames st7 at r5
    have hst7 : Keeps [.cells, .hif, .cmds, .slices, .haul, .outs, .lyr, .csr, .cvu, .tch, .reflexDirty, .hap, .ast,
        .wld, .cic, .pair, .emits] s st7 := by
      subst st7
      refine Keeps.next (State.updSlice_keeps ..) rfl ?_
      exact hst6
    try clear_value st7
    subst r5
    refine Keeps.next (State.noteGrant_keeps ..) rfl ?_
    exact hst7

theorem doPageOwner_keeps (r : Req) (pg : ℕ) (v : Word) (s : State) : Keeps [.cells, .hif, .cmds, .slices, .haul,
    .outs, .lyr, .csr, .cvu, .tch, .reflexDirty, .hap, .ast, .wld, .cic, .pair, .emits] s (doPageOwner r pg v s) := by
  unfold doPageOwner
  split
  · exact Keeps.refl
  · split
    · exact Keeps.refl
    · show let r5 := _; Keeps _ _ r5
      intro r5
      extract_lets -descend +onlyGivenNames v6 at r5
      extract_lets -descend +onlyGivenNames v7 at r5
      extract_lets -descend +onlyGivenNames v8 at r5
      subst r5
      refine Keeps.ite ?_ ?_
      · exact Keeps.refl
      · refine Keeps.ite ?_ ?_
        · refine Keeps.next (State.grant_keeps ..) rfl ?_
          refine Keeps.next (State.setOwner_keeps ..) rfl ?_
          exact Keeps.refl
        · refine Keeps.ite ?_ ?_
          · refine Keeps.next (State.setOwner_keeps ..) rfl ?_
            exact Keeps.refl
          · refine Keeps.ite ?_ ?_
            · refine Keeps.next (State.setOwner_keeps ..) rfl ?_
              refine Keeps.next (State.withdraw_keeps ..) rfl ?_
              exact Keeps.refl
            · refine Keeps.ite ?_ ?_
              · refine Keeps.next (State.setOwner_keeps ..) rfl ?_
                refine Keeps.ite ?_ ?_
                · refine Keeps.next (State.stopUnit_keeps ..) rfl ?_
                  exact Keeps.refl
                · exact Keeps.refl
              · exact Keeps.refl

theorem writeHeader_keeps (r : Req) (ty : ℕ) (inst : ℕ) (pg : ℕ) (off : ℕ) (v : Word) (s : State) : Keeps [.cells,
    .latches, .hif, .cmds, .slices, .haul, .outs, .lyr, .csr, .cvu, .floor, .tch, .reflexDirty, .hap, .hst, .ast, .wld,
    .cic, .pair, .freeCtr, .emits] s (writeHeader r ty inst pg off v s) := by
  unfold writeHeader
  split
  · refine Keeps.next (State.writePageCtrl_keeps ..) rfl ?_
    exact Keeps.refl
  · refine Keeps.next (doEventClear_keeps ..) rfl ?_
    exact Keeps.refl
  · refine Keeps.next (doEventEnable_keeps ..) rfl ?_
    exact Keeps.refl
  · refine Keeps.next (doEventForce_keeps ..) rfl ?_
    exact Keeps.refl
  · refine Keeps.ite ?_ ?_
    · exact Keeps.refl
    · refine Keeps.next (doPageOwner_keeps ..) rfl ?_
      exact Keeps.refl
  · refine Keeps.ite ?_ ?_
    · exact Keeps.refl
    · refine Keeps.next (State.put_keeps ..) rfl ?_
      exact Keeps.refl
  · exact Keeps.refl

theorem State.plainWrite_keeps (s : State) (a : ℕ) (v : Word) : Keeps [.cells] s (State.plainWrite s a v) := by
  unfold State.plainWrite
  split
  · exact Keeps.refl
  · refine Keeps.next (State.wr_keeps ..) rfl ?_
    exact Keeps.refl

end Sys2Proof.Machine
end

