-- ==== Sys2Proof/Laws/Frame3.lean ====
section
/-!
SUPPORT. What each operation of the machine keeps (part 3 of 9): the parts of State that it may change are listed, every other
part stays, the queue stays, and no table leaves its canonical form.
-/

namespace Sys2Proof.Machine

theorem ringCtrl_keeps (a : ℕ) (pos : ℕ) (v : Word) (s : State) : Keeps [.cells] s (ringCtrl a pos v s) := by
  unfold ringCtrl
  show let r5 := _; Keeps _ _ r5
  intro r5
  extract_lets -descend +onlyGivenNames v6 at r5
  extract_lets -descend +onlyGivenNames st7 at r5
  have hst7 : Keeps [.cells] s st7 := by
    subst st7
    refine Keeps.next (State.plainWrite_keeps ..) rfl ?_
    exact Keeps.refl
  try clear_value st7
  subst r5
  refine Keeps.ite ?_ ?_
  · refine Keeps.next (State.wr_keeps ..) rfl ?_
    exact hst7
  · exact hst7

theorem State.flushHeld_keeps (sp n : Nat) (s : State) : Keeps [.cells, .hif, .cmds, .pair, .emits] s
    (State.flushHeld sp n s) := by
  induction n generalizing s with
  | zero => exact Keeps.refl
  | succ n ih =>
    unfold State.flushHeld
    split
    · exact Keeps.refl
    · refine Keeps.ite Keeps.refl ?_
      refine Keeps.next (ih _) rfl ?_
      refine Keeps.next (State.writeRec_keeps ..) rfl ?_
      refine Keeps.next (State.setSpace_keeps ..) rfl ?_
      exact Keeps.refl

theorem State.flush_keeps (s : State) (sp : ℕ) : Keeps [.cells, .hif, .cmds, .pair, .emits] s (State.flush s sp) := by
  unfold State.flush
  refine Keeps.next (State.flushHeld_keeps ..) rfl ?_
  exact Keeps.refl

theorem State.issueHandle_keeps {s t : State} {sp low i : Nat} (e : s.issueHandle sp low = some (i, t)) :
    Keeps [.cmds] s t := by
  unfold State.issueHandle at e
  simp only [Option.map_eq_some_iff] at e
  obtain ⟨x, _, e⟩ := e
  cases e
  exact State.setSpace_keeps ..

theorem State.commitIssued_keeps (s : State) (sl : ℕ) (handle : ℕ) (ws : List Word) : Keeps [.outs] s
    (State.commitIssued s sl handle ws) := by
  unfold State.commitIssued
  split
  · exact Keeps.refl
  · refine Keeps.next (State.updOut_keeps ..) rfl ?_
    exact Keeps.refl

theorem State.joinSpace_keeps (s : State) (sp : ℕ) (handle : ℕ) (op : ℕ) (ws : List Word) (fence : Bool) (noInt :
    Bool) : Keeps [.cmds, .outs] s (State.joinSpace s sp handle op ws fence noInt) := by
  unfold State.joinSpace
  show let r8 := _; Keeps _ _ r8
  intro r8
  extract_lets -descend +onlyGivenNames st9 at r8
  have hst9 : Keeps [.cmds, .outs] s st9 := by
    subst st9
    refine Keeps.next (State.updSpace_keeps ..) rfl ?_
    exact Keeps.refl
  try clear_value st9
  subst r8
  refine Keeps.ite ?_ ?_
  · refine Keeps.next (State.commitIssued_keeps ..) rfl ?_
    exact hst9
  · exact hst9

theorem State.issue_keeps {s t : State} {sp op st i : Nat} {ws : List Word} {f n : Bool}
    (e : s.issue sp op ws f n = (st, i, t)) : Keeps [.cmds, .outs, .pair, .emits] s t := by
  unfold State.issue at e
  dsimp only at e
  have hd : ∀ {u : State} {d : sp < 257 → PairDecision}, Keeps [.cmds, .outs, .pair, .emits] s u →
      Keeps [.cmds, .outs, .pair, .emits] s (if h : sp < 257 then u.decide (d h) else u) := fun h =>
    Keeps.dite (fun _ => Keeps.next (State.decide_keeps ..) rfl h) (fun _ => h)
  split at e
  · cases e
    exact hd Keeps.refl
  · split at e
    · cases e
      exact hd Keeps.refl
    · rename_i h
      cases e
      exact hd (Keeps.next (State.joinSpace_keeps ..) rfl ((State.issueHandle_keeps h).weaken rfl))

theorem State.guestIssue_keeps (s : State) (i : ℕ) (w : GuestWrite) : Keeps [.cells, .pair, .emits] s
    (State.guestIssue s i w) := by
  unfold State.guestIssue
  refine Keeps.next (State.dlogWrite_keeps ..) rfl ?_
  refine Keeps.next (State.hostWrite_keeps ..) rfl ?_
  exact Keeps.refl

theorem State.entryResult_keeps (s : State) (sp : ℕ) (addr : ℕ) (st : ℕ) (handle : ℕ) : Keeps [.cells, .pair,
    .emits] s (State.entryResult s sp addr st handle) := by
  unfold State.entryResult
  show let r6 := _; Keeps _ _ r6
  intro r6
  extract_lets -descend +onlyGivenNames v7 at r6
  subst r6
  refine Keeps.ite ?_ ?_
  · refine Keeps.next (State.guestIssue_keeps ..) rfl ?_
    exact Keeps.refl
  · refine Keeps.next (State.hostWrite_keeps ..) rfl ?_
    exact Keeps.refl

theorem State.takeEntry_keeps (sp : ℕ) (s : State) : Keeps [.cells, .latches, .hif, .cmds, .slices, .haul, .outs,
    .cvu, .floor, .wld, .cic, .pair, .freeCtr, .emits] s (State.takeEntry sp s) := by
  unfold State.takeEntry
  split
  · exact Keeps.refl
  · refine Keeps.ite ?_ ?_
    · exact Keeps.refl
    · show let r3 := _; Keeps _ _ r3
      intro r3
      extract_lets -descend +onlyGivenNames v4 at r3
      extract_lets -descend +onlyGivenNames v5 at r3
      extract_lets -descend +onlyGivenNames v6 at r3
      extract_lets -descend +onlyGivenNames st7 at r3
      have hst7 : Keeps [.cells, .latches, .hif, .cmds, .slices, .haul, .outs, .cvu, .floor, .wld, .cic, .pair,
          .freeCtr, .emits] s st7 := by
        subst st7
        refine Keeps.next (State.updSpace_keeps ..) rfl ?_
        exact Keeps.refl
      try clear_value st7
      subst r3
      split
      · rename_i _ _ st8 e9
        have hst8 : Keeps [.cells, .latches, .hif, .cmds, .slices, .haul, .outs, .cvu, .floor, .wld, .cic, .pair,
            .freeCtr, .emits] s st8 := by
          refine Keeps.next (State.issue_keeps e9) rfl ?_
          exact hst7
        show let r10 := _; Keeps _ _ r10
        intro r10
        extract_lets -descend +onlyGivenNames st11 at r10
        have hst11 : Keeps [.cells, .latches, .hif, .cmds, .slices, .haul, .outs, .cvu, .floor, .wld, .cic, .pair,
            .freeCtr, .emits] s st11 := by
          subst st11
          refine Keeps.next (State.entryResult_keeps ..) rfl ?_
          exact hst8
        try clear_value st11
        extract_lets -descend +onlyGivenNames st12 at r10
        have hst12 : Keeps [.cells, .latches, .hif, .cmds, .slices, .haul, .outs, .cvu, .floor, .wld, .cic, .pair,
            .freeCtr, .emits] s st12 := by
          subst st12
          refine Keeps.next (State.wrN_keeps ..) rfl ?_
          exact hst11
        try clear_value st12
        extract_lets -descend +onlyGivenNames st13 at r10
        have hst13 : Keeps [.cells, .latches, .hif, .cmds, .slices, .haul, .outs, .cvu, .floor, .wld, .cic, .pair,
            .freeCtr, .emits] s st13 := by
          subst st13
          refine Keeps.dite (fun _ => ?_) (fun _ => ?_)
          · refine Keeps.next (State.decide_keeps ..) rfl ?_
            exact hst12
          · exact hst12
        try clear_value st13
        subst r10
        refine Keeps.next (State.settle_keeps ..) rfl ?_
        refine Keeps.next (State.fetchEntry_keeps ..) rfl ?_
        exact hst13

theorem State.trAdvance_keeps (s : State) (rcv : ℕ) : Keeps [.cells] s (State.trAdvance s rcv) := by
  unfold State.trAdvance
  refine Keeps.next (State.put_keeps ..) rfl ?_
  exact Keeps.refl

theorem State.writeReportBytes_keeps (s : State) (rcv : ℕ) (bytes : List Byte) : Keeps [.cells, .hif, .pair, .emits]
    s (State.writeReportBytes s rcv bytes) := by
  unfold State.writeReportBytes
  split
  · show let r4 := _; Keeps _ _ r4
    intro r4
    extract_lets -descend +onlyGivenNames v5 at r4
    extract_lets -descend +onlyGivenNames v6 at r4
    extract_lets -descend +onlyGivenNames st7 at r4
    have hst7 : Keeps [.cells, .hif, .pair, .emits] s st7 := by
      subst st7
      refine Keeps.next (State.hostWrite_keeps ..) rfl ?_
      exact Keeps.refl
    try clear_value st7
    extract_lets -descend +onlyGivenNames st8 at r4
    have hst8 : Keeps [.cells, .hif, .pair, .emits] s st8 := by
      subst st8
      refine Keeps.next (State.hostWrite_keeps ..) rfl ?_
      exact hst7
    try clear_value st8
    extract_lets -descend +onlyGivenNames st9 at r4
    have hst9 : Keeps [.cells, .hif, .pair, .emits] s st9 := by
      subst st9
      refine Keeps.next (State.trAdvance_keeps ..) rfl ?_
      refine Keeps.next (State.dlogWrite_keeps ..) rfl ?_
      exact hst8
    try clear_value st9
    subst r4
    refine Keeps.ite ?_ ?_
    · show let r10 := _; Keeps _ _ r10
      intro r10
      extract_lets -descend +onlyGivenNames st11 at r10
      have hst11 : Keeps [.cells, .hif, .pair, .emits] s st11 := by
        subst st11
        refine Keeps.dite (fun _ => ?_) (fun _ => ?_)
        · refine Keeps.next (State.decide_keeps ..) rfl ?_
          exact hst9
        · exact hst9
      try clear_value st11
      subst r10
      refine Keeps.next (State.signal_keeps ..) rfl ?_
      exact hst11
    · exact hst9

theorem State.endXfer_keeps (s : State) (x : Xfer) (result : List Byte) : Keeps [.cells, .hif, .cmds, .slices,
    .haul, .cvu, .pair, .emits] s (State.endXfer s x result) := by
  unfold State.endXfer
  show let r4 := _; Keeps _ _ r4
  intro r4
  extract_lets -descend +onlyGivenNames st5 at r4
  have hst5 : Keeps [.cells, .hif, .cmds, .slices, .haul, .cvu, .pair, .emits] s st5 := by
    subst st5
    refine Keeps.next (State.tidyEngines_keeps ..) rfl ?_
    refine Keeps.next (State.stopXfer_keeps ..) rfl ?_
    exact Keeps.refl
  try clear_value st5
  extract_lets -descend +onlyGivenNames st6 at r4
  have hst6 : Keeps [.cells, .hif, .cmds, .slices, .haul, .cvu, .pair, .emits] s st6 := by
    subst st6
    split
    · refine Keeps.next (State.cvEnd_keeps ..) rfl ?_
      exact hst5
    · exact hst5
  try clear_value st6
  subst r4
  refine Keeps.next (State.endCmdHolds_keeps ..) rfl ?_
  refine Keeps.next (State.complete_keeps ..) rfl ?_
  exact hst6

theorem finishExport_keeps (x : Xfer) (s : State) : Keeps [.cells, .hif, .cmds, .slices, .haul, .cvu, .pair, .emits]
    s (finishExport x s) := by
  unfold finishExport
  refine Keeps.ite ?_ ?_
  · exact Keeps.refl
  · show let r3 := _; Keeps _ _ r3
    intro r3
    extract_lets -descend +onlyGivenNames v4 at r3
    subst r3
    refine Keeps.next (State.endXfer_keeps ..) rfl ?_
    exact Keeps.refl

theorem State.guestGoesOn_keeps (s : State) (sl : ℕ) (w : GuestWrite) : Keeps [.cells, .latches, .hif, .cmds,
    .slices, .haul, .outs, .cvu, .floor, .wld, .cic, .pair, .freeCtr, .emits] s (State.guestGoesOn s sl w) := by
  unfold State.guestGoesOn
  refine Keeps.ite ?_ ?_
  · refine Keeps.next (State.takeEntry_keeps ..) rfl ?_
    exact Keeps.refl
  · refine Keeps.ite ?_ ?_
    · refine Keeps.next (State.writeReportBytes_keeps ..) rfl ?_
      exact Keeps.refl
    · show let r4 := _; Keeps _ _ r4
      intro r4
      extract_lets -descend +onlyGivenNames st5 at r4
      have hst5 : Keeps [.cells, .latches, .hif, .cmds, .slices, .haul, .outs, .cvu, .floor, .wld, .cic, .pair,
          .freeCtr, .emits] s st5 := by
        subst st5
        refine Keeps.next (State.guestIssue_keeps ..) rfl ?_
        exact Keeps.refl
      try clear_value st5
      subst r4
      split
      · refine Keeps.ite ?_ ?_
        · refine Keeps.next (finishExport_keeps ..) rfl ?_
          exact hst5
        · exact hst5
      · exact hst5

theorem State.drainWaiting_keeps (i n : Nat) (s : State) : Keeps [.cells, .latches, .hif, .cmds, .slices, .haul,
    .outs, .cvu, .floor, .wld, .cic, .pair, .freeCtr, .emits] s (State.drainWaiting i n s) := by
  induction n generalizing s with
  | zero => exact Keeps.refl
  | succ n ih =>
    unfold State.drainWaiting
    split
    · exact Keeps.refl
    · refine Keeps.ite ?_ Keeps.refl
      refine Keeps.next (ih _) rfl ?_
      refine Keeps.next (State.guestGoesOn_keeps ..) rfl ?_
      refine Keeps.next (State.setSlice_keeps ..) rfl ?_
      exact Keeps.refl

theorem State.clearSpace_keeps (s : State) (sp : ℕ) : Keeps [.cells, .cmds] s (State.clearSpace s sp) := by
  unfold State.clearSpace
  show let r3 := _; Keeps _ _ r3
  intro r3
  extract_lets -descend +onlyGivenNames v4 at r3
  subst r3
  refine Keeps.next (State.resetKeys_keeps ..) rfl ?_
  refine Keeps.next (State.setSpace_keeps ..) rfl ?_
  exact Keeps.refl

theorem State.settleReset_keeps (s : State) (sl : ℕ) : Keeps [.cells, .cmds] s (State.settleReset s sl) := by
  unfold State.settleReset
  refine Keeps.ite ?_ ?_
  · refine Keeps.next (State.clearSpace_keeps ..) rfl ?_
    exact Keeps.refl
  · exact Keeps.refl

theorem State.flushCompletions_keeps (s : State) (sl : ℕ) : Keeps [.cells, .hif, .cmds, .pair, .emits] s
    (State.flushCompletions s sl) := by
  unfold State.flushCompletions
  show let r3 := _; Keeps _ _ r3
  intro r3
  extract_lets -descend +onlyGivenNames v4 at r3
  subst r3
  split
  · show let r5 := _; Keeps _ _ r5
    intro r5
    extract_lets -descend +onlyGivenNames st6 at r5
    have hst6 : Keeps [.cells, .hif, .cmds, .pair, .emits] s st6 := by
      subst st6
      refine Keeps.next (State.flush_keeps ..) rfl ?_
      refine Keeps.next (State.setSpace_keeps ..) rfl ?_
      exact Keeps.refl
    try clear_value st6
    subst r5
    refine Keeps.next (State.updSpace_keeps ..) rfl ?_
    exact hst6

theorem State.settleStall_keeps (s : State) (sl : ℕ) : Keeps [.cells] s (State.settleStall s sl) := by
  unfold State.settleStall
  refine Keeps.ite ?_ ?_
  · exact Keeps.refl
  · refine Keeps.next (State.clrF_keeps ..) rfl ?_
    exact Keeps.refl

theorem State.dlogProgress_keeps (s : State) (sl : ℕ) : Keeps [.cells, .latches, .hif, .cmds, .slices, .haul, .outs,
    .cvu, .floor, .wld, .cic, .pair, .freeCtr, .emits] s (State.dlogProgress s sl) := by
  unfold State.dlogProgress
  refine Keeps.ite ?_ ?_
  · exact Keeps.refl
  · show let r3 := _; Keeps _ _ r3
    intro r3
    extract_lets -descend +onlyGivenNames st4 at r3
    have hst4 : Keeps [.cells, .latches, .hif, .cmds, .slices, .haul, .outs, .cvu, .floor, .wld, .cic, .pair,
        .freeCtr, .emits] s st4 := by
      subst st4
      refine Keeps.next (State.drainWaiting_keeps ..) rfl ?_
      exact Keeps.refl
    try clear_value st4
    extract_lets -descend +onlyGivenNames st5 at r3
    have hst5 : Keeps [.cells, .latches, .hif, .cmds, .slices, .haul, .outs, .cvu, .floor, .wld, .cic, .pair,
        .freeCtr, .emits] s st5 := by
      subst st5
      split
      · refine Keeps.next (State.flush_keeps ..) rfl ?_
        exact hst4
      · refine Keeps.next (State.settleReset_keeps ..) rfl ?_
        refine Keeps.next (State.flush_keeps ..) rfl ?_
        exact hst4
      · refine Keeps.next (State.flushCompletions_keeps ..) rfl ?_
        exact hst4
      · refine Keeps.next (State.flushCompletions_keeps ..) rfl ?_
        exact hst4
      · exact hst4
    try clear_value st5
    subst r3
    refine Keeps.next (State.settleStall_keeps ..) rfl ?_
    exact hst5

theorem State.reattachNext_keeps (n : Nat) (s : State) : Keeps [.cells, .latches, .hif, .cmds, .slices, .haul,
    .outs, .cvu, .floor, .wld, .cic, .pair, .freeCtr, .emits] s (State.reattachNext n s) := by
  induction n generalizing s with
  | zero => exact Keeps.refl
  | succ n ih =>
    unfold State.reattachNext
    split
    · refine Keeps.next (State.event_keeps ..) rfl ?_
      exact (State.clrF_keeps ..).weaken rfl
    · dsimp only
      refine Keeps.ite ?_ (Keeps.ite ?_ ?_)
      · refine Keeps.next (ih _) rfl ?_
        refine Keeps.next (State.tellLost_keeps ..) rfl ?_
        refine Keeps.next (State.dlogProgress_keeps ..) rfl ?_
        refine Keeps.next (State.updSlice_keeps ..) rfl ?_
        exact (State.flush_keeps ..).weaken rfl
      · exact (State.flush_keeps ..).weaken rfl
      · refine Keeps.next (State.dlogStall_keeps ..) rfl ?_
        exact (State.flush_keeps ..).weaken rfl

theorem State.reattachGoesOn_keeps (s : State) : Keeps [.cells, .latches, .hif, .cmds, .slices, .haul, .outs, .cvu,
    .floor, .wld, .cic, .pair, .freeCtr, .emits] s (State.reattachGoesOn s) := by
  unfold State.reattachGoesOn
  refine Keeps.ite ?_ ?_
  · refine Keeps.next (State.reattachNext_keeps ..) rfl ?_
    exact Keeps.refl
  · exact Keeps.refl

theorem doReattach_keeps (v : Word) (s : State) : Keeps [.cells, .latches, .hif, .cmds, .slices, .haul, .outs, .cvu,
    .floor, .hst, .ast, .wld, .cic, .pair, .freeCtr, .emits] s (doReattach v s) := by
  unfold doReattach
  refine Keeps.ite ?_ ?_
  · exact Keeps.refl
  · refine Keeps.next (State.kick_keeps ..) rfl ?_
    refine Keeps.next (State.reattachGoesOn_keeps ..) rfl ?_
    refine Keeps.next (State.setF_keeps ..) rfl ?_
    refine Keeps.next (State.flush_keeps ..) rfl ?_
    exact Keeps.refl

theorem doCmdOp_keeps (sp : ℕ) (v : Word) (s : State) : Keeps [.cells, .latches, .hif, .cmds, .slices, .haul, .outs,
    .cvu, .floor, .wld, .cic, .pair, .freeCtr, .emits] s (doCmdOp sp v s) := by
  unfold doCmdOp
  split
  · rename_i _ _ st4 e5
    have hst4 : Keeps [.cells, .latches, .hif, .cmds, .slices, .haul, .outs, .cvu, .floor, .wld, .cic, .pair,
        .freeCtr, .emits] s st4 := by
      refine Keeps.next (State.issue_keeps e5) rfl ?_
      exact Keeps.refl
    refine Keeps.next (State.settle_keeps ..) rfl ?_
    refine Keeps.next (State.wrN_keeps ..) rfl ?_
    refine Keeps.next (State.wrN_keeps ..) rfl ?_
    exact hst4

theorem doHandleQuery_keeps (sp : ℕ) (v : Word) (s : State) : Keeps [.cmds] s (doHandleQuery sp v s) := by
  unfold doHandleQuery
  refine Keeps.next (State.updSpace_keeps ..) rfl ?_
  exact Keeps.refl

theorem doSqCtrl_keeps (sp : ℕ) (v : Word) (s : State) : Keeps [.cells, .hif, .cmds, .emits] s (doSqCtrl sp v s) := by
  unfold doSqCtrl
  show let r4 := _; Keeps _ _ r4
  intro r4
  extract_lets -descend +onlyGivenNames st5 at r4
  have hst5 : Keeps [.cells, .hif, .cmds, .emits] s st5 := by
    subst st5
    refine Keeps.next (State.plainWrite_keeps ..) rfl ?_
    exact Keeps.refl
  try clear_value st5
  extract_lets -descend +onlyGivenNames st6 at r4
  have hst6 : Keeps [.cells, .hif, .cmds, .emits] s st6 := by
    subst st6
    refine Keeps.ite ?_ ?_
    · exact hst5
    · refine Keeps.next (State.cancelReads_keeps ..) rfl ?_
      refine Keeps.next (State.updSpace_keeps ..) rfl ?_
      exact hst5
  try clear_value st6
  subst r4
  refine Keeps.next (State.fetchEntry_keeps ..) rfl ?_
  exact hst6

theorem State.ringError_keeps (s : State) (sp : ℕ) : Keeps [.cells, .hif, .emits] s (State.ringError s sp) := by
  unfold State.ringError
  refine Keeps.ite ?_ ?_
  · refine Keeps.next (State.signal_keeps ..) rfl ?_
    exact Keeps.refl
  · refine Keeps.next (State.signal_keeps ..) rfl ?_
    exact Keeps.refl

theorem doSqTail_keeps (sp : ℕ) (v : Word) (s : State) : Keeps [.cells, .hif, .cmds, .emits] s (doSqTail sp v s) := by
  unfold doSqTail
  show let r4 := _; Keeps _ _ r4
  intro r4
  extract_lets -descend +onlyGivenNames v5 at r4
  extract_lets -descend +onlyGivenNames v6 at r4
  extract_lets -descend +onlyGivenNames st7 at r4
  have hst7 : Keeps [.cells, .hif, .cmds, .emits] s st7 := by
    subst st7
    refine Keeps.next (State.wr_keeps ..) rfl ?_
    exact Keeps.refl
  try clear_value st7
  subst r4
  refine Keeps.ite ?_ ?_
  · show let r8 := _; Keeps _ _ r8
    intro r8
    extract_lets -descend +onlyGivenNames st9 at r8
    have hst9 : Keeps [.cells, .hif, .cmds, .emits] s st9 := by
      subst st9
      refine Keeps.next (State.updSpace_keeps ..) rfl ?_
      refine Keeps.next (State.setF_keeps ..) rfl ?_
      exact hst7
    try clear_value st9
    subst r8
    refine Keeps.next (State.fetchEntry_keeps ..) rfl ?_
    refine Keeps.next (State.ringError_keeps ..) rfl ?_
    exact hst9
  · refine Keeps.next (State.fetchEntry_keeps ..) rfl ?_
    refine Keeps.next (State.updSpace_keeps ..) rfl ?_
    exact hst7

theorem doCqCtrl_keeps (sp : ℕ) (v : Word) (s : State) : Keeps [.cells] s (doCqCtrl sp v s) := by
  unfold doCqCtrl
  show let r4 := _; Keeps _ _ r4
  intro r4
  extract_lets -descend +onlyGivenNames v5 at r4
  extract_lets -descend +onlyGivenNames v6 at r4
  subst r4
  refine Keeps.ite ?_ ?_
  · refine Keeps.next (State.setF_keeps ..) rfl ?_
    exact Keeps.refl
  · show let r7 := _; Keeps _ _ r7
    intro r7
    extract_lets -descend +onlyGivenNames st8 at r7
    have hst8 : Keeps [.cells] s st8 := by
      subst st8
      refine Keeps.next (State.plainWrite_keeps ..) rfl ?_
      exact Keeps.refl
    try clear_value st8
    subst r7
    refine Keeps.ite ?_ ?_
    · refine Keeps.next (State.wrN_keeps ..) rfl ?_
      refine Keeps.next (State.wrN_keeps ..) rfl ?_
      exact hst8
    · exact hst8

theorem doCqHead_keeps (sp : ℕ) (v : Word) (s : State) : Keeps [.cells, .latches, .hif, .cmds, .slices, .haul,
    .outs, .cvu, .floor, .wld, .cic, .pair, .freeCtr, .emits] s (doCqHead sp v s) := by
  unfold doCqHead
  show let r4 := _; Keeps _ _ r4
  intro r4
  extract_lets -descend +onlyGivenNames v5 at r4
  extract_lets -descend +onlyGivenNames v6 at r4
  subst r4
  refine Keeps.ite ?_ ?_
  · show let r7 := _; Keeps _ _ r7
    intro r7
    extract_lets -descend +onlyGivenNames st8 at r7
    have hst8 : Keeps [.cells, .latches, .hif, .cmds, .slices, .haul, .outs, .cvu, .floor, .wld, .cic, .pair,
        .freeCtr, .emits] s st8 := by
      subst st8
      refine Keeps.next (State.setSpace_keeps ..) rfl ?_
      refine Keeps.next (State.wr_keeps ..) rfl ?_
      exact Keeps.refl
    try clear_value st8
    subst r7
    refine Keeps.next (State.settle_keeps ..) rfl ?_
    refine Keeps.next (State.tellLost_keeps ..) rfl ?_
    exact hst8
  · refine Keeps.next (State.ringError_keeps ..) rfl ?_
    refine Keeps.next (State.setF_keeps ..) rfl ?_
    exact Keeps.refl

theorem doCmdPage_keeps (sp : ℕ) (off : ℕ) (v : Word) (s : State) : Keeps [.cells, .latches, .hif, .cmds, .slices,
    .haul, .outs, .cvu, .floor, .wld, .cic, .pair, .freeCtr, .emits] s (doCmdPage sp off v s) := by
  unfold doCmdPage
  split
  · refine Keeps.next (doCmdOp_keeps ..) rfl ?_
    exact Keeps.refl
  · refine Keeps.next (doHandleQuery_keeps ..) rfl ?_
    exact Keeps.refl
  · refine Keeps.next (doSqCtrl_keeps ..) rfl ?_
    exact Keeps.refl
  · refine Keeps.next (doSqTail_keeps ..) rfl ?_
    exact Keeps.refl
  · refine Keeps.next (doCqCtrl_keeps ..) rfl ?_
    exact Keeps.refl
  · refine Keeps.next (doCqHead_keeps ..) rfl ?_
    exact Keeps.refl
  · refine Keeps.next (State.plainWrite_keeps ..) rfl ?_
    exact Keeps.refl

theorem writeHifReg_keeps (p : ℕ) (off : ℕ) (v : Word) (s : State) : Keeps [.cells, .latches, .hif, .cmds, .slices,
    .haul, .outs, .cvu, .floor, .hst, .ast, .wld, .cic, .pair, .freeCtr, .emits] s (writeHifReg p off v s) := by
  unfold writeHifReg
  split
  · refine Keeps.next (doReattach_keeps ..) rfl ?_
    exact Keeps.refl
  · refine Keeps.next (doCmdPage_keeps ..) rfl ?_
    exact Keeps.refl
  · refine Keeps.next (State.wr_keeps ..) rfl ?_
    exact Keeps.refl
  · refine Keeps.next (State.plainWrite_keeps ..) rfl ?_
    exact Keeps.refl

theorem doGateOpen_keeps (i : ℕ) (v : Word) (s : State) : Keeps [.cells, .latches, .hif, .cmds, .slices, .haul,
    .outs, .cvu, .floor, .hst, .ast, .wld, .cic, .clk, .pair, .freeCtr, .emits] s (doGateOpen i v s) := by
  unfold doGateOpen
  refine Keeps.next (State.kick_keeps ..) rfl ?_
  refine Keeps.each (fun st4 x5 => ?_) ?_
  · refine Keeps.next (State.openGate_keeps ..) rfl ?_
    exact Keeps.refl
  · exact Keeps.refl

theorem State.xwDenied_keeps (s : State) (r : Req) (kind : ℕ) (a : ℕ) : Keeps [.cells, .hif, .wld, .cic, .emits] s
    (State.xwDenied s r kind a) := by
  unfold State.xwDenied
  show let r5 := _; Keeps _ _ r5
  intro r5
  extract_lets -descend +onlyGivenNames st6 at r5
  have hst6 : Keeps [.cells, .hif, .wld, .cic, .emits] s st6 := by
    subst st6
    refine Keeps.next (State.count_keeps ..) rfl ?_
    exact Keeps.refl
  try clear_value st6
  extract_lets -descend +onlyGivenNames st7 at r5
  have hst7 : Keeps [.cells, .hif, .wld, .cic, .emits] s st7 := by
    subst st7
    refine Keeps.ite ?_ ?_
    · exact hst6
    · refine Keeps.next (State.wrN_keeps ..) rfl ?_
      exact hst6
  try clear_value st7
  subst r5
  refine Keeps.next (State.event_keeps ..) rfl ?_
  exact hst7

theorem State.gateRefused_keeps (s : State) (g : ℕ) : Keeps [.cells, .hif, .wld, .cic, .emits] s (State.gateRefused
    s g) := by
  unfold State.gateRefused
  show let r3 := _; Keeps _ _ r3
  intro r3
  extract_lets -descend +onlyGivenNames st4 at r3
  have hst4 : Keeps [.cells, .hif, .wld, .cic, .emits] s st4 := by
    subst st4
    refine Keeps.ite ?_ ?_
    · exact Keeps.refl
    · refine Keeps.next (State.wrN_keeps ..) rfl ?_
      exact Keeps.refl
  try clear_value st4
  subst r3
  refine Keeps.next (State.event_keeps ..) rfl ?_
  exact hst4

theorem doGateClose_keeps (r : Req) (i : ℕ) (v : Word) (s : State) : Keeps [.cells, .hif, .wld, .cic, .clk, .emits]
    s (doGateClose r i v s) := by
  unfold doGateClose
  show let r5 := _; Keeps _ _ r5
  intro r5
  extract_lets -descend +onlyGivenNames v6 at r5
  extract_lets -descend +onlyGivenNames v7 at r5
  extract_lets -descend +onlyGivenNames st8 at r5
  have hst8 : Keeps [.cells, .hif, .wld, .cic, .clk, .emits] s st8 := by
    subst st8
    refine Keeps.ite ?_ ?_
    · refine Keeps.next (State.xwDenied_keeps ..) rfl ?_
      exact Keeps.refl
    · exact Keeps.refl
  try clear_value st8
  subst r5
  refine Keeps.each (fun st9 x10 => ?_) ?_
  · refine Keeps.ite ?_ ?_
    · refine Keeps.next (State.gateRefused_keeps ..) rfl ?_
      exact Keeps.refl
    · refine Keeps.set_clk (x := st9) rfl ?_
      exact Keeps.refl
  · exact hst8

theorem doPllRestart_keeps (r : Req) (v : Word) (s : State) : Keeps [.cells, .hif, .wld, .cic, .clk, .emits] s
    (doPllRestart r v s) := by
  unfold doPllRestart
  refine Keeps.each (fun st4 x5 => ?_) ?_
  · refine Keeps.ite ?_ ?_
    · refine Keeps.next (State.xwDenied_keeps ..) rfl ?_
      exact Keeps.refl
    · refine Keeps.next (State.startPll_keeps ..) rfl ?_
      refine Keeps.next (State.put_keeps ..) rfl ?_
      exact Keeps.refl
  · exact Keeps.refl

theorem State.setRatio_keeps (s : State) (d : ℕ) (n : ℕ) : Keeps [.clk] s (State.setRatio s d n) := by
  unfold State.setRatio
  show let r4 := _; Keeps _ _ r4
  intro r4
  extract_lets -descend +onlyGivenNames v5 at r4
  subst r4
  refine Keeps.next (State.setDom_keeps ..) rfl ?_
  exact Keeps.refl

theorem doRatioWrite_keeps (r : Req) (v : Word) (s : State) : Keeps [.cells, .hif, .wld, .cic, .clk, .pwr, .emits] s
    (doRatioWrite r v s) := by
  unfold doRatioWrite
  show let r4 := _; Keeps _ _ r4
  intro r4
  extract_lets -descend +onlyGivenNames v5 at r4
  extract_lets -descend +onlyGivenNames v6 at r4
  extract_lets -descend +onlyGivenNames st7 at r4
  have hst7 : Keeps [.cells, .hif, .wld, .cic, .clk, .pwr, .emits] s st7 := by
    subst st7
    refine Keeps.next (State.setDom_keeps ..) rfl ?_
    exact Keeps.refl
  try clear_value st7
  extract_lets -descend +onlyGivenNames v8 at r4
  extract_lets -descend +onlyGivenNames v9 at r4
  extract_lets -descend +onlyGivenNames v10 at r4
  subst r4
  refine Keeps.ite ?_ ?_
  · exact hst7
  · refine Keeps.ite ?_ ?_
    · refine Keeps.ite ?_ ?_
      · try clear_value v9
        split
        · refine Keeps.set_pwr (x := st7) rfl ?_
          exact hst7
        · refine Keeps.next (State.setRatio_keeps ..) rfl ?_
          exact hst7
      · exact hst7
    · show let r11 := _; Keeps _ _ r11
      intro r11
      extract_lets -descend +onlyGivenNames st12 at r11
      have hst12 : Keeps [.cells, .hif, .wld, .cic, .clk, .pwr, .emits] s st12 := by
        subst st12
        refine Keeps.next (State.setDom_keeps ..) rfl ?_
        exact hst7
      try clear_value st12
      subst r11
      refine Keeps.ite ?_ ?_
      · refine Keeps.next (State.xwDenied_keeps ..) rfl ?_
        exact hst12
      · exact hst12

theorem doClkOut_keeps (v : Word) (s : State) : Keeps [.cells] s (doClkOut v s) := by
  unfold doClkOut
  refine Keeps.next (State.plainWrite_keeps ..) rfl ?_
  exact Keeps.refl

theorem writeClkReg_keeps (r : Req) (p : ℕ) (off : ℕ) (v : Word) (s : State) : Keeps [.cells, .latches, .hif, .cmds,
    .slices, .haul, .outs, .cvu, .floor, .hst, .ast, .wld, .cic, .clk, .pair, .pwr, .freeCtr, .emits] s (writeClkReg r p
    off v s) := by
  unfold writeClkReg
  refine Keeps.ite ?_ ?_
  · refine Keeps.ite ?_ ?_
    · refine Keeps.next (doGateOpen_keeps ..) rfl ?_
      exact Keeps.refl
    · refine Keeps.ite ?_ ?_
      · refine Keeps.next (doGateClose_keeps ..) rfl ?_
        exact Keeps.refl
      · refine Keeps.next (State.plainWrite_keeps ..) rfl ?_
        exact Keeps.refl
  · split
    · refine Keeps.next (doPllRestart_keeps ..) rfl ?_
      exact Keeps.refl
    · refine Keeps.next (doRatioWrite_keeps ..) rfl ?_
      exact Keeps.refl
    · refine Keeps.next (doClkOut_keeps ..) rfl ?_
      exact Keeps.refl
    · refine Keeps.next (State.plainWrite_keeps ..) rfl ?_
      exact Keeps.refl

theorem State.refusePower_keeps (s : State) (reason : ℕ) : Keeps [.cells, .hif, .wld, .cic, .emits] s
    (State.refusePower s reason) := by
  unfold State.refusePower
  refine Keeps.next (State.event_keeps ..) rfl ?_
  refine Keeps.next (State.setF_keeps ..) rfl ?_
  refine Keeps.next (State.put_keeps ..) rfl ?_
  exact Keeps.refl

theorem State.dropReduction_keeps (s : State) (cause : ℕ) : Keeps [.reductions] s (State.dropReduction s cause) := by
  unfold State.dropReduction
  refine Keeps.set_reductions (x := s) rfl ?_
  exact Keeps.refl

theorem State.addReduction_keeps (s : State) (cause : ℕ) (v : ℕ) : Keeps [.cells, .outs, .reductions, .pair, .emits]
    s (State.addReduction s cause v) := by
  unfold State.addReduction
  show let r4 := _; Keeps _ _ r4
  intro r4
  extract_lets -descend +onlyGivenNames st5 at r4
  have hst5 : Keeps [.cells, .outs, .reductions, .pair, .emits] s st5 := by
    subst st5
    refine Keeps.next (State.dropReduction_keeps ..) rfl ?_
    exact Keeps.refl
  try clear_value st5
  subst r4
  refine Keeps.next (State.shedPass_keeps ..) rfl ?_
  refine Keeps.next (State.syncCauses_keeps ..) rfl ?_
  refine Keeps.set_reductions (x := st5) rfl ?_
  exact hst5

theorem State.startSwitch_keeps (s : State) (sp : ℕ) : Keeps [.cells, .dmc] s (State.startSwitch s sp) := by
  unfold State.startSwitch
  refine Keeps.next (State.setF_keeps ..) rfl ?_
  refine Keeps.set_dmc (x := s) rfl ?_
  exact Keeps.refl

theorem State.pursue_keeps (s : State) (sp : ℕ) : Keeps [.cells, .outs, .dmc, .reductions, .pair, .emits] s
    (State.pursue s sp) := by
  unfold State.pursue
  refine Keeps.ite ?_ ?_
  · exact Keeps.refl
  · refine Keeps.ite ?_ ?_
    · refine Keeps.set_dmc (x := s) rfl ?_
      exact Keeps.refl
    · refine Keeps.ite ?_ ?_
      · refine Keeps.next (State.addReduction_keeps ..) rfl ?_
        exact Keeps.refl
      · show let r3 := _; Keeps _ _ r3
        intro r3
        extract_lets -descend +onlyGivenNames st4 at r3
        have hst4 : Keeps [.cells, .outs, .dmc, .reductions, .pair, .emits] s st4 := by
          subst st4
          refine Keeps.ite ?_ ?_
          · refine Keeps.next (State.shedPass_keeps ..) rfl ?_
            refine Keeps.next (State.syncCauses_keeps ..) rfl ?_
            refine Keeps.next (State.dropReduction_keeps ..) rfl ?_
            exact Keeps.refl
          · exact Keeps.refl
        try clear_value st4
        subst r3
        refine Keeps.ite ?_ ?_
        · exact hst4
        · refine Keeps.next (State.startSwitch_keeps ..) rfl ?_
          exact hst4

theorem State.setPoint_keeps (s : State) (sp : ℕ) : Keeps [.cells, .outs, .dmc, .reductions, .pair, .emits] s
    (State.setPoint s sp) := by
  unfold State.setPoint
  refine Keeps.next (State.pursue_keeps ..) rfl ?_
  refine Keeps.next (State.put_keeps ..) rfl ?_
  exact Keeps.refl

theorem State.restoreDim_keeps (s : State) : Keeps [.cells, .outs, .dmc, .reductions, .clk, .pair, .pwr, .emits] s
    (State.restoreDim s) := by
  unfold State.restoreDim
  split
  · exact Keeps.refl
  · show let r2 := _; Keeps _ _ r2
    intro r2
    extract_lets -descend +onlyGivenNames st3 at r2
    have hst3 : Keeps [.cells, .outs, .dmc, .reductions, .clk, .pair, .pwr, .emits] s st3 := by
      subst st3
      refine Keeps.next (State.setPoint_keeps ..) rfl ?_
      refine Keeps.set_pwr (x := s) rfl ?_
      exact Keeps.refl
    try clear_value st3
    extract_lets -descend +onlyGivenNames st4 at r2
    have hst4 : Keeps [.cells, .outs, .dmc, .reductions, .clk, .pair, .pwr, .emits] s st4 := by
      subst st4
      refine Keeps.next (State.put_keeps ..) rfl ?_
      exact hst3
    try clear_value st4
    subst r2
    refine Keeps.next (State.setRatio_keeps ..) rfl ?_
    refine Keeps.next (State.put_keeps ..) rfl ?_
    exact hst4

theorem State.enterPower_keeps (s : State) (n : ℕ) : Keeps [.cells, .hif, .wld, .cic, .emits] s (State.enterPower s
    n) := by
  unfold State.enterPower
  refine Keeps.next (State.event_keeps ..) rfl ?_
  refine Keeps.next (State.put_keeps ..) rfl ?_
  refine Keeps.next (State.put_keeps ..) rfl ?_
  exact Keeps.refl

theorem State.endProg_keeps (s : State) (n : ℕ) : Keeps [.hap] s (State.endProg s n) := by
  unfold State.endProg
  show let r3 := _; Keeps _ _ r3
  intro r3
  extract_lets -descend +onlyGivenNames v4 at r3
  subst r3
  refine Keeps.next (State.updChan_keeps ..) rfl ?_
  exact Keeps.refl

theorem State.hapFault_keeps (s : State) (n : ℕ) (rail : Bool) : Keeps [.cells, .hif, .hap, .wld, .cic, .emits] s
    (State.hapFault s n rail) := by
  unfold State.hapFault
  refine Keeps.next (State.updChan_keeps ..) rfl ?_
  refine Keeps.next (State.endProg_keeps ..) rfl ?_
  refine Keeps.next (State.dropPending_keeps ..) rfl ?_
  exact Keeps.refl

theorem State.railFaulted_keeps (s : State) : Keeps [.cells, .hif, .hap, .hapShared, .wld, .cic, .emits] s
    (State.railFaulted s) := by
  unfold State.railFaulted
  show let r2 := _; Keeps _ _ r2
  intro r2
  extract_lets -descend +onlyGivenNames st3 at r2
  have hst3 : Keeps [.cells, .hif, .hap, .hapShared, .wld, .cic, .emits] s st3 := by
    subst st3
    refine Keeps.next (State.setF_keeps ..) rfl ?_
    refine Keeps.next (State.clrF_keeps ..) rfl ?_
    exact Keeps.refl
  try clear_value st3
  extract_lets -descend +onlyGivenNames st4 at r2
  have hst4 : Keeps [.cells, .hif, .hap, .hapShared, .wld, .cic, .emits] s st4 := by
    subst st4
    refine Keeps.set_hapShared (x := st3) rfl ?_
    exact hst3
  try clear_value st4
  subst r2
  refine Keeps.each (fun st5 x6 => ?_) ?_
  · refine Keeps.next (State.event_keeps ..) rfl ?_
    refine Keeps.ite ?_ ?_
    · refine Keeps.next (State.hapFault_keeps ..) rfl ?_
      exact Keeps.refl
    · exact Keeps.refl
  · exact hst4

theorem State.railOff_keeps (s : State) : Keeps [.cells, .hif, .hap, .hapShared, .wld, .cic, .emits] s
    (State.railOff s) := by
  unfold State.railOff
  refine Keeps.next (State.railSwitch_keeps ..) rfl ?_
  refine Keeps.next (State.railFaulted_keeps ..) rfl ?_
  exact Keeps.refl

theorem State.enterDim_keeps (s : State) : Keeps [.cells, .hif, .outs, .hap, .hapShared, .wld, .cic, .dmc,
    .reductions, .clk, .pair, .pwr, .emits] s (State.enterDim s) := by
  unfold State.enterDim
  show let r2 := _; Keeps _ _ r2
  intro r2
  extract_lets -descend +onlyGivenNames v3 at r2
  extract_lets -descend +onlyGivenNames st4 at r2
  have hst4 : Keeps [.cells, .hif, .outs, .hap, .hapShared, .wld, .cic, .dmc, .reductions, .clk, .pair, .pwr,
      .emits] s st4 := by
    subst st4
    refine Keeps.next (State.railOff_keeps ..) rfl ?_
    refine Keeps.set_pwr (x := s) rfl ?_
    exact Keeps.refl
  try clear_value st4
  extract_lets -descend +onlyGivenNames st5 at r2
  have hst5 : Keeps [.cells, .hif, .outs, .hap, .hapShared, .wld, .cic, .dmc, .reductions, .clk, .pair, .pwr,
      .emits] s st5 := by
    subst st5
    refine Keeps.next (State.put_keeps ..) rfl ?_
    refine Keeps.next (State.setRatio_keeps ..) rfl ?_
    exact hst4
  try clear_value st5
  extract_lets -descend +onlyGivenNames st6 at r2
  have hst6 : Keeps [.cells, .hif, .outs, .hap, .hapShared, .wld, .cic, .dmc, .reductions, .clk, .pair, .pwr,
      .emits] s st6 := by
    subst st6
    refine Keeps.next (State.put_keeps ..) rfl ?_
    exact hst5
  try clear_value st6
  subst r2
  refine Keeps.next (State.setPoint_keeps ..) rfl ?_
  exact hst6

theorem State.standbyOf_keeps (s t : State) : Keeps [.wld, .pwr, .mem] t (s.standbyOf t) := by
  refine ⟨rfl, fun f hf => ?_, fun f hf => ?_⟩
  · cases f <;> first | rfl | exact absurd hf (by decide)
  · by_cases e : f = .mem
    · subst e
      have a := (Mems.wf_parts _).mp hf
      exact (Mems.wf_parts _).mpr ⟨a.1, Tab.wf_filter _ _ _ a.2.1, a.2.2⟩
    · cases f <;> first | exact hf | rfl | exact absurd rfl e

theorem State.keepDie_keeps {s t : State} (h : Keeps Field.list s t) : Keeps Field.list s (s.keepDie t) := by
  refine Keeps.all h.queue (fun f hf => ?_) (by intro f; cases f <;> rfl)
  by_cases e : f = .mem
  · subst e
    have a := (Mems.wf_parts _).mp (h.canon .mem hf)
    have b := (Mems.wf_parts _).mp hf
    exact (Mems.wf_parts _).mpr ⟨a.1, Tab.wf_filter _ _ _ b.2.1, a.2.2⟩
  · have := h.canon f hf
    cases f <;> first | exact this | exact absurd rfl e

theorem State.keepCells_keeps (s t : State) (p : Nat → Bool) :
    Keeps [.cells] { t with cells := s.cells.filter fun e => p e.1 } (s.keepCells t p) := by
  unfold State.keepCells
  refine Keeps.next (State.wrN_keeps ..) rfl ?_
  refine Keeps.next (State.put_keeps ..) rfl ?_
  exact Keeps.refl

theorem State.cutFlash_keeps (s : State) : Keeps [.mem, .freeCtr] s s.cutFlash := by
  unfold State.cutFlash
  split
  · exact Keeps.refl
  · rename_i f _
    exact Keeps.set_mem (x := { s with freeCtr := s.freeCtr + if f.erase then 0x10000 else 256 }) rfl Mems.wf_flash
      (Keeps.set_freeCtr rfl Keeps.refl)

theorem State.bare_keeps (s : State) : Keeps Field.list s s.bare := by
  have h := State.cutFlash_keeps s
  refine Keeps.all h.queue (fun f hf => ?_) (by intro f; cases f <;> rfl)
  cases f <;> try rfl
  have := (Mems.wf_parts _).mp (h.canon .mem hf)
  exact (Mems.wf_parts _).mpr ⟨rfl, rfl, this.2.2.1, rfl, rfl⟩

theorem State.keepLink_keeps (s t : State) : Keeps [.hif] t (s.keepLink t) := by
  exact Keeps.set_hif rfl Keeps.refl

/-- Registers kept of a state beside everything else at reset. -/
theorem State.keepBare_keeps (s : State) (p : Nat → Bool) :
    Keeps Field.list s (s.keepCells s.bare p) := by
  refine Keeps.trans ?_ ((State.keepCells_keeps s s.bare p).weaken rfl)
  refine Keeps.all (State.bare_keeps s).queue (fun f hf => ?_) (by intro f; cases f <;> rfl)
  by_cases h : f = .cells
  · subst h
    exact Tab.wf_filter _ _ _ hf
  · have := (State.bare_keeps s).canon f hf
    cases f <;> first | exact this | exact absurd rfl h

theorem State.dieReset_keeps (s : State) (link : Bool) : Keeps Field.list s (s.dieReset link) := by
  unfold State.dieReset
  have h : Keeps Field.list s (s.keepDie (s.keepCells s.bare (keptWithLink link))) :=
    State.keepDie_keeps (State.keepBare_keeps ..)
  generalize s.keepDie _ = t at h ⊢
  exact Keeps.ite (Keeps.next (State.keepLink_keeps ..) rfl h) h

theorem State.enterStandby_keeps (s : State) : Keeps Field.list s s.enterStandby := by
  unfold State.enterStandby
  refine Keeps.next (State.put_keeps ..) rfl (Keeps.next (State.put_keeps ..) rfl ?_)
  exact Keeps.next (State.standbyOf_keeps ..) rfl (State.dieReset_keeps s false)

theorem State.fullReset_keeps (s : State) (brownOut : Bool) : Keeps Field.list s (s.fullReset brownOut) := by
  unfold State.fullReset
  exact State.keepBare_keeps ..

theorem State.enterOff_keeps (s : State) : Keeps Field.list s s.enterOff := by
  unfold State.enterOff
  have h := State.fullReset_keeps s false
  generalize s.fullReset false = t at h ⊢
  refine Keeps.next (State.put_keeps ..) rfl (Keeps.next (State.put_keeps ..) rfl ?_)
  exact Keeps.set_wld rfl (fun _ => rfl) h

theorem State.decidePower_keeps (s : State) (n : ℕ) (busy : Bool) : Keeps Field.list s (State.decidePower s n busy)
    := by
  unfold State.decidePower
  split
  · refine Keeps.next (State.refusePower_keeps ..) rfl ?_
    exact Keeps.refl
  · split
    · refine Keeps.next (State.railSwitch_keeps ..) rfl ?_
      refine Keeps.next (State.restoreDim_keeps ..) rfl ?_
      refine Keeps.next (State.enterPower_keeps ..) rfl ?_
      exact Keeps.refl
    · refine Keeps.next (State.enterDim_keeps ..) rfl ?_
      refine Keeps.next (State.enterPower_keeps ..) rfl ?_
      exact Keeps.refl
    · refine Keeps.set_pwr (x := s) rfl ?_
      exact Keeps.refl
    · refine Keeps.next (State.enterStandby_keeps ..) rfl ?_
      exact Keeps.refl
    · refine Keeps.next (State.enterOff_keeps ..) rfl ?_
      exact Keeps.refl

theorem State.endNotice_keeps (s : State) : Keeps Field.list s (State.endNotice s) := by
  unfold State.endNotice
  split
  · exact Keeps.refl
  · show let r2 := _; Keeps _ _ r2
    intro r2
    extract_lets -descend +onlyGivenNames st3 at r2
    have hst3 : Keeps Field.list s st3 := by
      subst st3
      refine Keeps.set_wld (x := s) rfl id ?_
      exact Keeps.refl
    try clear_value st3
    subst r2
    refine Keeps.next (State.decidePower_keeps ..) rfl ?_
    refine Keeps.next (State.put_keeps ..) rfl ?_
    refine Keeps.next (State.clrF_keeps ..) rfl ?_
    refine Keeps.next (State.clrF_keeps ..) rfl ?_
    exact hst3

theorem State.settleNotice_keeps (s : State) : Keeps Field.list s (State.settleNotice s) := by
  unfold State.settleNotice
  refine Keeps.ite ?_ ?_
  · refine Keeps.next (State.endNotice_keeps ..) rfl ?_
    exact Keeps.refl
  · exact Keeps.refl

theorem State.askPower_keeps (s : State) (r : Req) (n : ℕ) : Keeps Field.list s (State.askPower s r n) := by
  unfold State.askPower
  refine Keeps.ite ?_ ?_
  · show let r4 := _; Keeps _ _ r4
    intro r4
    extract_lets -descend +onlyGivenNames st5 at r4
    have hst5 : Keeps Field.list s st5 := by
      subst st5
      refine Keeps.set_wld (x := s) rfl id ?_
      exact Keeps.refl
    try clear_value st5
    subst r4
    refine Keeps.next (State.settleNotice_keeps ..) rfl ?_
    refine Keeps.next (State.event_keeps ..) rfl ?_
    refine Keeps.next (State.put_keeps ..) rfl ?_
    refine Keeps.next (State.setF_keeps ..) rfl ?_
    exact hst5
  · refine Keeps.next (State.decidePower_keeps ..) rfl ?_
    exact Keeps.refl

theorem doPwrState_keeps (r : Req) (v : Word) (s : State) : Keeps Field.list s (doPwrState r v s) := by
  unfold doPwrState
  show let r4 := _; Keeps _ _ r4
  intro r4
  extract_lets -descend +onlyGivenNames st5 at r4
  have hst5 : Keeps Field.list s st5 := by
    subst st5
    refine Keeps.ite ?_ ?_
    · refine Keeps.next (State.clrF_keeps ..) rfl ?_
      exact Keeps.refl
    · exact Keeps.refl
  try clear_value st5
  extract_lets -descend +onlyGivenNames v6 at r4
  subst r4
  refine Keeps.ite ?_ ?_
  · refine Keeps.next (State.askPower_keeps ..) rfl ?_
    refine Keeps.next (State.put_keeps ..) rfl ?_
    exact hst5
  · exact hst5

theorem doWakeHi_keeps (v : Word) (s : State) : Keeps [.cells, .pwr] s (doWakeHi v s) := by
  unfold doWakeHi
  show let r3 := _; Keeps _ _ r3
  intro r3
  extract_lets -descend +onlyGivenNames st4 at r3
  have hst4 : Keeps [.cells, .pwr] s st4 := by
    subst st4
    refine Keeps.next (State.wr_keeps ..) rfl ?_
    exact Keeps.refl
  try clear_value st4
  subst r3
  refine Keeps.set_pwr (x := st4) rfl ?_
  exact hst4

theorem State.noteReset_keeps (s : State) (cause : ℕ) : Keeps [.cells] s (State.noteReset s cause) := by
  unfold State.noteReset
  show let r3 := _; Keeps _ _ r3
  intro r3
  extract_lets -descend +onlyGivenNames st4 at r3
  have hst4 : Keeps [.cells] s st4 := by
    subst st4
    refine Keeps.next (State.put_keeps ..) rfl ?_
    exact Keeps.refl
  try clear_value st4
  subst r3
  refine Keeps.next (State.count_keeps ..) rfl ?_
  refine Keeps.next (State.put_keeps ..) rfl ?_
  exact hst4

theorem State.stationReset_keeps (s : State) (cause : ℕ) : Keeps Field.list s (State.stationReset s cause) := by
  unfold State.stationReset
  show let r3 := _; Keeps _ _ r3
  intro r3
  extract_lets -descend +onlyGivenNames st4 at r3
  have hst4 : Keeps Field.list s st4 := by
    subst st4
    refine Keeps.next (State.dieReset_keeps ..) rfl ?_
    refine Keeps.next (State.noteReset_keeps ..) rfl ?_
    exact Keeps.refl
  try clear_value st4
  subst r3
  refine Keeps.next (State.boot_keeps ..) rfl ?_
  refine Keeps.set_pwr (x := st4) rfl ?_
  exact hst4

theorem doPwrReset_keeps (v : Word) (s : State) : Keeps Field.list s (doPwrReset v s) := by
  unfold doPwrReset
  refine Keeps.ite ?_ ?_
  · refine Keeps.next (State.stationReset_keeps ..) rfl ?_
    exact Keeps.refl
  · exact Keeps.refl

theorem State.startDog_keeps (s : State) : Keeps [.pwr] s (State.startDog s) := by
  unfold State.startDog
  refine Keeps.set_pwr (x := s) rfl ?_
  exact Keeps.refl

theorem doDogCtrl_keeps (v : Word) (s : State) : Keeps [.cells, .pwr] s (doDogCtrl v s) := by
  unfold doDogCtrl
  show let r3 := _; Keeps _ _ r3
  intro r3
  extract_lets -descend +onlyGivenNames v4 at r3
  extract_lets -descend +onlyGivenNames st5 at r3
  have hst5 : Keeps [.cells, .pwr] s st5 := by
    subst st5
    refine Keeps.next (State.plainWrite_keeps ..) rfl ?_
    exact Keeps.refl
  try clear_value st5
  subst r3
  refine Keeps.ite ?_ ?_
  · refine Keeps.next (State.startDog_keeps ..) rfl ?_
    exact hst5
  · exact hst5

theorem doDogKick_keeps (v : Word) (s : State) : Keeps [.pwr] s (doDogKick v s) := by
  unfold doDogKick
  refine Keeps.ite ?_ ?_
  · refine Keeps.next (State.startDog_keeps ..) rfl ?_
    exact Keeps.refl
  · exact Keeps.refl

theorem writePwrReg_keeps (r : Req) (p : ℕ) (off : ℕ) (v : Word) (s : State) : Keeps Field.list s (writePwrReg r p
    off v s) := by
  unfold writePwrReg
  split
  · refine Keeps.next (doPwrState_keeps ..) rfl ?_
    exact Keeps.refl
  · refine Keeps.next (doWakeHi_keeps ..) rfl ?_
    exact Keeps.refl
  · refine Keeps.next (doPwrReset_keeps ..) rfl ?_
    exact Keeps.refl
  · refine Keeps.next (doDogCtrl_keeps ..) rfl ?_
    exact Keeps.refl
  · refine Keeps.next (doDogKick_keeps ..) rfl ?_
    exact Keeps.refl
  · refine Keeps.next (State.plainWrite_keeps ..) rfl ?_
    exact Keeps.refl

theorem doBootCtrl_keeps (r : Req) (v : Word) (s : State) : Keeps [.cells, .hif, .wld, .pwr] s (doBootCtrl r v s) := by
  unfold doBootCtrl
  refine Keeps.ite ?_ ?_
  · exact Keeps.refl
  · show let r4 := _; Keeps _ _ r4
    intro r4
    extract_lets -descend +onlyGivenNames st5 at r4
    have hst5 : Keeps [.cells, .hif, .wld, .pwr] s st5 := by
      subst st5
      refine Keeps.ite ?_ ?_
      · refine Keeps.set_pwr (x := s) rfl ?_
        exact Keeps.refl
      · exact Keeps.refl
    try clear_value st5
    extract_lets -descend +onlyGivenNames st6 at r4
    have hst6 : Keeps [.cells, .hif, .wld, .pwr] s st6 := by
      subst st6
      refine Keeps.each (fun st7 x8 => ?_) ?_
      · refine Keeps.ite ?_ ?_
        · refine Keeps.next (State.wake_keeps ..) rfl ?_
          refine Keeps.next (State.setCore_keeps ..) rfl ?_
          exact Keeps.refl
        · exact Keeps.refl
      · exact hst5
    try clear_value st6
    subst r4
    refine Keeps.ite ?_ ?_
    · refine Keeps.next (State.becomeReady_keeps ..) rfl ?_
      exact hst6
    · exact hst6

theorem State.flashResult_keeps (s : State) (n : ℕ) : Keeps [.cells] s (State.flashResult s n) := by
  unfold State.flashResult
  refine Keeps.next (State.clrF_keeps ..) rfl ?_
  refine Keeps.next (State.put_keeps ..) rfl ?_
  exact Keeps.refl

theorem State.denial_keeps (s : State) (write : Bool) (guard : ℕ) (req : ℕ) (off : ℕ) : Keeps [.cells, .hif, .wld,
    .cic, .emits] s (State.denial s write guard req off) := by
  unfold State.denial
  show let r6 := _; Keeps _ _ r6
  intro r6
  extract_lets -descend +onlyGivenNames st7 at r6
  have hst7 : Keeps [.cells, .hif, .wld, .cic, .emits] s st7 := by
    subst st7
    refine Keeps.next (State.count_keeps ..) rfl ?_
    exact Keeps.refl
  try clear_value st7
  extract_lets -descend +onlyGivenNames st8 at r6
  have hst8 : Keeps [.cells, .hif, .wld, .cic, .emits] s st8 := by
    subst st8
    refine Keeps.ite ?_ ?_
    · exact hst7
    · show let r9 := _; Keeps _ _ r9
      intro r9
      extract_lets -descend +onlyGivenNames st10 at r9
      have hst10 : Keeps [.cells, .hif, .wld, .cic, .emits] s st10 := by
        subst st10
        refine Keeps.next (State.wrN_keeps ..) rfl ?_
        exact hst7
      try clear_value st10
      subst r9
      refine Keeps.next (State.wrN_keeps ..) rfl ?_
      exact hst10
  try clear_value st8
  subst r6
  refine Keeps.next (State.event_keeps ..) rfl ?_
  exact hst8

theorem doFlashCmd_keeps (r : Req) (v : Word) (s : State) : Keeps [.cells, .hif, .wld, .cic, .pwr, .emits] s
    (doFlashCmd r v s) := by
  unfold doFlashCmd
  refine Keeps.ite ?_ ?_
  · exact Keeps.refl
  · show let r4 := _; Keeps _ _ r4
    intro r4
    extract_lets -descend +onlyGivenNames v5 at r4
    extract_lets -descend +onlyGivenNames st6 at r4
    have hst6 : Keeps [.cells, .hif, .wld, .cic, .pwr, .emits] s st6 := by
      subst st6
      refine Keeps.ite ?_ ?_
      · exact Keeps.refl
      · refine Keeps.next (State.put_keeps ..) rfl ?_
        exact Keeps.refl
    try clear_value st6
    subst r4
    refine Keeps.ite ?_ ?_
    · exact hst6
    · show let r7 := _; Keeps _ _ r7
      intro r7
      extract_lets -descend +onlyGivenNames v8 at r7
      extract_lets -descend +onlyGivenNames v9 at r7
      subst r7
      refine Keeps.ite ?_ ?_
      · refine Keeps.next (State.flashResult_keeps ..) rfl ?_
        exact hst6
      · refine Keeps.ite ?_ ?_
        · refine Keeps.next (State.flashResult_keeps ..) rfl ?_
          refine Keeps.next (State.denial_keeps ..) rfl ?_
          exact hst6
        · refine Keeps.ite ?_ ?_
          · show let r10 := _; Keeps _ _ r10
            intro r10
            extract_lets -descend +onlyGivenNames st11 at r10
            have hst11 : Keeps [.cells, .hif, .wld, .cic, .pwr, .emits] s st11 := by
              subst st11
              refine Keeps.each (fun st12 x13 => ?_) ?_
              · refine Keeps.next (State.wrN_keeps ..) rfl ?_
                exact Keeps.refl
              · exact hst6
            try clear_value st11
            subst r10
            refine Keeps.next (State.flashResult_keeps ..) rfl ?_
            exact hst11
          · refine Keeps.ite ?_ ?_
            · refine Keeps.next (State.flashResult_keeps ..) rfl ?_
              exact hst6
            · show let r14 := _; Keeps _ _ r14
              intro r14
              extract_lets -descend +onlyGivenNames v15 at r14
              subst r14
              refine Keeps.next (State.setF_keeps ..) rfl ?_
              refine Keeps.set_pwr (x := st6) rfl ?_
              exact hst6

theorem State.bufAdvance_keeps (s : State) : Keeps [.cells] s (State.bufAdvance s) := by
  unfold State.bufAdvance
  refine Keeps.next (State.put_keeps ..) rfl ?_
  exact Keeps.refl

theorem doBuf_keeps (v : Word) (s : State) : Keeps [.cells] s (doBuf v s) := by
  unfold doBuf
  refine Keeps.next (State.bufAdvance_keeps ..) rfl ?_
  refine Keeps.next (State.wr_keeps ..) rfl ?_
  exact Keeps.refl

theorem State.coreCtrl_keeps (s : State) (v : Word) (c : ℕ) : Keeps [.wld] s (State.coreCtrl s v c) := by
  unfold State.coreCtrl
  refine Keeps.ite ?_ ?_
  · exact Keeps.refl
  · refine Keeps.ite ?_ ?_
    · show let r4 := _; Keeps _ _ r4
      intro r4
      extract_lets -descend +onlyGivenNames st5 at r4
      have hst5 : Keeps [.wld] s st5 := by
        subst st5
        refine Keeps.ite ?_ ?_
        · refine Keeps.next (State.freeToken_keeps ..) rfl ?_
          exact Keeps.refl
        · exact Keeps.refl
      try clear_value st5
      subst r4
      refine Keeps.next (State.updCore_keeps ..) rfl ?_
      exact hst5
    · refine Keeps.ite ?_ ?_
      · refine Keeps.next (State.updCore_keeps ..) rfl ?_
        exact Keeps.refl
      · refine Keeps.ite ?_ ?_
        · refine Keeps.next (State.wake_keeps ..) rfl ?_
          refine Keeps.next (State.updCore_keeps ..) rfl ?_
          exact Keeps.refl
        · exact Keeps.refl

theorem doCoreCtrl_keeps (r : Req) (v : Word) (s : State) : Keeps [.cells, .hif, .wld, .cic, .emits] s (doCoreCtrl r
    v s) := by
  unfold doCoreCtrl
  show let r4 := _; Keeps _ _ r4
  intro r4
  extract_lets -descend +onlyGivenNames v5 at r4
  extract_lets -descend +onlyGivenNames st6 at r4
  have hst6 : Keeps [.cells, .hif, .wld, .cic, .emits] s st6 := by
    subst st6
    refine Keeps.ite ?_ ?_
    · refine Keeps.next (State.xwDenied_keeps ..) rfl ?_
      exact Keeps.refl
    · exact Keeps.refl
  try clear_value st6
  subst r4
  refine Keeps.each (fun st7 x8 => ?_) ?_
  · refine Keeps.next (State.coreCtrl_keeps ..) rfl ?_
    exact Keeps.refl
  · exact hst6

theorem writeBootReg_keeps (r : Req) (off : ℕ) (v : Word) (s : State) : Keeps [.cells, .hif, .wld, .cic, .pwr,
    .emits] s (writeBootReg r off v s) := by
  unfold writeBootReg
  split
  · refine Keeps.next (doBootCtrl_keeps ..) rfl ?_
    exact Keeps.refl
  · refine Keeps.next (doFlashCmd_keeps ..) rfl ?_
    exact Keeps.refl
  · refine Keeps.next (doBuf_keeps ..) rfl ?_
    exact Keeps.refl
  · refine Keeps.next (doCoreCtrl_keeps ..) rfl ?_
    exact Keeps.refl
  · refine Keeps.next (State.plainWrite_keeps ..) rfl ?_
    exact Keeps.refl

theorem doAdmPasid_keeps (sl : ℕ) (v : Word) (s : State) : Keeps [.cells] s (doAdmPasid sl v s) := by
  unfold doAdmPasid
  refine Keeps.ite ?_ ?_
  · refine Keeps.next (State.plainWrite_keeps ..) rfl ?_
    exact Keeps.refl
  · exact Keeps.refl

theorem State.lastError_keeps (s : State) (sl : ℕ) (e : ℕ) : Keeps [.cells] s (State.lastError s sl e) := by
  unfold State.lastError
  refine Keeps.next (State.put_keeps ..) rfl ?_
  exact Keeps.refl

theorem doBind_keeps (sl : ℕ) (s : State) : Keeps [.cells, .slices] s (doBind sl s) := by
  unfold doBind
  show let r3 := _; Keeps _ _ r3
  intro r3
  extract_lets -descend +onlyGivenNames v4 at r3
  subst r3
  refine Keeps.ite ?_ ?_
  · refine Keeps.next (State.lastError_keeps ..) rfl ?_
    exact Keeps.refl
  · refine Keeps.ite ?_ ?_
    · refine Keeps.next (State.lastError_keeps ..) rfl ?_
      exact Keeps.refl
    · refine Keeps.ite ?_ ?_
      · refine Keeps.next (State.lastError_keeps ..) rfl ?_
        exact Keeps.refl
      · refine Keeps.next (State.lastError_keeps ..) rfl ?_
        refine Keeps.next (State.updSlice_keeps ..) rfl ?_
        exact Keeps.refl

theorem State.latchRegion_keeps (s : State) (owner : ℕ) (restored : Bool) (n : ℕ) (img : RegionImg) : Keeps [.csr] s
    (State.latchRegion s owner restored n img) := by
  unfold State.latchRegion
  refine Keeps.ite ?_ ?_
  · exact Keeps.refl
  · refine Keeps.ite ?_ ?_
    · refine Keeps.next (State.updRegion_keeps ..) rfl ?_
      exact Keeps.refl
    · refine Keeps.next (State.updRegion_keeps ..) rfl ?_
      exact Keeps.refl

theorem State.latchCommit_keeps (s : State) (o : ℕ) (frame : ℕ) (c : Commit) : Keeps [.cells, .hif, .outs, .lyr,
    .csr, .wld, .cic, .emits] s (State.latchCommit s o frame c) := by
  unfold State.latchCommit
  show let r5 := _; Keeps _ _ r5
  intro r5
  extract_lets -descend +onlyGivenNames st6 at r5
  have hst6 : Keeps [.cells, .hif, .outs, .lyr, .csr, .wld, .cic, .emits] s st6 := by
    subst st6
    refine Keeps.each (fun st7 x8 => ?_) ?_
    · split
      · show let r9 := _; Keeps _ _ r9
        intro r9
        extract_lets -descend +onlyGivenNames st10 at r9
        have hst10 : Keeps [.cells, .hif, .outs, .lyr, .csr, .wld, .cic, .emits] st7 st10 := by
          subst st10
          split
          · refine Keeps.next (State.updLayer_keeps ..) rfl ?_
            exact Keeps.refl
          · refine Keeps.next (State.updLayer_keeps ..) rfl ?_
            exact Keeps.refl
        try clear_value st10
        extract_lets -descend +onlyGivenNames st11 at r9
        have hst11 : Keeps [.cells, .hif, .outs, .lyr, .csr, .wld, .cic, .emits] st7 st11 := by
          subst st11
          refine Keeps.next (State.wrN_keeps ..) rfl ?_
          exact hst10
        try clear_value st11
        subst r9
        refine Keeps.ite ?_ ?_
        · refine Keeps.next (State.event_keeps ..) rfl ?_
          exact hst11
        · exact hst11
    · exact Keeps.refl
  try clear_value st6
  extract_lets -descend +onlyGivenNames st12 at r5
  have hst12 : Keeps [.cells, .hif, .outs, .lyr, .csr, .wld, .cic, .emits] s st12 := by
    subst st12
    refine Keeps.each (fun st13 x14 => ?_) ?_
    · split
      · refine Keeps.next (State.latchRegion_keeps ..) rfl ?_
        exact Keeps.refl
    · exact hst6
  try clear_value st12
  subst r5
  refine Keeps.ite ?_ ?_
  · refine Keeps.next (State.updOut_keeps ..) rfl ?_
    exact hst12
  · exact hst12

theorem State.endOutputHold_keeps (s : State) (vid : ℕ) (o : ℕ) (n : ℕ) : Keeps [.cells, .hif, .cmds, .haul, .pair,
    .emits] s (State.endOutputHold s vid o n) := by
  unfold State.endOutputHold
  split
  · exact Keeps.refl
  · refine Keeps.next (State.endHold_keeps ..) rfl ?_
    refine Keeps.next (State.putVersion_keeps ..) rfl ?_
    exact Keeps.refl

theorem State.turnHolds_keeps (s : State) (o : ℕ) (ended : ℕ) (old : Option Plan) (new : Option Plan) : Keeps
    [.cells, .hif, .cmds, .haul, .pair, .emits] s (State.turnHolds s o ended old new) := by
  unfold State.turnHolds
  show let r6 := _; Keeps _ _ r6
  intro r6
  extract_lets -descend +onlyGivenNames st7 at r6
  have hst7 : Keeps [.cells, .hif, .cmds, .haul, .pair, .emits] s st7 := by
    subst st7
    refine Keeps.each (fun st8 x9 => ?_) ?_
    · refine Keeps.next (State.hold_keeps ..) rfl ?_
      exact Keeps.refl
    · exact Keeps.refl
  try clear_value st7
  subst r6
  refine Keeps.each (fun st10 x11 => ?_) ?_
  · refine Keeps.next (State.endOutputHold_keeps ..) rfl ?_
    exact Keeps.refl
  · exact hst7

theorem State.latchRecord_keeps (s : State) (o : ℕ) (frame : ℕ) (p : Plan) (c : Commit) : Keeps [.cells, .hif,
    .cmds, .haul, .pair, .emits] s (State.latchRecord s o frame p c) := by
  unfold State.latchRecord
  refine Keeps.ite ?_ ?_
  · exact Keeps.refl
  · show let r6 := _; Keeps _ _ r6
    intro r6
    extract_lets -descend +onlyGivenNames st7 at r6
    have hst7 : Keeps [.cells, .hif, .cmds, .haul, .pair, .emits] s st7 := by
      subst st7
      refine Keeps.next (State.endCommitHolds_keeps ..) rfl ?_
      exact Keeps.refl
    try clear_value st7
    extract_lets -descend +onlyGivenNames v8 at r6
    subst r6
    refine Keeps.next (State.complete_keeps ..) rfl ?_
    exact hst7

theorem State.floorNext_keeps (s : State) (o : ℕ) : Keeps [.cells, .haul, .floor] s (State.floorNext s o) := by
  unfold State.floorNext
  show let r3 := _; Keeps _ _ r3
  intro r3
  extract_lets -descend +onlyGivenNames st4 at r3
  have hst4 : Keeps [.cells, .haul, .floor] s st4 := by
    subst st4
    refine Keeps.next (State.updFloor_keeps ..) rfl ?_
    exact Keeps.refl
  try clear_value st4
  subst r3
  split
  · exact hst4
  · refine Keeps.next (State.floorArm_keeps ..) rfl ?_
    refine Keeps.next (State.updFloor_keeps ..) rfl ?_
    exact hst4

theorem State.floorValid_keeps (s : State) (o : ℕ) (len : ℕ) : Keeps [.cells, .hif, .cmds, .slices, .haul, .cvu,
    .floor, .pair, .emits] s (State.floorValid s o len) := by
  unfold State.floorValid
  split
  · exact Keeps.refl
  · show let r4 := _; Keeps _ _ r4
    intro r4
    extract_lets -descend +onlyGivenNames v5 at r4
    extract_lets -descend +onlyGivenNames st6 at r4
    have hst6 : Keeps [.cells, .hif, .cmds, .slices, .haul, .cvu, .floor, .pair, .emits] s st6 := by
      subst st6
      refine Keeps.next (State.wrN_keeps ..) rfl ?_
      exact Keeps.refl
    try clear_value st6
    extract_lets -descend +onlyGivenNames st7 at r4
    have hst7 : Keeps [.cells, .hif, .cmds, .slices, .haul, .cvu, .floor, .pair, .emits] s st7 := by
      subst st7
      refine Keeps.next (State.wr_keeps ..) rfl ?_
      refine Keeps.next (State.wrN_keeps ..) rfl ?_
      exact hst6
    try clear_value st7
    extract_lets -descend +onlyGivenNames v8 at r4
    extract_lets -descend +onlyGivenNames st9 at r4
    have hst9 : Keeps [.cells, .hif, .cmds, .slices, .haul, .cvu, .floor, .pair, .emits] s st9 := by
      subst st9
      split
      · split
        · refine Keeps.next (State.endXfer_keeps ..) rfl ?_
          exact hst7
        · refine Keeps.next (State.complete_keeps ..) rfl ?_
          exact hst7
      · refine Keeps.next (State.clrF_keeps ..) rfl ?_
        exact hst7
    try clear_value st9
    subst r4
    refine Keeps.next (State.floorNext_keeps ..) rfl ?_
    exact hst9

theorem State.floorTick_keeps (s : State) (o : ℕ) : Keeps [.cells, .hif, .cmds, .slices, .haul, .cvu, .floor, .pair,
    .emits] s (State.floorTick s o) := by
  unfold State.floorTick
  split
  · refine Keeps.next (State.floorBegin_keeps ..) rfl ?_
    exact Keeps.refl
  · refine Keeps.next (State.floorValid_keeps ..) rfl ?_
    exact Keeps.refl
  · exact Keeps.refl

theorem State.reductionTick_keeps (s : State) (o : ℕ) (all : Bool) : Keeps [.reductions] s (State.reductionTick s o
    all) := by
  unfold State.reductionTick
  show let r4 := _; Keeps _ _ r4
  intro r4
  extract_lets -descend +onlyGivenNames v5 at r4
  extract_lets -descend +onlyGivenNames v6 at r4
  subst r4
  refine Keeps.set_reductions (x := s) rfl ?_
  exact Keeps.refl

theorem State.shedChange_keeps (s : State) (o : ℕ) (old : Option Plan) (new : Plan) : Keeps [.cells, .hif, .wld,
    .cic, .emits] s (State.shedChange s o old new) := by
  unfold State.shedChange
  show let r5 := _; Keeps _ _ r5
  intro r5
  extract_lets -descend +onlyGivenNames v6 at r5
  subst r5
  refine Keeps.ite ?_ ?_
  · exact Keeps.refl
  · refine Keeps.next (State.event_keeps ..) rfl ?_
    exact Keeps.refl

theorem State.shedEvent_keeps (s : State) (o : ℕ) (status : ℕ) (p : Plan) (l : CfgLayer) : Keeps [.cells, .hif,
    .cmds, .pair, .emits] s (State.shedEvent s o status p l) := by
  unfold State.shedEvent
  show let r6 := _; Keeps _ _ r6
  intro r6
  extract_lets -descend +onlyGivenNames v7 at r6
  subst r6
  refine Keeps.ite ?_ ?_
  · exact Keeps.refl
  · refine Keeps.next (State.postEvent_keeps ..) rfl ?_
    exact Keeps.refl

theorem State.shedEvents_keeps (s : State) (o : ℕ) (old : Option Plan) (new : Plan) (latched : List Commit) : Keeps
    [.cells, .hif, .cmds, .pair, .emits] s (State.shedEvents s o old new latched) := by
  unfold State.shedEvents
  show let r6 := _; Keeps _ _ r6
  intro r6
  extract_lets -descend +onlyGivenNames v7 at r6
  subst r6
  refine Keeps.each (fun st8 x9 => ?_) ?_
  · refine Keeps.ite ?_ ?_
    · refine Keeps.ite ?_ ?_
      · exact Keeps.refl
      · refine Keeps.next (State.shedEvent_keeps ..) rfl ?_
        exact Keeps.refl
    · refine Keeps.ite ?_ ?_
      · refine Keeps.next (State.shedEvent_keeps ..) rfl ?_
        exact Keeps.refl
      · exact Keeps.refl
  · exact Keeps.refl

theorem State.removeAll_keeps (s : State) (o : ℕ) : Keeps [.cells, .hif, .cmds, .slices, .outs, .lyr, .csr, .wld,
    .cic, .pair, .emits] s (State.removeAll s o) := by
  unfold State.removeAll
  show let r3 := _; Keeps _ _ r3
  intro r3
  extract_lets -descend +onlyGivenNames v4 at r3
  extract_lets -descend +onlyGivenNames st5 at r3
  have hst5 : Keeps [.cells, .hif, .cmds, .slices, .outs, .lyr, .csr, .wld, .cic, .pair, .emits] s st5 := by
    subst st5
    refine Keeps.next (State.updOut_keeps ..) rfl ?_
    exact Keeps.refl
  try clear_value st5
  subst r3
  refine Keeps.each (fun st6 x7 => ?_) ?_
  · refine Keeps.next (State.removeNow_keeps ..) rfl ?_
    exact Keeps.refl
  · exact hst5

theorem State.coastEnds_keeps (s : State) : Keeps [.cells] s (State.coastEnds s) := by
  unfold State.coastEnds
  refine Keeps.ite ?_ ?_
  · refine Keeps.next (State.clrF_keeps ..) rfl ?_
    exact Keeps.refl
  · exact Keeps.refl

theorem State.stopPll_keeps (s : State) (i : ℕ) : Keeps [.cells, .clk] s (State.stopPll s i) := by
  unfold State.stopPll
  show let r3 := _; Keeps _ _ r3
  intro r3
  extract_lets -descend +onlyGivenNames st4 at r3
  have hst4 : Keeps [.cells, .clk] s st4 := by
    subst st4
    refine Keeps.next (State.setLocked_keeps ..) rfl ?_
    exact Keeps.refl
  try clear_value st4
  extract_lets -descend +onlyGivenNames st5 at r3
  have hst5 : Keeps [.cells, .clk] s st5 := by
    subst st5
    refine Keeps.each (fun st6 x7 => ?_) ?_
    · refine Keeps.ite ?_ ?_
      · exact Keeps.refl
      · refine Keeps.next (State.setDom_keeps ..) rfl ?_
        exact Keeps.refl
    · exact hst4
  try clear_value st5
  subst r3
  refine Keeps.next (State.coastEnds_keeps ..) rfl ?_
  refine Keeps.set_clk (x := st5) rfl ?_
  exact hst5

theorem State.endAux_keeps (s : State) (o : ℕ) (result : ℕ) (n : ℕ) : Keeps [.cells, .hif, .outs, .wld, .cic,
    .emits] s (State.endAux s o result n) := by
  unfold State.endAux
  show let r5 := _; Keeps _ _ r5
  intro r5
  extract_lets -descend +onlyGivenNames st6 at r5
  have hst6 : Keeps [.cells, .hif, .outs, .wld, .cic, .emits] s st6 := by
    subst st6
    refine Keeps.next (State.updOut_keeps ..) rfl ?_
    exact Keeps.refl
  try clear_value st6
  extract_lets -descend +onlyGivenNames st7 at r5
  have hst7 : Keeps [.cells, .hif, .outs, .wld, .cic, .emits] s st7 := by
    subst st7
    refine Keeps.next (State.put_keeps ..) rfl ?_
    refine Keeps.next (State.clrF_keeps ..) rfl ?_
    exact hst6
  try clear_value st7
  subst r5
  refine Keeps.next (State.event_keeps ..) rfl ?_
  refine Keeps.next (State.put_keeps ..) rfl ?_
  exact hst7

theorem State.sendAux_keeps (s : State) (o : ℕ) (q : AuxReq) : Keeps [.cells, .hif, .outs, .wld, .cic, .emits] s
    (State.sendAux s o q) := by
  unfold State.sendAux
  refine Keeps.ite ?_ ?_
  · refine Keeps.next (State.endAux_keeps ..) rfl ?_
    exact Keeps.refl
  · refine Keeps.next (State.emit_keeps ..) rfl ?_
    refine Keeps.next (State.updOut_keeps ..) rfl ?_
    exact Keeps.refl

theorem State.auxIdle_keeps (s : State) (o : ℕ) : Keeps [.cells, .hif, .outs, .wld, .cic, .emits] s (State.auxIdle s
    o) := by
  unfold State.auxIdle
  show let r3 := _; Keeps _ _ r3
  intro r3
  extract_lets -descend +onlyGivenNames st4 at r3
  have hst4 : Keeps [.cells, .hif, .outs, .wld, .cic, .emits] s st4 := by
    subst st4
    refine Keeps.next (State.updOut_keeps ..) rfl ?_
    exact Keeps.refl
  try clear_value st4
  subst r3
  split
  · refine Keeps.ite ?_ ?_
    · refine Keeps.next (State.sendAux_keeps ..) rfl ?_
      exact hst4
    · exact hst4
  · exact hst4

theorem State.stopOutput_keeps (s : State) (o : ℕ) : Keeps [.cells, .hif, .cmds, .slices, .haul, .outs, .lyr, .csr,
    .cvu, .floor, .wld, .cic, .clk, .pair, .emits] s (State.stopOutput s o) := by
  unfold State.stopOutput
  show let r3 := _; Keeps _ _ r3
  intro r3
  extract_lets -descend +onlyGivenNames st4 at r3
  have hst4 : Keeps [.cells, .hif, .cmds, .slices, .haul, .outs, .lyr, .csr, .cvu, .floor, .wld, .cic, .clk, .pair,
      .emits] s st4 := by
    subst st4
    refine Keeps.next (State.event_keeps ..) rfl ?_
    refine Keeps.next (State.setOut_keeps ..) rfl ?_
    exact Keeps.refl
  try clear_value st4
  extract_lets -descend +onlyGivenNames st5 at r3
  have hst5 : Keeps [.cells, .hif, .cmds, .slices, .haul, .outs, .lyr, .csr, .cvu, .floor, .wld, .cic, .clk, .pair,
      .emits] s st5 := by
    subst st5
    refine Keeps.next (State.removeAll_keeps ..) rfl ?_
    exact hst4
  try clear_value st5
  extract_lets -descend +onlyGivenNames st6 at r3
  have hst6 : Keeps [.cells, .hif, .cmds, .slices, .haul, .outs, .lyr, .csr, .cvu, .floor, .wld, .cic, .clk, .pair,
      .emits] s st6 := by
    subst st6
    refine Keeps.next (State.stopPll_keeps ..) rfl ?_
    refine Keeps.next (State.auxIdle_keeps ..) rfl ?_
    refine Keeps.next (State.put_keeps ..) rfl ?_
    exact hst5
  try clear_value st6
  subst r3
  refine Keeps.next (State.shedPass_keeps ..) rfl ?_
  refine Keeps.next (State.floorTick_keeps ..) rfl ?_
  exact hst6

end Sys2Proof.Machine
end

