-- ==== Sys2Proof/Laws/Frame4.lean ====
section
/-!
SUPPORT. What each operation of the machine keeps (part 4 of 9): the parts of State that it may change are listed, every other
part stays, the queue stays, and no table leaves its canonical form.
-/

namespace Sys2Proof.Machine

theorem State.changeTiming_keeps (s : State) (o : ℕ) (fb : Bool) : Keeps [.cells, .hif, .outs, .wld, .cic, .emits] s
    (State.changeTiming s o fb) := by
  unfold State.changeTiming
  show let r4 := _; Keeps _ _ r4
  intro r4
  extract_lets -descend +onlyGivenNames v5 at r4
  extract_lets -descend +onlyGivenNames v6 at r4
  extract_lets -descend +onlyGivenNames st7 at r4
  have hst7 : Keeps [.cells, .hif, .outs, .wld, .cic, .emits] s st7 := by
    subst st7
    refine Keeps.next (State.event_keeps ..) rfl ?_
    refine Keeps.next (State.setOut_keeps ..) rfl ?_
    exact Keeps.refl
  try clear_value st7
  subst r4
  refine Keeps.ite ?_ ?_
  · refine Keeps.next (State.updOut_keeps ..) rfl ?_
    exact hst7
  · refine Keeps.next (State.updOut_keeps ..) rfl ?_
    exact hst7

theorem State.noteFallback_keeps (s : State) (o : ℕ) (fb : Bool) : Keeps [.cells, .pair, .emits] s
    (State.noteFallback s o fb) := by
  unfold State.noteFallback
  show let r4 := _; Keeps _ _ r4
  intro r4
  extract_lets -descend +onlyGivenNames v5 at r4
  extract_lets -descend +onlyGivenNames v6 at r4
  subst r4
  refine Keeps.next (State.setCause_keeps ..) rfl ?_
  refine Keeps.next (State.put_keeps ..) rfl ?_
  exact Keeps.refl

theorem State.linkVideo_keeps (s : State) (o : ℕ) (due : Bool) : Keeps [.cells, .outs] s (State.linkVideo s o due) := by
  unfold State.linkVideo
  show let r4 := _; Keeps _ _ r4
  intro r4
  extract_lets -descend +onlyGivenNames v5 at r4
  subst r4
  refine Keeps.next (State.updOut_keeps ..) rfl ?_
  refine Keeps.next (State.put_keeps ..) rfl ?_
  exact Keeps.refl

theorem State.turnTiming_keeps (s : State) (o : ℕ) (p : Plan) : Keeps [.cells, .hif, .outs, .wld, .cic, .pair,
    .emits] s (State.turnTiming s o p) := by
  unfold State.turnTiming
  show let r4 := _; Keeps _ _ r4
  intro r4
  extract_lets -descend +onlyGivenNames v5 at r4
  extract_lets -descend +onlyGivenNames st6 at r4
  have hst6 : Keeps [.cells, .hif, .outs, .wld, .cic, .pair, .emits] s st6 := by
    subst st6
    refine Keeps.ite ?_ ?_
    · exact Keeps.refl
    · refine Keeps.next (State.changeTiming_keeps ..) rfl ?_
      exact Keeps.refl
  try clear_value st6
  subst r4
  split
  · exact hst6
  · refine Keeps.ite ?_ ?_
    · show let r7 := _; Keeps _ _ r7
      intro r7
      extract_lets -descend +onlyGivenNames st8 at r7
      have hst8 : Keeps [.cells, .hif, .outs, .wld, .cic, .pair, .emits] s st8 := by
        subst st8
        refine Keeps.next (State.noteFallback_keeps ..) rfl ?_
        refine Keeps.next (State.updOut_keeps ..) rfl ?_
        exact hst6
      try clear_value st8
      subst r7
      refine Keeps.ite ?_ ?_
      · refine Keeps.next (State.linkVideo_keeps ..) rfl ?_
        exact hst8
      · exact hst8
    · exact hst6

theorem State.finishThaw_keeps (s : State) (sl : ℕ) : Keeps [.cells, .hif, .cmds, .slices, .pair, .emits] s
    (State.finishThaw s sl) := by
  unfold State.finishThaw
  show let r3 := _; Keeps _ _ r3
  intro r3
  extract_lets -descend +onlyGivenNames v4 at r3
  extract_lets -descend +onlyGivenNames st5 at r3
  have hst5 : Keeps [.cells, .hif, .cmds, .slices, .pair, .emits] s st5 := by
    subst st5
    refine Keeps.next (State.setSlice_keeps ..) rfl ?_
    exact Keeps.refl
  try clear_value st5
  extract_lets -descend +onlyGivenNames st6 at r3
  have hst6 : Keeps [.cells, .hif, .cmds, .slices, .pair, .emits] s st6 := by
    subst st6
    refine Keeps.next (State.postEvent_keeps ..) rfl ?_
    refine Keeps.next (State.tellLost_keeps ..) rfl ?_
    refine Keeps.next (State.flush_keeps ..) rfl ?_
    exact hst5
  try clear_value st6
  subst r3
  refine Keeps.next (State.put_keeps ..) rfl ?_
  exact hst6

theorem State.thawTick_keeps (s : State) (o : ℕ) : Keeps [.cells, .hif, .cmds, .slices, .pair, .emits] s
    (State.thawTick s o) := by
  unfold State.thawTick
  refine Keeps.each (fun st3 x4 => ?_) ?_
  · show let r5 := _; Keeps _ _ r5
    intro r5
    extract_lets -descend +onlyGivenNames st6 at r5
    have hst6 : Keeps [.cells, .hif, .cmds, .slices, .pair, .emits] st3 st6 := by
      subst st6
      refine Keeps.next (State.updSlice_keeps ..) rfl ?_
      exact Keeps.refl
    try clear_value st6
    subst r5
    refine Keeps.ite ?_ ?_
    · refine Keeps.next (State.finishThaw_keeps ..) rfl ?_
      exact hst6
    · exact hst6
  · exact Keeps.refl

theorem State.supersede_keeps (s : State) (o : ℕ) (owner : ℕ) : Keeps [.cells, .hif, .cmds, .haul, .outs, .pair,
    .emits] s (State.supersede s o owner) := by
  unfold State.supersede
  split
  · show let r4 := _; Keeps _ _ r4
    intro r4
    extract_lets -descend +onlyGivenNames st5 at r4
    have hst5 : Keeps [.cells, .hif, .cmds, .haul, .outs, .pair, .emits] s st5 := by
      subst st5
      refine Keeps.ite ?_ ?_
      · exact Keeps.refl
      · refine Keeps.next (State.updOut_keeps ..) rfl ?_
        exact Keeps.refl
    try clear_value st5
    subst r4
    refine Keeps.each (fun st6 x7 => ?_) ?_
    · show let r8 := _; Keeps _ _ r8
      intro r8
      extract_lets -descend +onlyGivenNames st9 at r8
      have hst9 : Keeps [.cells, .hif, .cmds, .haul, .outs, .pair, .emits] st6 st9 := by
        subst st9
        refine Keeps.dite (fun _ => ?_) (fun _ => ?_)
        · refine Keeps.next (State.decide_keeps ..) rfl ?_
          exact Keeps.refl
        · exact Keeps.refl
      try clear_value st9
      subst r8
      refine Keeps.next (State.endCommit_keeps ..) rfl ?_
      exact hst9
    · exact hst5

theorem State.accept_keeps (s : State) (o : ℕ) (c : Commit) : Keeps [.cells, .hif, .cmds, .haul, .outs, .pair,
    .emits] s (State.accept s o c) := by
  unfold State.accept
  show let r4 := _; Keeps _ _ r4
  intro r4
  extract_lets -descend +onlyGivenNames st5 at r4
  have hst5 : Keeps [.cells, .hif, .cmds, .haul, .outs, .pair, .emits] s st5 := by
    subst st5
    refine Keeps.next (State.supersede_keeps ..) rfl ?_
    exact Keeps.refl
  try clear_value st5
  extract_lets -descend +onlyGivenNames v6 at r4
  extract_lets -descend +onlyGivenNames v7 at r4
  extract_lets -descend +onlyGivenNames st8 at r4
  have hst8 : Keeps [.cells, .hif, .cmds, .haul, .outs, .pair, .emits] s st8 := by
    subst st8
    refine Keeps.next (State.updOut_keeps ..) rfl ?_
    exact hst5
  try clear_value st8
  subst r4
  refine Keeps.next (State.shedPass_keeps ..) rfl ?_
  exact hst8

theorem State.regionBegin_keeps (s : State) (n : ℕ) (p : Plan) : Keeps [.csr] s (State.regionBegin s n p) := by
  unfold State.regionBegin
  show let r4 := _; Keeps _ _ r4
  intro r4
  extract_lets -descend +onlyGivenNames v5 at r4
  subst r4
  refine Keeps.ite ?_ ?_
  · exact Keeps.refl
  · refine Keeps.ite ?_ ?_
    · refine Keeps.next (State.setRegion_keeps ..) rfl ?_
      exact Keeps.refl
    · show let r6 := _; Keeps _ _ r6
      intro r6
      extract_lets -descend +onlyGivenNames v7 at r6
      subst r6
      refine Keeps.next (State.setRegion_keeps ..) rfl ?_
      exact Keeps.refl

theorem State.announce_keeps (s : State) (o : ℕ) : Keeps [.pair, .emits] s (State.announce s o) := by
  unfold State.announce
  show let r3 := _; Keeps _ _ r3
  intro r3
  extract_lets -descend +onlyGivenNames v4 at r3
  extract_lets -descend +onlyGivenNames v5 at r3
  extract_lets -descend +onlyGivenNames v6 at r3
  subst r3
  refine Keeps.ite ?_ ?_
  · exact Keeps.refl
  · show let r7 := _; Keeps _ _ r7
    intro r7
    extract_lets -descend +onlyGivenNames v8 at r7
    extract_lets -descend +onlyGivenNames st9 at r7
    have hst9 : Keeps [.pair, .emits] s st9 := by
      subst st9
      refine Keeps.set_pair (x := s) rfl ?_
      exact Keeps.refl
    try clear_value st9
    subst r7
    refine Keeps.next (State.send_keeps ..) rfl ?_
    exact hst9

theorem State.turnFrame_keeps (s : State) (o : ℕ) (ended : ℕ) (old : Option Plan) (last : Bool) : Keeps [.cells,
    .hif, .cmds, .slices, .haul, .outs, .lyr, .csr, .cvu, .floor, .wld, .cic, .reductions, .clk, .pair, .emits] s
    (State.turnFrame s o ended old last) := by
  unfold State.turnFrame
  show let r6 := _; Keeps _ _ r6
  intro r6
  extract_lets -descend +onlyGivenNames v7 at r6
  extract_lets -descend +onlyGivenNames v8 at r6
  extract_lets -descend +onlyGivenNames v9 at r6
  extract_lets -descend +onlyGivenNames st10 at r6
  have hst10 : Keeps [.cells, .hif, .cmds, .slices, .haul, .outs, .lyr, .csr, .cvu, .floor, .wld, .cic, .reductions,
      .clk, .pair, .emits] s st10 := by
    subst st10
    refine Keeps.each (fun st11 x12 => ?_) ?_
    · refine Keeps.next (State.remove_keeps ..) rfl ?_
      exact Keeps.refl
    · exact Keeps.refl
  try clear_value st10
  extract_lets -descend +onlyGivenNames st13 at r6
  have hst13 : Keeps [.cells, .hif, .cmds, .slices, .haul, .outs, .lyr, .csr, .cvu, .floor, .wld, .cic, .reductions,
      .clk, .pair, .emits] s st13 := by
    subst st13
    refine Keeps.next (State.updOut_keeps ..) rfl ?_
    exact hst10
  try clear_value st13
  extract_lets -descend +onlyGivenNames st14 at r6
  have hst14 : Keeps [.cells, .hif, .cmds, .slices, .haul, .outs, .lyr, .csr, .cvu, .floor, .wld, .cic, .reductions,
      .clk, .pair, .emits] s st14 := by
    subst st14
    refine Keeps.each (fun st15 x16 => ?_) ?_
    · refine Keeps.next (State.latchCommit_keeps ..) rfl ?_
      exact Keeps.refl
    · exact hst13
  try clear_value st14
  extract_lets -descend +onlyGivenNames v17 at r6
  extract_lets -descend +onlyGivenNames v18 at r6
  extract_lets -descend +onlyGivenNames st19 at r6
  have hst19 : Keeps [.cells, .hif, .cmds, .slices, .haul, .outs, .lyr, .csr, .cvu, .floor, .wld, .cic, .reductions,
      .clk, .pair, .emits] s st19 := by
    subst st19
    refine Keeps.next (State.updOut_keeps ..) rfl ?_
    exact hst14
  try clear_value st19
  extract_lets -descend +onlyGivenNames st20 at r6
  have hst20 : Keeps [.cells, .hif, .cmds, .slices, .haul, .outs, .lyr, .csr, .cvu, .floor, .wld, .cic, .reductions,
      .clk, .pair, .emits] s st20 := by
    subst st20
    refine Keeps.next (State.turnHolds_keeps ..) rfl ?_
    exact hst19
  try clear_value st20
  extract_lets -descend +onlyGivenNames st21 at r6
  have hst21 : Keeps [.cells, .hif, .cmds, .slices, .haul, .outs, .lyr, .csr, .cvu, .floor, .wld, .cic, .reductions,
      .clk, .pair, .emits] s st21 := by
    subst st21
    refine Keeps.each (fun st22 x23 => ?_) ?_
    · refine Keeps.next (State.latchRecord_keeps ..) rfl ?_
      exact Keeps.refl
    · exact hst20
  try clear_value st21
  extract_lets -descend +onlyGivenNames st24 at r6
  have hst24 : Keeps [.cells, .hif, .cmds, .slices, .haul, .outs, .lyr, .csr, .cvu, .floor, .wld, .cic, .reductions,
      .clk, .pair, .emits] s st24 := by
    subst st24
    refine Keeps.each (fun st25 x26 => ?_) ?_
    · refine Keeps.next (State.regionTurn_keeps ..) rfl ?_
      exact Keeps.refl
    · exact hst21
  try clear_value st24
  extract_lets -descend +onlyGivenNames st27 at r6
  have hst27 : Keeps [.cells, .hif, .cmds, .slices, .haul, .outs, .lyr, .csr, .cvu, .floor, .wld, .cic, .reductions,
      .clk, .pair, .emits] s st27 := by
    subst st27
    refine Keeps.next (State.floorTick_keeps ..) rfl ?_
    refine Keeps.next (State.reductionTick_keeps ..) rfl ?_
    refine Keeps.next (State.shedChange_keeps ..) rfl ?_
    refine Keeps.next (State.shedEvents_keeps ..) rfl ?_
    exact hst24
  try clear_value st27
  extract_lets -descend +onlyGivenNames st28 at r6
  have hst28 : Keeps [.cells, .hif, .cmds, .slices, .haul, .outs, .lyr, .csr, .cvu, .floor, .wld, .cic, .reductions,
      .clk, .pair, .emits] s st28 := by
    subst st28
    refine Keeps.set_pair (x := st27) rfl ?_
    exact hst27
  try clear_value st28
  subst r6
  refine Keeps.ite ?_ ?_
  · refine Keeps.next (State.stopOutput_keeps ..) rfl ?_
    exact hst28
  · show let r29 := _; Keeps _ _ r29
    intro r29
    extract_lets -descend +onlyGivenNames st30 at r29
    have hst30 : Keeps [.cells, .hif, .cmds, .slices, .haul, .outs, .lyr, .csr, .cvu, .floor, .wld, .cic,
        .reductions, .clk, .pair, .emits] s st30 := by
      subst st30
      refine Keeps.next (State.turnTiming_keeps ..) rfl ?_
      exact hst28
    try clear_value st30
    extract_lets -descend +onlyGivenNames st31 at r29
    have hst31 : Keeps [.cells, .hif, .cmds, .slices, .haul, .outs, .lyr, .csr, .cvu, .floor, .wld, .cic,
        .reductions, .clk, .pair, .emits] s st31 := by
      subst st31
      refine Keeps.next (State.wrN_keeps ..) rfl ?_
      exact hst30
    try clear_value st31
    extract_lets -descend +onlyGivenNames st32 at r29
    have hst32 : Keeps [.cells, .hif, .cmds, .slices, .haul, .outs, .lyr, .csr, .cvu, .floor, .wld, .cic,
        .reductions, .clk, .pair, .emits] s st32 := by
      subst st32
      refine Keeps.next (State.thawTick_keeps ..) rfl ?_
      exact hst31
    try clear_value st32
    extract_lets -descend +onlyGivenNames v33 at r29
    extract_lets -descend +onlyGivenNames st34 at r29
    have hst34 : Keeps [.cells, .hif, .cmds, .slices, .haul, .outs, .lyr, .csr, .cvu, .floor, .wld, .cic,
        .reductions, .clk, .pair, .emits] s st34 := by
      subst st34
      refine Keeps.next (State.updOut_keeps ..) rfl ?_
      exact hst32
    try clear_value st34
    extract_lets -descend +onlyGivenNames st35 at r29
    have hst35 : Keeps [.cells, .hif, .cmds, .slices, .haul, .outs, .lyr, .csr, .cvu, .floor, .wld, .cic,
        .reductions, .clk, .pair, .emits] s st35 := by
      subst st35
      refine Keeps.each (fun st36 x37 => ?_) ?_
      · refine Keeps.next (State.accept_keeps ..) rfl ?_
        exact Keeps.refl
      · exact hst34
    try clear_value st35
    extract_lets -descend +onlyGivenNames st38 at r29
    have hst38 : Keeps [.cells, .hif, .cmds, .slices, .haul, .outs, .lyr, .csr, .cvu, .floor, .wld, .cic,
        .reductions, .clk, .pair, .emits] s st38 := by
      subst st38
      refine Keeps.ite ?_ ?_
      · exact hst35
      · refine Keeps.each (fun st39 x40 => ?_) ?_
        · refine Keeps.next (State.regionBegin_keeps ..) rfl ?_
          exact Keeps.refl
        · exact hst35
    try clear_value st38
    subst r29
    refine Keeps.next (State.announce_keeps ..) rfl ?_
    refine Keeps.next (State.updOut_keeps ..) rfl ?_
    refine Keeps.next (State.shedPass_keeps ..) rfl ?_
    exact hst38

theorem State.tickStamp_keeps (s : State) (o : ℕ) : Keeps [.cells] s (State.tickStamp s o) := by
  unfold State.tickStamp
  show let r3 := _; Keeps _ _ r3
  intro r3
  extract_lets -descend +onlyGivenNames st4 at r3
  have hst4 : Keeps [.cells] s st4 := by
    subst st4
    refine Keeps.next (State.wr_keeps ..) rfl ?_
    exact Keeps.refl
  try clear_value st4
  subst r3
  refine Keeps.next (State.wrN_keeps ..) rfl ?_
  refine Keeps.next (State.wrN_keeps ..) rfl ?_
  exact hst4

theorem State.endUnderrun_keeps (s : State) (o : ℕ) (frame : ℕ) (old : Option Plan) : Keeps [.cells, .hif, .cmds,
    .outs, .wld, .cic, .pair, .emits] s (State.endUnderrun s o frame old) := by
  unfold State.endUnderrun
  show let r5 := _; Keeps _ _ r5
  intro r5
  extract_lets -descend +onlyGivenNames v6 at r5
  subst r5
  refine Keeps.ite ?_ ?_
  · exact Keeps.refl
  · show let r7 := _; Keeps _ _ r7
    intro r7
    extract_lets -descend +onlyGivenNames st8 at r7
    have hst8 : Keeps [.cells, .hif, .cmds, .outs, .wld, .cic, .pair, .emits] s st8 := by
      subst st8
      refine Keeps.next (State.event_keeps ..) rfl ?_
      refine Keeps.next (State.count_keeps ..) rfl ?_
      exact Keeps.refl
    try clear_value st8
    extract_lets -descend +onlyGivenNames st9 at r7
    have hst9 : Keeps [.cells, .hif, .cmds, .outs, .wld, .cic, .pair, .emits] s st9 := by
      subst st9
      refine Keeps.each (fun st10 x11 => ?_) ?_
      · refine Keeps.next (State.postEvent_keeps ..) rfl ?_
        exact Keeps.refl
      · exact hst8
    try clear_value st9
    subst r7
    refine Keeps.next (State.updOut_keeps ..) rfl ?_
    exact hst9

theorem State.frameTick_keeps (s : State) (o : ℕ) (last : Bool) : Keeps [.cells, .hif, .cmds, .slices, .haul, .outs,
    .lyr, .csr, .cvu, .floor, .wld, .cic, .reductions, .clk, .pair, .emits] s (State.frameTick s o last) := by
  unfold State.frameTick
  refine Keeps.next (State.turnFrame_keeps ..) rfl ?_
  refine Keeps.next (State.tickStamp_keeps ..) rfl ?_
  refine Keeps.next (State.endUnderrun_keeps ..) rfl ?_
  exact Keeps.refl

theorem State.at_keeps (s : State) (t : ℕ) : Keeps [.time] s (State.at s t) := by
  unfold State.at
  refine Keeps.set_time (x := s) rfl ?_
  exact Keeps.refl

theorem doFrameTick_keeps (o : ℕ) (s : State) : Keeps [.time, .cells, .hif, .cmds, .slices, .haul, .outs, .lyr,
    .csr, .cvu, .floor, .wld, .cic, .reductions, .clk, .pair, .emits] s (doFrameTick o s) := by
  unfold doFrameTick
  show let r3 := _; Keeps _ _ r3
  intro r3
  extract_lets -descend +onlyGivenNames v4 at r3
  subst r3
  refine Keeps.ite ?_ ?_
  · exact Keeps.refl
  · refine Keeps.next (State.frameTick_keeps ..) rfl ?_
    refine Keeps.next (State.at_keeps ..) rfl ?_
    exact Keeps.refl

theorem State.dueFrames_keeps (s : State) : Keeps [.time, .cells, .hif, .cmds, .slices, .haul, .outs, .lyr, .csr,
    .cvu, .floor, .wld, .cic, .reductions, .clk, .pair, .emits] s (State.dueFrames s) := by
  unfold State.dueFrames
  refine Keeps.each (fun st2 x3 => ?_) ?_
  · refine Keeps.ite ?_ ?_
    · refine Keeps.next (doFrameTick_keeps ..) rfl ?_
      exact Keeps.refl
    · exact Keeps.refl
  · exact Keeps.refl

theorem State.abortCmds_keeps (s : State) (sp : ℕ) (status : ℕ) : Keeps [.cmds] s (State.abortCmds s sp status) := by
  unfold State.abortCmds
  show let r4 := _; Keeps _ _ r4
  intro r4
  extract_lets -descend +onlyGivenNames v5 at r4
  extract_lets -descend +onlyGivenNames v6 at r4
  subst r4
  refine Keeps.next (State.setSpace_keeps ..) rfl ?_
  exact Keeps.refl

theorem State.dropXfers_keeps (s : State) (sp : ℕ) : Keeps [.cells, .hif, .cmds, .slices, .haul, .cvu, .pair,
    .emits] s (State.dropXfers s sp) := by
  unfold State.dropXfers
  refine Keeps.each (fun st3 x4 => ?_) ?_
  · refine Keeps.next (State.dropXfer_keeps ..) rfl ?_
    exact Keeps.refl
  · exact Keeps.refl

theorem State.abortMigration_keeps (s : State) (sl : ℕ) (status : ℕ) : Keeps [.cells, .hif, .cmds, .slices, .haul,
    .cvu, .pair, .emits] s (State.abortMigration s sl status) := by
  unfold State.abortMigration
  refine Keeps.each (fun st4 x5 => ?_) ?_
  · split
    · refine Keeps.next (State.failXfer_keeps ..) rfl ?_
      exact Keeps.refl
    · refine Keeps.next (State.fail_keeps ..) rfl ?_
      exact Keeps.refl
  · exact Keeps.refl

theorem State.releaseSurfaces_keeps (s : State) (sl : ℕ) : Keeps [.cells, .hif, .cmds, .slices, .haul, .pair,
    .emits] s (State.releaseSurfaces s sl) := by
  unfold State.releaseSurfaces
  refine Keeps.each (fun st3 x4 => ?_) ?_
  · refine Keeps.next (State.retireAll_keeps ..) rfl ?_
    refine Keeps.next (State.markFreed_keeps ..) rfl ?_
    refine Keeps.next (State.putSurface_keeps ..) rfl ?_
    exact Keeps.refl
  · exact Keeps.refl

theorem State.removeLayers_keeps (s : State) (sl : ℕ) : Keeps [.cells, .hif, .cmds, .slices, .outs, .lyr, .csr,
    .wld, .cic, .pair, .emits] s (State.removeLayers s sl) := by
  unfold State.removeLayers
  show let r3 := _; Keeps _ _ r3
  intro r3
  extract_lets -descend +onlyGivenNames v4 at r3
  extract_lets -descend +onlyGivenNames st5 at r3
  have hst5 : Keeps [.cells, .hif, .cmds, .slices, .outs, .lyr, .csr, .wld, .cic, .pair, .emits] s st5 := by
    subst st5
    refine Keeps.each (fun st6 x7 => ?_) ?_
    · refine Keeps.next (State.updLayer_keeps ..) rfl ?_
      exact Keeps.refl
    · exact Keeps.refl
  try clear_value st5
  extract_lets -descend +onlyGivenNames v8 at r3
  extract_lets -descend +onlyGivenNames v9 at r3
  extract_lets -descend +onlyGivenNames v10 at r3
  extract_lets -descend +onlyGivenNames st11 at r3
  have hst11 : Keeps [.cells, .hif, .cmds, .slices, .outs, .lyr, .csr, .wld, .cic, .pair, .emits] s st11 := by
    subst st11
    refine Keeps.next (State.updSlice_keeps ..) rfl ?_
    exact hst5
  try clear_value st11
  extract_lets -descend +onlyGivenNames st12 at r3
  have hst12 : Keeps [.cells, .hif, .cmds, .slices, .outs, .lyr, .csr, .wld, .cic, .pair, .emits] s st12 := by
    subst st12
    refine Keeps.each (fun st13 x14 => ?_) ?_
    · refine Keeps.next (State.askRemoval_keeps ..) rfl ?_
      exact Keeps.refl
    · exact hst11
  try clear_value st12
  subst r3
  refine Keeps.each (fun st15 x16 => ?_) ?_
  · refine Keeps.next (State.withdrawRegion_keeps ..) rfl ?_
    exact Keeps.refl
  · exact hst12

theorem State.resetStreams_keeps (s : State) (sl : ℕ) : Keeps [.slices, .hst, .ast] s (State.resetStreams s sl) := by
  unfold State.resetStreams
  show let r3 := _; Keeps _ _ r3
  intro r3
  extract_lets -descend +onlyGivenNames st4 at r3
  have hst4 : Keeps [.slices, .hst, .ast] s st4 := by
    subst st4
    refine Keeps.next (State.updAst_keeps ..) rfl ?_
    refine Keeps.next (State.audioFade_keeps ..) rfl ?_
    exact Keeps.refl
  try clear_value st4
  extract_lets -descend +onlyGivenNames st5 at r3
  have hst5 : Keeps [.slices, .hst, .ast] s st5 := by
    subst st5
    refine Keeps.set_hst (x := st4) rfl (fun h => Tab.wf_filter _ _ _ h) ?_
    exact hst4
  try clear_value st5
  subst r3
  refine Keeps.next (State.updSlice_keeps ..) rfl ?_
  exact hst5

theorem State.endWork_keeps (s : State) (sl : ℕ) (status : ℕ) : Keeps [.cells, .hif, .cmds, .slices, .haul, .outs,
    .lyr, .csr, .cvu, .tch, .reflexDirty, .hap, .hst, .ast, .wld, .cic, .pair, .emits] s (State.endWork s sl status) :=
    by
  unfold State.endWork
  show let r4 := _; Keeps _ _ r4
  intro r4
  extract_lets -descend +onlyGivenNames v5 at r4
  extract_lets -descend +onlyGivenNames st6 at r4
  have hst6 : Keeps [.cells, .hif, .cmds, .slices, .haul, .outs, .lyr, .csr, .cvu, .tch, .reflexDirty, .hap, .hst,
      .ast, .wld, .cic, .pair, .emits] s st6 := by
    subst st6
    refine Keeps.next (State.abortCmds_keeps ..) rfl ?_
    exact Keeps.refl
  try clear_value st6
  extract_lets -descend +onlyGivenNames st7 at r4
  have hst7 : Keeps [.cells, .hif, .cmds, .slices, .haul, .outs, .lyr, .csr, .cvu, .tch, .reflexDirty, .hap, .hst,
      .ast, .wld, .cic, .pair, .emits] s st7 := by
    subst st7
    refine Keeps.next (State.dropXfers_keeps ..) rfl ?_
    exact hst6
  try clear_value st7
  extract_lets -descend +onlyGivenNames st8 at r4
  have hst8 : Keeps [.cells, .hif, .cmds, .slices, .haul, .outs, .lyr, .csr, .cvu, .tch, .reflexDirty, .hap, .hst,
      .ast, .wld, .cic, .pair, .emits] s st8 := by
    subst st8
    refine Keeps.next (State.abortMigration_keeps ..) rfl ?_
    exact hst7
  try clear_value st8
  extract_lets -descend +onlyGivenNames st9 at r4
  have hst9 : Keeps [.cells, .hif, .cmds, .slices, .haul, .outs, .lyr, .csr, .cvu, .tch, .reflexDirty, .hap, .hst,
      .ast, .wld, .cic, .pair, .emits] s st9 := by
    subst st9
    refine Keeps.next (State.updHaul_keeps ..) rfl ?_
    exact hst8
  try clear_value st9
  extract_lets -descend +onlyGivenNames st10 at r4
  have hst10 : Keeps [.cells, .hif, .cmds, .slices, .haul, .outs, .lyr, .csr, .cvu, .tch, .reflexDirty, .hap, .hst,
      .ast, .wld, .cic, .pair, .emits] s st10 := by
    subst st10
    refine Keeps.each (fun st11 x12 => ?_) ?_
    · refine Keeps.next (State.endCommits_keeps ..) rfl ?_
      exact Keeps.refl
    · exact hst9
  try clear_value st10
  extract_lets -descend +onlyGivenNames st13 at r4
  have hst13 : Keeps [.cells, .hif, .cmds, .slices, .haul, .outs, .lyr, .csr, .cvu, .tch, .reflexDirty, .hap, .hst,
      .ast, .wld, .cic, .pair, .emits] s st13 := by
    subst st13
    refine Keeps.next (State.releaseSurfaces_keeps ..) rfl ?_
    refine Keeps.next (State.removeLayers_keeps ..) rfl ?_
    exact hst10
  try clear_value st13
  extract_lets -descend +onlyGivenNames st14 at r4
  have hst14 : Keeps [.cells, .hif, .cmds, .slices, .haul, .outs, .lyr, .csr, .cvu, .tch, .reflexDirty, .hap, .hst,
      .ast, .wld, .cic, .pair, .emits] s st14 := by
    subst st14
    refine Keeps.each (fun st15 x16 => ?_) ?_
    · refine Keeps.next (State.withdrawHaptic_keeps ..) rfl ?_
      refine Keeps.next (State.orphan_keeps ..) rfl ?_
      exact Keeps.refl
    · exact hst13
  try clear_value st14
  extract_lets -descend +onlyGivenNames st17 at r4
  have hst17 : Keeps [.cells, .hif, .cmds, .slices, .haul, .outs, .lyr, .csr, .cvu, .tch, .reflexDirty, .hap, .hst,
      .ast, .wld, .cic, .pair, .emits] s st17 := by
    subst st17
    refine Keeps.next (State.resetStreams_keeps ..) rfl ?_
    refine Keeps.next (State.removeBindings_keeps ..) rfl ?_
    exact hst14
  try clear_value st17
  extract_lets -descend +onlyGivenNames st18 at r4
  have hst18 : Keeps [.cells, .hif, .cmds, .slices, .haul, .outs, .lyr, .csr, .cvu, .tch, .reflexDirty, .hap, .hst,
      .ast, .wld, .cic, .pair, .emits] s st18 := by
    subst st18
    refine Keeps.each (fun st19 x20 => ?_) ?_
    · refine Keeps.next (State.cvReset_keeps ..) rfl ?_
      exact Keeps.refl
    · exact hst17
  try clear_value st18
  extract_lets -descend +onlyGivenNames v21 at r4
  extract_lets -descend +onlyGivenNames st22 at r4
  have hst22 : Keeps [.cells, .hif, .cmds, .slices, .haul, .outs, .lyr, .csr, .cvu, .tch, .reflexDirty, .hap, .hst,
      .ast, .wld, .cic, .pair, .emits] s st22 := by
    subst st22
    refine Keeps.next (State.setSpace_keeps ..) rfl ?_
    exact hst18
  try clear_value st22
  subst r4
  refine Keeps.next (State.settleReset_keeps ..) rfl ?_
  refine Keeps.next (State.flush_keeps ..) rfl ?_
  exact hst22

theorem State.leaveFreezing_keeps (s : State) (sl : ℕ) : Keeps [.cells, .hif, .wld, .cic, .emits] s
    (State.leaveFreezing s sl) := by
  unfold State.leaveFreezing
  refine Keeps.ite ?_ ?_
  · refine Keeps.next (State.event_keeps ..) rfl ?_
    exact Keeps.refl
  · exact Keeps.refl

theorem State.enterReset_keeps (s : State) (sl : ℕ) (unbinding : Bool) (discard : Bool) : Keeps [.cells, .hif,
    .slices, .wld, .cic, .emits] s (State.enterReset s sl unbinding discard) := by
  unfold State.enterReset
  show let r5 := _; Keeps _ _ r5
  intro r5
  extract_lets -descend +onlyGivenNames st6 at r5
  have hst6 : Keeps [.cells, .hif, .slices, .wld, .cic, .emits] s st6 := by
    subst st6
    refine Keeps.next (State.leaveFreezing_keeps ..) rfl ?_
    exact Keeps.refl
  try clear_value st6
  extract_lets -descend +onlyGivenNames v7 at r5
  extract_lets -descend +onlyGivenNames st8 at r5
  have hst8 : Keeps [.cells, .hif, .slices, .wld, .cic, .emits] s st8 := by
    subst st8
    refine Keeps.next (State.updSlice_keeps ..) rfl ?_
    exact hst6
  try clear_value st8
  extract_lets -descend +onlyGivenNames st9 at r5
  have hst9 : Keeps [.cells, .hif, .slices, .wld, .cic, .emits] s st9 := by
    subst st9
    refine Keeps.next (State.clrF_keeps ..) rfl ?_
    exact hst8
  try clear_value st9
  subst r5
  refine Keeps.next (State.cancelReads_keeps ..) rfl ?_
  exact hst9

theorem State.startReset_keeps (s : State) (sl : ℕ) (unbinding : Bool) (discard : Bool) (status : ℕ) : Keeps
    [.cells, .hif, .cmds, .slices, .haul, .outs, .lyr, .csr, .cvu, .tch, .reflexDirty, .hap, .hst, .ast, .wld, .cic,
    .pair, .emits] s (State.startReset s sl unbinding discard status) := by
  unfold State.startReset
  refine Keeps.next (State.endWork_keeps ..) rfl ?_
  refine Keeps.next (State.enterReset_keeps ..) rfl ?_
  exact Keeps.refl

theorem doReset_keeps (sl : ℕ) (discard : Bool) (s : State) : Keeps [.time, .cells, .hif, .cmds, .slices, .haul,
    .outs, .lyr, .csr, .cvu, .floor, .tch, .reflexDirty, .hap, .hst, .ast, .wld, .cic, .reductions, .clk, .pair, .emits]
    s (doReset sl discard s) := by
  unfold doReset
  show let r4 := _; Keeps _ _ r4
  intro r4
  extract_lets -descend +onlyGivenNames st5 at r4
  have hst5 : Keeps [.time, .cells, .hif, .cmds, .slices, .haul, .outs, .lyr, .csr, .cvu, .floor, .tch,
      .reflexDirty, .hap, .hst, .ast, .wld, .cic, .reductions, .clk, .pair, .emits] s st5 := by
    subst st5
    refine Keeps.next (State.dueFrames_keeps ..) rfl ?_
    exact Keeps.refl
  try clear_value st5
  subst r4
  refine Keeps.ite ?_ ?_
  · refine Keeps.next (State.lastError_keeps ..) rfl ?_
    refine Keeps.next (State.startReset_keeps ..) rfl ?_
    exact hst5
  · refine Keeps.next (State.lastError_keeps ..) rfl ?_
    exact hst5

theorem doUnbind_keeps (sl : ℕ) (discard : Bool) (s : State) : Keeps [.time, .cells, .hif, .cmds, .slices, .haul,
    .outs, .lyr, .csr, .cvu, .floor, .tch, .reflexDirty, .hap, .hst, .ast, .wld, .cic, .reductions, .clk, .pair, .emits]
    s (doUnbind sl discard s) := by
  unfold doUnbind
  show let r4 := _; Keeps _ _ r4
  intro r4
  extract_lets -descend +onlyGivenNames st5 at r4
  have hst5 : Keeps [.time, .cells, .hif, .cmds, .slices, .haul, .outs, .lyr, .csr, .cvu, .floor, .tch,
      .reflexDirty, .hap, .hst, .ast, .wld, .cic, .reductions, .clk, .pair, .emits] s st5 := by
    subst st5
    refine Keeps.next (State.dueFrames_keeps ..) rfl ?_
    exact Keeps.refl
  try clear_value st5
  subst r4
  refine Keeps.ite ?_ ?_
  · refine Keeps.next (State.lastError_keeps ..) rfl ?_
    exact hst5
  · refine Keeps.ite ?_ ?_
    · refine Keeps.next (State.lastError_keeps ..) rfl ?_
      exact hst5
    · refine Keeps.next (State.lastError_keeps ..) rfl ?_
      refine Keeps.next (State.startReset_keeps ..) rfl ?_
      exact hst5

theorem doFreeze_keeps (sl : ℕ) (s : State) : Keeps [.cells, .slices, .ast] s (doFreeze sl s) := by
  unfold doFreeze
  refine Keeps.ite ?_ ?_
  · refine Keeps.next (State.lastError_keeps ..) rfl ?_
    refine Keeps.next (State.audioFade_keeps ..) rfl ?_
    refine Keeps.next (State.updSlice_keeps ..) rfl ?_
    exact Keeps.refl
  · refine Keeps.next (State.lastError_keeps ..) rfl ?_
    exact Keeps.refl

theorem State.relatchOut_keeps (s : State) (sl : ℕ) (o : ℕ) : Keeps [.cells, .hif, .cmds, .slices, .haul, .outs,
    .pair, .emits] s (State.relatchOut s sl o) := by
  unfold State.relatchOut
  show let r4 := _; Keeps _ _ r4
  intro r4
  extract_lets -descend +onlyGivenNames v5 at r4
  subst r4
  split
  · refine Keeps.ite ?_ ?_
    · show let r6 := _; Keeps _ _ r6
      intro r6
      extract_lets -descend +onlyGivenNames v7 at r6
      extract_lets -descend +onlyGivenNames st8 at r6
      have hst8 : Keeps [.cells, .hif, .cmds, .slices, .haul, .outs, .pair, .emits] s st8 := by
        subst st8
        refine Keeps.next (State.setOut_keeps ..) rfl ?_
        exact Keeps.refl
      try clear_value st8
      subst r6
      refine Keeps.next (State.announce_keeps ..) rfl ?_
      refine Keeps.next (State.updSlice_keeps ..) rfl ?_
      exact hst8
    · refine Keeps.next (State.updSlice_keeps ..) rfl ?_
      refine Keeps.next (State.endCommitHolds_keeps ..) rfl ?_
      refine Keeps.next (State.setOut_keeps ..) rfl ?_
      exact Keeps.refl

theorem State.resumeSlice_keeps (s : State) (sl : ℕ) : Keeps [.hif, .cmds, .hst, .ast, .emits] s (State.resumeSlice
    s sl) := by
  unfold State.resumeSlice
  refine Keeps.next (State.fetchStreams_keeps ..) rfl ?_
  refine Keeps.next (State.fetchEntry_keeps ..) rfl ?_
  exact Keeps.refl

theorem doThaw_keeps (sl : ℕ) (s : State) : Keeps [.cells, .hif, .cmds, .slices, .haul, .outs, .hst, .ast, .pair,
    .emits] s (doThaw sl s) := by
  unfold doThaw
  show let r3 := _; Keeps _ _ r3
  intro r3
  extract_lets -descend +onlyGivenNames v4 at r3
  subst r3
  refine Keeps.ite ?_ ?_
  · refine Keeps.next (State.lastError_keeps ..) rfl ?_
    exact Keeps.refl
  · refine Keeps.ite ?_ ?_
    · show let r5 := _; Keeps _ _ r5
      intro r5
      extract_lets -descend +onlyGivenNames st6 at r5
      have hst6 : Keeps [.cells, .hif, .cmds, .slices, .haul, .outs, .hst, .ast, .pair, .emits] s st6 := by
        subst st6
        refine Keeps.next (State.lastError_keeps ..) rfl ?_
        refine Keeps.each (fun st7 x8 => ?_) ?_
        · refine Keeps.next (State.relatchOut_keeps ..) rfl ?_
          exact Keeps.refl
        · exact Keeps.refl
      try clear_value st6
      subst r5
      refine Keeps.ite ?_ ?_
      · refine Keeps.next (State.resumeSlice_keeps ..) rfl ?_
        refine Keeps.next (State.finishThaw_keeps ..) rfl ?_
        exact hst6
      · exact hst6
    · show let r9 := _; Keeps _ _ r9
      intro r9
      extract_lets -descend +onlyGivenNames st10 at r9
      have hst10 : Keeps [.cells, .hif, .cmds, .slices, .haul, .outs, .hst, .ast, .pair, .emits] s st10 := by
        subst st10
        refine Keeps.next (State.setSlice_keeps ..) rfl ?_
        exact Keeps.refl
      try clear_value st10
      subst r9
      refine Keeps.next (State.lastError_keeps ..) rfl ?_
      refine Keeps.next (State.resumeSlice_keeps ..) rfl ?_
      refine Keeps.next (State.tellLost_keeps ..) rfl ?_
      refine Keeps.next (State.flush_keeps ..) rfl ?_
      exact hst10

theorem doAdmCtrl_keeps (sl : ℕ) (v : Word) (s : State) : Keeps [.time, .cells, .hif, .cmds, .slices, .haul, .outs,
    .lyr, .csr, .cvu, .floor, .tch, .reflexDirty, .hap, .hst, .ast, .wld, .cic, .reductions, .clk, .pair, .emits] s
    (doAdmCtrl sl v s) := by
  unfold doAdmCtrl
  show let r4 := _; Keeps _ _ r4
  intro r4
  extract_lets -descend +onlyGivenNames v5 at r4
  subst r4
  split
  · refine Keeps.next (doBind_keeps ..) rfl ?_
    exact Keeps.refl
  · refine Keeps.next (doReset_keeps ..) rfl ?_
    exact Keeps.refl
  · refine Keeps.next (doUnbind_keeps ..) rfl ?_
    exact Keeps.refl
  · refine Keeps.next (doFreeze_keeps ..) rfl ?_
    exact Keeps.refl
  · refine Keeps.next (doThaw_keeps ..) rfl ?_
    exact Keeps.refl
  · exact Keeps.refl

theorem doAdmPerm_keeps (sl : ℕ) (v : Word) (s : State) : Keeps [.cells, .hif, .cmds, .slices, .haul, .outs, .lyr,
    .csr, .cvu, .tch, .reflexDirty, .hap, .ast, .wld, .cic, .pair, .emits] s (doAdmPerm sl v s) := by
  unfold doAdmPerm
  refine Keeps.each (fun st4 x5 => ?_) ?_
  · show let r6 := _; Keeps _ _ r6
    intro r6
    extract_lets -descend +onlyGivenNames v7 at r6
    extract_lets -descend +onlyGivenNames v8 at r6
    subst r6
    split
    · refine Keeps.ite ?_ ?_
      · exact Keeps.refl
      · show let r9 := _; Keeps _ _ r9
        intro r9
        extract_lets -descend +onlyGivenNames st10 at r9
        have hst10 : Keeps [.cells, .hif, .cmds, .slices, .haul, .outs, .lyr, .csr, .cvu, .tch, .reflexDirty, .hap,
            .ast, .wld, .cic, .pair, .emits] st4 st10 := by
          subst st10
          refine Keeps.next (State.put_keeps ..) rfl ?_
          exact Keeps.refl
        try clear_value st10
        subst r9
        refine Keeps.ite ?_ ?_
        · refine Keeps.next (State.grant_keeps ..) rfl ?_
          exact hst10
        · refine Keeps.next (State.withdraw_keeps ..) rfl ?_
          exact hst10
  · exact Keeps.refl

theorem doAdmMig_keeps (sl : ℕ) (v : Word) (s : State) : Keeps [.cells] s (doAdmMig sl v s) := by
  unfold doAdmMig
  refine Keeps.ite ?_ ?_
  · refine Keeps.next (State.plainWrite_keeps ..) rfl ?_
    exact Keeps.refl
  · refine Keeps.next (State.lastError_keeps ..) rfl ?_
    exact Keeps.refl

theorem doDlogCtrl_keeps (sl : ℕ) (v : Word) (s : State) : Keeps [.cells, .latches, .hif, .cmds, .slices, .haul,
    .outs, .cvu, .floor, .wld, .cic, .pair, .freeCtr, .emits] s (doDlogCtrl sl v s) := by
  unfold doDlogCtrl
  show let r4 := _; Keeps _ _ r4
  intro r4
  extract_lets -descend +onlyGivenNames st5 at r4
  have hst5 : Keeps [.cells, .latches, .hif, .cmds, .slices, .haul, .outs, .cvu, .floor, .wld, .cic, .pair,
      .freeCtr, .emits] s st5 := by
    subst st5
    refine Keeps.next (State.put_keeps ..) rfl ?_
    exact Keeps.refl
  try clear_value st5
  subst r4
  refine Keeps.ite ?_ ?_
  · exact hst5
  · refine Keeps.ite ?_ ?_
    · refine Keeps.next (State.wrN_keeps ..) rfl ?_
      refine Keeps.next (State.wrN_keeps ..) rfl ?_
      refine Keeps.next (State.setF_keeps ..) rfl ?_
      exact hst5
    · refine Keeps.ite ?_ ?_
      · refine Keeps.next (State.dlogProgress_keeps ..) rfl ?_
        refine Keeps.next (State.clrF_keeps ..) rfl ?_
        exact hst5
      · exact hst5

theorem doDlogHead_keeps (sl : ℕ) (v : Word) (s : State) : Keeps [.cells, .latches, .hif, .cmds, .slices, .haul,
    .outs, .cvu, .floor, .wld, .cic, .pair, .freeCtr, .emits] s (doDlogHead sl v s) := by
  unfold doDlogHead
  refine Keeps.next (State.dlogProgress_keeps ..) rfl ?_
  refine Keeps.next (State.wr_keeps ..) rfl ?_
  exact Keeps.refl

theorem writeAdmReg_keeps (sl : ℕ) (off : ℕ) (v : Word) (s : State) : Keeps [.time, .cells, .latches, .hif, .cmds,
    .slices, .haul, .outs, .lyr, .csr, .cvu, .floor, .tch, .reflexDirty, .hap, .hst, .ast, .wld, .cic, .reductions,
    .clk, .pair, .freeCtr, .emits] s (writeAdmReg sl off v s) := by
  unfold writeAdmReg
  refine Keeps.next (State.kick_keeps ..) rfl ?_
  refine Keeps.next (State.reattachGoesOn_keeps ..) rfl ?_
  split
  · refine Keeps.next (doAdmPasid_keeps ..) rfl ?_
    exact Keeps.refl
  · refine Keeps.next (doAdmCtrl_keeps ..) rfl ?_
    exact Keeps.refl
  · refine Keeps.next (doAdmPerm_keeps ..) rfl ?_
    exact Keeps.refl
  · refine Keeps.next (doAdmMig_keeps ..) rfl ?_
    exact Keeps.refl
  · refine Keeps.next (doDlogCtrl_keeps ..) rfl ?_
    exact Keeps.refl
  · refine Keeps.next (doDlogHead_keeps ..) rfl ?_
    exact Keeps.refl
  · refine Keeps.next (State.plainWrite_keeps ..) rfl ?_
    exact Keeps.refl

theorem State.outCtrlPlain_keeps (s : State) (o : ℕ) (v : Word) : Keeps [.cells] s (State.outCtrlPlain s o v) := by
  unfold State.outCtrlPlain
  show let r4 := _; Keeps _ _ r4
  intro r4
  extract_lets -descend +onlyGivenNames st5 at r4
  have hst5 : Keeps [.cells] s st5 := by
    subst st5
    refine Keeps.ite ?_ ?_
    · refine Keeps.next (State.clrF_keeps ..) rfl ?_
      exact Keeps.refl
    · exact Keeps.refl
  try clear_value st5
  extract_lets -descend +onlyGivenNames st6 at r4
  have hst6 : Keeps [.cells] s st6 := by
    subst st6
    refine Keeps.ite ?_ ?_
    · refine Keeps.next (State.clrF_keeps ..) rfl ?_
      exact hst5
    · exact hst5
  try clear_value st6
  extract_lets -descend +onlyGivenNames st7 at r4
  have hst7 : Keeps [.cells] s st7 := by
    subst st7
    refine Keeps.ite ?_ ?_
    · exact hst6
    · refine Keeps.next (State.put_keeps ..) rfl ?_
      exact hst6
  try clear_value st7
  subst r4
  refine Keeps.next (State.put_keeps ..) rfl ?_
  refine Keeps.next (State.put_keeps ..) rfl ?_
  exact hst7

theorem State.runOn_keeps (s : State) (o : ℕ) : Keeps [.cells, .outs, .clk, .pair, .emits] s (State.runOn s o) := by
  unfold State.runOn
  show let r3 := _; Keeps _ _ r3
  intro r3
  extract_lets -descend +onlyGivenNames st4 at r3
  have hst4 : Keeps [.cells, .outs, .clk, .pair, .emits] s st4 := by
    subst st4
    refine Keeps.next (State.setF_keeps ..) rfl ?_
    exact Keeps.refl
  try clear_value st4
  subst r3
  split
  · refine Keeps.next (State.shedPass_keeps ..) rfl ?_
    refine Keeps.next (State.startPll_keeps ..) rfl ?_
    refine Keeps.next (State.updOut_keeps ..) rfl ?_
    exact hst4
  · refine Keeps.next (State.updOut_keeps ..) rfl ?_
    exact hst4
  · exact hst4

theorem State.dropCommits_keeps (s : State) (o : ℕ) : Keeps [.cells, .hif, .cmds, .haul, .outs, .wld, .cic, .pair,
    .emits] s (State.dropCommits s o) := by
  unfold State.dropCommits
  show let r3 := _; Keeps _ _ r3
  intro r3
  extract_lets -descend +onlyGivenNames v4 at r3
  extract_lets -descend +onlyGivenNames v5 at r3
  extract_lets -descend +onlyGivenNames v6 at r3
  extract_lets -descend +onlyGivenNames st7 at r3
  have hst7 : Keeps [.cells, .hif, .cmds, .haul, .outs, .wld, .cic, .pair, .emits] s st7 := by
    subst st7
    refine Keeps.next (State.setOut_keeps ..) rfl ?_
    exact Keeps.refl
  try clear_value st7
  subst r3
  refine Keeps.each (fun st8 x9 => ?_) ?_
  · refine Keeps.next (State.refuse_keeps ..) rfl ?_
    exact Keeps.refl
  · exact hst7

theorem State.runOff_keeps (s : State) (o : ℕ) : Keeps [.cells, .hif, .cmds, .slices, .haul, .outs, .lyr, .csr,
    .cvu, .floor, .wld, .cic, .clk, .pair, .emits] s (State.runOff s o) := by
  unfold State.runOff
  show let r3 := _; Keeps _ _ r3
  intro r3
  extract_lets -descend +onlyGivenNames st4 at r3
  have hst4 : Keeps [.cells, .hif, .cmds, .slices, .haul, .outs, .lyr, .csr, .cvu, .floor, .wld, .cic, .clk, .pair,
      .emits] s st4 := by
    subst st4
    refine Keeps.next (State.clrF_keeps ..) rfl ?_
    exact Keeps.refl
  try clear_value st4
  subst r3
  split
  · refine Keeps.next (State.dropCommits_keeps ..) rfl ?_
    refine Keeps.next (State.updOut_keeps ..) rfl ?_
    exact hst4
  · show let r5 := _; Keeps _ _ r5
    intro r5
    extract_lets -descend +onlyGivenNames v6 at r5
    extract_lets -descend +onlyGivenNames st7 at r5
    have hst7 : Keeps [.cells, .hif, .cmds, .slices, .haul, .outs, .lyr, .csr, .cvu, .floor, .wld, .cic, .clk,
        .pair, .emits] s st7 := by
      subst st7
      refine Keeps.next (State.updOut_keeps ..) rfl ?_
      exact hst4
    try clear_value st7
    extract_lets -descend +onlyGivenNames st8 at r5
    have hst8 : Keeps [.cells, .hif, .cmds, .slices, .haul, .outs, .lyr, .csr, .cvu, .floor, .wld, .cic, .clk,
        .pair, .emits] s st8 := by
      subst st8
      refine Keeps.next (State.removeAll_keeps ..) rfl ?_
      refine Keeps.next (State.turnHolds_keeps ..) rfl ?_
      exact hst7
    try clear_value st8
    subst r5
    refine Keeps.next (State.dropCommits_keeps ..) rfl ?_
    refine Keeps.next (State.floorTick_keeps ..) rfl ?_
    refine Keeps.next (State.auxIdle_keeps ..) rfl ?_
    refine Keeps.next (State.put_keeps ..) rfl ?_
    refine Keeps.next (State.stopPll_keeps ..) rfl ?_
    exact hst8
  · exact hst4

theorem State.runWrite_keeps (s : State) (o : ℕ) (v : Word) : Keeps [.cells, .hif, .cmds, .slices, .haul, .outs,
    .lyr, .csr, .cvu, .floor, .wld, .cic, .clk, .pair, .emits] s (State.runWrite s o v) := by
  unfold State.runWrite
  show let r4 := _; Keeps _ _ r4
  intro r4
  extract_lets -descend +onlyGivenNames v5 at r4
  subst r4
  refine Keeps.ite ?_ ?_
  · refine Keeps.ite ?_ ?_
    · refine Keeps.next (State.setF_keeps ..) rfl ?_
      exact Keeps.refl
    · refine Keeps.next (State.runOn_keeps ..) rfl ?_
      exact Keeps.refl
  · refine Keeps.ite ?_ ?_
    · refine Keeps.ite ?_ ?_
      · refine Keeps.next (State.setF_keeps ..) rfl ?_
        exact Keeps.refl
      · refine Keeps.next (State.runOff_keeps ..) rfl ?_
        exact Keeps.refl
    · exact Keeps.refl

theorem State.setLink_keeps (s : State) (o : ℕ) (st : ℕ) : Keeps [.cells] s (State.setLink s o st) := by
  unfold State.setLink
  show let r4 := _; Keeps _ _ r4
  intro r4
  extract_lets -descend +onlyGivenNames st5 at r4
  have hst5 : Keeps [.cells] s st5 := by
    subst st5
    refine Keeps.next (State.put_keeps ..) rfl ?_
    exact Keeps.refl
  try clear_value st5
  subst r4
  refine Keeps.ite ?_ ?_
  · refine Keeps.next (State.put_keeps ..) rfl ?_
    refine Keeps.next (State.put_keeps ..) rfl ?_
    exact hst5
  · exact hst5

theorem State.sendPatterns_keeps (s : State) (o : ℕ) (rate : ℕ) (lanes : ℕ) : Keeps [.emits] s (State.sendPatterns s
    o rate lanes) := by
  unfold State.sendPatterns
  show let r5 := _; Keeps _ _ r5
  intro r5
  extract_lets -descend +onlyGivenNames v6 at r5
  subst r5
  refine Keeps.next (State.emit_keeps ..) rfl ?_
  refine Keeps.next (State.emit_keeps ..) rfl ?_
  exact Keeps.refl

theorem State.readDpcd_keeps (s : State) (o : ℕ) (addr : ℕ) (len : ℕ) : Keeps [.emits] s (State.readDpcd s o addr
    len) := by
  unfold State.readDpcd
  refine Keeps.next (State.emit_keeps ..) rfl ?_
  exact Keeps.refl

theorem State.trainStart_keeps (s : State) (o : ℕ) : Keeps [.cells, .outs, .emits] s (State.trainStart s o) := by
  unfold State.trainStart
  show let r3 := _; Keeps _ _ r3
  intro r3
  extract_lets -descend +onlyGivenNames st4 at r3
  have hst4 : Keeps [.cells, .outs, .emits] s st4 := by
    subst st4
    refine Keeps.ite ?_ ?_
    · refine Keeps.next (State.count_keeps ..) rfl ?_
      exact Keeps.refl
    · exact Keeps.refl
  try clear_value st4
  extract_lets -descend +onlyGivenNames st5 at r3
  have hst5 : Keeps [.cells, .outs, .emits] s st5 := by
    subst st5
    refine Keeps.next (State.updOut_keeps ..) rfl ?_
    refine Keeps.next (State.setLink_keeps ..) rfl ?_
    exact hst4
  try clear_value st5
  extract_lets -descend +onlyGivenNames st6 at r3
  have hst6 : Keeps [.cells, .outs, .emits] s st6 := by
    subst st6
    refine Keeps.next (State.readDpcd_keeps ..) rfl ?_
    exact hst5
  try clear_value st6
  subst r3
  refine Keeps.ite ?_ ?_
  · refine Keeps.next (State.readDpcd_keeps ..) rfl ?_
    exact hst6
  · exact hst6

theorem State.linkStart_keeps (s : State) (o : ℕ) : Keeps [.cells, .outs, .emits] s (State.linkStart s o) := by
  unfold State.linkStart
  show let r3 := _; Keeps _ _ r3
  intro r3
  extract_lets -descend +onlyGivenNames st4 at r3
  have hst4 : Keeps [.cells, .outs, .emits] s st4 := by
    subst st4
    refine Keeps.next (State.updOut_keeps ..) rfl ?_
    exact Keeps.refl
  try clear_value st4
  subst r3
  refine Keeps.ite ?_ ?_
  · refine Keeps.next (State.setLink_keeps ..) rfl ?_
    exact hst4
  · refine Keeps.ite ?_ ?_
    · show let r5 := _; Keeps _ _ r5
      intro r5
      extract_lets -descend +onlyGivenNames v6 at r5
      extract_lets -descend +onlyGivenNames v7 at r5
      subst r5
      refine Keeps.ite ?_ ?_
      · show let r8 := _; Keeps _ _ r8
        intro r8
        extract_lets -descend +onlyGivenNames st9 at r8
        have hst9 : Keeps [.cells, .outs, .emits] s st9 := by
          subst st9
          refine Keeps.next (State.put_keeps ..) rfl ?_
          exact hst4
        try clear_value st9
        extract_lets -descend +onlyGivenNames st10 at r8
        have hst10 : Keeps [.cells, .outs, .emits] s st10 := by
          subst st10
          refine Keeps.next (State.sendPatterns_keeps ..) rfl ?_
          exact hst9
        try clear_value st10
        subst r8
        refine Keeps.next (State.put_keeps ..) rfl ?_
        refine Keeps.next (State.put_keeps ..) rfl ?_
        refine Keeps.next (State.setLink_keeps ..) rfl ?_
        exact hst10
      · refine Keeps.next (State.setLink_keeps ..) rfl ?_
        exact hst4
    · refine Keeps.ite ?_ ?_
      · refine Keeps.next (State.trainStart_keeps ..) rfl ?_
        exact hst4
      · refine Keeps.next (State.setLink_keeps ..) rfl ?_
        exact hst4

theorem State.txWrite_keeps (s : State) (o : ℕ) (v : Word) : Keeps [.cells, .hif, .outs, .wld, .cic, .emits] s
    (State.txWrite s o v) := by
  unfold State.txWrite
  show let r4 := _; Keeps _ _ r4
  intro r4
  extract_lets -descend +onlyGivenNames v5 at r4
  subst r4
  refine Keeps.ite ?_ ?_
  · split
    · refine Keeps.ite ?_ ?_
      · refine Keeps.next (State.setF_keeps ..) rfl ?_
        exact Keeps.refl
      · refine Keeps.ite ?_ ?_
        · exact Keeps.refl
        · refine Keeps.next (State.linkStart_keeps ..) rfl ?_
          refine Keeps.next (State.put_keeps ..) rfl ?_
          refine Keeps.next (State.setF_keeps ..) rfl ?_
          exact Keeps.refl
  · refine Keeps.ite ?_ ?_
    · show let r6 := _; Keeps _ _ r6
      intro r6
      extract_lets -descend +onlyGivenNames st7 at r6
      have hst7 : Keeps [.cells, .hif, .outs, .wld, .cic, .emits] s st7 := by
        subst st7
        refine Keeps.next (State.put_keeps ..) rfl ?_
        refine Keeps.next (State.clrF_keeps ..) rfl ?_
        exact Keeps.refl
      try clear_value st7
      subst r6
      refine Keeps.next (State.auxIdle_keeps ..) rfl ?_
      refine Keeps.next (State.updOut_keeps ..) rfl ?_
      refine Keeps.next (State.setLink_keeps ..) rfl ?_
      exact hst7
    · exact Keeps.refl

theorem doOutCtrl_keeps (o : ℕ) (v : Word) (s : State) : Keeps [.cells, .hif, .cmds, .slices, .haul, .outs, .lyr,
    .csr, .cvu, .floor, .wld, .cic, .clk, .pair, .emits] s (doOutCtrl o v s) := by
  unfold doOutCtrl
  show let r4 := _; Keeps _ _ r4
  intro r4
  extract_lets -descend +onlyGivenNames st5 at r4
  have hst5 : Keeps [.cells, .hif, .cmds, .slices, .haul, .outs, .lyr, .csr, .cvu, .floor, .wld, .cic, .clk, .pair,
      .emits] s st5 := by
    subst st5
    refine Keeps.next (State.outCtrlPlain_keeps ..) rfl ?_
    exact Keeps.refl
  try clear_value st5
  extract_lets -descend +onlyGivenNames v6 at r4
  extract_lets -descend +onlyGivenNames st7 at r4
  have hst7 : Keeps [.cells, .hif, .cmds, .slices, .haul, .outs, .lyr, .csr, .cvu, .floor, .wld, .cic, .clk, .pair,
      .emits] s st7 := by
    subst st7
    refine Keeps.next (State.runWrite_keeps ..) rfl ?_
    exact hst5
  try clear_value st7
  extract_lets -descend +onlyGivenNames st8 at r4
  have hst8 : Keeps [.cells, .hif, .cmds, .slices, .haul, .outs, .lyr, .csr, .cvu, .floor, .wld, .cic, .clk, .pair,
      .emits] s st8 := by
    subst st8
    refine Keeps.ite ?_ ?_
    · refine Keeps.next (State.linkStart_keeps ..) rfl ?_
      exact hst7
    · exact hst7
  try clear_value st8
  subst r4
  refine Keeps.next (State.txWrite_keeps ..) rfl ?_
  exact hst8

theorem doLinkCtrl_keeps (o : ℕ) (v : Word) (s : State) : Keeps [.cells] s (doLinkCtrl o v s) := by
  unfold doLinkCtrl
  refine Keeps.ite ?_ ?_
  · exact Keeps.refl
  · show let r4 := _; Keeps _ _ r4
    intro r4
    extract_lets -descend +onlyGivenNames v5 at r4
    extract_lets -descend +onlyGivenNames v6 at r4
    extract_lets -descend +onlyGivenNames st7 at r4
    have hst7 : Keeps [.cells] s st7 := by
      subst st7
      refine Keeps.ite ?_ ?_
      · exact Keeps.refl
      · refine Keeps.next (State.put_keeps ..) rfl ?_
        exact Keeps.refl
    try clear_value st7
    extract_lets -descend +onlyGivenNames v8 at r4
    extract_lets -descend +onlyGivenNames st9 at r4
    have hst9 : Keeps [.cells] s st9 := by
      subst st9
      refine Keeps.ite ?_ ?_
      · refine Keeps.next (State.put_keeps ..) rfl ?_
        exact hst7
      · exact hst7
    try clear_value st9
    extract_lets -descend +onlyGivenNames v10 at r4
    extract_lets -descend +onlyGivenNames st11 at r4
    have hst11 : Keeps [.cells] s st11 := by
      subst st11
      refine Keeps.ite ?_ ?_
      · refine Keeps.next (State.put_keeps ..) rfl ?_
        exact hst9
      · exact hst9
    try clear_value st11
    subst r4
    refine Keeps.next (State.put_keeps ..) rfl ?_
    exact hst11

theorem doAuxCmd_keeps (o : ℕ) (v : Word) (s : State) : Keeps [.cells, .hif, .outs, .wld, .cic, .emits] s (doAuxCmd
    o v s) := by
  unfold doAuxCmd
  refine Keeps.ite ?_ ?_
  · exact Keeps.refl
  · show let r4 := _; Keeps _ _ r4
    intro r4
    extract_lets -descend +onlyGivenNames st5 at r4
    have hst5 : Keeps [.cells, .hif, .outs, .wld, .cic, .emits] s st5 := by
      subst st5
      refine Keeps.next (State.put_keeps ..) rfl ?_
      exact Keeps.refl
    try clear_value st5
    extract_lets -descend +onlyGivenNames st6 at r4
    have hst6 : Keeps [.cells, .hif, .outs, .wld, .cic, .emits] s st6 := by
      subst st6
      refine Keeps.next (State.put_keeps ..) rfl ?_
      exact hst5
    try clear_value st6
    subst r4
    refine Keeps.ite ?_ ?_
    · exact hst6
    · show let r7 := _; Keeps _ _ r7
      intro r7
      extract_lets -descend +onlyGivenNames v8 at r7
      extract_lets -descend +onlyGivenNames st9 at r7
      have hst9 : Keeps [.cells, .hif, .outs, .wld, .cic, .emits] s st9 := by
        subst st9
        refine Keeps.next (State.setF_keeps ..) rfl ?_
        exact hst6
      try clear_value st9
      subst r7
      refine Keeps.ite ?_ ?_
      · refine Keeps.next (State.updOut_keeps ..) rfl ?_
        exact hst9
      · refine Keeps.next (State.sendAux_keeps ..) rfl ?_
        exact hst9

theorem doOutTiming_keeps (o : ℕ) (a : ℕ) (v : Word) (s : State) : Keeps [.cells] s (doOutTiming o a v s) := by
  unfold doOutTiming
  refine Keeps.ite ?_ ?_
  · exact Keeps.refl
  · refine Keeps.next (State.plainWrite_keeps ..) rfl ?_
    exact Keeps.refl

theorem writeOutReg_keeps (o : ℕ) (off : ℕ) (v : Word) (s : State) : Keeps [.cells, .hif, .cmds, .slices, .haul,
    .outs, .lyr, .csr, .cvu, .floor, .wld, .cic, .clk, .pair, .emits] s (writeOutReg o off v s) := by
  unfold writeOutReg
  split
  · refine Keeps.next (doOutCtrl_keeps ..) rfl ?_
    exact Keeps.refl
  · refine Keeps.next (doLinkCtrl_keeps ..) rfl ?_
    exact Keeps.refl
  · refine Keeps.next (doAuxCmd_keeps ..) rfl ?_
    exact Keeps.refl
  · refine Keeps.ite ?_ ?_
    · refine Keeps.next (doOutTiming_keeps ..) rfl ?_
      exact Keeps.refl
    · refine Keeps.next (State.plainWrite_keeps ..) rfl ?_
      exact Keeps.refl

theorem doLyrAssign_keeps (r : Req) (n : ℕ) (v : Word) (s : State) : Keeps [.cells] s (doLyrAssign r n v s) := by
  unfold doLyrAssign
  show let r5 := _; Keeps _ _ r5
  intro r5
  extract_lets -descend +onlyGivenNames st6 at r5
  have hst6 : Keeps [.cells] s st6 := by
    subst st6
    refine Keeps.ite ?_ ?_
    · refine Keeps.next (State.clrF_keeps ..) rfl ?_
      exact Keeps.refl
    · exact Keeps.refl
  try clear_value st6
  extract_lets -descend +onlyGivenNames v7 at r5
  subst r5
  refine Keeps.ite ?_ ?_
  · exact hst6
  · show let r8 := _; Keeps _ _ r8
    intro r8
    extract_lets -descend +onlyGivenNames v9 at r8
    extract_lets -descend +onlyGivenNames v10 at r8
    extract_lets -descend +onlyGivenNames v11 at r8
    extract_lets -descend +onlyGivenNames v12 at r8
    extract_lets -descend +onlyGivenNames v13 at r8
    extract_lets -descend +onlyGivenNames v14 at r8
    extract_lets -descend +onlyGivenNames v15 at r8
    subst r8
    refine Keeps.ite ?_ ?_
    · refine Keeps.next (State.setF_keeps ..) rfl ?_
      exact hst6
    · refine Keeps.next (State.put_keeps ..) rfl ?_
      refine Keeps.next (State.put_keeps ..) rfl ?_
      refine Keeps.next (State.put_keeps ..) rfl ?_
      exact hst6

theorem doImgSel_keeps (n : ℕ) (v : Word) (s : State) : Keeps [.cells, .lyr] s (doImgSel n v s) := by
  unfold doImgSel
  show let r4 := _; Keeps _ _ r4
  intro r4
  extract_lets -descend +onlyGivenNames st5 at r4
  have hst5 : Keeps [.cells, .lyr] s st5 := by
    subst st5
    refine Keeps.next (State.plainWrite_keeps ..) rfl ?_
    exact Keeps.refl
  try clear_value st5
  subst r4
  refine Keeps.ite ?_ ?_
  · refine Keeps.next (State.updLayer_keeps ..) rfl ?_
    exact hst5
  · exact hst5

theorem State.imgAdvance_keeps (s : State) (n : ℕ) : Keeps [.cells] s (State.imgAdvance s n) := by
  unfold State.imgAdvance
  refine Keeps.next (State.put_keeps ..) rfl ?_
  exact Keeps.refl

theorem doImgData_keeps (r : Req) (n : ℕ) (v : Word) (s : State) : Keeps [.cells, .lyr] s (doImgData r n v s) := by
  unfold doImgData
  show let r5 := _; Keeps _ _ r5
  intro r5
  extract_lets -descend +onlyGivenNames v6 at r5
  extract_lets -descend +onlyGivenNames st7 at r5
  have hst7 : Keeps [.cells, .lyr] s st7 := by
    subst st7
    refine Keeps.ite ?_ ?_
    · refine Keeps.next (State.updLayer_keeps ..) rfl ?_
      exact Keeps.refl
    · exact Keeps.refl
  try clear_value st7
  subst r5
  refine Keeps.next (State.imgAdvance_keeps ..) rfl ?_
  exact hst7

theorem doCapCommit_keeps (n : ℕ) (s : State) : Keeps [.cells, .hif, .cmds, .haul, .outs, .wld, .cic, .pair, .emits]
    s (doCapCommit n s) := by
  unfold doCapCommit
  show let r3 := _; Keeps _ _ r3
  intro r3
  extract_lets -descend +onlyGivenNames v4 at r3
  extract_lets -descend +onlyGivenNames v5 at r3
  extract_lets -descend +onlyGivenNames v6 at r3
  subst r3
  refine Keeps.ite ?_ ?_
  · refine Keeps.next (State.capRefused_keeps ..) rfl ?_
    exact Keeps.refl
  · refine Keeps.ite ?_ ?_
    · refine Keeps.next (State.event_keeps ..) rfl ?_
      refine Keeps.next (State.setF_keeps ..) rfl ?_
      exact Keeps.refl
    · show let r7 := _; Keeps _ _ r7
      intro r7
      extract_lets -descend +onlyGivenNames st8 at r7
      have hst8 : Keeps [.cells, .hif, .cmds, .haul, .outs, .wld, .cic, .pair, .emits] s st8 := by
        subst st8
        refine Keeps.next (State.setF_keeps ..) rfl ?_
        exact Keeps.refl
      try clear_value st8
      subst r7
      refine Keeps.next (State.enqueueCommit_keeps ..) rfl ?_
      exact hst8

theorem doCapCtrl_keeps (r : Req) (n : ℕ) (v : Word) (s : State) : Keeps [.cells, .hif, .cmds, .haul, .outs, .wld,
    .cic, .pair, .emits] s (doCapCtrl r n v s) := by
  unfold doCapCtrl
  refine Keeps.ite ?_ ?_
  · exact Keeps.refl
  · show let r5 := _; Keeps _ _ r5
    intro r5
    extract_lets -descend +onlyGivenNames st6 at r5
    have hst6 : Keeps [.cells, .hif, .cmds, .haul, .outs, .wld, .cic, .pair, .emits] s st6 := by
      subst st6
      refine Keeps.ite ?_ ?_
      · refine Keeps.next (State.clrF_keeps ..) rfl ?_
        exact Keeps.refl
      · exact Keeps.refl
    try clear_value st6
    extract_lets -descend +onlyGivenNames st7 at r5
    have hst7 : Keeps [.cells, .hif, .cmds, .haul, .outs, .wld, .cic, .pair, .emits] s st7 := by
      subst st7
      refine Keeps.ite ?_ ?_
      · refine Keeps.next (State.clrF_keeps ..) rfl ?_
        exact hst6
      · exact hst6
    try clear_value st7
    subst r5
    refine Keeps.ite ?_ ?_
    · refine Keeps.next (doCapCommit_keeps ..) rfl ?_
      exact hst7
    · exact hst7

theorem writeLyrReg_keeps (r : Req) (n : ℕ) (off : ℕ) (v : Word) (s : State) : Keeps [.cells, .hif, .cmds, .haul,
    .outs, .lyr, .wld, .cic, .pair, .emits] s (writeLyrReg r n off v s) := by
  unfold writeLyrReg
  split
  · refine Keeps.next (doLyrAssign_keeps ..) rfl ?_
    exact Keeps.refl
  · refine Keeps.next (doImgSel_keeps ..) rfl ?_
    exact Keeps.refl
  · refine Keeps.next (doImgData_keeps ..) rfl ?_
    exact Keeps.refl
  · refine Keeps.next (doCapCtrl_keeps ..) rfl ?_
    exact Keeps.refl
  · refine Keeps.next (State.plainWrite_keeps ..) rfl ?_
    exact Keeps.refl

theorem State.pinAdvance_keeps (s : State) : Keeps [.cells] s (State.pinAdvance s) := by
  unfold State.pinAdvance
  refine Keeps.next (State.put_keeps ..) rfl ?_
  exact Keeps.refl

theorem doPinCfg_keeps (v : Word) (s : State) : Keeps [.cells] s (doPinCfg v s) := by
  unfold doPinCfg
  show let r3 := _; Keeps _ _ r3
  intro r3
  extract_lets -descend +onlyGivenNames v4 at r3
  extract_lets -descend +onlyGivenNames v5 at r3
  extract_lets -descend +onlyGivenNames v6 at r3
  extract_lets -descend +onlyGivenNames v7 at r3
  subst r3
  refine Keeps.next (State.pinAdvance_keeps ..) rfl ?_
  refine Keeps.ite ?_ ?_
  · refine Keeps.next (State.put_keeps ..) rfl ?_
    refine Keeps.next (State.setF_keeps ..) rfl ?_
    exact Keeps.refl
  · refine Keeps.next (State.wr_keeps ..) rfl ?_
    exact Keeps.refl

theorem State.putBinding_keeps (s : State) (ow : ℕ) (sel : ℕ) (v : Word) : Keeps [.cells, .reflexDirty] s
    (State.putBinding s ow sel v) := by
  unfold State.putBinding
  show let r5 := _; Keeps _ _ r5
  intro r5
  extract_lets -descend +onlyGivenNames st6 at r5
  have hst6 : Keeps [.cells, .reflexDirty] s st6 := by
    subst st6
    refine Keeps.next (State.wr_keeps ..) rfl ?_
    exact Keeps.refl
  try clear_value st6
  subst r5
  refine Keeps.set_reflexDirty (x := st6) rfl ?_
  exact hst6

theorem doPwRfxData_keeps (v : Word) (s : State) : Keeps [.cells, .reflexDirty] s (doPwRfxData v s) := by
  unfold doPwRfxData
  refine Keeps.next (State.put_keeps ..) rfl ?_
  refine Keeps.next (State.putBinding_keeps ..) rfl ?_
  exact Keeps.refl

theorem writePoolReg_keeps (r : Req) (off : ℕ) (v : Word) (s : State) : Keeps [.cells, .reflexDirty] s (writePoolReg
    r off v s) := by
  unfold writePoolReg
  refine Keeps.ite ?_ ?_
  · exact Keeps.refl
  · split
    · refine Keeps.next (doPinCfg_keeps ..) rfl ?_
      exact Keeps.refl
    · refine Keeps.next (ringCtrl_keeps ..) rfl ?_
      exact Keeps.refl
    · refine Keeps.next (doPwRfxData_keeps ..) rfl ?_
      exact Keeps.refl
    · refine Keeps.next (State.plainWrite_keeps ..) rfl ?_
      exact Keeps.refl

theorem doTchCtrl_keeps (n : ℕ) (v : Word) (s : State) : Keeps [.cells] s (doTchCtrl n v s) := by
  unfold doTchCtrl
  show let r4 := _; Keeps _ _ r4
  intro r4
  extract_lets -descend +onlyGivenNames st5 at r4
  have hst5 : Keeps [.cells] s st5 := by
    subst st5
    refine Keeps.next (State.plainWrite_keeps ..) rfl ?_
    exact Keeps.refl
  try clear_value st5
  subst r4
  refine Keeps.ite ?_ ?_
  · refine Keeps.next (State.setF_keeps ..) rfl ?_
    refine Keeps.next (State.clrF_keeps ..) rfl ?_
    exact hst5
  · exact hst5

theorem State.hopAdvance_keeps (s : State) (n : ℕ) : Keeps [.cells] s (State.hopAdvance s n) := by
  unfold State.hopAdvance
  refine Keeps.next (State.put_keeps ..) rfl ?_
  exact Keeps.refl

theorem doHopset_keeps (n : ℕ) (v : Word) (s : State) : Keeps [.cells] s (doHopset n v s) := by
  unfold doHopset
  show let r4 := _; Keeps _ _ r4
  intro r4
  extract_lets -descend +onlyGivenNames v5 at r4
  subst r4
  refine Keeps.next (State.hopAdvance_keeps ..) rfl ?_
  refine Keeps.ite ?_ ?_
  · exact Keeps.refl
  · refine Keeps.next (State.wr_keeps ..) rfl ?_
    exact Keeps.refl

theorem State.refAdvance_keeps (s : State) (n : ℕ) : Keeps [.cells] s (State.refAdvance s n) := by
  unfold State.refAdvance
  refine Keeps.next (State.put_keeps ..) rfl ?_
  exact Keeps.refl

theorem doRef_keeps (n : ℕ) (v : Word) (s : State) : Keeps [.cells] s (doRef n v s) := by
  unfold doRef
  show let r4 := _; Keeps _ _ r4
  intro r4
  extract_lets -descend +onlyGivenNames st5 at r4
  have hst5 : Keeps [.cells] s st5 := by
    subst st5
    refine Keeps.next (State.wr_keeps ..) rfl ?_
    exact Keeps.refl
  try clear_value st5
  subst r4
  refine Keeps.next (State.refAdvance_keeps ..) rfl ?_
  refine Keeps.next (State.clrF_keeps ..) rfl ?_
  exact hst5

theorem doTchRb_keeps (n : ℕ) (v : Word) (s : State) : Keeps [.cells, .tch] s (doTchRb n v s) := by
  unfold doTchRb
  show let r4 := _; Keeps _ _ r4
  intro r4
  extract_lets -descend +onlyGivenNames st5 at r4
  have hst5 : Keeps [.cells, .tch] s st5 := by
    subst st5
    refine Keeps.next (State.plainWrite_keeps ..) rfl ?_
    exact Keeps.refl
  try clear_value st5
  subst r4
  refine Keeps.ite ?_ ?_
  · show let r6 := _; Keeps _ _ r6
    intro r6
    extract_lets -descend +onlyGivenNames v7 at r6
    extract_lets -descend +onlyGivenNames v8 at r6
    extract_lets -descend +onlyGivenNames v9 at r6
    extract_lets -descend +onlyGivenNames v10 at r6
    subst r6
    refine Keeps.next (State.updPanel_keeps ..) rfl ?_
    refine Keeps.next (State.setF_keeps ..) rfl ?_
    refine Keeps.next (State.clrF_keeps ..) rfl ?_
    exact hst5
  · exact hst5

theorem doDiagSel_keeps (n : ℕ) (v : Word) (s : State) : Keeps [.cells, .tch] s (doDiagSel n v s) := by
  unfold doDiagSel
  show let r4 := _; Keeps _ _ r4
  intro r4
  extract_lets -descend +onlyGivenNames st5 at r4
  have hst5 : Keeps [.cells, .tch] s st5 := by
    subst st5
    refine Keeps.next (State.plainWrite_keeps ..) rfl ?_
    exact Keeps.refl
  try clear_value st5
  subst r4
  refine Keeps.next (State.updPanel_keeps ..) rfl ?_
  exact hst5

theorem writePanelReg_keeps (n : ℕ) (off : ℕ) (v : Word) (s : State) : Keeps [.cells, .tch] s (writePanelReg n off v
    s) := by
  unfold writePanelReg
  split
  · refine Keeps.next (doTchCtrl_keeps ..) rfl ?_
    exact Keeps.refl
  · refine Keeps.next (doHopset_keeps ..) rfl ?_
    exact Keeps.refl
  · refine Keeps.next (doRef_keeps ..) rfl ?_
    exact Keeps.refl
  · refine Keeps.next (doTchRb_keeps ..) rfl ?_
    exact Keeps.refl
  · refine Keeps.next (doDiagSel_keeps ..) rfl ?_
    exact Keeps.refl
  · refine Keeps.next (State.plainWrite_keeps ..) rfl ?_
    exact Keeps.refl

theorem doHapBudget_keeps (n : ℕ) (v : Word) (s : State) : Keeps [.cells, .hap] s (doHapBudget n v s) := by
  unfold doHapBudget
  show let r4 := _; Keeps _ _ r4
  intro r4
  extract_lets -descend +onlyGivenNames st5 at r4
  have hst5 : Keeps [.cells, .hap] s st5 := by
    subst st5
    refine Keeps.ite ?_ ?_
    · refine Keeps.next (State.clrF_keeps ..) rfl ?_
      exact Keeps.refl
    · exact Keeps.refl
  try clear_value st5
  extract_lets -descend +onlyGivenNames v6 at r4
  extract_lets -descend +onlyGivenNames v7 at r4
  subst r4
  refine Keeps.ite ?_ ?_
  · refine Keeps.next (State.setF_keeps ..) rfl ?_
    exact hst5
  · refine Keeps.next (State.updChan_keeps ..) rfl ?_
    exact hst5

theorem doAccRaw_keeps (n : ℕ) (v : Word) (reply : BitVec 24) (s : State) : Keeps [.cells, .emits] s (doAccRaw n v
    reply s) := by
  unfold doAccRaw
  show let r5 := _; Keeps _ _ r5
  intro r5
  extract_lets -descend +onlyGivenNames st6 at r5
  have hst6 : Keeps [.cells, .emits] s st6 := by
    subst st6
    refine Keeps.next (State.plainWrite_keeps ..) rfl ?_
    exact Keeps.refl
  try clear_value st6
  subst r5
  refine Keeps.ite ?_ ?_
  · exact hst6
  · refine Keeps.ite ?_ ?_
    · refine Keeps.next (State.setF_keeps ..) rfl ?_
      exact hst6
    · show let r7 := _; Keeps _ _ r7
      intro r7
      extract_lets -descend +onlyGivenNames v8 at r7
      extract_lets -descend +onlyGivenNames v9 at r7
      extract_lets -descend +onlyGivenNames st10 at r7
      have hst10 : Keeps [.cells, .emits] s st10 := by
        subst st10
        refine Keeps.ite ?_ ?_
        · exact hst6
        · refine Keeps.next (State.emit_keeps ..) rfl ?_
          exact hst6
      try clear_value st10
      subst r7
      refine Keeps.next (State.put_keeps ..) rfl ?_
      exact hst10

theorem State.makeStart_keeps (s : State) (n : ℕ) (r : HapStart) : Keeps [.hap] s (State.makeStart s n r) := by
  unfold State.makeStart
  show let r4 := _; Keeps _ _ r4
  intro r4
  extract_lets -descend +onlyGivenNames v5 at r4
  subst r4
  refine Keeps.next (State.updChan_keeps ..) rfl ?_
  exact Keeps.refl

theorem doHapCmd_keeps (r : Req) (n : ℕ) (v : Word) (s : State) : Keeps [.hap] s (doHapCmd r n v s) := by
  unfold doHapCmd
  split
  · show let r5 := _; Keeps _ _ r5
    intro r5
    extract_lets -descend +onlyGivenNames v6 at r5
    subst r5
    refine Keeps.ite ?_ ?_
    · refine Keeps.next (State.updChan_keeps ..) rfl ?_
      exact Keeps.refl
    · refine Keeps.next (State.makeStart_keeps ..) rfl ?_
      exact Keeps.refl

theorem doHapRb_keeps (n : ℕ) (v : Word) (s : State) : Keeps [.cells, .hap] s (doHapRb n v s) := by
  unfold doHapRb
  show let r4 := _; Keeps _ _ r4
  intro r4
  extract_lets -descend +onlyGivenNames st5 at r4
  have hst5 : Keeps [.cells, .hap] s st5 := by
    subst st5
    refine Keeps.next (State.plainWrite_keeps ..) rfl ?_
    exact Keeps.refl
  try clear_value st5
  subst r4
  refine Keeps.ite ?_ ?_
  · show let r6 := _; Keeps _ _ r6
    intro r6
    extract_lets -descend +onlyGivenNames v7 at r6
    subst r6
    refine Keeps.next (State.updChan_keeps ..) rfl ?_
    refine Keeps.next (State.setF_keeps ..) rfl ?_
    refine Keeps.next (State.clrF_keeps ..) rfl ?_
    exact hst5
  · exact hst5

theorem doStoreCtrl_keeps (v : Word) (s : State) : Keeps [.cells, .hapShared] s (doStoreCtrl v s) := by
  unfold doStoreCtrl
  show let r3 := _; Keeps _ _ r3
  intro r3
  extract_lets -descend +onlyGivenNames st4 at r3
  have hst4 : Keeps [.cells, .hapShared] s st4 := by
    subst st4
    refine Keeps.next (State.plainWrite_keeps ..) rfl ?_
    exact Keeps.refl
  try clear_value st4
  subst r3
  refine Keeps.ite ?_ ?_
  · refine Keeps.set_hapShared (x := st4) rfl ?_
    exact hst4
  · exact hst4

theorem State.storeAdvance_keeps (s : State) : Keeps [.cells] s (State.storeAdvance s) := by
  unfold State.storeAdvance
  refine Keeps.next (State.put_keeps ..) rfl ?_
  exact Keeps.refl

theorem doStoreData_keeps (v : Word) (s : State) : Keeps [.cells, .mem] s (doStoreData v s) := by
  unfold doStoreData
  show let r3 := _; Keeps _ _ r3
  intro r3
  extract_lets -descend +onlyGivenNames v4 at r3
  subst r3
  refine Keeps.next (State.storeAdvance_keeps ..) rfl ?_
  refine Keeps.ite ?_ ?_
  · exact Keeps.refl
  · refine Keeps.ite ?_ ?_
    · refine Keeps.next (State.setF_keeps ..) rfl ?_
      exact Keeps.refl
    · refine Keeps.set_mem (x := s) rfl Mems.wf_store ?_
      exact Keeps.refl

theorem writeHapReg_keeps (r : Req) (n : ℕ) (off : ℕ) (v : Word) (s : State) : Keeps [.cells, .hap, .hapShared,
    .mem, .freeCtr, .emits] s (writeHapReg r n off v s) := by
  unfold writeHapReg
  split
  · refine Keeps.next (doHapBudget_keeps ..) rfl ?_
    exact Keeps.refl
  · split
    · rename_i _ st6 e7
      have hst6 : Keeps [.cells, .hap, .hapShared, .mem, .freeCtr, .emits] s st6 := by
        refine Keeps.snd e7 ?_
        refine Keeps.next (State.free_keeps ..) rfl ?_
        exact Keeps.refl
      refine Keeps.next (doAccRaw_keeps ..) rfl ?_
      exact hst6
  · refine Keeps.next (doHapCmd_keeps ..) rfl ?_
    exact Keeps.refl
  · refine Keeps.next (doHapRb_keeps ..) rfl ?_
    exact Keeps.refl
  · refine Keeps.ite ?_ ?_
    · refine Keeps.next (doStoreCtrl_keeps ..) rfl ?_
      exact Keeps.refl
    · exact Keeps.refl
  · refine Keeps.ite ?_ ?_
    · refine Keeps.next (doStoreData_keeps ..) rfl ?_
      exact Keeps.refl
    · exact Keeps.refl
  · refine Keeps.next (State.plainWrite_keeps ..) rfl ?_
    exact Keeps.refl

theorem State.pwCtrl_keeps (s : State) (v : Word) : Keeps [.cells, .hif, .emits] s (State.pwCtrl s v) := by
  unfold State.pwCtrl
  show let r3 := _; Keeps _ _ r3
  intro r3
  extract_lets -descend +onlyGivenNames v4 at r3
  extract_lets -descend +onlyGivenNames st5 at r3
  have hst5 : Keeps [.cells, .hif, .emits] s st5 := by
    subst st5
    refine Keeps.next (State.clrF_keeps ..) rfl ?_
    refine Keeps.next (State.plainWrite_keeps ..) rfl ?_
    exact Keeps.refl
  try clear_value st5
  subst r3
  refine Keeps.ite ?_ ?_
  · refine Keeps.next (State.pwChanged_keeps ..) rfl ?_
    refine Keeps.next (State.setF_keeps ..) rfl ?_
    exact hst5
  · exact hst5

theorem State.noteWorldReset_keeps (s : State) : Keeps [.wld] s (State.noteWorldReset s) := by
  unfold State.noteWorldReset
  show let r2 := _; Keeps _ _ r2
  intro r2
  extract_lets -descend +onlyGivenNames v3 at r2
  subst r2
  refine Keeps.set_wld (x := s) rfl id ?_
  exact Keeps.refl

theorem State.worldRegs_keeps (s : State) (cause : ℕ) : Keeps [.cells, .wld] s (State.worldRegs s cause) := by
  unfold State.worldRegs
  show let r3 := _; Keeps _ _ r3
  intro r3
  extract_lets -descend +onlyGivenNames st4 at r3
  have hst4 : Keeps [.cells, .wld] s st4 := by
    subst st4
    refine Keeps.next (State.clrF_keeps ..) rfl ?_
    refine Keeps.next (State.clrF_keeps ..) rfl ?_
    exact Keeps.refl
  try clear_value st4
  extract_lets -descend +onlyGivenNames st5 at r3
  have hst5 : Keeps [.cells, .wld] s st5 := by
    subst st5
    refine Keeps.next (State.clrF_keeps ..) rfl ?_
    refine Keeps.next (State.startWorldDog_keeps ..) rfl ?_
    refine Keeps.next (State.put_keeps ..) rfl ?_
    exact hst4
  try clear_value st5
  extract_lets -descend +onlyGivenNames st6 at r3
  have hst6 : Keeps [.cells, .wld] s st6 := by
    subst st6
    refine Keeps.next (State.count_keeps ..) rfl ?_
    refine Keeps.next (State.clrF_keeps ..) rfl ?_
    exact hst5
  try clear_value st6
  subst r3
  refine Keeps.next (State.put_keeps ..) rfl ?_
  exact hst6

theorem State.setSlot_keeps (s : State) (k : ℕ) (v : ℕ) : Keeps [.cells] s (State.setSlot s k v) := by
  unfold State.setSlot
  refine Keeps.next (State.put_keeps ..) rfl ?_
  exact Keeps.refl

theorem State.abortMailbox_keeps (s : State) : Keeps [.cells] s (State.abortMailbox s) := by
  unfold State.abortMailbox
  refine Keeps.each (fun st2 x3 => ?_) ?_
  · refine Keeps.ite ?_ ?_
    · refine Keeps.next (State.setSlot_keeps ..) rfl ?_
      exact Keeps.refl
    · exact Keeps.refl
  · exact Keeps.refl

theorem State.dropToken_keeps (s : State) : Keeps [.wld] s (State.dropToken s) := by
  unfold State.dropToken
  split
  · exact Keeps.refl
  · refine Keeps.next (State.leave_keeps ..) rfl ?_
    exact Keeps.refl

theorem State.setMark_keeps (s : State) (d : ℕ) (m : ℕ) : Keeps [.dmc] s (State.setMark s d m) := by
  unfold State.setMark
  refine Keeps.set_dmc (x := s) rfl ?_
  exact Keeps.refl

theorem State.activate_keeps (s : State) (d : ℕ) (code : ℕ) (sl : ℕ) : Keeps [.dmc] s (State.activate s d code sl) := by
  unfold State.activate
  show let r5 := _; Keeps _ _ r5
  intro r5
  extract_lets -descend +onlyGivenNames v6 at r5
  subst r5
  refine Keeps.set_dmc (x := s) rfl ?_
  exact Keeps.refl

theorem State.eccFree_keeps (s : State) : Keeps [.freeCtr] s (State.eccFree s).2 := by
  unfold State.eccFree
  split
  · rename_i _ st2 e3
    have hst2 : Keeps [.freeCtr] s st2 := by
      refine Keeps.snd e3 ?_
      refine Keeps.next (State.free_keeps ..) rfl ?_
      exact Keeps.refl
    show Keeps _ _ _
    exact hst2

theorem State.uncorrectable_keeps (s : State) (d : ℕ) (req : ℕ) (sl : ℕ) (rmw : Bool) : Keeps [.cells, .hif, .wld,
    .cic, .emits] s (State.uncorrectable s d req sl rmw) := by
  unfold State.uncorrectable
  show let r6 := _; Keeps _ _ r6
  intro r6
  extract_lets -descend +onlyGivenNames st7 at r6
  have hst7 : Keeps [.cells, .hif, .wld, .cic, .emits] s st7 := by
    subst st7
    refine Keeps.next (State.count_keeps ..) rfl ?_
    exact Keeps.refl
  try clear_value st7
  extract_lets -descend +onlyGivenNames st8 at r6
  have hst8 : Keeps [.cells, .hif, .wld, .cic, .emits] s st8 := by
    subst st8
    refine Keeps.next (State.count_keeps ..) rfl ?_
    exact hst7
  try clear_value st8
  extract_lets -descend +onlyGivenNames st9 at r6
  have hst9 : Keeps [.cells, .hif, .wld, .cic, .emits] s st9 := by
    subst st9
    refine Keeps.ite ?_ ?_
    · exact hst8
    · show let r10 := _; Keeps _ _ r10
      intro r10
      extract_lets -descend +onlyGivenNames st11 at r10
      have hst11 : Keeps [.cells, .hif, .wld, .cic, .emits] s st11 := by
        subst st11
        refine Keeps.next (State.wrN_keeps ..) rfl ?_
        exact hst8
      try clear_value st11
      subst r10
      refine Keeps.next (State.wrN_keeps ..) rfl ?_
      exact hst11
  try clear_value st9
  subst r6
  refine Keeps.next (State.event_keeps ..) rfl ?_
  exact hst9

theorem State.enqueueBlock_keeps (s : State) (d : ℕ) : Keeps [.dmc] s (State.enqueueBlock s d) := by
  unfold State.enqueueBlock
  refine Keeps.ite ?_ ?_
  · exact Keeps.refl
  · show let r3 := _; Keeps _ _ r3
    intro r3
    extract_lets -descend +onlyGivenNames v4 at r3
    extract_lets -descend +onlyGivenNames v5 at r3
    subst r3
    refine Keeps.set_dmc (x := s) rfl ?_
    exact Keeps.refl

theorem State.corrected_keeps (s : State) (d : ℕ) : Keeps [.cells, .hif, .wld, .cic, .emits] s (State.corrected s d)
    := by
  unfold State.corrected
  show let r3 := _; Keeps _ _ r3
  intro r3
  extract_lets -descend +onlyGivenNames st4 at r3
  have hst4 : Keeps [.cells, .hif, .wld, .cic, .emits] s st4 := by
    subst st4
    refine Keeps.next (State.count_keeps ..) rfl ?_
    exact Keeps.refl
  try clear_value st4
  extract_lets -descend +onlyGivenNames st5 at r3
  have hst5 : Keeps [.cells, .hif, .wld, .cic, .emits] s st5 := by
    subst st5
    refine Keeps.next (State.count_keeps ..) rfl ?_
    exact hst4
  try clear_value st5
  extract_lets -descend +onlyGivenNames v6 at r3
  subst r3
  refine Keeps.ite ?_ ?_
  · refine Keeps.next (State.event_keeps ..) rfl ?_
    exact hst5
  · exact hst5

theorem State.readBlock_keeps (s : State) (d : ℕ) (req : ℕ) (sl : ℕ) (rmw : Bool) (res : EccRes) : Keeps [.cells,
    .hif, .wld, .cic, .dmc, .emits] s (State.readBlock s d req sl rmw res).2 := by
  unfold State.readBlock
  show let r7 := _; Keeps _ _ (Prod.snd r7)
  intro r7
  extract_lets -descend +onlyGivenNames st8 at r7
  have hst8 : Keeps [.cells, .hif, .wld, .cic, .dmc, .emits] s st8 := by
    subst st8
    refine Keeps.next (State.activate_keeps ..) rfl ?_
    exact Keeps.refl
  try clear_value st8
  subst r7
  refine Keeps.ite2 ?_ ?_
  · show Keeps _ _ _
    refine Keeps.next (State.uncorrectable_keeps ..) rfl ?_
    refine Keeps.next (State.setMark_keeps ..) rfl ?_
    exact hst8
  · refine Keeps.ite2 ?_ ?_
    · show Keeps _ _ _
      refine Keeps.next (State.enqueueBlock_keeps ..) rfl ?_
      refine Keeps.next (State.setMark_keeps ..) rfl ?_
      refine Keeps.next (State.corrected_keeps ..) rfl ?_
      exact hst8
    · show Keeps _ _ _
      exact hst8

theorem State.writeBlock_keeps (s : State) (d : ℕ) (full : Bool) (req : ℕ) (sl : ℕ) : Keeps [.cells, .hif, .wld,
    .cic, .dmc, .freeCtr, .emits] s (State.writeBlock s d full req sl) := by
  unfold State.writeBlock
  show let r6 := _; Keeps _ _ r6
  intro r6
  extract_lets -descend +onlyGivenNames st7 at r6
  have hst7 : Keeps [.cells, .hif, .wld, .cic, .dmc, .freeCtr, .emits] s st7 := by
    subst st7
    refine Keeps.ite ?_ ?_
    · refine Keeps.next (State.setMark_keeps ..) rfl ?_
      refine Keeps.next (State.activate_keeps ..) rfl ?_
      exact Keeps.refl
    · split
      · rename_i _ st8 e9
        have hst8 : Keeps [.cells, .hif, .wld, .cic, .dmc, .freeCtr, .emits] s st8 := by
          refine Keeps.snd e9 ?_
          refine Keeps.next (State.eccFree_keeps ..) rfl ?_
          exact Keeps.refl
        refine Keeps.next (State.readBlock_keeps ..) rfl ?_
        exact hst8
  try clear_value st7
  extract_lets -descend +onlyGivenNames st10 at r6
  have hst10 : Keeps [.cells, .hif, .wld, .cic, .dmc, .freeCtr, .emits] s st10 := by
    subst st10
    refine Keeps.ite ?_ ?_
    · show let r11 := _; Keeps _ _ r11
      intro r11
      extract_lets -descend +onlyGivenNames v12 at r11
      subst r11
      refine Keeps.next (State.clrF_keeps ..) rfl ?_
      refine Keeps.next (State.setMark_keeps ..) rfl ?_
      exact hst7
    · exact hst7
  try clear_value st10
  subst r6
  refine Keeps.next (State.enqueueBlock_keeps ..) rfl ?_
  exact hst10

theorem State.dramStore_keeps (s : State) (a : ℕ) (data : List Byte) (req : ℕ) (sl : ℕ) : Keeps [.cells, .hif, .wld,
    .cic, .dmc, .mem, .freeCtr, .emits] s (State.dramStore s a data req sl) := by
  unfold State.dramStore
  show let r6 := _; Keeps _ _ r6
  intro r6
  extract_lets -descend +onlyGivenNames st7 at r6
  have hst7 : Keeps [.cells, .hif, .wld, .cic, .dmc, .mem, .freeCtr, .emits] s st7 := by
    subst st7
    refine Keeps.each (fun st8 x9 => ?_) ?_
    · refine Keeps.next (State.writeBlock_keeps ..) rfl ?_
      exact Keeps.refl
    · exact Keeps.refl
  try clear_value st7
  subst r6
  refine Keeps.set_mem (x := st7) rfl Mems.wf_dram ?_
  exact hst7

theorem State.mirrorDram_keeps (a : Nat) (w : Bool) (n : Nat) (l : List Byte) (s : State) :
    Keeps [.pair, .emits] s (State.mirrorDram a w n l s) := by
  induction n generalizing a l s with
  | zero => exact Keeps.refl
  | succ n ih =>
    unfold State.mirrorDram
    split
    · exact Keeps.refl
    · exact Keeps.refl
    · rename_i k _ _ hk _
      cases hk
      refine Keeps.next (ih ..) rfl ?_
      refine Keeps.next (State.mirror_keeps ..) rfl ?_
      exact Keeps.refl

theorem State.dramWrite_keeps (s : State) (a : ℕ) (data : List Byte) (req : ℕ) (sl : ℕ) (world1 : Bool) : Keeps
    [.cells, .hif, .wld, .cic, .dmc, .pair, .mem, .freeCtr, .emits] s (State.dramWrite s a data req sl world1) := by
  unfold State.dramWrite
  show let r7 := _; Keeps _ _ r7
  intro r7
  extract_lets -descend +onlyGivenNames st8 at r7
  have hst8 : Keeps [.cells, .hif, .wld, .cic, .dmc, .pair, .mem, .freeCtr, .emits] s st8 := by
    subst st8
    refine Keeps.next (State.dramStore_keeps ..) rfl ?_
    exact Keeps.refl
  try clear_value st8
  subst r7
  refine Keeps.ite ?_ ?_
  · refine Keeps.next (State.mirrorDram_keeps ..) rfl ?_
    exact hst8
  · exact hst8

theorem State.coreDramWrite_keeps (s : State) (c : ℕ) (a : ℕ) (data : List Byte) (world1 : Bool) : Keeps [.cells,
    .hif, .wld, .cic, .dmc, .pair, .mem, .freeCtr, .emits] s (State.coreDramWrite s c a data world1) := by
  unfold State.coreDramWrite
  refine Keeps.ite ?_ ?_
  · exact Keeps.refl
  · refine Keeps.next (State.dramWrite_keeps ..) rfl ?_
    exact Keeps.refl

theorem State.writeBack_keeps (s : State) (l : Line) : Keeps [.cells, .hif, .wld, .cic, .dmc, .pair, .mem, .freeCtr,
    .emits] s (State.writeBack s l) := by
  unfold State.writeBack
  refine Keeps.ite ?_ ?_
  · exact Keeps.refl
  · show let r3 := _; Keeps _ _ r3
    intro r3
    extract_lets -descend +onlyGivenNames v4 at r3
    extract_lets -descend +onlyGivenNames st5 at r3
    have hst5 : Keeps [.cells, .hif, .wld, .cic, .dmc, .pair, .mem, .freeCtr, .emits] s st5 := by
      subst st5
      refine Keeps.ite ?_ ?_
      · refine Keeps.set_wld (x := s) rfl id ?_
        exact Keeps.refl
      · refine Keeps.next (State.coreDramWrite_keeps ..) rfl ?_
        exact Keeps.refl
    try clear_value st5
    subst r3
    refine Keeps.set_wld (x := st5) rfl id ?_
    exact hst5

theorem State.cleanLines_keeps (s : State) (p : Line → Bool) : Keeps [.cells, .hif, .wld, .cic, .dmc, .pair, .mem,
    .freeCtr, .emits] s (State.cleanLines s p) := by
  unfold State.cleanLines
  refine Keeps.each (fun st3 x4 => ?_) ?_
  · refine Keeps.next (State.writeBack_keeps ..) rfl ?_
    exact Keeps.refl
  · exact Keeps.refl

theorem State.dropLines_keeps (s : State) (p : Line → Bool) : Keeps [.wld] s (State.dropLines s p) := by
  unfold State.dropLines
  refine Keeps.set_wld (x := s) rfl id ?_
  exact Keeps.refl

theorem State.dropCapstones_keeps (s : State) : Keeps [.cells, .hif, .cmds, .haul, .outs, .pair, .emits] s
    (State.dropCapstones s) := by
  unfold State.dropCapstones
  show let r2 := _; Keeps _ _ r2
  intro r2
  extract_lets -descend +onlyGivenNames st3 at r2
  have hst3 : Keeps [.cells, .hif, .cmds, .haul, .outs, .pair, .emits] s st3 := by
    subst st3
    refine Keeps.each (fun st4 x5 => ?_) ?_
    · show let r6 := _; Keeps _ _ r6
      intro r6
      extract_lets -descend +onlyGivenNames st7 at r6
      have hst7 : Keeps [.cells, .hif, .cmds, .haul, .outs, .pair, .emits] st4 st7 := by
        subst st7
        refine Keeps.next (State.endCommits_keeps ..) rfl ?_
        exact Keeps.refl
      try clear_value st7
      subst r6
      refine Keeps.ite ?_ ?_
      · refine Keeps.next (State.updOut_keeps ..) rfl ?_
        exact hst7
      · exact hst7
    · exact Keeps.refl
  try clear_value st3
  extract_lets -descend +onlyGivenNames st8 at r2
  have hst8 : Keeps [.cells, .hif, .cmds, .haul, .outs, .pair, .emits] s st8 := by
    subst st8
    refine Keeps.each (fun st9 x10 => ?_) ?_
    · refine Keeps.ite ?_ ?_
      · refine Keeps.next (State.clrF_keeps ..) rfl ?_
        exact Keeps.refl
      · exact Keeps.refl
    · exact hst3
  try clear_value st8
  subst r2
  refine Keeps.next (State.shedPass_keeps ..) rfl ?_
  exact hst8

theorem State.worldQuiet_keeps (s : State) : Keeps [.cells, .hif, .cmds, .haul, .outs, .cvu, .tch, .hap, .wld, .cic,
    .dmc, .pair, .mem, .freeCtr, .emits] s (State.worldQuiet s) := by
  unfold State.worldQuiet
  show let r2 := _; Keeps _ _ r2
  intro r2
  extract_lets -descend +onlyGivenNames st3 at r2
  have hst3 : Keeps [.cells, .hif, .cmds, .haul, .outs, .cvu, .tch, .hap, .wld, .cic, .dmc, .pair, .mem, .freeCtr,
      .emits] s st3 := by
    subst st3
    refine Keeps.next (State.abortMailbox_keeps ..) rfl ?_
    refine Keeps.next (State.dropToken_keeps ..) rfl ?_
    exact Keeps.refl
  try clear_value st3
  extract_lets -descend +onlyGivenNames st4 at r2
  have hst4 : Keeps [.cells, .hif, .cmds, .haul, .outs, .cvu, .tch, .hap, .wld, .cic, .dmc, .pair, .mem, .freeCtr,
      .emits] s st4 := by
    subst st4
    refine Keeps.each (fun st5 x6 => ?_) ?_
    · refine Keeps.ite ?_ ?_
      · refine Keeps.next (State.setSrc_keeps ..) rfl ?_
        exact Keeps.refl
      · exact Keeps.refl
    · exact hst3
  try clear_value st4
  extract_lets -descend +onlyGivenNames st7 at r2
  have hst7 : Keeps [.cells, .hif, .cmds, .haul, .outs, .cvu, .tch, .hap, .wld, .cic, .dmc, .pair, .mem, .freeCtr,
      .emits] s st7 := by
    subst st7
    refine Keeps.each (fun st8 x9 => ?_) ?_
    · refine Keeps.next (State.updCore_keeps ..) rfl ?_
      exact Keeps.refl
    · exact hst4
  try clear_value st7
  extract_lets -descend +onlyGivenNames st10 at r2
  have hst10 : Keeps [.cells, .hif, .cmds, .haul, .outs, .cvu, .tch, .hap, .wld, .cic, .dmc, .pair, .mem, .freeCtr,
      .emits] s st10 := by
    subst st10
    refine Keeps.next (State.cleanLines_keeps ..) rfl ?_
    exact hst7
  try clear_value st10
  extract_lets -descend +onlyGivenNames st11 at r2
  have hst11 : Keeps [.cells, .hif, .cmds, .haul, .outs, .cvu, .tch, .hap, .wld, .cic, .dmc, .pair, .mem, .freeCtr,
      .emits] s st11 := by
    subst st11
    refine Keeps.next (State.dropLines_keeps ..) rfl ?_
    exact hst10
  try clear_value st11
  extract_lets -descend +onlyGivenNames st12 at r2
  have hst12 : Keeps [.cells, .hif, .cmds, .haul, .outs, .cvu, .tch, .hap, .wld, .cic, .dmc, .pair, .mem, .freeCtr,
      .emits] s st12 := by
    subst st12
    refine Keeps.each (fun st13 x14 => ?_) ?_
    · refine Keeps.next (State.cvReset_keeps ..) rfl ?_
      exact Keeps.refl
    · exact hst11
  try clear_value st12
  extract_lets -descend +onlyGivenNames st15 at r2
  have hst15 : Keeps [.cells, .hif, .cmds, .haul, .outs, .cvu, .tch, .hap, .wld, .cic, .dmc, .pair, .mem, .freeCtr,
      .emits] s st15 := by
    subst st15
    refine Keeps.next (State.dropCapstones_keeps ..) rfl ?_
    exact hst12
  try clear_value st15
  subst r2
  refine Keeps.each (fun st16 x17 => ?_) ?_
  · refine Keeps.next (State.withdrawHaptic_keeps ..) rfl ?_
    refine Keeps.next (State.orphan_keeps ..) rfl ?_
    exact Keeps.refl
  · exact hst15

theorem State.worldReset_keeps (s : State) (cause : ℕ) : Keeps [.cells, .hif, .cmds, .haul, .outs, .cvu, .tch, .hap,
    .wld, .cic, .dmc, .pair, .mem, .freeCtr, .emits] s (State.worldReset s cause) := by
  unfold State.worldReset
  refine Keeps.next (State.pwChanged_keeps ..) rfl ?_
  refine Keeps.next (State.noteWorldReset_keeps ..) rfl ?_
  refine Keeps.next (State.worldRegs_keeps ..) rfl ?_
  refine Keeps.next (State.worldQuiet_keeps ..) rfl ?_
  exact Keeps.refl

theorem writePwCtrl_keeps (v : Word) (s : State) : Keeps Field.list s (writePwCtrl v s) := by
  unfold writePwCtrl
  show let r3 := _; Keeps _ _ r3
  intro r3
  extract_lets -descend +onlyGivenNames st4 at r3
  have hst4 : Keeps Field.list s st4 := by
    subst st4
    refine Keeps.next (State.pwCtrl_keeps ..) rfl ?_
    exact Keeps.refl
  try clear_value st4
  subst r3
  refine Keeps.next (State.settleNotice_keeps ..) rfl ?_
  refine Keeps.ite ?_ ?_
  · refine Keeps.next (State.worldReset_keeps ..) rfl ?_
    exact hst4
  · exact hst4

theorem doWorldKick_keeps (v : Word) (s : State) : Keeps [.wld] s (doWorldKick v s) := by
  unfold doWorldKick
  refine Keeps.ite ?_ ?_
  · refine Keeps.next (State.startWorldDog_keeps ..) rfl ?_
    exact Keeps.refl
  · exact Keeps.refl

end Sys2Proof.Machine
end

