-- ==== Sys2Proof/Laws/Frame5.lean ====
section
/-!
SUPPORT. What each operation of the machine keeps (part 5 of 9): the parts of State that it may change are listed, every other
part stays, the queue stays, and no table leaves its canonical form.
-/

namespace Sys2Proof.Machine

theorem doCacheWays_keeps (v : Word) (s : State) : Keeps [.cells, .hif, .wld, .cic, .dmc, .pair, .mem, .freeCtr,
    .emits] s (doCacheWays v s) := by
  unfold doCacheWays
  show let r3 := _; Keeps _ _ r3
  intro r3
  extract_lets -descend +onlyGivenNames v4 at r3
  extract_lets -descend +onlyGivenNames v5 at r3
  extract_lets -descend +onlyGivenNames v6 at r3
  subst r3
  refine Keeps.next (State.wr_keeps ..) rfl ?_
  refine Keeps.next (State.dropLines_keeps ..) rfl ?_
  refine Keeps.next (State.cleanLines_keeps ..) rfl ?_
  exact Keeps.refl

theorem doGuardWrite_keeps (size : Bool) (v : Word) (s : State) : Keeps [.cells] s (doGuardWrite size v s) := by
  unfold doGuardWrite
  show let r4 := _; Keeps _ _ r4
  intro r4
  extract_lets -descend +onlyGivenNames v5 at r4
  extract_lets -descend +onlyGivenNames v6 at r4
  subst r4
  refine Keeps.ite ?_ ?_
  · refine Keeps.ite ?_ ?_
    · refine Keeps.next (State.wr_keeps ..) rfl ?_
      exact Keeps.refl
    · refine Keeps.next (State.wr_keeps ..) rfl ?_
      exact Keeps.refl
  · exact Keeps.refl

theorem doGateEntry_keeps (v : Word) (s : State) : Keeps [.cells] s (doGateEntry v s) := by
  unfold doGateEntry
  show let r3 := _; Keeps _ _ r3
  intro r3
  extract_lets -descend +onlyGivenNames v4 at r3
  subst r3
  refine Keeps.next (State.put_keeps ..) rfl ?_
  refine Keeps.next (State.wr_keeps ..) rfl ?_
  exact Keeps.refl

theorem State.edge_keeps (s : State) (n : ℕ) : Keeps [.wld, .cic] s (State.edge s n) := by
  unfold State.edge
  refine Keeps.next (State.wake_keeps ..) rfl ?_
  refine Keeps.next (State.setSrc_keeps ..) rfl ?_
  exact Keeps.refl

theorem State.mboxAdvance_keeps (s : State) : Keeps [.cells] s (State.mboxAdvance s) := by
  unfold State.mboxAdvance
  refine Keeps.next (State.put_keeps ..) rfl ?_
  exact Keeps.refl

theorem doMboxWrite_keeps (v : Word) (s : State) : Keeps [.cells, .wld, .cic] s (doMboxWrite v s) := by
  unfold doMboxWrite
  split
  · show let r3 := _; Keeps _ _ r3
    intro r3
    extract_lets -descend +onlyGivenNames st4 at r3
    have hst4 : Keeps [.cells, .wld, .cic] s st4 := by
      subst st4
      refine Keeps.ite ?_ ?_
      · refine Keeps.ite ?_ ?_
        · refine Keeps.next (State.edge_keeps ..) rfl ?_
          refine Keeps.next (State.setSlot_keeps ..) rfl ?_
          exact Keeps.refl
        · exact Keeps.refl
      · refine Keeps.ite ?_ ?_
        · refine Keeps.next (State.wr_keeps ..) rfl ?_
          exact Keeps.refl
        · exact Keeps.refl
    try clear_value st4
    subst r3
    refine Keeps.next (State.mboxAdvance_keeps ..) rfl ?_
    exact hst4

theorem State.assign_keeps (s : State) (ty : ℕ) (inst : ℕ) : Keeps [.cells, .wld, .cic, .clk] s (State.assign s ty
    inst) := by
  unfold State.assign
  show let r4 := _; Keeps _ _ r4
  intro r4
  extract_lets -descend +onlyGivenNames v5 at r4
  extract_lets -descend +onlyGivenNames st6 at r4
  have hst6 : Keeps [.cells, .wld, .cic, .clk] s st6 := by
    subst st6
    refine Keeps.next (State.put_keeps ..) rfl ?_
    refine Keeps.next (State.wrN_keeps ..) rfl ?_
    exact Keeps.refl
  try clear_value st6
  subst r4
  split
  · exact hst6
  · refine Keeps.next (State.put_keeps ..) rfl ?_
    refine Keeps.next (State.openGate_keeps ..) rfl ?_
    exact hst6

theorem doAssign_keeps (v : Word) (s : State) : Keeps [.cells, .wld, .cic, .clk] s (doAssign v s) := by
  unfold doAssign
  show let r3 := _; Keeps _ _ r3
  intro r3
  extract_lets -descend +onlyGivenNames v4 at r3
  extract_lets -descend +onlyGivenNames v5 at r3
  extract_lets -descend +onlyGivenNames st6 at r3
  have hst6 : Keeps [.cells, .wld, .cic, .clk] s st6 := by
    subst st6
    refine Keeps.ite ?_ ?_
    · refine Keeps.next (State.clrF_keeps ..) rfl ?_
      exact Keeps.refl
    · exact Keeps.refl
  try clear_value st6
  subst r3
  refine Keeps.ite ?_ ?_
  · exact hst6
  · show let r7 := _; Keeps _ _ r7
    intro r7
    extract_lets -descend +onlyGivenNames v8 at r7
    subst r7
    refine Keeps.ite ?_ ?_
    · refine Keeps.next (State.assign_keeps ..) rfl ?_
      exact hst6
    · refine Keeps.next (State.setF_keeps ..) rfl ?_
      exact hst6

theorem doPwrNotice_keeps (v : Word) (s : State) : Keeps Field.list s (doPwrNotice v s) := by
  unfold doPwrNotice
  refine Keeps.ite ?_ ?_
  · refine Keeps.next (State.endNotice_keeps ..) rfl ?_
    refine Keeps.next (State.setF_keeps ..) rfl ?_
    exact Keeps.refl
  · exact Keeps.refl

theorem doSrcWorld_keeps (i : ℕ) (v : Word) (s : State) : Keeps [.cells, .wld] s (doSrcWorld i v s) := by
  unfold doSrcWorld
  refine Keeps.ite ?_ ?_
  · exact Keeps.refl
  · refine Keeps.next (State.wake_keeps ..) rfl ?_
    refine Keeps.next (State.wr_keeps ..) rfl ?_
    exact Keeps.refl

theorem writeWldReg_keeps (p : ℕ) (off : ℕ) (v : Word) (s : State) : Keeps Field.list s (writeWldReg p off v s) := by
  unfold writeWldReg
  split
  · refine Keeps.next (writePwCtrl_keeps ..) rfl ?_
    exact Keeps.refl
  · refine Keeps.next (doWorldKick_keeps ..) rfl ?_
    exact Keeps.refl
  · refine Keeps.next (doCacheWays_keeps ..) rfl ?_
    exact Keeps.refl
  · refine Keeps.next (doGuardWrite_keeps ..) rfl ?_
    exact Keeps.refl
  · refine Keeps.next (doGuardWrite_keeps ..) rfl ?_
    exact Keeps.refl
  · refine Keeps.next (doGateEntry_keeps ..) rfl ?_
    exact Keeps.refl
  · refine Keeps.next (doMboxWrite_keeps ..) rfl ?_
    exact Keeps.refl
  · refine Keeps.next (doAssign_keeps ..) rfl ?_
    exact Keeps.refl
  · refine Keeps.next (doPwrNotice_keeps ..) rfl ?_
    exact Keeps.refl
  · refine Keeps.ite ?_ ?_
    · refine Keeps.next (doSrcWorld_keeps ..) rfl ?_
      exact Keeps.refl
    · refine Keeps.next (State.plainWrite_keeps ..) rfl ?_
      exact Keeps.refl

theorem State.srcAdvance_keeps (s : State) : Keeps [.cells] s (State.srcAdvance s) := by
  unfold State.srcAdvance
  refine Keeps.next (State.put_keeps ..) rfl ?_
  exact Keeps.refl

theorem doSrcCfg_keeps (r : Req) (v : Word) (s : State) : Keeps [.cells, .hif, .wld, .cic, .emits] s (doSrcCfg r v
    s) := by
  unfold doSrcCfg
  show let r4 := _; Keeps _ _ r4
  intro r4
  extract_lets -descend +onlyGivenNames v5 at r4
  extract_lets -descend +onlyGivenNames st6 at r4
  have hst6 : Keeps [.cells, .hif, .wld, .cic, .emits] s st6 := by
    subst st6
    refine Keeps.ite ?_ ?_
    · refine Keeps.next (State.xwDenied_keeps ..) rfl ?_
      exact Keeps.refl
    · refine Keeps.next (State.wake_keeps ..) rfl ?_
      refine Keeps.next (State.setSrc_keeps ..) rfl ?_
      exact Keeps.refl
  try clear_value st6
  subst r4
  refine Keeps.next (State.srcAdvance_keeps ..) rfl ?_
  exact hst6

theorem doComplete_keeps (r : Req) (v : Word) (s : State) : Keeps [.cells, .wld, .cic] s (doComplete r v s) := by
  unfold doComplete
  split
  · exact Keeps.refl
  · show let r4 := _; Keeps _ _ r4
    intro r4
    extract_lets -descend +onlyGivenNames v5 at r4
    extract_lets -descend +onlyGivenNames v6 at r4
    subst r4
    refine Keeps.ite ?_ ?_
    · refine Keeps.next (State.wake_keeps ..) rfl ?_
      refine Keeps.next (State.setSrc_keeps ..) rfl ?_
      exact Keeps.refl
    · refine Keeps.next (State.count_keeps ..) rfl ?_
      exact Keeps.refl

theorem doThresh_keeps (r : Req) (n : ℕ) (v : Word) (s : State) : Keeps [.cells, .wld] s (doThresh r n v s) := by
  unfold doThresh
  show let r5 := _; Keeps _ _ r5
  intro r5
  extract_lets -descend +onlyGivenNames st6 at r5
  have hst6 : Keeps [.cells, .wld] s st6 := by
    subst st6
    refine Keeps.next (State.put_keeps ..) rfl ?_
    exact Keeps.refl
  try clear_value st6
  extract_lets -descend +onlyGivenNames st7 at r5
  have hst7 : Keeps [.cells, .wld] s st7 := by
    subst st7
    refine Keeps.ite ?_ ?_
    · refine Keeps.next (State.put_keeps ..) rfl ?_
      exact hst6
    · exact hst6
  try clear_value st7
  subst r5
  refine Keeps.next (State.wake_keeps ..) rfl ?_
  exact hst7

theorem doSwi_keeps (v : Word) (s : State) : Keeps [.wld, .cic] s (doSwi v s) := by
  unfold doSwi
  refine Keeps.each (fun st3 x4 => ?_) ?_
  · refine Keeps.ite ?_ ?_
    · refine Keeps.next (State.edge_keeps ..) rfl ?_
      exact Keeps.refl
    · exact Keeps.refl
  · exact Keeps.refl

theorem doTimerLow_keeps (n : ℕ) (v : Word) (s : State) : Keeps [.cells] s (doTimerLow n v s) := by
  unfold doTimerLow
  refine Keeps.next (State.wr_keeps ..) rfl ?_
  exact Keeps.refl

theorem State.syncTimer_keeps (s : State) (n : ℕ) : Keeps [.wld, .cic] s (State.syncTimer s n) := by
  unfold State.syncTimer
  refine Keeps.next (State.setInput_keeps ..) rfl ?_
  exact Keeps.refl

theorem doTimerCompare_keeps (n : ℕ) (v : Word) (s : State) : Keeps [.cells, .wld, .cic] s (doTimerCompare n v s) := by
  unfold doTimerCompare
  show let r4 := _; Keeps _ _ r4
  intro r4
  extract_lets -descend +onlyGivenNames st5 at r4
  have hst5 : Keeps [.cells, .wld, .cic] s st5 := by
    subst st5
    refine Keeps.next (State.wr_keeps ..) rfl ?_
    exact Keeps.refl
  try clear_value st5
  extract_lets -descend +onlyGivenNames v6 at r4
  subst r4
  refine Keeps.next (State.syncTimer_keeps ..) rfl ?_
  refine Keeps.set_cic (x := st5) rfl id ?_
  exact hst5

theorem writeCicReg_keeps (r : Req) (p : ℕ) (off : ℕ) (v : Word) (s : State) : Keeps [.cells, .hif, .wld, .cic,
    .emits] s (writeCicReg r p off v s) := by
  unfold writeCicReg
  refine Keeps.ite ?_ ?_
  · refine Keeps.ite ?_ ?_
    · refine Keeps.next (doSrcCfg_keeps ..) rfl ?_
      exact Keeps.refl
    · refine Keeps.next (State.plainWrite_keeps ..) rfl ?_
      exact Keeps.refl
  · refine Keeps.ite ?_ ?_
    · refine Keeps.next (doComplete_keeps ..) rfl ?_
      exact Keeps.refl
    · refine Keeps.ite ?_ ?_
      · refine Keeps.next (doThresh_keeps ..) rfl ?_
        exact Keeps.refl
      · refine Keeps.ite ?_ ?_
        · refine Keeps.next (doSwi_keeps ..) rfl ?_
          exact Keeps.refl
        · refine Keeps.ite ?_ ?_
          · refine Keeps.ite ?_ ?_
            · refine Keeps.next (doTimerLow_keeps ..) rfl ?_
              exact Keeps.refl
            · refine Keeps.next (doTimerCompare_keeps ..) rfl ?_
              exact Keeps.refl
          · refine Keeps.next (State.plainWrite_keeps ..) rfl ?_
            exact Keeps.refl

theorem doDmcCtrl_keeps (v : Word) (s : State) : Keeps [.cells, .outs, .dmc, .reductions, .pair, .pwr, .emits] s
    (doDmcCtrl v s) := by
  unfold doDmcCtrl
  show let r3 := _; Keeps _ _ r3
  intro r3
  extract_lets -descend +onlyGivenNames v4 at r3
  extract_lets -descend +onlyGivenNames st5 at r3
  have hst5 : Keeps [.cells, .outs, .dmc, .reductions, .pair, .pwr, .emits] s st5 := by
    subst st5
    refine Keeps.next (State.put_keeps ..) rfl ?_
    refine Keeps.next (State.plainWrite_keeps ..) rfl ?_
    exact Keeps.refl
  try clear_value st5
  extract_lets -descend +onlyGivenNames v6 at r3
  subst r3
  refine Keeps.ite ?_ ?_
  · exact hst5
  · split
    · refine Keeps.set_pwr (x := st5) rfl ?_
      exact hst5
    · refine Keeps.next (State.setPoint_keeps ..) rfl ?_
      exact hst5

theorem doDmcWq_keeps (v : Word) (s : State) : Keeps [.cells] s (doDmcWq v s) := by
  unfold doDmcWq
  refine Keeps.ite ?_ ?_
  · refine Keeps.next (State.plainWrite_keeps ..) rfl ?_
    exact Keeps.refl
  · exact Keeps.refl

theorem doEccInject_keeps (r : Req) (v : Word) (s : State) : Keeps [.cells] s (doEccInject r v s) := by
  unfold doEccInject
  refine Keeps.ite ?_ ?_
  · refine Keeps.next (State.plainWrite_keeps ..) rfl ?_
    exact Keeps.refl
  · exact Keeps.refl

theorem doDmcHash_keeps (i : ℕ) (v : Word) (s : State) : Keeps [.cells] s (doDmcHash i v s) := by
  unfold doDmcHash
  refine Keeps.ite ?_ ?_
  · exact Keeps.refl
  · refine Keeps.next (State.plainWrite_keeps ..) rfl ?_
    exact Keeps.refl

theorem writeDmcReg_keeps (r : Req) (off : ℕ) (v : Word) (s : State) : Keeps [.cells, .outs, .dmc, .reductions,
    .pair, .pwr, .emits] s (writeDmcReg r off v s) := by
  unfold writeDmcReg
  split
  · refine Keeps.next (doDmcCtrl_keeps ..) rfl ?_
    exact Keeps.refl
  · refine Keeps.next (doDmcWq_keeps ..) rfl ?_
    exact Keeps.refl
  · refine Keeps.next (doEccInject_keeps ..) rfl ?_
    exact Keeps.refl
  · refine Keeps.ite ?_ ?_
    · refine Keeps.next (doDmcHash_keeps ..) rfl ?_
      exact Keeps.refl
    · refine Keeps.next (State.plainWrite_keeps ..) rfl ?_
      exact Keeps.refl

theorem State.askFeed_keeps (s : State) (o : ℕ) (t : ℕ) (mine : Bool) : Keeps [.cells, .hif, .wld, .cic, .pair,
    .emits] s (State.askFeed s o t mine) := by
  unfold State.askFeed
  refine Keeps.ite ?_ ?_
  · refine Keeps.next (State.updPair_keeps ..) rfl ?_
    exact Keeps.refl
  · refine Keeps.next (State.event_keeps ..) rfl ?_
    refine Keeps.next (State.updPair_keeps ..) rfl ?_
    exact Keeps.refl

theorem State.startHandover_keeps (s : State) (fault : Bool) (modEn : Bool) : Keeps [.cells, .hif, .wld, .cic,
    .pair, .emits] s (State.startHandover s fault modEn) := by
  unfold State.startHandover
  refine Keeps.ite ?_ ?_
  · show let r4 := _; Keeps _ _ r4
    intro r4
    extract_lets -descend +onlyGivenNames v5 at r4
    extract_lets -descend +onlyGivenNames st6 at r4
    have hst6 : Keeps [.cells, .hif, .wld, .cic, .pair, .emits] s st6 := by
      subst st6
      refine Keeps.next (State.updPair_keeps ..) rfl ?_
      exact Keeps.refl
    try clear_value st6
    extract_lets -descend +onlyGivenNames st7 at r4
    have hst7 : Keeps [.cells, .hif, .wld, .cic, .pair, .emits] s st7 := by
      subst st7
      refine Keeps.next (State.setF_keeps ..) rfl ?_
      exact hst6
    try clear_value st7
    extract_lets -descend +onlyGivenNames st8 at r4
    have hst8 : Keeps [.cells, .hif, .wld, .cic, .pair, .emits] s st8 := by
      subst st8
      refine Keeps.ite ?_ ?_
      · refine Keeps.next (State.send_keeps ..) rfl ?_
        exact hst7
      · exact hst7
    try clear_value st8
    extract_lets -descend +onlyGivenNames st9 at r4
    have hst9 : Keeps [.cells, .hif, .wld, .cic, .pair, .emits] s st9 := by
      subst st9
      refine Keeps.next (State.send_keeps ..) rfl ?_
      exact hst8
    try clear_value st9
    subst r4
    refine Keeps.each (fun st10 x11 => ?_) ?_
    · refine Keeps.next (State.askFeed_keeps ..) rfl ?_
      exact Keeps.refl
    · exact hst9
  · refine Keeps.ite ?_ ?_
    · refine Keeps.next (State.updPair_keeps ..) rfl ?_
      exact Keeps.refl
    · refine Keeps.next (State.setF_keeps ..) rfl ?_
      exact Keeps.refl

theorem State.moveFeed_keeps (s : State) (o : ℕ) (t : ℕ) (mine : Bool) : Keeps [.cells, .hif, .wld, .cic, .pair,
    .emits] s (State.moveFeed s o t mine) := by
  unfold State.moveFeed
  show let r5 := _; Keeps _ _ r5
  intro r5
  extract_lets -descend +onlyGivenNames v6 at r5
  subst r5
  refine Keeps.next (State.put_keeps ..) rfl ?_
  refine Keeps.next (State.askFeed_keeps ..) rfl ?_
  exact Keeps.refl

theorem State.feedHome_keeps (s : State) : Keeps [.cells, .hif, .wld, .cic, .pair, .emits] s (State.feedHome s) := by
  unfold State.feedHome
  refine Keeps.ite ?_ ?_
  · exact Keeps.refl
  · show let r2 := _; Keeps _ _ r2
    intro r2
    extract_lets -descend +onlyGivenNames v3 at r2
    extract_lets -descend +onlyGivenNames st4 at r2
    have hst4 : Keeps [.cells, .hif, .wld, .cic, .pair, .emits] s st4 := by
      subst st4
      refine Keeps.next (State.setF_keeps ..) rfl ?_
      exact Keeps.refl
    try clear_value st4
    subst r2
    refine Keeps.each (fun st5 x6 => ?_) ?_
    · refine Keeps.next (State.send_keeps ..) rfl ?_
      refine Keeps.next (State.moveFeed_keeps ..) rfl ?_
      exact Keeps.refl
    · exact hst4

theorem writePairCtrl_keeps (v : Word) (s : State) : Keeps [.cells, .hif, .wld, .cic, .pair, .emits] s
    (writePairCtrl v s) := by
  unfold writePairCtrl
  show let r3 := _; Keeps _ _ r3
  intro r3
  extract_lets -descend +onlyGivenNames st4 at r3
  have hst4 : Keeps [.cells, .hif, .wld, .cic, .pair, .emits] s st4 := by
    subst st4
    refine Keeps.ite ?_ ?_
    · refine Keeps.next (State.clrF_keeps ..) rfl ?_
      exact Keeps.refl
    · exact Keeps.refl
  try clear_value st4
  extract_lets -descend +onlyGivenNames st5 at r3
  have hst5 : Keeps [.cells, .hif, .wld, .cic, .pair, .emits] s st5 := by
    subst st5
    refine Keeps.ite ?_ ?_
    · refine Keeps.next (State.startHandover_keeps ..) rfl ?_
      exact hst4
    · exact hst4
  try clear_value st5
  subst r3
  refine Keeps.ite ?_ ?_
  · refine Keeps.next (State.feedHome_keeps ..) rfl ?_
    exact hst5
  · exact hst5

theorem doLyrSel_keeps (sl : ℕ) (v : Word) (s : State) : Keeps [.cells, .lyrSnap] s (doLyrSel sl v s) := by
  unfold doLyrSel
  show let r4 := _; Keeps _ _ r4
  intro r4
  extract_lets -descend +onlyGivenNames st5 at r4
  have hst5 : Keeps [.cells, .lyrSnap] s st5 := by
    subst st5
    refine Keeps.next (State.plainWrite_keeps ..) rfl ?_
    exact Keeps.refl
  try clear_value st5
  subst r4
  refine Keeps.ite ?_ ?_
  · split
    · refine Keeps.set_lyrSnap (x := st5) rfl (fun h => Tab.wf_set _ _ _ _ h) ?_
      exact hst5
    · exact hst5
  · exact hst5

theorem doLyrData_keeps (sl : ℕ) (v : Word) (s : State) : Keeps [.cells, .lyr] s (doLyrData sl v s) := by
  unfold doLyrData
  show let r4 := _; Keeps _ _ r4
  intro r4
  extract_lets -descend +onlyGivenNames v5 at r4
  extract_lets -descend +onlyGivenNames st6 at r4
  have hst6 : Keeps [.cells, .lyr] s st6 := by
    subst st6
    split
    · exact Keeps.refl
    · refine Keeps.ite ?_ ?_
      · exact Keeps.refl
      · refine Keeps.next (State.updLayer_keeps ..) rfl ?_
        exact Keeps.refl
  try clear_value st6
  subst r4
  refine Keeps.next (State.lyrAdvance_keeps ..) rfl ?_
  exact hst6

theorem doLayerCopy_keeps (sl : ℕ) (s : State) : Keeps [.lyr] s (doLayerCopy sl s) := by
  unfold doLayerCopy
  split
  · exact Keeps.refl
  · refine Keeps.next (State.updLayer_keeps ..) rfl ?_
    exact Keeps.refl

theorem doLayerClear_keeps (sl : ℕ) (s : State) : Keeps [.lyr] s (doLayerClear sl s) := by
  unfold doLayerClear
  split
  · exact Keeps.refl
  · refine Keeps.next (State.updLayer_keeps ..) rfl ?_
    exact Keeps.refl

theorem doLyrCtrl_keeps (sl : ℕ) (v : Word) (s : State) : Keeps [.lyr] s (doLyrCtrl sl v s) := by
  unfold doLyrCtrl
  show let r4 := _; Keeps _ _ r4
  intro r4
  extract_lets -descend +onlyGivenNames st5 at r4
  have hst5 : Keeps [.lyr] s st5 := by
    subst st5
    refine Keeps.ite ?_ ?_
    · refine Keeps.next (doLayerCopy_keeps ..) rfl ?_
      exact Keeps.refl
    · exact Keeps.refl
  try clear_value st5
  subst r4
  refine Keeps.ite ?_ ?_
  · refine Keeps.next (doLayerClear_keeps ..) rfl ?_
    exact hst5
  · exact hst5

theorem doCvSel_keeps (sl : ℕ) (v : Word) (s : State) : Keeps [.cells, .cvSnap] s (doCvSel sl v s) := by
  unfold doCvSel
  show let r4 := _; Keeps _ _ r4
  intro r4
  extract_lets -descend +onlyGivenNames st5 at r4
  have hst5 : Keeps [.cells, .cvSnap] s st5 := by
    subst st5
    refine Keeps.next (State.plainWrite_keeps ..) rfl ?_
    exact Keeps.refl
  try clear_value st5
  subst r4
  split
  · split
    · exact hst5
    · refine Keeps.ite ?_ ?_
      · refine Keeps.set_cvSnap (x := st5) rfl (fun h => Tab.wf_set _ _ _ _ h) ?_
        exact hst5
      · refine Keeps.ite ?_ ?_
        · refine Keeps.set_cvSnap (x := st5) rfl (fun h => Tab.wf_set _ _ _ _ h) ?_
          exact hst5
        · exact hst5

theorem doCvuReg_keeps (n : ℕ) (k : ℕ) (v : Word) (s : State) : Keeps [.cells] s (doCvuReg n k v s) := by
  unfold doCvuReg
  show let r5 := _; Keeps _ _ r5
  intro r5
  extract_lets -descend +onlyGivenNames st6 at r5
  have hst6 : Keeps [.cells] s st6 := by
    subst st6
    refine Keeps.ite ?_ ?_
    · refine Keeps.next (State.clrF_keeps ..) rfl ?_
      exact Keeps.refl
    · exact Keeps.refl
  try clear_value st6
  subst r5
  refine Keeps.ite ?_ ?_
  · exact hst6
  · refine Keeps.ite ?_ ?_
    · refine Keeps.next (State.setF_keeps ..) rfl ?_
      exact hst6
    · refine Keeps.ite ?_ ?_
      · exact hst6
      · split
        · show let r7 := _; Keeps _ _ r7
          intro r7
          extract_lets -descend +onlyGivenNames st8 at r7
          have hst8 : Keeps [.cells] s st8 := by
            subst st8
            refine Keeps.next (State.put_keeps ..) rfl ?_
            exact hst6
          try clear_value st8
          extract_lets -descend +onlyGivenNames st9 at r7
          have hst9 : Keeps [.cells] s st9 := by
            subst st9
            refine Keeps.next (State.put_keeps ..) rfl ?_
            exact hst8
          try clear_value st9
          subst r7
          refine Keeps.next (State.put_keeps ..) rfl ?_
          exact hst9
        · refine Keeps.next (State.wr_keeps ..) rfl ?_
          exact hst6
        · refine Keeps.next (State.wr_keeps ..) rfl ?_
          exact hst6
        · refine Keeps.next (State.wr_keeps ..) rfl ?_
          exact hst6
        · refine Keeps.next (State.wrN_keeps ..) rfl ?_
          refine Keeps.next (State.wr_keeps ..) rfl ?_
          exact hst6

theorem doCvData_keeps (sl : ℕ) (v : Word) (s : State) : Keeps [.cells, .csr] s (doCvData sl v s) := by
  unfold doCvData
  split
  · show let r4 := _; Keeps _ _ r4
    intro r4
    extract_lets -descend +onlyGivenNames st5 at r4
    have hst5 : Keeps [.cells, .csr] s st5 := by
      subst st5
      refine Keeps.ite ?_ ?_
      · split
        · refine Keeps.next (doCvuReg_keeps ..) rfl ?_
          exact Keeps.refl
        · exact Keeps.refl
      · split
        · exact Keeps.refl
        · refine Keeps.ite ?_ ?_
          · refine Keeps.next (State.updRegion_keeps ..) rfl ?_
            exact Keeps.refl
          · exact Keeps.refl
    try clear_value st5
    subst r4
    refine Keeps.next (State.cvAdvance_keeps ..) rfl ?_
    exact hst5

theorem doRfxData_keeps (sl : ℕ) (v : Word) (s : State) : Keeps [.cells, .reflexDirty] s (doRfxData sl v s) := by
  unfold doRfxData
  refine Keeps.next (State.put_keeps ..) rfl ?_
  refine Keeps.next (State.putBinding_keeps ..) rfl ?_
  exact Keeps.refl

theorem State.setStreamLow_keeps (s : State) (sl : ℕ) (ch : Option ℕ) (b : Bool) : Keeps [.hst, .ast] s
    (State.setStreamLow s sl ch b) := by
  unfold State.setStreamLow
  split
  · refine Keeps.next (State.updHst_keeps ..) rfl ?_
    exact Keeps.refl
  · refine Keeps.next (State.updAst_keeps ..) rfl ?_
    exact Keeps.refl

theorem State.streamCheck_keeps (s : State) (sl : ℕ) (ch : Option ℕ) : Keeps [.cells, .hif, .hst, .ast, .emits] s
    (State.streamCheck s sl ch) := by
  unfold State.streamCheck
  show let r4 := _; Keeps _ _ r4
  intro r4
  extract_lets -descend +onlyGivenNames v5 at r4
  extract_lets -descend +onlyGivenNames v6 at r4
  extract_lets -descend +onlyGivenNames st7 at r4
  have hst7 : Keeps [.cells, .hif, .hst, .ast, .emits] s st7 := by
    subst st7
    refine Keeps.next (State.setStreamLow_keeps ..) rfl ?_
    exact Keeps.refl
  try clear_value st7
  subst r4
  refine Keeps.ite ?_ ?_
  · refine Keeps.next (State.signal_keeps ..) rfl ?_
    exact hst7
  · exact hst7

theorem State.streamAdvance_keeps (s : State) (sl : ℕ) (ch : Option ℕ) (v : Word) : Keeps [.cells, .hif, .hst, .ast,
    .emits] s (State.streamAdvance s sl ch v) := by
  unfold State.streamAdvance
  refine Keeps.ite ?_ ?_
  · exact Keeps.refl
  · show let r5 := _; Keeps _ _ r5
    intro r5
    extract_lets -descend +onlyGivenNames st6 at r5
    have hst6 : Keeps [.cells, .hif, .hst, .ast, .emits] s st6 := by
      subst st6
      refine Keeps.next (State.wr_keeps ..) rfl ?_
      exact Keeps.refl
    try clear_value st6
    extract_lets -descend +onlyGivenNames st7 at r5
    have hst7 : Keeps [.cells, .hif, .hst, .ast, .emits] s st7 := by
      subst st7
      split
      · refine Keeps.next (State.updHst_keeps ..) rfl ?_
        exact hst6
      · refine Keeps.next (State.updAst_keeps ..) rfl ?_
        exact hst6
    try clear_value st7
    subst r5
    refine Keeps.next (State.fetchStream_keeps ..) rfl ?_
    refine Keeps.next (State.streamCheck_keeps ..) rfl ?_
    exact hst7

theorem State.streamEnabled_keeps (s : State) (sl : ℕ) (ch : Option ℕ) : Keeps [.cells, .hif, .hst, .ast] s
    (State.streamEnabled s sl ch) := by
  unfold State.streamEnabled
  show let r4 := _; Keeps _ _ r4
  intro r4
  extract_lets -descend +onlyGivenNames v5 at r4
  extract_lets -descend +onlyGivenNames st6 at r4
  have hst6 : Keeps [.cells, .hif, .hst, .ast] s st6 := by
    subst st6
    refine Keeps.next (State.cancelReads_keeps ..) rfl ?_
    refine Keeps.next (State.wrN_keeps ..) rfl ?_
    exact Keeps.refl
  try clear_value st6
  extract_lets -descend +onlyGivenNames st7 at r4
  have hst7 : Keeps [.cells, .hif, .hst, .ast] s st7 := by
    subst st7
    split
    · refine Keeps.next (State.updHst_keeps ..) rfl ?_
      exact hst6
    · refine Keeps.next (State.updAst_keeps ..) rfl ?_
      exact hst6
  try clear_value st7
  subst r4
  refine Keeps.next (State.setStreamLow_keeps ..) rfl ?_
  exact hst7

theorem State.endStream_keeps (s : State) (sl : ℕ) (c : ℕ) (due : ℕ) : Keeps [.hap] s (State.endStream s sl c due) := by
  unfold State.endStream
  split
  · exact Keeps.refl
  · refine Keeps.next (State.updChan_keeps ..) rfl ?_
    exact Keeps.refl

theorem State.streamDisabled_keeps (s : State) (sl : ℕ) (ch : Option ℕ) : Keeps [.hap, .hst, .ast] s
    (State.streamDisabled s sl ch) := by
  unfold State.streamDisabled
  split
  · refine Keeps.next (State.endStream_keeps ..) rfl ?_
    refine Keeps.next (State.updHst_keeps ..) rfl ?_
    exact Keeps.refl
  · refine Keeps.next (State.updAst_keeps ..) rfl ?_
    refine Keeps.next (State.audioFade_keeps ..) rfl ?_
    exact Keeps.refl

theorem State.putStreamWord_keeps (s : State) (sl : ℕ) (ch : Option ℕ) (w : ℕ) (v : Word) : Keeps [.cells, .hif,
    .hap, .hst, .ast, .emits] s (State.putStreamWord s sl ch w v) := by
  unfold State.putStreamWord
  refine Keeps.ite ?_ ?_
  · refine Keeps.next (State.streamAdvance_keeps ..) rfl ?_
    exact Keeps.refl
  · show let r6 := _; Keeps _ _ r6
    intro r6
    extract_lets -descend +onlyGivenNames v7 at r6
    extract_lets -descend +onlyGivenNames v8 at r6
    extract_lets -descend +onlyGivenNames v9 at r6
    extract_lets -descend +onlyGivenNames st10 at r6
    have hst10 : Keeps [.cells, .hif, .hap, .hst, .ast, .emits] s st10 := by
      subst st10
      refine Keeps.next (State.wr_keeps ..) rfl ?_
      exact Keeps.refl
    try clear_value st10
    subst r6
    refine Keeps.ite ?_ ?_
    · show let r11 := _; Keeps _ _ r11
      intro r11
      extract_lets -descend +onlyGivenNames v12 at r11
      subst r11
      refine Keeps.ite ?_ ?_
      · refine Keeps.next (State.fetchStream_keeps ..) rfl ?_
        refine Keeps.next (State.streamEnabled_keeps ..) rfl ?_
        exact hst10
      · refine Keeps.ite ?_ ?_
        · refine Keeps.next (State.streamDisabled_keeps ..) rfl ?_
          exact hst10
        · exact hst10
    · refine Keeps.ite ?_ ?_
      · refine Keeps.next (State.put_keeps ..) rfl ?_
        exact hst10
      · exact hst10

theorem doHapData_keeps (sl : ℕ) (v : Word) (s : State) : Keeps [.cells, .hif, .hap, .hst, .ast, .emits] s
    (doHapData sl v s) := by
  unfold doHapData
  split
  · refine Keeps.next (State.hapSelAdvance_keeps ..) rfl ?_
    refine Keeps.ite ?_ ?_
    · refine Keeps.next (State.putStreamWord_keeps ..) rfl ?_
      exact Keeps.refl
    · exact Keeps.refl

theorem doHapTrig_keeps (sl : ℕ) (v : Word) (s : State) : Keeps [.cells, .hap] s (doHapTrig sl v s) := by
  unfold doHapTrig
  show let r4 := _; Keeps _ _ r4
  intro r4
  extract_lets -descend +onlyGivenNames v5 at r4
  subst r4
  split
  · refine Keeps.ite ?_ ?_
    · refine Keeps.next (State.put_keeps ..) rfl ?_
      exact Keeps.refl
    · exact Keeps.refl
  · show let r6 := _; Keeps _ _ r6
    intro r6
    extract_lets -descend +onlyGivenNames v7 at r6
    subst r6
    refine Keeps.ite ?_ ?_
    · refine Keeps.next (State.updChan_keeps ..) rfl ?_
      exact Keeps.refl
    · refine Keeps.next (State.makeStart_keeps ..) rfl ?_
      exact Keeps.refl

theorem doAudData_keeps (sl : ℕ) (v : Word) (s : State) : Keeps [.cells, .hif, .hap, .hst, .ast, .emits] s
    (doAudData sl v s) := by
  unfold doAudData
  refine Keeps.next (State.audSelAdvance_keeps ..) rfl ?_
  refine Keeps.next (State.putStreamWord_keeps ..) rfl ?_
  exact Keeps.refl

theorem writeWindow_keeps (sl : ℕ) (p : ℕ) (off : ℕ) (v : Word) (s : State) : Keeps [.cells, .latches, .hif, .cmds,
    .slices, .haul, .outs, .lyr, .lyrSnap, .csr, .cvu, .floor, .cvSnap, .reflexDirty, .hap, .hst, .ast, .wld, .cic,
    .pair, .freeCtr, .emits] s (writeWindow sl p off v s) := by
  unfold writeWindow
  split
  · refine Keeps.next (doCmdPage_keeps ..) rfl ?_
    exact Keeps.refl
  · refine Keeps.next (doLyrSel_keeps ..) rfl ?_
    exact Keeps.refl
  · refine Keeps.next (doLyrData_keeps ..) rfl ?_
    exact Keeps.refl
  · refine Keeps.next (doLyrCtrl_keeps ..) rfl ?_
    exact Keeps.refl
  · refine Keeps.next (doCvSel_keeps ..) rfl ?_
    exact Keeps.refl
  · refine Keeps.next (doCvData_keeps ..) rfl ?_
    exact Keeps.refl
  · refine Keeps.next (ringCtrl_keeps ..) rfl ?_
    exact Keeps.refl
  · refine Keeps.next (doRfxData_keeps ..) rfl ?_
    exact Keeps.refl
  · refine Keeps.next (doHapData_keeps ..) rfl ?_
    exact Keeps.refl
  · refine Keeps.next (doHapTrig_keeps ..) rfl ?_
    exact Keeps.refl
  · refine Keeps.next (doAudData_keeps ..) rfl ?_
    exact Keeps.refl
  · refine Keeps.next (State.plainWrite_keeps ..) rfl ?_
    exact Keeps.refl

theorem doTickCtrl_keeps (v : Word) (s : State) : Keeps [.cells, .pwr] s (doTickCtrl v s) := by
  unfold doTickCtrl
  split
  · show let r3 := _; Keeps _ _ r3
    intro r3
    extract_lets -descend +onlyGivenNames v4 at r3
    subst r3
    refine Keeps.set_pwr (x := s) rfl ?_
    exact Keeps.refl
  · show let r5 := _; Keeps _ _ r5
    intro r5
    extract_lets -descend +onlyGivenNames st6 at r5
    have hst6 : Keeps [.cells, .pwr] s st6 := by
      subst st6
      refine Keeps.next (State.plainWrite_keeps ..) rfl ?_
      exact Keeps.refl
    try clear_value st6
    subst r5
    refine Keeps.next (State.put_keeps ..) rfl ?_
    exact hst6

theorem doSrfQuery_keeps (v : Word) (s : State) : Keeps [.cells] s (doSrfQuery v s) := by
  unfold doSrfQuery
  show let r3 := _; Keeps _ _ r3
  intro r3
  extract_lets -descend +onlyGivenNames st4 at r3
  have hst4 : Keeps [.cells] s st4 := by
    subst st4
    refine Keeps.next (State.wr_keeps ..) rfl ?_
    exact Keeps.refl
  try clear_value st4
  extract_lets -descend +onlyGivenNames v5 at r3
  extract_lets -descend +onlyGivenNames v6 at r3
  extract_lets -descend +onlyGivenNames v7 at r3
  extract_lets -descend +onlyGivenNames v8 at r3
  extract_lets -descend +onlyGivenNames st9 at r3
  have hst9 : Keeps [.cells] s st9 := by
    subst st9
    refine Keeps.each (fun st10 x11 => ?_) ?_
    · refine Keeps.next (State.wr_keeps ..) rfl ?_
      exact Keeps.refl
    · exact hst4
  try clear_value st9
  extract_lets -descend +onlyGivenNames v12 at r3
  extract_lets -descend +onlyGivenNames v13 at r3
  extract_lets -descend +onlyGivenNames st14 at r3
  have hst14 : Keeps [.cells] s st14 := by
    subst st14
    refine Keeps.next (State.wrN_keeps ..) rfl ?_
    exact hst9
  try clear_value st14
  subst r3
  refine Keeps.next (State.wrN_keeps ..) rfl ?_
  exact hst14

theorem doShareWrite_keeps (o : ℕ) (v : Word) (s : State) : Keeps [.cells, .outs] s (doShareWrite o v s) := by
  unfold doShareWrite
  refine Keeps.ite ?_ ?_
  · exact Keeps.refl
  · refine Keeps.ite ?_ ?_
    · refine Keeps.next (State.setF_keeps ..) rfl ?_
      exact Keeps.refl
    · refine Keeps.next (State.updOut_keeps ..) rfl ?_
      exact Keeps.refl

theorem doPlanSnap_keeps (o : ℕ) (v : Word) (s : State) : Keeps [.cells, .outs] s (doPlanSnap o v s) := by
  unfold doPlanSnap
  show let r4 := _; Keeps _ _ r4
  intro r4
  extract_lets -descend +onlyGivenNames st5 at r4
  have hst5 : Keeps [.cells, .outs] s st5 := by
    subst st5
    refine Keeps.next (State.put_keeps ..) rfl ?_
    exact Keeps.refl
  try clear_value st5
  subst r4
  refine Keeps.ite ?_ ?_
  · show let r6 := _; Keeps _ _ r6
    intro r6
    extract_lets -descend +onlyGivenNames v7 at r6
    extract_lets -descend +onlyGivenNames st8 at r6
    have hst8 : Keeps [.cells, .outs] s st8 := by
      subst st8
      refine Keeps.next (State.setF_keeps ..) rfl ?_
      exact hst5
    try clear_value st8
    extract_lets -descend +onlyGivenNames st9 at r6
    have hst9 : Keeps [.cells, .outs] s st9 := by
      subst st9
      refine Keeps.next (State.wrN_keeps ..) rfl ?_
      exact hst8
    try clear_value st9
    extract_lets -descend +onlyGivenNames v10 at r6
    subst r6
    refine Keeps.next (State.updOut_keeps ..) rfl ?_
    exact hst9
  · exact hst5

theorem doFloorColour_keeps (r : Req) (o : ℕ) (v : Word) (s : State) : Keeps [.cells] s (doFloorColour r o v s) := by
  unfold doFloorColour
  refine Keeps.ite ?_ ?_
  · refine Keeps.ite ?_ ?_
    · refine Keeps.next (State.plainWrite_keeps ..) rfl ?_
      exact Keeps.refl
    · exact Keeps.refl
  · refine Keeps.ite ?_ ?_
    · refine Keeps.next (State.plainWrite_keeps ..) rfl ?_
      exact Keeps.refl
    · exact Keeps.refl

theorem doFloorSrc_keeps (r : Req) (o : ℕ) (v : Word) (s : State) : Keeps [.cells, .haul, .floor] s (doFloorSrc r o
    v s) := by
  unfold doFloorSrc
  refine Keeps.ite ?_ ?_
  · exact Keeps.refl
  · show let r5 := _; Keeps _ _ r5
    intro r5
    extract_lets -descend +onlyGivenNames st6 at r5
    have hst6 : Keeps [.cells, .haul, .floor] s st6 := by
      subst st6
      refine Keeps.next (State.put_keeps ..) rfl ?_
      exact Keeps.refl
    try clear_value st6
    extract_lets -descend +onlyGivenNames st7 at r5
    have hst7 : Keeps [.cells, .haul, .floor] s st7 := by
      subst st7
      refine Keeps.ite ?_ ?_
      · refine Keeps.next (State.clrF_keeps ..) rfl ?_
        exact hst6
      · exact hst6
    try clear_value st7
    extract_lets -descend +onlyGivenNames v8 at r5
    subst r5
    refine Keeps.ite ?_ ?_
    · exact hst7
    · refine Keeps.ite ?_ ?_
      · refine Keeps.next (State.setF_keeps ..) rfl ?_
        exact hst7
      · refine Keeps.next (State.floorAsk_keeps ..) rfl ?_
        refine Keeps.next (State.setF_keeps ..) rfl ?_
        exact hst7

theorem doCvuPage_keeps (r : Req) (n : ℕ) (k : ℕ) (v : Word) (s : State) : Keeps [.cells] s (doCvuPage r n k v s) := by
  unfold doCvuPage
  refine Keeps.ite ?_ ?_
  · refine Keeps.next (doCvuReg_keeps ..) rfl ?_
    exact Keeps.refl
  · exact Keeps.refl

theorem doRegionShadow_keeps (r : Req) (n : ℕ) (k : ℕ) (v : Word) (s : State) : Keeps [.csr] s (doRegionShadow r n k
    v s) := by
  unfold doRegionShadow
  refine Keeps.ite ?_ ?_
  · refine Keeps.next (State.updRegion_keeps ..) rfl ?_
    exact Keeps.refl
  · exact Keeps.refl

theorem State.routeAdvance_keeps (s : State) : Keeps [.cells] s (State.routeAdvance s) := by
  unfold State.routeAdvance
  refine Keeps.next (State.put_keeps ..) rfl ?_
  exact Keeps.refl

theorem doRouteData_keeps (v : Word) (s : State) : Keeps [.cells] s (doRouteData v s) := by
  unfold doRouteData
  refine Keeps.next (State.routeAdvance_keeps ..) rfl ?_
  refine Keeps.next (State.wr_keeps ..) rfl ?_
  exact Keeps.refl

theorem writeBlock_keeps (r : Req) (ty : ℕ) (inst : ℕ) (off : ℕ) (v : Word) (s : State) : Keeps Field.list s
    (writeBlock r ty inst off v s) := by
  unfold writeBlock
  split
  · refine Keeps.ite ?_ ?_
    · refine Keeps.next (doTickCtrl_keeps ..) rfl ?_
      exact Keeps.refl
    · exact Keeps.refl
  · refine Keeps.next (writeHifReg_keeps ..) rfl ?_
    exact Keeps.refl
  · refine Keeps.next (writeClkReg_keeps ..) rfl ?_
    exact Keeps.refl
  · refine Keeps.next (writePwrReg_keeps ..) rfl ?_
    exact Keeps.refl
  · refine Keeps.next (writeBootReg_keeps ..) rfl ?_
    exact Keeps.refl
  · refine Keeps.next (writeAdmReg_keeps ..) rfl ?_
    exact Keeps.refl
  · refine Keeps.ite ?_ ?_
    · refine Keeps.next (doSrfQuery_keeps ..) rfl ?_
      exact Keeps.refl
    · refine Keeps.next (State.plainWrite_keeps ..) rfl ?_
      exact Keeps.refl
  · refine Keeps.ite ?_ ?_
    · refine Keeps.next (doShareWrite_keeps ..) rfl ?_
      exact Keeps.refl
    · refine Keeps.ite ?_ ?_
      · refine Keeps.next (doPlanSnap_keeps ..) rfl ?_
        exact Keeps.refl
      · refine Keeps.next (State.plainWrite_keeps ..) rfl ?_
        exact Keeps.refl
  · refine Keeps.next (writeOutReg_keeps ..) rfl ?_
    exact Keeps.refl
  · refine Keeps.ite ?_ ?_
    · refine Keeps.next (doFloorColour_keeps ..) rfl ?_
      exact Keeps.refl
    · refine Keeps.ite ?_ ?_
      · refine Keeps.next (doFloorSrc_keeps ..) rfl ?_
        exact Keeps.refl
      · refine Keeps.next (State.plainWrite_keeps ..) rfl ?_
        exact Keeps.refl
  · refine Keeps.next (writeLyrReg_keeps ..) rfl ?_
    exact Keeps.refl
  · refine Keeps.ite ?_ ?_
    · refine Keeps.next (doCvuPage_keeps ..) rfl ?_
      exact Keeps.refl
    · exact Keeps.refl
  · refine Keeps.ite ?_ ?_
    · refine Keeps.next (doRegionShadow_keeps ..) rfl ?_
      exact Keeps.refl
    · refine Keeps.next (State.plainWrite_keeps ..) rfl ?_
      exact Keeps.refl
  · refine Keeps.next (writePoolReg_keeps ..) rfl ?_
    exact Keeps.refl
  · refine Keeps.next (writePanelReg_keeps ..) rfl ?_
    exact Keeps.refl
  · refine Keeps.next (writeHapReg_keeps ..) rfl ?_
    exact Keeps.refl
  · refine Keeps.ite ?_ ?_
    · refine Keeps.next (doRouteData_keeps ..) rfl ?_
      exact Keeps.refl
    · refine Keeps.next (State.plainWrite_keeps ..) rfl ?_
      exact Keeps.refl
  · refine Keeps.next (writeWldReg_keeps ..) rfl ?_
    exact Keeps.refl
  · refine Keeps.next (writeCicReg_keeps ..) rfl ?_
    exact Keeps.refl
  · refine Keeps.next (writeDmcReg_keeps ..) rfl ?_
    exact Keeps.refl
  · refine Keeps.ite ?_ ?_
    · refine Keeps.next (writePairCtrl_keeps ..) rfl ?_
      exact Keeps.refl
    · refine Keeps.next (State.plainWrite_keeps ..) rfl ?_
      exact Keeps.refl
  · refine Keeps.ite ?_ ?_
    · refine Keeps.next (writeWindow_keeps ..) rfl ?_
      exact Keeps.refl
    · refine Keeps.next (State.plainWrite_keeps ..) rfl ?_
      exact Keeps.refl

theorem writeReg_keeps (r : Req) (ty : ℕ) (inst : ℕ) (off : ℕ) (v : Word) (s : State) : Keeps Field.list s (writeReg
    r ty inst off v s) := by
  unfold writeReg
  refine Keeps.ite ?_ ?_
  · refine Keeps.next (writeHeader_keeps ..) rfl ?_
    exact Keeps.refl
  · refine Keeps.next (writeBlock_keeps ..) rfl ?_
    exact Keeps.refl

theorem readBuf_keeps (s : State) : Keeps [.cells] s (readBuf s).2 := by
  unfold readBuf
  show Keeps _ _ _
  refine Keeps.next (State.bufAdvance_keeps ..) rfl ?_
  exact Keeps.refl

theorem readHaulReg_keeps (who : ℕ) (e : ℕ) (off : ℕ) (s : State) : Keeps [.latches] s (readHaulReg who e off s).2 := by
  unfold readHaulReg
  split
  · show Keeps _ _ _
    exact Keeps.refl
  · show Keeps _ _ _
    exact Keeps.refl
  · show Keeps _ _ _
    exact Keeps.refl
  · refine Keeps.next (State.readLow_keeps ..) rfl ?_
    exact Keeps.refl
  · refine Keeps.next (State.readHigh_keeps ..) rfl ?_
    exact Keeps.refl
  · refine Keeps.ite2 ?_ ?_
    · show Keeps _ _ _
      exact Keeps.refl
    · show Keeps _ _ _
      exact Keeps.refl

theorem readPlanData_keeps (o : ℕ) (s : State) : Keeps [.cells] s (readPlanData o s).2 := by
  unfold readPlanData
  show let r3 := _; Keeps _ _ (Prod.snd r3)
  intro r3
  extract_lets -descend +onlyGivenNames v4 at r3
  subst r3
  show Keeps _ _ _
  refine Keeps.next (State.put_keeps ..) rfl ?_
  exact Keeps.refl

theorem readBplReg_keeps (o : ℕ) (off : ℕ) (s : State) : Keeps [.cells] s (readBplReg o off s).2 := by
  unfold readBplReg
  split
  · show Keeps _ _ _
    exact Keeps.refl
  · show Keeps _ _ _
    exact Keeps.refl
  · show Keeps _ _ _
    exact Keeps.refl
  · show Keeps _ _ _
    exact Keeps.refl
  · refine Keeps.next (readPlanData_keeps ..) rfl ?_
    exact Keeps.refl
  · refine Keeps.ite2 ?_ ?_
    · show Keeps _ _ _
      exact Keeps.refl
    · show Keeps _ _ _
      exact Keeps.refl
  · refine Keeps.next (State.plainRead_keeps ..) rfl ?_
    exact Keeps.refl

theorem readOutReg_keeps (who : ℕ) (o : ℕ) (off : ℕ) (s : State) : Keeps [.cells, .latches] s (readOutReg who o off
    s).2 := by
  unfold readOutReg
  split
  · refine Keeps.next (State.readLow_keeps ..) rfl ?_
    exact Keeps.refl
  · refine Keeps.next (State.readHigh_keeps ..) rfl ?_
    exact Keeps.refl
  · show Keeps _ _ _
    exact Keeps.refl
  · refine Keeps.next (State.plainRead_keeps ..) rfl ?_
    exact Keeps.refl

theorem readImgData_keeps (n : ℕ) (s : State) : Keeps [.cells] s (readImgData n s).2 := by
  unfold readImgData
  show let r3 := _; Keeps _ _ (Prod.snd r3)
  intro r3
  extract_lets -descend +onlyGivenNames v4 at r3
  extract_lets -descend +onlyGivenNames v5 at r3
  subst r3
  show Keeps _ _ _
  refine Keeps.next (State.imgAdvance_keeps ..) rfl ?_
  exact Keeps.refl

theorem readCsrReg_keeps (n : ℕ) (off : ℕ) (s : State) : Keeps [.cells] s (readCsrReg n off s).2 := by
  unfold readCsrReg
  refine Keeps.ite2 ?_ ?_
  · show Keeps _ _ _
    exact Keeps.refl
  · refine Keeps.ite2 ?_ ?_
    · show Keeps _ _ _
      exact Keeps.refl
    · refine Keeps.ite2 ?_ ?_
      · show Keeps _ _ _
        exact Keeps.refl
      · refine Keeps.next (State.plainRead_keeps ..) rfl ?_
        exact Keeps.refl

theorem readPinCfg_keeps (s : State) : Keeps [.cells] s (readPinCfg s).2 := by
  unfold readPinCfg
  show Keeps _ _ _
  refine Keeps.next (State.pinAdvance_keeps ..) rfl ?_
  exact Keeps.refl

theorem readPwRfxData_keeps (s : State) : Keeps [.cells] s (readPwRfxData s).2 := by
  unfold readPwRfxData
  show Keeps _ _ _
  refine Keeps.next (State.put_keeps ..) rfl ?_
  exact Keeps.refl

theorem readPoolReg_keeps (r : Req) (off : ℕ) (s : State) : Keeps [.cells] s (readPoolReg r off s).2 := by
  unfold readPoolReg
  refine Keeps.ite2 ?_ ?_
  · show Keeps _ _ _
    exact Keeps.refl
  · split
    · refine Keeps.next (readPinCfg_keeps ..) rfl ?_
      exact Keeps.refl
    · refine Keeps.next (readPwRfxData_keeps ..) rfl ?_
      exact Keeps.refl
    · refine Keeps.next (State.plainRead_keeps ..) rfl ?_
      exact Keeps.refl

theorem readHopset_keeps (n : ℕ) (s : State) : Keeps [.cells] s (readHopset n s).2 := by
  unfold readHopset
  show Keeps _ _ _
  refine Keeps.next (State.hopAdvance_keeps ..) rfl ?_
  exact Keeps.refl

theorem readRef_keeps (n : ℕ) (s : State) : Keeps [.cells] s (readRef n s).2 := by
  unfold readRef
  show Keeps _ _ _
  refine Keeps.next (State.refAdvance_keeps ..) rfl ?_
  exact Keeps.refl

theorem readTchRb_keeps (n : ℕ) (s : State) : Keeps [.cells] s (readTchRb n s).2 := by
  unfold readTchRb
  show let r3 := _; Keeps _ _ (Prod.snd r3)
  intro r3
  extract_lets -descend +onlyGivenNames v4 at r3
  subst r3
  show Keeps _ _ _
  refine Keeps.next (State.put_keeps ..) rfl ?_
  exact Keeps.refl

theorem readDiag_keeps (n : ℕ) (s : State) : Keeps [.cells] s (readDiag n s).2 := by
  unfold readDiag
  show let r3 := _; Keeps _ _ (Prod.snd r3)
  intro r3
  extract_lets -descend +onlyGivenNames v4 at r3
  subst r3
  show Keeps _ _ _
  refine Keeps.next (State.put_keeps ..) rfl ?_
  exact Keeps.refl

theorem readPanelReg_keeps (n : ℕ) (off : ℕ) (s : State) : Keeps [.cells] s (readPanelReg n off s).2 := by
  unfold readPanelReg
  split
  · refine Keeps.next (readHopset_keeps ..) rfl ?_
    exact Keeps.refl
  · show Keeps _ _ _
    exact Keeps.refl
  · refine Keeps.next (readRef_keeps ..) rfl ?_
    exact Keeps.refl
  · refine Keeps.next (readTchRb_keeps ..) rfl ?_
    exact Keeps.refl
  · show Keeps _ _ _
    exact Keeps.refl
  · refine Keeps.next (readDiag_keeps ..) rfl ?_
    exact Keeps.refl
  · refine Keeps.next (State.plainRead_keeps ..) rfl ?_
    exact Keeps.refl

theorem readHapRb_keeps (n : ℕ) (s : State) : Keeps [.cells] s (readHapRb n s).2 := by
  unfold readHapRb
  show let r3 := _; Keeps _ _ (Prod.snd r3)
  intro r3
  extract_lets -descend +onlyGivenNames v4 at r3
  subst r3
  show Keeps _ _ _
  refine Keeps.next (State.put_keeps ..) rfl ?_
  exact Keeps.refl

theorem readStoreData_keeps (s : State) : Keeps [.cells] s (readStoreData s).2 := by
  unfold readStoreData
  show Keeps _ _ _
  refine Keeps.next (State.storeAdvance_keeps ..) rfl ?_
  exact Keeps.refl

theorem readHapReg_keeps (n : ℕ) (off : ℕ) (s : State) : Keeps [.cells] s (readHapReg n off s).2 := by
  unfold readHapReg
  split
  · show Keeps _ _ _
    exact Keeps.refl
  · show Keeps _ _ _
    exact Keeps.refl
  · refine Keeps.next (readHapRb_keeps ..) rfl ?_
    exact Keeps.refl
  · refine Keeps.ite2 ?_ ?_
    · show Keeps _ _ _
      exact Keeps.refl
    · show Keeps _ _ _
      exact Keeps.refl
  · refine Keeps.ite2 ?_ ?_
    · refine Keeps.next (readStoreData_keeps ..) rfl ?_
      exact Keeps.refl
    · show Keeps _ _ _
      exact Keeps.refl
  · refine Keeps.next (State.plainRead_keeps ..) rfl ?_
    exact Keeps.refl

theorem readRouteData_keeps (s : State) : Keeps [.cells] s (readRouteData s).2 := by
  unfold readRouteData
  show Keeps _ _ _
  refine Keeps.next (State.routeAdvance_keeps ..) rfl ?_
  exact Keeps.refl

theorem readGateCtrl_keeps (s : State) : Keeps [.freeCtr] s (readGateCtrl s).2 := by
  unfold readGateCtrl
  split
  · show Keeps _ _ _
    exact Keeps.refl
  · split
    · rename_i _ st2 e3
      have hst2 : Keeps [.freeCtr] s st2 := by
        refine Keeps.snd e3 ?_
        refine Keeps.next (State.free_keeps ..) rfl ?_
        exact Keeps.refl
      show Keeps _ _ _
      exact hst2

theorem readGateEntry_keeps (s : State) : Keeps [.cells] s (readGateEntry s).2 := by
  unfold readGateEntry
  show let r2 := _; Keeps _ _ (Prod.snd r2)
  intro r2
  extract_lets -descend +onlyGivenNames v3 at r2
  subst r2
  show Keeps _ _ _
  refine Keeps.next (State.put_keeps ..) rfl ?_
  exact Keeps.refl

theorem readMbox_keeps (s : State) : Keeps [.cells] s (readMbox s).2 := by
  unfold readMbox
  split
  · show Keeps _ _ _
    refine Keeps.next (State.mboxAdvance_keeps ..) rfl ?_
    exact Keeps.refl

theorem readWldReg_keeps (p : ℕ) (off : ℕ) (s : State) : Keeps [.cells, .freeCtr] s (readWldReg p off s).2 := by
  unfold readWldReg
  split
  · show Keeps _ _ _
    exact Keeps.refl
  · show Keeps _ _ _
    exact Keeps.refl
  · show Keeps _ _ _
    exact Keeps.refl
  · refine Keeps.next (readGateCtrl_keeps ..) rfl ?_
    exact Keeps.refl
  · refine Keeps.next (readGateEntry_keeps ..) rfl ?_
    exact Keeps.refl
  · refine Keeps.next (readMbox_keeps ..) rfl ?_
    exact Keeps.refl
  · refine Keeps.next (State.plainRead_keeps ..) rfl ?_
    exact Keeps.refl

theorem readSrcCfg_keeps (r : Req) (s : State) : Keeps [.cells] s (readSrcCfg r s).2 := by
  unfold readSrcCfg
  show Keeps _ _ _
  refine Keeps.next (State.srcAdvance_keeps ..) rfl ?_
  exact Keeps.refl

theorem readClaim_keeps (r : Req) (s : State) : Keeps [.cic] s (readClaim r s).2 := by
  unfold readClaim
  split
  · show Keeps _ _ _
    exact Keeps.refl
  · show let r3 := _; Keeps _ _ (Prod.snd r3)
    intro r3
    extract_lets -descend +onlyGivenNames v4 at r3
    subst r3
    refine Keeps.ite2 ?_ ?_
    · show Keeps _ _ _
      exact Keeps.refl
    · show Keeps _ _ _
      refine Keeps.next (State.setSrc_keeps ..) rfl ?_
      exact Keeps.refl

theorem readCicReg_keeps (r : Req) (p : ℕ) (off : ℕ) (s : State) : Keeps [.cells, .cic] s (readCicReg r p off s).2 := by
  unfold readCicReg
  refine Keeps.ite2 ?_ ?_
  · refine Keeps.ite2 ?_ ?_
    · refine Keeps.next (readSrcCfg_keeps ..) rfl ?_
      exact Keeps.refl
    · refine Keeps.ite2 ?_ ?_
      · show Keeps _ _ _
        exact Keeps.refl
      · refine Keeps.next (State.plainRead_keeps ..) rfl ?_
        exact Keeps.refl
  · refine Keeps.ite2 ?_ ?_
    · refine Keeps.next (readClaim_keeps ..) rfl ?_
      exact Keeps.refl
    · refine Keeps.next (State.plainRead_keeps ..) rfl ?_
      exact Keeps.refl

theorem readChannelReg_keeps (who : ℕ) (ch : ℕ) (off : ℕ) (s : State) : Keeps [.cells, .latches] s (readChannelReg
    who ch off s).2 := by
  unfold readChannelReg
  split
  · show Keeps _ _ _
    exact Keeps.refl
  · refine Keeps.next (State.readLow_keeps ..) rfl ?_
    exact Keeps.refl
  · refine Keeps.next (State.readHigh_keeps ..) rfl ?_
    exact Keeps.refl
  · refine Keeps.next (State.plainRead_keeps ..) rfl ?_
    exact Keeps.refl

theorem readBlock_keeps (r : Req) (ty : ℕ) (inst : ℕ) (off : ℕ) (s : State) : Keeps [.cells, .latches, .cic,
    .freeCtr] s (readBlock r ty inst off s).2 := by
  unfold readBlock
  show let r6 := _; Keeps _ _ (Prod.snd r6)
  intro r6
  extract_lets -descend +onlyGivenNames st7 at r6
  have hst7 : Keeps [.cells, .latches, .cic, .freeCtr] s st7.2 := by
    subst st7
    refine Keeps.next (State.plainRead_keeps ..) rfl ?_
    exact Keeps.refl
  try clear_value st7
  subst r6
  split
  · refine Keeps.ite2 ?_ ?_
    · show Keeps _ _ _
      exact Keeps.refl
    · exact hst7
  · refine Keeps.ite2 ?_ ?_
    · refine Keeps.next (State.readLow_keeps ..) rfl ?_
      exact Keeps.refl
    · refine Keeps.ite2 ?_ ?_
      · refine Keeps.next (State.readHigh_keeps ..) rfl ?_
        exact Keeps.refl
      · exact hst7
  · refine Keeps.ite2 ?_ ?_
    · refine Keeps.ite2 ?_ ?_
      · show Keeps _ _ _
        exact Keeps.refl
      · exact hst7
    · refine Keeps.ite2 ?_ ?_
      · refine Keeps.next (readCmdPage_keeps ..) rfl ?_
        exact Keeps.refl
      · refine Keeps.ite2 ?_ ?_
        · show Keeps _ _ _
          exact Keeps.refl
        · exact hst7
  · refine Keeps.ite2 ?_ ?_
    · show Keeps _ _ _
      exact Keeps.refl
    · exact hst7
  · refine Keeps.ite2 ?_ ?_
    · show Keeps _ _ _
      exact Keeps.refl
    · exact hst7
  · refine Keeps.ite2 ?_ ?_
    · show Keeps _ _ _
      exact Keeps.refl
    · refine Keeps.ite2 ?_ ?_
      · refine Keeps.next (readBuf_keeps ..) rfl ?_
        exact Keeps.refl
      · refine Keeps.ite2 ?_ ?_
        · show Keeps _ _ _
          exact Keeps.refl
        · exact hst7
  · refine Keeps.ite2 ?_ ?_
    · show Keeps _ _ _
      exact Keeps.refl
    · refine Keeps.ite2 ?_ ?_
      · show Keeps _ _ _
        exact Keeps.refl
      · exact hst7
  · refine Keeps.ite2 ?_ ?_
    · show Keeps _ _ _
      exact Keeps.refl
    · refine Keeps.ite2 ?_ ?_
      · show Keeps _ _ _
        exact Keeps.refl
      · exact hst7
  · refine Keeps.next (readHaulReg_keeps ..) rfl ?_
    exact Keeps.refl
  · refine Keeps.next (readBplReg_keeps ..) rfl ?_
    exact Keeps.refl
  · refine Keeps.next (readOutReg_keeps ..) rfl ?_
    exact Keeps.refl
  · refine Keeps.ite2 ?_ ?_
    · show Keeps _ _ _
      exact Keeps.refl
    · refine Keeps.ite2 ?_ ?_
      · show Keeps _ _ _
        exact Keeps.refl
      · exact hst7
  · refine Keeps.ite2 ?_ ?_
    · refine Keeps.next (readImgData_keeps ..) rfl ?_
      exact Keeps.refl
    · refine Keeps.ite2 ?_ ?_
      · show Keeps _ _ _
        exact Keeps.refl
      · exact hst7
  · refine Keeps.ite2 ?_ ?_
    · show Keeps _ _ _
      exact Keeps.refl
    · refine Keeps.ite2 ?_ ?_
      · show Keeps _ _ _
        exact Keeps.refl
      · exact hst7
  · refine Keeps.next (readCsrReg_keeps ..) rfl ?_
    exact Keeps.refl
  · refine Keeps.next (readPoolReg_keeps ..) rfl ?_
    exact Keeps.refl
  · refine Keeps.next (readPanelReg_keeps ..) rfl ?_
    exact Keeps.refl
  · refine Keeps.next (readHapReg_keeps ..) rfl ?_
    exact Keeps.refl
  · refine Keeps.ite2 ?_ ?_
    · refine Keeps.next (readRouteData_keeps ..) rfl ?_
      exact Keeps.refl
    · refine Keeps.ite2 ?_ ?_
      · show Keeps _ _ _
        exact Keeps.refl
      · exact hst7
  · refine Keeps.next (readWldReg_keeps ..) rfl ?_
    exact Keeps.refl
  · refine Keeps.next (readCicReg_keeps ..) rfl ?_
    exact Keeps.refl
  · refine Keeps.next (readChannelReg_keeps ..) rfl ?_
    exact Keeps.refl
  · refine Keeps.ite2 ?_ ?_
    · show Keeps _ _ _
      exact Keeps.refl
    · refine Keeps.ite2 ?_ ?_
      · show Keeps _ _ _
        exact Keeps.refl
      · refine Keeps.ite2 ?_ ?_
        · show Keeps _ _ _
          exact Keeps.refl
        · exact hst7
  · refine Keeps.ite2 ?_ ?_
    · refine Keeps.next (readWindow_keeps ..) rfl ?_
      exact Keeps.refl
    · exact hst7

theorem readReg_keeps (r : Req) (ty : ℕ) (inst : ℕ) (off : ℕ) (s : State) : Keeps [.cells, .latches, .cic, .freeCtr]
    s (readReg r ty inst off s).2 := by
  unfold readReg
  refine Keeps.ite2 ?_ ?_
  · show Keeps _ _ _
    exact Keeps.refl
  · refine Keeps.next (readBlock_keeps ..) rfl ?_
    exact Keeps.refl

theorem State.mirrorReg_keeps (s : State) (off : ℕ) (v : Word) (clear : Bool) : Keeps [.pair, .emits] s
    (State.mirrorReg s off v clear) := by
  unfold State.mirrorReg
  refine Keeps.ite ?_ ?_
  · exact Keeps.refl
  · refine Keeps.next (State.mirror_keeps ..) rfl ?_
    exact Keeps.refl

theorem State.writeOne_keeps (s : State) (r : Req) (ty : ℕ) (inst : ℕ) (off : ℕ) (v : Word) : Keeps Field.list s
    (State.writeOne s r ty inst off v) := by
  unfold State.writeOne
  refine Keeps.ite ?_ ?_
  · exact Keeps.refl
  · refine Keeps.ite ?_ ?_
    · exact Keeps.refl
    · refine Keeps.next (State.mirrorReg_keeps ..) rfl ?_
      refine Keeps.next (writeReg_keeps ..) rfl ?_
      exact Keeps.refl

theorem State.writeAll_keeps (s : State) (r : Req) (ty : ℕ) (inst : ℕ) (off : ℕ) (a6 : List Word) : Keeps Field.list
    s (State.writeAll s r ty inst off a6) := by
  unfold State.writeAll
  split
  · exact Keeps.refl
  · refine Keeps.next (State.writeAll_keeps ..) rfl ?_
    refine Keeps.next (State.writeOne_keeps ..) rfl ?_
    exact Keeps.refl

theorem State.logAccess_keeps (s : State) (write : Bool) (kind : ℕ) (sl : ℕ) (off : ℕ) (len : ℕ) : Keeps [.cells,
    .hif, .wld, .cic, .emits] s (State.logAccess s write kind sl off len) := by
  unfold State.logAccess
  show let r7 := _; Keeps _ _ r7
  intro r7
  extract_lets -descend +onlyGivenNames st8 at r7
  have hst8 : Keeps [.cells, .hif, .wld, .cic, .emits] s st8 := by
    subst st8
    refine Keeps.next (State.count_keeps ..) rfl ?_
    exact Keeps.refl
  try clear_value st8
  extract_lets -descend +onlyGivenNames st9 at r7
  have hst9 : Keeps [.cells, .hif, .wld, .cic, .emits] s st9 := by
    subst st9
    refine Keeps.ite ?_ ?_
    · exact hst8
    · show let r10 := _; Keeps _ _ r10
      intro r10
      extract_lets -descend +onlyGivenNames st11 at r10
      have hst11 : Keeps [.cells, .hif, .wld, .cic, .emits] s st11 := by
        subst st11
        refine Keeps.next (State.wrN_keeps ..) rfl ?_
        exact hst8
      try clear_value st11
      subst r10
      refine Keeps.next (State.wrN_keeps ..) rfl ?_
      exact hst11
  try clear_value st9
  subst r7
  refine Keeps.next (State.event_keeps ..) rfl ?_
  exact hst9

theorem State.accessRefused_keeps (s : State) (write : Bool) (kind : ℕ) (off : ℕ) (len : ℕ) : Keeps [.cells, .hif,
    .wld, .cic, .emits] s (State.accessRefused s write kind off len) := by
  unfold State.accessRefused
  refine Keeps.next (State.logAccess_keeps ..) rfl ?_
  exact Keeps.refl

theorem State.writeAt_keeps (s : State) (r : Req) (ty : ℕ) (inst : ℕ) (off : ℕ) (data : List Byte) (poisoned : Bool)
    : Keeps Field.list s (State.writeAt s r ty inst off data poisoned) := by
  unfold State.writeAt
  show let r8 := _; Keeps _ _ r8
  intro r8
  extract_lets -descend +onlyGivenNames v9 at r8
  extract_lets -descend +onlyGivenNames v10 at r8
  subst r8
  refine Keeps.ite ?_ ?_
  · refine Keeps.ite ?_ ?_
    · refine Keeps.next (State.accessRefused_keeps ..) rfl ?_
      exact Keeps.refl
    · exact Keeps.refl
  · refine Keeps.ite ?_ ?_
    · refine Keeps.next (State.xwDenied_keeps ..) rfl ?_
      refine Keeps.ite ?_ ?_
      · refine Keeps.next (State.accessRefused_keeps ..) rfl ?_
        exact Keeps.refl
      · exact Keeps.refl
    · refine Keeps.ite ?_ ?_
      · refine Keeps.next (State.accessRefused_keeps ..) rfl ?_
        exact Keeps.refl
      · refine Keeps.next (State.writeAll_keeps ..) rfl ?_
        exact Keeps.refl

theorem State.takeException_keeps (s : State) (c : ℕ) (cause : ℕ) (tval : Word) : Keeps [.wld] s
    (State.takeException s c cause tval) := by
  unfold State.takeException
  show let r5 := _; Keeps _ _ r5
  intro r5
  extract_lets -descend +onlyGivenNames v6 at r5
  subst r5
  refine Keeps.ite ?_ ?_
  · refine Keeps.next (State.leave_keeps ..) rfl ?_
    exact Keeps.refl
  · refine Keeps.next (State.setCore_keeps ..) rfl ?_
    exact Keeps.refl

theorem State.busFault_keeps (s : State) (r : Req) (write : Bool) (off : ℕ) : Keeps [.wld] s (State.busFault s r
    write off) := by
  unfold State.busFault
  split
  · exact Keeps.refl
  · refine Keeps.ite ?_ ?_
    · refine Keeps.next (State.takeException_keeps ..) rfl ?_
      exact Keeps.refl
    · exact Keeps.refl

theorem State.pasidRefused_keeps (s : State) (pasid : Option (BitVec 20)) (write : Bool) (bar0 : Bool) (sl : ℕ) (off
    : ℕ) : Keeps [.cells, .hif, .wld, .cic, .emits] s (State.pasidRefused s pasid write bar0 sl off) := by
  unfold State.pasidRefused
  show let r7 := _; Keeps _ _ r7
  intro r7
  extract_lets -descend +onlyGivenNames st8 at r7
  have hst8 : Keeps [.cells, .hif, .wld, .cic, .emits] s st8 := by
    subst st8
    refine Keeps.next (State.count_keeps ..) rfl ?_
    exact Keeps.refl
  try clear_value st8
  extract_lets -descend +onlyGivenNames st9 at r7
  have hst9 : Keeps [.cells, .hif, .wld, .cic, .emits] s st9 := by
    subst st9
    refine Keeps.ite ?_ ?_
    · exact hst8
    · show let r10 := _; Keeps _ _ r10
      intro r10
      extract_lets -descend +onlyGivenNames v11 at r10
      extract_lets -descend +onlyGivenNames st12 at r10
      have hst12 : Keeps [.cells, .hif, .wld, .cic, .emits] s st12 := by
        subst st12
        refine Keeps.next (State.wrN_keeps ..) rfl ?_
        exact hst8
      try clear_value st12
      subst r10
      refine Keeps.next (State.wrN_keeps ..) rfl ?_
      exact hst12
  try clear_value st9
  extract_lets -descend +onlyGivenNames st13 at r7
  have hst13 : Keeps [.cells, .hif, .wld, .cic, .emits] s st13 := by
    subst st13
    refine Keeps.next (State.emit_keeps ..) rfl ?_
    refine Keeps.next (State.event_keeps ..) rfl ?_
    exact hst9
  try clear_value st13
  subst r7
  refine Keeps.set_hif (x := st13) rfl ?_
  exact hst13

theorem busWrite_keeps (r : Req) (off : Nat) (data : List Byte) (p : Bool) (s : State) :
    Keeps Field.list s (busWrite r off data p s) := by
  unfold busWrite
  dsimp only
  refine Keeps.ite ?_ ?_
  · exact Keeps.set_resp rfl (Keeps.next (State.busFault_keeps ..) rfl ((State.pasidRefused_keeps ..).weaken rfl))
  · split
    · exact Keeps.set_resp rfl ((State.busFault_keeps ..).weaken rfl)
    · refine Keeps.ite (Keeps.set_resp rfl (Keeps.next (State.busFault_keeps ..) rfl (Keeps.ite ?_ Keeps.refl)))
        (Keeps.set_resp rfl ?_)
      · exact (State.accessRefused_keeps ..).weaken rfl
      · exact (State.writeAt_keeps ..).weaken rfl

theorem State.readOne_keeps (s : State) (r : Req) (ty : ℕ) (inst : ℕ) (off : ℕ) : Keeps [.cells, .latches, .cic,
    .pair, .freeCtr, .emits] s (State.readOne s r ty inst off).2 := by
  unfold State.readOne
  show let r6 := _; Keeps _ _ (Prod.snd r6)
  intro r6
  extract_lets -descend +onlyGivenNames v7 at r6
  extract_lets -descend +onlyGivenNames v8 at r6
  subst r6
  refine Keeps.ite2 ?_ ?_
  · show Keeps _ _ _
    exact Keeps.refl
  · split
    · rename_i _ st9 e10
      have hst9 : Keeps [.cells, .latches, .cic, .pair, .freeCtr, .emits] s st9 := by
        refine Keeps.snd e10 ?_
        refine Keeps.next (readReg_keeps ..) rfl ?_
        exact Keeps.refl
      show Keeps _ _ _
      refine Keeps.ite ?_ ?_
      · refine Keeps.next (State.mirrorReg_keeps ..) rfl ?_
        exact hst9
      · exact hst9

theorem State.readAll_keeps (s : State) (r : Req) (ty : ℕ) (inst : ℕ) (a5 : ℕ) (a6 : ℕ) : Keeps [.cells, .latches,
    .cic, .pair, .freeCtr, .emits] s (State.readAll s r ty inst a5 a6).2 := by
  unfold State.readAll
  split
  · show Keeps _ _ _
    exact Keeps.refl
  · split
    · rename_i _ st7 e8
      have hst7 : Keeps [.cells, .latches, .cic, .pair, .freeCtr, .emits] s st7 := by
        refine Keeps.snd e8 ?_
        refine Keeps.next (State.readOne_keeps ..) rfl ?_
        exact Keeps.refl
      split
      · rename_i _ st9 e10
        have hst9 : Keeps [.cells, .latches, .cic, .pair, .freeCtr, .emits] s st9 := by
          refine Keeps.snd e10 ?_
          refine Keeps.next (State.readAll_keeps ..) rfl ?_
          exact hst7
        show Keeps _ _ _
        exact hst9

theorem busRead_keeps (r : Req) (off len : Nat) (s : State) : Keeps [.cells, .latches, .hif, .wld, .cic, .pair,
    .freeCtr, .emits, .resp] s (busRead r off len s) := by
  unfold busRead
  dsimp only
  refine Keeps.ite ?_ ?_
  · exact Keeps.set_resp rfl (Keeps.next (State.busFault_keeps ..) rfl ((State.pasidRefused_keeps ..).weaken rfl))
  · split
    · exact Keeps.set_resp rfl ((State.busFault_keeps ..).weaken rfl)
    · refine Keeps.ite (Keeps.set_resp rfl (Keeps.next (State.busFault_keeps ..) rfl (Keeps.ite ?_ Keeps.refl)))
        (Keeps.set_resp rfl ?_)
      · exact (State.accessRefused_keeps ..).weaken rfl
      · exact (State.readAll_keeps ..).weaken rfl

theorem writeWord_keeps (r : Req) (off : ℕ) (v : Word) (s : State) : Keeps Field.list s (writeWord r off v s) := by
  unfold writeWord
  refine Keeps.next (busWrite_keeps ..) rfl ?_
  exact Keeps.refl

theorem bar4Access_keeps (pasid : Option (BitVec 20)) (off : ℕ) (len : ℕ) (write : Bool) (s : State) : Keeps
    [.cells, .hif, .wld, .cic, .emits] s (bar4Access pasid off len write s).2 := by
  unfold bar4Access
  refine Keeps.ite2 ?_ ?_
  · show Keeps _ _ _
    exact Keeps.refl
  · refine Keeps.ite2 ?_ ?_
    · show Keeps _ _ _
      refine Keeps.next (State.pasidRefused_keeps ..) rfl ?_
      exact Keeps.refl
    · show Keeps _ _ _
      exact Keeps.refl

theorem State.poisonRefused_keeps (s : State) (len : ℕ) : Keeps [.cells, .hif, .wld, .cic, .freeCtr, .emits] s
    (State.poisonRefused s len) := by
  unfold State.poisonRefused
  split
  · rename_i _ st3 e4
    have hst3 : Keeps [.cells, .hif, .wld, .cic, .freeCtr, .emits] s st3 := by
      refine Keeps.snd e4 ?_
      refine Keeps.next (State.free_keeps ..) rfl ?_
      exact Keeps.refl
    refine Keeps.next (State.logAccess_keeps ..) rfl ?_
    exact hst3

theorem State.bar4Write_keeps (s : State) (off : ℕ) (v : Word) : Keeps [.cells] s (State.bar4Write s off v) := by
  unfold State.bar4Write
  refine Keeps.ite ?_ ?_
  · show let r4 := _; Keeps _ _ r4
    intro r4
    extract_lets -descend +onlyGivenNames v5 at r4
    subst r4
    split
    · refine Keeps.next (State.wr_keeps ..) rfl ?_
      exact Keeps.refl
    · refine Keeps.next (State.wr_keeps ..) rfl ?_
      exact Keeps.refl
    · refine Keeps.next (State.wr_keeps ..) rfl ?_
      exact Keeps.refl
  · exact Keeps.refl

theorem bar4Bus_keeps (r : Req) (off : ℕ) (len : ℕ) (data : Option (List Byte)) (poisoned : Bool) (s : State) :
    Keeps [.cells, .hif, .wld, .cic, .freeCtr, .emits, .resp] s (bar4Bus r off len data poisoned s) := by
  unfold bar4Bus
  split
  · refine Keeps.set_resp (x := s) rfl ?_
    exact Keeps.refl
  · split
    · rename_i _ st7 e8
      have hst7 : Keeps [.cells, .hif, .wld, .cic, .freeCtr, .emits, .resp] s st7 := by
        refine Keeps.snd e8 ?_
        refine Keeps.next (bar4Access_keeps ..) rfl ?_
        exact Keeps.refl
      split
      · show let r9 := _; Keeps _ _ r9
        intro r9
        extract_lets -descend +onlyGivenNames st10 at r9
        have hst10 : Keeps [.cells, .hif, .wld, .cic, .freeCtr, .emits, .resp] s st10 := by
          subst st10
          refine Keeps.ite ?_ ?_
          · exact hst7
          · refine Keeps.ite ?_ ?_
            · refine Keeps.next (State.poisonRefused_keeps ..) rfl ?_
              exact hst7
            · refine Keeps.each (fun st11 x12 => ?_) ?_
              · refine Keeps.next (State.bar4Write_keeps ..) rfl ?_
                exact Keeps.refl
              · exact hst7
        try clear_value st10
        subst r9
        refine Keeps.set_resp (x := st10) rfl ?_
        exact hst10
      · refine Keeps.set_resp (x := st7) rfl ?_
        exact hst7

theorem State.floorFailed_keeps (s : State) (o : ℕ) (status : ℕ) (detail : ℕ) : Keeps [.cells, .hif, .cmds, .slices,
    .haul, .cvu, .floor, .pair, .emits] s (State.floorFailed s o status detail) := by
  unfold State.floorFailed
  split
  · exact Keeps.refl
  · show let r5 := _; Keeps _ _ r5
    intro r5
    extract_lets -descend +onlyGivenNames st6 at r5
    have hst6 : Keeps [.cells, .hif, .cmds, .slices, .haul, .cvu, .floor, .pair, .emits] s st6 := by
      subst st6
      refine Keeps.next (State.clrF_keeps ..) rfl ?_
      exact Keeps.refl
    try clear_value st6
    extract_lets -descend +onlyGivenNames st7 at r5
    have hst7 : Keeps [.cells, .hif, .cmds, .slices, .haul, .cvu, .floor, .pair, .emits] s st7 := by
      subst st7
      split
      · split
        · refine Keeps.next (State.failXfer_keeps ..) rfl ?_
          exact hst6
        · refine Keeps.next (State.fail_keeps ..) rfl ?_
          exact hst6
      · refine Keeps.next (State.clrF_keeps ..) rfl ?_
        refine Keeps.next (State.setF_keeps ..) rfl ?_
        exact hst6
    try clear_value st7
    subst r5
    refine Keeps.next (State.floorNext_keeps ..) rfl ?_
    exact hst7

end Sys2Proof.Machine
end

