-- ==== Sys2Proof/Laws/Frame6.lean ====
section
/-!
SUPPORT. What each operation of the machine keeps (part 6 of 9): the parts of State that it may change are listed, every other
part stays, the queue stays, and no table leaves its canonical form.
-/

namespace Sys2Proof.Machine

theorem State.xferFails_keeps (s : State) (x : Xfer) (status : ℕ) (detail : ℕ) : Keeps [.cells, .hif, .cmds,
    .slices, .haul, .cvu, .floor, .pair, .emits] s (State.xferFails s x status detail) := by
  unfold State.xferFails
  refine Keeps.ite ?_ ?_
  · split
    · refine Keeps.next (State.floorFailed_keeps ..) rfl ?_
      exact Keeps.refl
    · refine Keeps.next (State.failXfer_keeps ..) rfl ?_
      exact Keeps.refl
  · refine Keeps.next (State.failXfer_keeps ..) rfl ?_
    exact Keeps.refl

theorem State.endStation_keeps (s : State) : Keeps [.cells, .hif, .cmds, .slices, .haul, .cvu, .floor, .pair,
    .emits] s (State.endStation s) := by
  unfold State.endStation
  show let r2 := _; Keeps _ _ r2
  intro r2
  extract_lets -descend +onlyGivenNames st3 at r2
  have hst3 : Keeps [.cells, .hif, .cmds, .slices, .haul, .cvu, .floor, .pair, .emits] s st3 := by
    subst st3
    refine Keeps.next (State.setSpace_keeps ..) rfl ?_
    exact Keeps.refl
  try clear_value st3
  extract_lets -descend +onlyGivenNames v4 at r2
  extract_lets -descend +onlyGivenNames st5 at r2
  have hst5 : Keeps [.cells, .hif, .cmds, .slices, .haul, .cvu, .floor, .pair, .emits] s st5 := by
    subst st5
    refine Keeps.each (fun st6 x7 => ?_) ?_
    · refine Keeps.next (State.updFloor_keeps ..) rfl ?_
      exact Keeps.refl
    · exact hst3
  try clear_value st5
  extract_lets -descend +onlyGivenNames st8 at r2
  have hst8 : Keeps [.cells, .hif, .cmds, .slices, .haul, .cvu, .floor, .pair, .emits] s st8 := by
    subst st8
    refine Keeps.each (fun st9 x10 => ?_) ?_
    · refine Keeps.next (State.xferFails_keeps ..) rfl ?_
      exact Keeps.refl
    · exact hst5
  try clear_value st8
  subst r2
  refine Keeps.each (fun st11 x12 => ?_) ?_
  · split
    · refine Keeps.ite ?_ ?_
      · refine Keeps.next (State.floorFailed_keeps ..) rfl ?_
        exact Keeps.refl
      · exact Keeps.refl
    · exact Keeps.refl
  · exact hst8

theorem State.clearOwnerLocks_keeps (s : State) : Keeps [.cells] s (State.clearOwnerLocks s) := by
  unfold State.clearOwnerLocks
  refine Keeps.each (fun st2 x3 => ?_) ?_
  · refine Keeps.next (State.put_keeps ..) rfl ?_
    exact Keeps.refl
  · exact Keeps.refl

theorem State.dropReads_keeps (s : State) : Keeps [.hif, .cmds, .hst, .ast] s (State.dropReads s) := by
  unfold State.dropReads
  show let r2 := _; Keeps _ _ r2
  intro r2
  extract_lets -descend +onlyGivenNames st3 at r2
  have hst3 : Keeps [.hif, .cmds, .hst, .ast] s st3 := by
    subst st3
    refine Keeps.set_hif (x := s) rfl ?_
    exact Keeps.refl
  try clear_value st3
  extract_lets -descend +onlyGivenNames st4 at r2
  have hst4 : Keeps [.hif, .cmds, .hst, .ast] s st4 := by
    subst st4
    refine Keeps.each (fun st5 x6 => ?_) ?_
    · refine Keeps.next (State.updSpace_keeps ..) rfl ?_
      exact Keeps.refl
    · exact hst3
  try clear_value st4
  extract_lets -descend +onlyGivenNames st7 at r2
  have hst7 : Keeps [.hif, .cmds, .hst, .ast] s st7 := by
    subst st7
    refine Keeps.each (fun st8 x9 => ?_) ?_
    · refine Keeps.next (State.updHst_keeps ..) rfl ?_
      exact Keeps.refl
    · exact hst4
  try clear_value st7
  subst r2
  refine Keeps.each (fun st10 x11 => ?_) ?_
  · refine Keeps.next (State.updAst_keeps ..) rfl ?_
    exact Keeps.refl
  · exact hst7

theorem State.resetMsix_keeps (s : State) : Keeps [.cells, .hif] s (State.resetMsix s) := by
  unfold State.resetMsix
  show let r2 := _; Keeps _ _ r2
  intro r2
  extract_lets -descend +onlyGivenNames st3 at r2
  have hst3 : Keeps [.cells, .hif] s st3 := by
    subst st3
    refine Keeps.next (State.resetKeys_keeps ..) rfl ?_
    exact Keeps.refl
  try clear_value st3
  subst r2
  refine Keeps.set_hif (x := st3) rfl ?_
  exact hst3

theorem State.flrSlice_keeps (s : State) (sl : ℕ) : Keeps [.cells, .hif, .cmds, .slices, .haul, .outs, .lyr, .csr,
    .cvu, .tch, .reflexDirty, .hap, .hst, .ast, .wld, .cic, .pair, .emits] s (State.flrSlice s sl) := by
  unfold State.flrSlice
  split
  · exact Keeps.refl
  · refine Keeps.next (State.settleReset_keeps ..) rfl ?_
    refine Keeps.next (State.updSpace_keeps ..) rfl ?_
    refine Keeps.next (State.updSlice_keeps ..) rfl ?_
    exact Keeps.refl
  · refine Keeps.next (State.startReset_keeps ..) rfl ?_
    exact Keeps.refl

theorem doFlr_keeps (s : State) : Keeps [.cells, .hif, .cmds, .slices, .haul, .outs, .lyr, .csr, .cvu, .floor, .tch,
    .reflexDirty, .hap, .hst, .ast, .wld, .cic, .pair, .emits] s (doFlr s) := by
  unfold doFlr
  show let r2 := _; Keeps _ _ r2
  intro r2
  extract_lets -descend +onlyGivenNames st3 at r2
  have hst3 : Keeps [.cells, .hif, .cmds, .slices, .haul, .outs, .lyr, .csr, .cvu, .floor, .tch, .reflexDirty, .hap,
      .hst, .ast, .wld, .cic, .pair, .emits] s st3 := by
    subst st3
    refine Keeps.next (State.decide_keeps ..) rfl ?_
    refine Keeps.next (State.noteReset_keeps ..) rfl ?_
    exact Keeps.refl
  try clear_value st3
  extract_lets -descend +onlyGivenNames st4 at r2
  have hst4 : Keeps [.cells, .hif, .cmds, .slices, .haul, .outs, .lyr, .csr, .cvu, .floor, .tch, .reflexDirty, .hap,
      .hst, .ast, .wld, .cic, .pair, .emits] s st4 := by
    subst st4
    refine Keeps.next (State.endStation_keeps ..) rfl ?_
    refine Keeps.next (State.clearOwnerLocks_keeps ..) rfl ?_
    refine Keeps.next (State.dropReads_keeps ..) rfl ?_
    refine Keeps.next (State.resetMsix_keeps ..) rfl ?_
    refine Keeps.set_hif (x := st3) rfl ?_
    exact hst3
  try clear_value st4
  extract_lets -descend +onlyGivenNames st5 at r2
  have hst5 : Keeps [.cells, .hif, .cmds, .slices, .haul, .outs, .lyr, .csr, .cvu, .floor, .tch, .reflexDirty, .hap,
      .hst, .ast, .wld, .cic, .pair, .emits] s st5 := by
    subst st5
    refine Keeps.each (fun st6 x7 => ?_) ?_
    · refine Keeps.next (State.flrSlice_keeps ..) rfl ?_
      exact Keeps.refl
    · exact hst4
  try clear_value st5
  extract_lets -descend +onlyGivenNames st8 at r2
  have hst8 : Keeps [.cells, .hif, .cmds, .slices, .haul, .outs, .lyr, .csr, .cvu, .floor, .tch, .reflexDirty, .hap,
      .hst, .ast, .wld, .cic, .pair, .emits] s st8 := by
    subst st8
    refine Keeps.next (State.resetKeys_keeps ..) rfl ?_
    exact hst5
  try clear_value st8
  extract_lets -descend +onlyGivenNames st9 at r2
  have hst9 : Keeps [.cells, .hif, .cmds, .slices, .haul, .outs, .lyr, .csr, .cvu, .floor, .tch, .reflexDirty, .hap,
      .hst, .ast, .wld, .cic, .pair, .emits] s st9 := by
    subst st9
    refine Keeps.each (fun st10 x11 => ?_) ?_
    · refine Keeps.next (State.updSpace_keeps ..) rfl ?_
      exact Keeps.refl
    · exact hst8
  try clear_value st9
  subst r2
  refine Keeps.next (State.updHaul_keeps ..) rfl ?_
  exact hst9

theorem doConfigWrite_keeps (f : CfgField) (data : List Byte) (s : State) : Keeps [.hif] s (doConfigWrite f data s)
    := by
  unfold doConfigWrite
  refine Keeps.ite ?_ ?_
  · exact Keeps.refl
  · show let r4 := _; Keeps _ _ r4
    intro r4
    extract_lets -descend +onlyGivenNames v5 at r4
    extract_lets -descend +onlyGivenNames v6 at r4
    extract_lets -descend +onlyGivenNames v7 at r4
    subst r4
    refine Keeps.set_hif (x := s) rfl ?_
    exact Keeps.refl

theorem configBus_keeps (r : Req) (f : CfgField) (len : ℕ) (data : Option (List Byte)) (poisoned : Bool) (s : State)
    : Keeps [.cells, .latches, .hif, .cmds, .slices, .haul, .outs, .lyr, .csr, .cvu, .floor, .tch, .reflexDirty, .hap,
    .hst, .ast, .wld, .cic, .pair, .freeCtr, .emits, .resp] s (configBus r f len data poisoned s) := by
  unfold configBus
  refine Keeps.ite ?_ ?_
  · refine Keeps.set_resp (x := s) rfl ?_
    exact Keeps.refl
  · refine Keeps.ite ?_ ?_
    · refine Keeps.set_resp (x := s) rfl ?_
      exact Keeps.refl
    · refine Keeps.ite ?_ ?_
      · refine Keeps.set_resp (x := s) rfl ?_
        exact Keeps.refl
      · split
        · refine Keeps.ite ?_ ?_
          · show let r7 := _; Keeps _ _ r7
            intro r7
            extract_lets -descend +onlyGivenNames st8 at r7
            have hst8 : Keeps [.cells, .latches, .hif, .cmds, .slices, .haul, .outs, .lyr, .csr, .cvu, .floor, .tch,
                .reflexDirty, .hap, .hst, .ast, .wld, .cic, .pair, .freeCtr, .emits, .resp] s st8 := by
              subst st8
              refine Keeps.next (State.poisonRefused_keeps ..) rfl ?_
              exact Keeps.refl
            try clear_value st8
            subst r7
            refine Keeps.set_resp (x := st8) rfl ?_
            exact hst8
          · refine Keeps.ite ?_ ?_
            · show let r9 := _; Keeps _ _ r9
              intro r9
              extract_lets -descend +onlyGivenNames st10 at r9
              have hst10 : Keeps [.cells, .latches, .hif, .cmds, .slices, .haul, .outs, .lyr, .csr, .cvu, .floor,
                  .tch, .reflexDirty, .hap, .hst, .ast, .wld, .cic, .pair, .freeCtr, .emits, .resp] s st10 := by
                subst st10
                refine Keeps.next (doFlr_keeps ..) rfl ?_
                exact Keeps.refl
              try clear_value st10
              subst r9
              refine Keeps.set_resp (x := st10) rfl ?_
              exact hst10
            · show let r11 := _; Keeps _ _ r11
              intro r11
              extract_lets -descend +onlyGivenNames st12 at r11
              have hst12 : Keeps [.cells, .latches, .hif, .cmds, .slices, .haul, .outs, .lyr, .csr, .cvu, .floor,
                  .tch, .reflexDirty, .hap, .hst, .ast, .wld, .cic, .pair, .freeCtr, .emits, .resp] s st12 := by
                subst st12
                refine Keeps.next (State.kick_keeps ..) rfl ?_
                refine Keeps.next (doConfigWrite_keeps ..) rfl ?_
                exact Keeps.refl
              try clear_value st12
              subst r11
              refine Keeps.set_resp (x := st12) rfl ?_
              exact hst12
        · refine Keeps.set_resp (x := s) rfl ?_
          exact Keeps.refl

theorem State.csrAccess_keeps {l : List Field} (s : State) (r : Req) (f : Nat → Option State)
    (hl : List.all [.wld, .freeCtr, .resp] l.contains = true) (hf : ∀ c t, f c = some t → Keeps l s t) : Keeps l s
        (s.csrAccess r f) := by
  have hr : l.contains Field.resp = true := by simp at hl ⊢; exact hl.2.2
  have hi : List.all [Field.wld, Field.freeCtr] l.contains = true := Field.within rfl hl
  unfold State.csrAccess
  split
  · exact Keeps.set_resp hr Keeps.refl
  · dsimp only
    refine Keeps.ite (Keeps.set_resp hr Keeps.refl) (Keeps.ite ((State.illegal_keeps ..).weaken hi) ?_)
    split
    · exact hf _ _ ‹_›
    · exact (State.illegal_keeps ..).weaken hi

theorem State.gateRefuse_keeps (s : State) (c : ℕ) (rd : ℕ) (status : ℕ) : Keeps [.cells, .wld] s (State.gateRefuse
    s c rd status) := by
  unfold State.gateRefuse
  refine Keeps.next (State.count_keeps ..) rfl ?_
  refine Keeps.next (State.updCore_keeps ..) rfl ?_
  exact Keeps.refl

theorem doGateCall_keeps (c : ℕ) (rd : ℕ) (rs1 : Word) (s : State) : Keeps [.cells, .wld, .mem, .freeCtr] s
    (doGateCall c rd rs1 s) := by
  unfold doGateCall
  show let r5 := _; Keeps _ _ r5
  intro r5
  extract_lets -descend +onlyGivenNames v6 at r5
  extract_lets -descend +onlyGivenNames v7 at r5
  subst r5
  refine Keeps.ite ?_ ?_
  · exact Keeps.refl
  · refine Keeps.ite ?_ ?_
    · refine Keeps.next (State.illegal_keeps ..) rfl ?_
      exact Keeps.refl
    · refine Keeps.ite ?_ ?_
      · refine Keeps.next (State.gateRefuse_keeps ..) rfl ?_
        exact Keeps.refl
      · refine Keeps.ite ?_ ?_
        · refine Keeps.next (State.gateRefuse_keeps ..) rfl ?_
          exact Keeps.refl
        · refine Keeps.ite ?_ ?_
          · refine Keeps.next (State.gateRefuse_keeps ..) rfl ?_
            exact Keeps.refl
          · show let r8 := _; Keeps _ _ r8
            intro r8
            extract_lets -descend +onlyGivenNames st9 at r8
            have hst9 : Keeps [.cells, .wld, .mem, .freeCtr] s st9 := by
              subst st9
              refine Keeps.next (State.takeToken_keeps ..) rfl ?_
              refine Keeps.next (State.saveRegs_keeps ..) rfl ?_
              exact Keeps.refl
            try clear_value st9
            extract_lets -descend +onlyGivenNames st10 at r8
            have hst10 : Keeps [.cells, .wld, .mem, .freeCtr] s st10 := by
              subst st10
              refine Keeps.next (State.setCore_keeps ..) rfl ?_
              exact hst9
            try clear_value st10
            subst r8
            refine Keeps.next (State.count_keeps ..) rfl ?_
            exact hst10

theorem State.cleanL1d_keeps (s : State) (c : ℕ) (pw : Bool) : Keeps [.cells, .hif, .wld, .cic, .dmc, .pair, .mem,
    .freeCtr, .emits] s (State.cleanL1d s c pw) := by
  unfold State.cleanL1d
  refine Keeps.next (State.cleanLines_keeps ..) rfl ?_
  exact Keeps.refl

theorem State.invL1d_keeps (s : State) (c : ℕ) (pw : Bool) : Keeps [.wld] s (State.invL1d s c pw) := by
  unfold State.invL1d
  refine Keeps.next (State.dropLines_keeps ..) rfl ?_
  exact Keeps.refl

theorem State.invL1i_keeps (s : State) (c : ℕ) (pw : Bool) : Keeps [.wld] s (State.invL1i s c pw) := by
  unfold State.invL1i
  refine Keeps.next (State.dropLines_keeps ..) rfl ?_
  exact Keeps.refl

theorem State.cleanL2_keeps (s : State) (c : ℕ) (pw : Bool) : Keeps [.cells, .hif, .wld, .cic, .dmc, .pair, .mem,
    .freeCtr, .emits] s (State.cleanL2 s c pw) := by
  unfold State.cleanL2
  refine Keeps.next (State.cleanLines_keeps ..) rfl ?_
  exact Keeps.refl

theorem State.invL2_keeps (s : State) (c : ℕ) (pw : Bool) : Keeps [.wld] s (State.invL2 s c pw) := by
  unfold State.invL2
  refine Keeps.next (State.dropLines_keeps ..) rfl ?_
  exact Keeps.refl

theorem State.wcache_keeps (s : State) (c : ℕ) (v : Word) : Keeps [.cells, .hif, .wld, .cic, .dmc, .pair, .mem,
    .freeCtr, .emits] s (State.wcache s c v) := by
  unfold State.wcache
  show let r4 := _; Keeps _ _ r4
  intro r4
  extract_lets -descend +onlyGivenNames v5 at r4
  extract_lets -descend +onlyGivenNames st6 at r4
  have hst6 : Keeps [.cells, .hif, .wld, .cic, .dmc, .pair, .mem, .freeCtr, .emits] s st6 := by
    subst st6
    refine Keeps.ite ?_ ?_
    · refine Keeps.next (State.cleanL1d_keeps ..) rfl ?_
      exact Keeps.refl
    · exact Keeps.refl
  try clear_value st6
  extract_lets -descend +onlyGivenNames st7 at r4
  have hst7 : Keeps [.cells, .hif, .wld, .cic, .dmc, .pair, .mem, .freeCtr, .emits] s st7 := by
    subst st7
    refine Keeps.ite ?_ ?_
    · refine Keeps.next (State.invL1d_keeps ..) rfl ?_
      exact hst6
    · exact hst6
  try clear_value st7
  extract_lets -descend +onlyGivenNames st8 at r4
  have hst8 : Keeps [.cells, .hif, .wld, .cic, .dmc, .pair, .mem, .freeCtr, .emits] s st8 := by
    subst st8
    refine Keeps.ite ?_ ?_
    · refine Keeps.next (State.invL1i_keeps ..) rfl ?_
      exact hst7
    · exact hst7
  try clear_value st8
  extract_lets -descend +onlyGivenNames st9 at r4
  have hst9 : Keeps [.cells, .hif, .wld, .cic, .dmc, .pair, .mem, .freeCtr, .emits] s st9 := by
    subst st9
    refine Keeps.ite ?_ ?_
    · refine Keeps.next (State.cleanL2_keeps ..) rfl ?_
      exact hst8
    · exact hst8
  try clear_value st9
  subst r4
  refine Keeps.ite ?_ ?_
  · refine Keeps.next (State.invL2_keeps ..) rfl ?_
    exact hst9
  · exact hst9

theorem State.csrWrite_keeps {s t : State} {c n : Nat} {v : Word} (h : s.csrWrite c n v = some t) :
    Keeps [.cells, .hif, .wld, .cic, .dmc, .pair, .mem, .freeCtr, .emits] s t := by
  unfold State.csrWrite at h
  dsimp only at h
  have hn : ∀ s : State, Keeps [.cells, .hif, .wld, .cic, .dmc, .pair, .mem, .freeCtr, .emits] s (s.updCore c
      CoreSt.next) := fun s => (State.updCore_keeps ..).weaken rfl
  split at h
  · cases h
    exact (doGateCall_keeps ..).weaken rfl
  · split at h
    · cases h
      exact (exitWorld_keeps ..).weaken rfl
    · split at h
      · cases h
        exact ((State.wcache_keeps ..).weaken rfl).trans (hn _)
      · split at h
        · cases h
          exact hn _
        · split at h
          · cases h
            exact ((State.updCore_keeps ..).weaken rfl).trans (hn _)
          · split at h
            · cases h
              exact ((State.updCore_keeps ..).weaken rfl).trans (hn _)
            · cases h

theorem doCsrWrite_keeps (r : Req) (n : Nat) (v : Word) (s : State) : Keeps [.cells, .hif, .wld, .cic, .dmc, .pair,
    .mem, .freeCtr, .emits, .resp] s (doCsrWrite r n v s) := by
  unfold doCsrWrite
  exact State.csrAccess_keeps _ _ _ rfl fun c t h => (State.csrWrite_keeps h).weaken rfl

theorem targetWrite_keeps (r : Req) (t : Target) (data : List Byte) (poisoned : Bool) (s : State) : Keeps Field.list
    s (targetWrite r t data poisoned s) := by
  unfold targetWrite
  split
  · refine Keeps.next (busWrite_keeps ..) rfl ?_
    exact Keeps.refl
  · refine Keeps.next (bar4Bus_keeps ..) rfl ?_
    exact Keeps.refl
  · refine Keeps.next (configBus_keeps ..) rfl ?_
    exact Keeps.refl
  · refine Keeps.next (doCsrWrite_keeps ..) rfl ?_
    exact Keeps.refl

theorem State.csrRead_keeps {s t : State} {c n : Nat} {v : Word} (h : s.csrRead c n = some (v, t)) :
    Keeps [.wld, .freeCtr] s t := by
  unfold State.csrRead at h
  dsimp only at h
  repeat' first
    | (cases h; exact Keeps.refl)
    | (cases h; exact Keeps.next (State.updCore_keeps ..) rfl ((State.free_keeps ..).weaken rfl))
    | split at h
    | cases h

theorem doCsrRead_keeps (r : Req) (n : Nat) (s : State) : Keeps [.wld, .freeCtr, .resp] s (doCsrRead r n s) := by
  unfold doCsrRead
  refine State.csrAccess_keeps _ _ _ rfl fun c t h => ?_
  simp only [Option.map_eq_some_iff] at h
  obtain ⟨⟨v, u⟩, hu, rfl⟩ := h
  refine Keeps.set_resp rfl ?_
  exact Keeps.next (State.updCore_keeps ..) rfl ((State.csrRead_keeps hu).weaken rfl)

theorem targetRead_keeps (r : Req) (t : Target) (len : ℕ) (s : State) : Keeps [.cells, .latches, .hif, .cmds,
    .slices, .haul, .outs, .lyr, .csr, .cvu, .floor, .tch, .reflexDirty, .hap, .hst, .ast, .wld, .cic, .pair, .freeCtr,
    .emits, .resp] s (targetRead r t len s) := by
  unfold targetRead
  split
  · refine Keeps.next (busRead_keeps ..) rfl ?_
    exact Keeps.refl
  · refine Keeps.next (bar4Bus_keeps ..) rfl ?_
    exact Keeps.refl
  · refine Keeps.next (configBus_keeps ..) rfl ?_
    exact Keeps.refl
  · refine Keeps.next (doCsrRead_keeps ..) rfl ?_
    exact Keeps.refl

theorem writeCmd_keeps (r : Req) (sp : ℕ) (op : ℕ) (a : CmdArgs) (s : State) : Keeps Field.list s (writeCmd r sp op
    a s) := by
  unfold writeCmd
  show let r6 := _; Keeps _ _ r6
  intro r6
  extract_lets -descend +onlyGivenNames st7 at r6
  have hst7 : Keeps Field.list s st7 := by
    subst st7
    refine Keeps.each (fun st8 x9 => ?_) ?_
    · refine Keeps.next (writeWord_keeps ..) rfl ?_
      exact Keeps.refl
    · exact Keeps.refl
  try clear_value st7
  subst r6
  refine Keeps.next (writeWord_keeps ..) rfl ?_
  exact hst7

theorem writeAccRaw_keeps (r : Req) (n : ℕ) (v : Word) (reply : BitVec 24) (s : State) : Keeps Field.list s
    (writeAccRaw r n v reply s) := by
  unfold writeAccRaw
  show let r6 := _; Keeps _ _ r6
  intro r6
  extract_lets -descend +onlyGivenNames v7 at r6
  subst r6
  refine Keeps.ite ?_ ?_
  · show let r8 := _; Keeps _ _ r8
    intro r8
    extract_lets -descend +onlyGivenNames st9 at r8
    have hst9 : Keeps Field.list s st9 := by
      subst st9
      refine Keeps.next (State.mirrorReg_keeps ..) rfl ?_
      refine Keeps.next (doAccRaw_keeps ..) rfl ?_
      exact Keeps.refl
    try clear_value st9
    subst r8
    refine Keeps.set_resp (x := st9) rfl ?_
    exact hst9
  · refine Keeps.next (writeWord_keeps ..) rfl ?_
    exact Keeps.refl

theorem writeStream_keeps (r : Req) (sl : ℕ) (ch : Option ℕ) (w : ℕ) (v : Word) (s : State) : Keeps Field.list s
    (writeStream r sl ch w v s) := by
  unfold writeStream
  split
  · refine Keeps.next (writeWord_keeps ..) rfl ?_
    refine Keeps.next (writeWord_keeps ..) rfl ?_
    exact Keeps.refl
  · refine Keeps.next (writeWord_keeps ..) rfl ?_
    refine Keeps.next (writeWord_keeps ..) rfl ?_
    exact Keeps.refl

theorem State.askResetRemoval_keeps (s : State) (o : ℕ) (r : Removal) (covers : Commit → Bool) : Keeps [.cells,
    .hif, .cmds, .slices, .outs, .lyr, .csr, .wld, .cic, .pair, .emits] s (State.askResetRemoval s o r covers) := by
  unfold State.askResetRemoval
  show let r5 := _; Keeps _ _ r5
  intro r5
  extract_lets -descend +onlyGivenNames v6 at r5
  subst r5
  refine Keeps.ite ?_ ?_
  · refine Keeps.next (State.updOut_keeps ..) rfl ?_
    exact Keeps.refl
  · refine Keeps.next (State.askRemoval_keeps ..) rfl ?_
    exact Keeps.refl

theorem State.softTables_keeps (s : State) (ty : ℕ) (inst : ℕ) : Keeps [.cells, .hif, .cmds, .slices, .haul, .outs,
    .lyr, .csr, .cvu, .tch, .reflexDirty, .hap, .wld, .cic, .pair, .emits] s (State.softTables s ty inst) := by
  unfold State.softTables
  split
  · refine Keeps.next (State.setEngine_keeps ..) rfl ?_
    exact Keeps.refl
  · refine Keeps.next (State.updOut_keeps ..) rfl ?_
    exact Keeps.refl
  · show let r4 := _; Keeps _ _ r4
    intro r4
    extract_lets -descend +onlyGivenNames v5 at r4
    subst r4
    refine Keeps.next (State.askResetRemoval_keeps ..) rfl ?_
    refine Keeps.next (State.updLayer_keeps ..) rfl ?_
    exact Keeps.refl
  · refine Keeps.ite ?_ ?_
    · exact Keeps.refl
    · refine Keeps.next (State.cvReset_keeps ..) rfl ?_
      exact Keeps.refl
  · refine Keeps.next (State.askResetRemoval_keeps ..) rfl ?_
    refine Keeps.next (State.clearRegionShadow_keeps ..) rfl ?_
    exact Keeps.refl
  · show let r6 := _; Keeps _ _ r6
    intro r6
    extract_lets -descend +onlyGivenNames v7 at r6
    extract_lets -descend +onlyGivenNames st8 at r6
    have hst8 : Keeps [.cells, .hif, .cmds, .slices, .haul, .outs, .lyr, .csr, .cvu, .tch, .reflexDirty, .hap, .wld,
        .cic, .pair, .emits] s st8 := by
      subst st8
      refine Keeps.next (State.resetKeys_keeps ..) rfl ?_
      exact Keeps.refl
    try clear_value st8
    extract_lets -descend +onlyGivenNames st9 at r6
    have hst9 : Keeps [.cells, .hif, .cmds, .slices, .haul, .outs, .lyr, .csr, .cvu, .tch, .reflexDirty, .hap, .wld,
        .cic, .pair, .emits] s st9 := by
      subst st9
      refine Keeps.next (State.resetKeys_keeps ..) rfl ?_
      exact hst8
    try clear_value st9
    subst r6
    refine Keeps.set_reflexDirty (x := st9) rfl ?_
    exact hst9
  · show let r10 := _; Keeps _ _ r10
    intro r10
    extract_lets -descend +onlyGivenNames st11 at r10
    have hst11 : Keeps [.cells, .hif, .cmds, .slices, .haul, .outs, .lyr, .csr, .cvu, .tch, .reflexDirty, .hap,
        .wld, .cic, .pair, .emits] s st11 := by
      subst st11
      refine Keeps.next (State.resetKeys_keeps ..) rfl ?_
      exact Keeps.refl
    try clear_value st11
    extract_lets -descend +onlyGivenNames st12 at r10
    have hst12 : Keeps [.cells, .hif, .cmds, .slices, .haul, .outs, .lyr, .csr, .cvu, .tch, .reflexDirty, .hap,
        .wld, .cic, .pair, .emits] s st12 := by
      subst st12
      refine Keeps.ite ?_ ?_
      · exact hst11
      · refine Keeps.next (State.resetKeys_keeps ..) rfl ?_
        exact hst11
    try clear_value st12
    subst r10
    refine Keeps.next (State.updPanel_keeps ..) rfl ?_
    exact hst12
  · refine Keeps.next (State.updChan_keeps ..) rfl ?_
    exact Keeps.refl
  · refine Keeps.next (State.resetKeys_keeps ..) rfl ?_
    exact Keeps.refl
  · exact Keeps.refl

theorem doSoftResetDone_keeps (pg : ℕ) (s : State) : Keeps [.cells, .hif, .cmds, .slices, .haul, .outs, .lyr, .csr,
    .cvu, .tch, .reflexDirty, .hap, .wld, .cic, .pair, .emits] s (doSoftResetDone pg s) := by
  unfold doSoftResetDone
  refine Keeps.ite ?_ ?_
  · exact Keeps.refl
  · split
    · exact Keeps.refl
    · show let r3 := _; Keeps _ _ r3
      intro r3
      extract_lets -descend +onlyGivenNames st4 at r3
      have hst4 : Keeps [.cells, .hif, .cmds, .slices, .haul, .outs, .lyr, .csr, .cvu, .tch, .reflexDirty, .hap,
          .wld, .cic, .pair, .emits] s st4 := by
        subst st4
        refine Keeps.set_hif (x := s) rfl ?_
        exact Keeps.refl
      try clear_value st4
      extract_lets -descend +onlyGivenNames st5 at r3
      have hst5 : Keeps [.cells, .hif, .cmds, .slices, .haul, .outs, .lyr, .csr, .cvu, .tch, .reflexDirty, .hap,
          .wld, .cic, .pair, .emits] s st5 := by
        subst st5
        refine Keeps.each (fun st6 x7 => ?_) ?_
        · refine Keeps.next (State.wr_keeps ..) rfl ?_
          exact Keeps.refl
        · exact hst4
      try clear_value st5
      subst r3
      refine Keeps.next (State.softTables_keeps ..) rfl ?_
      exact hst5

theorem doTimerAssert_keeps (n : ℕ) (s : State) : Keeps [.wld, .cic] s (doTimerAssert n s) := by
  unfold doTimerAssert
  refine Keeps.next (State.syncTimer_keeps ..) rfl ?_
  exact Keeps.refl

theorem doMsixPending_keeps (vec : ℕ) (s : State) : Keeps [.cells, .hif, .emits] s (doMsixPending vec s) := by
  unfold doMsixPending
  refine Keeps.ite ?_ ?_
  · show let r3 := _; Keeps _ _ r3
    intro r3
    extract_lets -descend +onlyGivenNames st4 at r3
    have hst4 : Keeps [.cells, .hif, .emits] s st4 := by
      subst st4
      refine Keeps.ite ?_ ?_
      · refine Keeps.set_hif (x := s) rfl ?_
        exact Keeps.refl
      · exact Keeps.refl
    try clear_value st4
    subst r3
    refine Keeps.next (State.dueMsix_keeps ..) rfl ?_
    refine Keeps.next (State.setPba_keeps ..) rfl ?_
    exact hst4
  · exact Keeps.refl

theorem doModerationEnd_keeps (vec : ℕ) (s : State) : Keeps [.cells, .hif, .emits] s (doModerationEnd vec s) := by
  unfold doModerationEnd
  refine Keeps.ite ?_ ?_
  · refine Keeps.ite ?_ ?_
    · refine Keeps.next (State.sendMsix_keeps ..) rfl ?_
      exact Keeps.refl
    · refine Keeps.next (State.setPba_keeps ..) rfl ?_
      refine Keeps.set_hif (x := s) rfl ?_
      exact Keeps.refl
  · exact Keeps.refl

theorem doRampStep_keeps (d : ℕ) (s : State) : Keeps [.clk] s (doRampStep d s) := by
  unfold doRampStep
  refine Keeps.ite ?_ ?_
  · refine Keeps.next (State.setDom_keeps ..) rfl ?_
    exact Keeps.refl
  · exact Keeps.refl

theorem State.toPrimary_keeps (s : State) (d : ℕ) : Keeps [.clk] s (State.toPrimary s d) := by
  unfold State.toPrimary
  show let r3 := _; Keeps _ _ r3
  intro r3
  extract_lets -descend +onlyGivenNames v4 at r3
  subst r3
  refine Keeps.ite ?_ ?_
  · refine Keeps.next (State.setDom_keeps ..) rfl ?_
    exact Keeps.refl
  · refine Keeps.ite ?_ ?_
    · exact Keeps.refl
    · refine Keeps.ite ?_ ?_
      · refine Keeps.next (State.setDom_keeps ..) rfl ?_
        exact Keeps.refl
      · refine Keeps.next (State.setDom_keeps ..) rfl ?_
        exact Keeps.refl

theorem State.toCoast_keeps (s : State) (d : ℕ) : Keeps [.clk] s (State.toCoast s d) := by
  unfold State.toCoast
  show let r3 := _; Keeps _ _ r3
  intro r3
  extract_lets -descend +onlyGivenNames v4 at r3
  subst r3
  refine Keeps.ite ?_ ?_
  · refine Keeps.next (State.setDom_keeps ..) rfl ?_
    exact Keeps.refl
  · refine Keeps.next (State.setDom_keeps ..) rfl ?_
    exact Keeps.refl

theorem doEscape_keeps (d : ℕ) (s : State) : Keeps [.cells, .hif, .wld, .cic, .clk, .emits] s (doEscape d s) := by
  unfold doEscape
  show let r3 := _; Keeps _ _ r3
  intro r3
  extract_lets -descend +onlyGivenNames v4 at r3
  subst r3
  split
  · exact Keeps.refl
  · show let r5 := _; Keeps _ _ r5
    intro r5
    extract_lets -descend +onlyGivenNames st6 at r5
    have hst6 : Keeps [.cells, .hif, .wld, .cic, .clk, .emits] s st6 := by
      subst st6
      refine Keeps.next (State.setDom_keeps ..) rfl ?_
      exact Keeps.refl
    try clear_value st6
    subst r5
    refine Keeps.next (State.event_keeps ..) rfl ?_
    exact hst6

theorem doRefFailure_keeps (s : State) : Keeps [.cells, .hif, .wld, .cic, .clk, .emits] s (doRefFailure s) := by
  unfold doRefFailure
  show let r2 := _; Keeps _ _ r2
  intro r2
  extract_lets -descend +onlyGivenNames st3 at r2
  have hst3 : Keeps [.cells, .hif, .wld, .cic, .clk, .emits] s st3 := by
    subst st3
    refine Keeps.set_clk (x := s) rfl ?_
    exact Keeps.refl
  try clear_value st3
  subst r2
  refine Keeps.ite ?_ ?_
  · show let r4 := _; Keeps _ _ r4
    intro r4
    extract_lets -descend +onlyGivenNames st5 at r4
    have hst5 : Keeps [.cells, .hif, .wld, .cic, .clk, .emits] s st5 := by
      subst st5
      refine Keeps.next (State.count_keeps ..) rfl ?_
      refine Keeps.next (State.clrF_keeps ..) rfl ?_
      exact hst3
    try clear_value st5
    extract_lets -descend +onlyGivenNames st6 at r4
    have hst6 : Keeps [.cells, .hif, .wld, .cic, .clk, .emits] s st6 := by
      subst st6
      refine Keeps.next (State.setF_keeps ..) rfl ?_
      exact hst5
    try clear_value st6
    extract_lets -descend +onlyGivenNames st7 at r4
    have hst7 : Keeps [.cells, .hif, .wld, .cic, .clk, .emits] s st7 := by
      subst st7
      refine Keeps.set_clk (x := st6) rfl ?_
      exact hst6
    try clear_value st7
    subst r4
    refine Keeps.next (State.event_keeps ..) rfl ?_
    exact hst7
  · exact hst3

theorem doXoWindow_keeps (edges : ℕ) (s : State) : Keeps [.cells, .hif, .wld, .cic, .clk, .emits] s (doXoWindow
    edges s) := by
  unfold doXoWindow
  refine Keeps.ite ?_ ?_
  · show let r3 := _; Keeps _ _ r3
    intro r3
    extract_lets -descend +onlyGivenNames st4 at r3
    have hst4 : Keeps [.cells, .hif, .wld, .cic, .clk, .emits] s st4 := by
      subst st4
      refine Keeps.next (State.wrN_keeps ..) rfl ?_
      exact Keeps.refl
    try clear_value st4
    extract_lets -descend +onlyGivenNames v5 at r3
    extract_lets -descend +onlyGivenNames st6 at r3
    have hst6 : Keeps [.cells, .hif, .wld, .cic, .clk, .emits] s st6 := by
      subst st6
      refine Keeps.ite ?_ ?_
      · refine Keeps.ite ?_ ?_
        · exact hst4
        · refine Keeps.next (doRefFailure_keeps ..) rfl ?_
          exact hst4
      · refine Keeps.set_clk (x := st4) rfl ?_
        exact hst4
    try clear_value st6
    subst r3
    refine Keeps.set_clk (x := st6) rfl ?_
    exact hst6
  · exact Keeps.refl

theorem doXoLost_keeps (s : State) : Keeps [.cells, .hif, .wld, .cic, .clk, .emits] s (doXoLost s) := by
  unfold doXoLost
  refine Keeps.ite ?_ ?_
  · refine Keeps.next (State.event_keeps ..) rfl ?_
    refine Keeps.next (State.clrF_keeps ..) rfl ?_
    refine Keeps.set_clk (x := s) rfl ?_
    exact Keeps.refl
  · exact Keeps.refl

theorem doXoPresent_keeps (s : State) : Keeps [.cells, .clk] s (doXoPresent s) := by
  unfold doXoPresent
  refine Keeps.next (State.setF_keeps ..) rfl ?_
  refine Keeps.set_clk (x := s) rfl ?_
  exact Keeps.refl

theorem State.passLoop_keeps (s : State) (t : ℕ) : Keeps [.ticks] s (State.passLoop s t) := by
  unfold State.passLoop
  refine Keeps.set_ticks (x := s) rfl ?_
  exact Keeps.refl

theorem State.passStation_keeps (s : State) (t : ℕ) : Keeps [.ticks] s (State.passStation s t) := by
  unfold State.passStation
  refine Keeps.set_ticks (x := s) rfl ?_
  exact Keeps.refl

theorem State.timeUncertain_keeps (s : State) : Keeps [.cells] s (State.timeUncertain s) := by
  unfold State.timeUncertain
  refine Keeps.next (State.setF_keeps ..) rfl ?_
  exact Keeps.refl

theorem State.begin_keeps (s : State) : Keeps [.emits, .resp] s s.begin := by
  unfold State.begin
  exact Keeps.set_resp (x := { s with emits := [] }) rfl (Keeps.set_emits rfl Keeps.refl)

theorem idleTick_keeps (s : State) : Keeps [.time, .emits, .resp] s (idleTick s) := by
  unfold idleTick
  refine Keeps.ite ?_ ?_
  · refine Keeps.next (State.begin_keeps ..) rfl ?_
    exact Keeps.refl
  · refine Keeps.ite ?_ ?_
    · show let r2 := _; Keeps _ _ r2
      intro r2
      extract_lets -descend +onlyGivenNames st3 at r2
      have hst3 : Keeps [.time, .emits, .resp] s st3 := by
        subst st3
        refine Keeps.next (State.begin_keeps ..) rfl ?_
        exact Keeps.refl
      try clear_value st3
      subst r2
      refine Keeps.set_time (x := st3) rfl ?_
      exact hst3
    · refine Keeps.ite ?_ ?_
      · refine Keeps.next (State.begin_keeps ..) rfl ?_
        exact Keeps.refl
      · show let r4 := _; Keeps _ _ r4
        intro r4
        extract_lets -descend +onlyGivenNames st5 at r4
        have hst5 : Keeps [.time, .emits, .resp] s st5 := by
          subst st5
          refine Keeps.next (State.begin_keeps ..) rfl ?_
          exact Keeps.refl
        try clear_value st5
        subst r4
        refine Keeps.set_time (x := st5) rfl ?_
        exact hst5

theorem State.guestWait_keeps (s : State) (i : ℕ) (w : GuestWrite) : Keeps [.cells, .slices] s (State.guestWait s i
    w) := by
  unfold State.guestWait
  refine Keeps.next (State.updSlice_keeps ..) rfl ?_
  refine Keeps.next (State.dlogStall_keeps ..) rfl ?_
  exact Keeps.refl

theorem doSubmissionEntry_keeps (sp : ℕ) (s : State) : Keeps [.cells, .latches, .hif, .cmds, .slices, .haul, .outs,
    .cvu, .floor, .wld, .cic, .pair, .freeCtr, .emits] s (doSubmissionEntry sp s) := by
  unfold doSubmissionEntry
  show let r3 := _; Keeps _ _ r3
  intro r3
  extract_lets -descend +onlyGivenNames v4 at r3
  subst r3
  refine Keeps.ite ?_ ?_
  · refine Keeps.ite ?_ ?_
    · refine Keeps.next (State.guestWait_keeps ..) rfl ?_
      exact Keeps.refl
    · exact Keeps.refl
  · refine Keeps.next (State.takeEntry_keeps ..) rfl ?_
    exact Keeps.refl

theorem State.accessFault_keeps (s : State) (c a : Nat) (k : AccessKind) : Keeps [.cells, .hif, .wld, .cic, .emits]
    s (s.accessFault c a k).2 := by
  unfold State.accessFault
  dsimp only
  have hd : ∀ g off, Keeps [.cells, .hif, .wld, .cic, .emits] s (s.denial (AccessKind.isStore k) g c off) := fun g
      off =>
    (State.denial_keeps ..).weaken rfl
  refine Keeps.ite2 Keeps.refl (Keeps.ite2 Keeps.refl (Keeps.ite2 (Keeps.ite2 (hd _ _) Keeps.refl) (Keeps.ite2
    (Keeps.ite2 (hd _ _) Keeps.refl) (Keeps.ite2 Keeps.refl (Keeps.ite2 (Keeps.ite2 (hd _ _) Keeps.refl)
      (Keeps.ite2 (Keeps.ite2 Keeps.refl (Keeps.ite2 (hd _ _) Keeps.refl)) Keeps.refl))))))

theorem State.fillLine_keeps (s : State) (cache : ℕ) (instr : Bool) (d : ℕ) (data : List Byte) : Keeps [.cells,
    .hif, .wld, .cic, .dmc, .pair, .mem, .freeCtr, .emits] s (State.fillLine s cache instr d data) := by
  unfold State.fillLine
  show let r6 := _; Keeps _ _ r6
  intro r6
  extract_lets -descend +onlyGivenNames v7 at r6
  subst r6
  split
  · rename_i _ st8 e9
    have hst8 : Keeps [.cells, .hif, .wld, .cic, .dmc, .pair, .mem, .freeCtr, .emits] s st8 := by
      refine Keeps.snd e9 ?_
      refine Keeps.next (State.free_keeps ..) rfl ?_
      exact Keeps.refl
    show let r10 := _; Keeps _ _ r10
    intro r10
    extract_lets -descend +onlyGivenNames v11 at r10
    extract_lets -descend +onlyGivenNames v12 at r10
    extract_lets -descend +onlyGivenNames st13 at r10
    have hst13 : Keeps [.cells, .hif, .wld, .cic, .dmc, .pair, .mem, .freeCtr, .emits] s st13 := by
      subst st13
      refine Keeps.next (State.dropLines_keeps ..) rfl ?_
      refine Keeps.next (State.cleanLines_keeps ..) rfl ?_
      exact hst8
    try clear_value st13
    subst r10
    refine Keeps.set_wld (x := st13) rfl id ?_
    exact hst13

theorem State.snoop_keeps (s : State) (c : ℕ) (instr : Bool) (d : ℕ) : Keeps [.cells, .hif, .wld, .cic, .dmc, .pair,
    .mem, .freeCtr, .emits] s (State.snoop s c instr d) := by
  unfold State.snoop
  refine Keeps.next (State.cleanLines_keeps ..) rfl ?_
  exact Keeps.refl

theorem State.l2Line_keeps (s : State) (c : ℕ) (d : ℕ) (ecc : Ecc) : Keeps [.cells, .hif, .wld, .cic, .dmc, .pair,
    .mem, .freeCtr, .emits] s (State.l2Line s c d ecc).2 := by
  unfold State.l2Line
  split
  · show Keeps _ _ _
    exact Keeps.refl
  · split
    · rename_i _ st5 e6
      have hst5 : Keeps [.cells, .hif, .wld, .cic, .dmc, .pair, .mem, .freeCtr, .emits] s st5 := by
        refine Keeps.snd e6 ?_
        refine Keeps.next (State.readBlock_keeps ..) rfl ?_
        exact Keeps.refl
      show let r7 := _; Keeps _ _ (Prod.snd r7)
      intro r7
      extract_lets -descend +onlyGivenNames v8 at r7
      subst r7
      refine Keeps.ite2 ?_ ?_
      · show Keeps _ _ _
        refine Keeps.next (State.fillLine_keeps ..) rfl ?_
        exact hst5
      · show Keeps _ _ _
        exact hst5

theorem State.l1Line_keeps (s : State) (c : ℕ) (instr : Bool) (d : ℕ) (ecc : Ecc) : Keeps [.cells, .hif, .wld, .cic,
    .dmc, .pair, .mem, .freeCtr, .emits] s (State.l1Line s c instr d ecc).2 := by
  unfold State.l1Line
  split
  · show Keeps _ _ _
    exact Keeps.refl
  · split
    · rename_i _ st6 e7
      have hst6 : Keeps [.cells, .hif, .wld, .cic, .dmc, .pair, .mem, .freeCtr, .emits] s st6 := by
        refine Keeps.snd e7 ?_
        refine Keeps.next (State.l2Line_keeps ..) rfl ?_
        refine Keeps.next (State.snoop_keeps ..) rfl ?_
        exact Keeps.refl
      show Keeps _ _ _
      refine Keeps.next (State.fillLine_keeps ..) rfl ?_
      exact hst6
    · rename_i st8 e9
      have hst8 : Keeps [.cells, .hif, .wld, .cic, .dmc, .pair, .mem, .freeCtr, .emits] s st8 := by
        refine Keeps.snd e9 ?_
        refine Keeps.next (State.l2Line_keeps ..) rfl ?_
        refine Keeps.next (State.snoop_keeps ..) rfl ?_
        exact Keeps.refl
      show Keeps _ _ _
      exact hst8

theorem State.cachedRead_keeps (s : State) (c a len : Nat) (instr : Bool) (ecc : Ecc) :
    Keeps [.cells, .hif, .wld, .cic, .dmc, .pair, .mem, .freeCtr, .emits] s (s.cachedRead c a len instr ecc).2 := by
  unfold State.cachedRead
  refine Keeps.foldl2 (fun q d => ?_) Keeps.refl
  exact (State.l1Line_keeps ..).weaken rfl

theorem State.cachedStore_keeps (s : State) (c : ℕ) (ecc : Ecc) (at_ : ℕ) (b : List Byte) (d : ℕ) (world1 : Bool) :
    Keeps [.cells, .hif, .wld, .cic, .dmc, .pair, .mem, .freeCtr, .emits] s (State.cachedStore s c ecc at_ b d world1)
    := by
  unfold State.cachedStore
  split
  · rename_i st8 e9
    have hst8 : Keeps [.cells, .hif, .wld, .cic, .dmc, .pair, .mem, .freeCtr, .emits] s st8 := by
      refine Keeps.snd e9 ?_
      refine Keeps.next (State.l1Line_keeps ..) rfl ?_
      exact Keeps.refl
    refine Keeps.next (State.coreDramWrite_keeps ..) rfl ?_
    exact hst8
  · rename_i _ st10 e11
    have hst10 : Keeps [.cells, .hif, .wld, .cic, .dmc, .pair, .mem, .freeCtr, .emits] s st10 := by
      refine Keeps.snd e11 ?_
      refine Keeps.next (State.l1Line_keeps ..) rfl ?_
      exact Keeps.refl
    show let r12 := _; Keeps _ _ r12
    intro r12
    extract_lets -descend +onlyGivenNames st13 at r12
    have hst13 : Keeps [.cells, .hif, .wld, .cic, .dmc, .pair, .mem, .freeCtr, .emits] s st13 := by
      subst st13
      refine Keeps.next (State.dropLines_keeps ..) rfl ?_
      exact hst10
    try clear_value st13
    subst r12
    refine Keeps.set_wld (x := st13) rfl id ?_
    exact hst13

theorem State.readBlocks_keeps (s : State) (ds : List Nat) (req sl : Nat) (bad : Ecc) :
    Keeps [.cells, .hif, .wld, .cic, .dmc, .emits] s (s.readBlocks ds req sl bad).2 := by
  unfold State.readBlocks
  refine Keeps.foldl2 (fun q d => ?_) Keeps.refl
  refine Keeps.next (State.readBlock_keeps ..) rfl ?_
  exact Keeps.refl

theorem State.dramRead_keeps {s t : State} {a len req sl : Nat} {bad : Ecc} {l : List Nat} {d : List Byte}
    (h : s.dramRead a len req sl bad = (d, l, t)) : Keeps [.cells, .hif, .wld, .cic, .dmc, .emits] s t := by
  unfold State.dramRead at h
  cases h
  refine Keeps.next (State.readBlocks_keeps ..) rfl ?_
  exact Keeps.refl

theorem State.coreDram_keeps (s : State) (c : ℕ) (off : ℕ) (k : AccessKind) (cached : Bool) (ecc : Ecc) : Keeps
    [.cells, .hif, .wld, .cic, .dmc, .pair, .mem, .freeCtr, .emits, .resp] s (State.coreDram s c off k cached ecc).2 :=
    by
  unfold State.coreDram
  show let r7 := _; Keeps _ _ (Prod.snd r7)
  intro r7
  extract_lets -descend +onlyGivenNames v8 at r7
  subst r7
  split
  · show Keeps _ _ _
    refine Keeps.ite ?_ ?_
    · exact Keeps.refl
    · refine Keeps.ite ?_ ?_
      · refine Keeps.foldl (fun st9 x10 => ?_) ?_
        · show let r11 := _; Keeps _ _ r11
          intro r11
          extract_lets -descend +onlyGivenNames v12 at r11
          subst r11
          refine Keeps.next (State.cachedStore_keeps ..) rfl ?_
          exact Keeps.refl
        · exact Keeps.refl
      · refine Keeps.next (State.coreDramWrite_keeps ..) rfl ?_
        exact Keeps.refl
  · split
    · rename_i _ st13 e14
      have hst13 : Keeps [.cells, .hif, .wld, .cic, .dmc, .pair, .mem, .freeCtr, .emits, .resp] s st13 := by
        refine Keeps.snd e14 ?_
        refine Keeps.ite2 ?_ ?_
        · refine Keeps.next (State.cachedRead_keeps ..) rfl ?_
          exact Keeps.refl
        · split
          · rename_i _ _ st15 e16
            have hst15 : Keeps [.cells, .hif, .wld, .cic, .dmc, .pair, .mem, .freeCtr, .emits, .resp] s st15 := by
              refine Keeps.next (State.dramRead_keeps e16) rfl ?_
              exact Keeps.refl
            show Keeps _ _ _
            exact hst15
      split
      · show Keeps _ _ _
        refine Keeps.set_resp (x := st13) rfl ?_
        exact hst13
      · show Keeps _ _ _
        exact hst13

theorem State.ctlStore_keeps (s : State) (off : ℕ) (data : List Byte) : Keeps [.mem] s (State.ctlStore s off data) := by
  unfold State.ctlStore
  show let r4 := _; Keeps _ _ r4
  intro r4
  extract_lets -descend +onlyGivenNames v5 at r4
  subst r4
  refine Keeps.set_mem (x := s) rfl Mems.wf_ctl ?_
  exact Keeps.refl

theorem State.coreCtl_keeps (s : State) (off : ℕ) (k : AccessKind) : Keeps [.mem, .resp] s (State.coreCtl s off k) := by
  unfold State.coreCtl
  split
  · refine Keeps.next (State.ctlStore_keeps ..) rfl ?_
    exact Keeps.refl
  · refine Keeps.set_resp (x := s) rfl ?_
    exact Keeps.refl

theorem State.corePage_keeps (s : State) (c : Fin 4) (off : ℕ) (k : AccessKind) : Keeps Field.list s (State.corePage
    s c off k).2 := by
  unfold State.corePage
  refine Keeps.ite2 ?_ ?_
  · show Keeps _ _ _
    exact Keeps.refl
  · show let r5 := _; Keeps _ _ (Prod.snd r5)
    intro r5
    extract_lets -descend +onlyGivenNames st6 at r5
    have hst6 : Keeps Field.list s st6 := by
      subst st6
      split
      · refine Keeps.next (busWrite_keeps ..) rfl ?_
        exact Keeps.refl
      · refine Keeps.next (busRead_keeps ..) rfl ?_
        exact Keeps.refl
    try clear_value st6
    subst r5
    show Keeps _ _ _
    exact hst6

theorem State.romRead_keeps (s : State) (len : Nat) : Keeps [.freeCtr, .resp] s (s.romRead len) := by
  unfold State.romRead
  dsimp only
  refine Keeps.set_resp rfl ?_
  refine Keeps.foldl2 (fun q d => ?_) Keeps.refl
  exact (State.free_keeps q.2 256).weaken rfl

theorem State.coreAccess_keeps (s : State) (c : Fin 4) (a : ℕ) (k : AccessKind) (cached : Bool) (ecc : Ecc) : Keeps
    Field.list s (State.coreAccess s c a k cached ecc).2 := by
  unfold State.coreAccess
  refine Keeps.ite2 ?_ ?_
  · show Keeps _ _ _
    refine Keeps.next (State.romRead_keeps ..) rfl ?_
    exact Keeps.refl
  · refine Keeps.ite2 ?_ ?_
    · show Keeps _ _ _
      refine Keeps.next (State.coreCtl_keeps ..) rfl ?_
      exact Keeps.refl
    · refine Keeps.ite2 ?_ ?_
      · refine Keeps.next (State.corePage_keeps ..) rfl ?_
        exact Keeps.refl
      · refine Keeps.ite2 ?_ ?_
        · show Keeps _ _ _
          refine Keeps.set_resp (x := s) rfl ?_
          exact Keeps.refl
        · refine Keeps.next (State.coreDram_keeps ..) rfl ?_
          exact Keeps.refl

theorem State.accessOrFault_keeps (s : State) (c : Fin 4) (a : Word) (k : AccessKind) (cached : Bool) (ecc : Ecc) :
    Keeps Field.list s (State.accessOrFault s c a k cached ecc) := by
  unfold State.accessOrFault
  split
  · rename_i _ st7 e8
    have hst7 : Keeps Field.list s st7 := by
      refine Keeps.snd e8 ?_
      refine Keeps.next (State.accessFault_keeps ..) rfl ?_
      exact Keeps.refl
    split
    · rename_i _ st9 e10
      have hst9 : Keeps Field.list s st9 := by
        refine Keeps.snd e10 ?_
        refine Keeps.ite2 ?_ ?_
        · show Keeps _ _ _
          exact hst7
        · refine Keeps.next (State.coreAccess_keeps ..) rfl ?_
          exact hst7
      refine Keeps.ite ?_ ?_
      · refine Keeps.next (State.takeException_keeps ..) rfl ?_
        exact hst9
      · exact hst9

theorem State.takeInterrupt_keeps (s : State) (c : ℕ) : Keeps [.wld] s (State.takeInterrupt s c) := by
  unfold State.takeInterrupt
  show let r3 := _; Keeps _ _ r3
  intro r3
  extract_lets -descend +onlyGivenNames v4 at r3
  extract_lets -descend +onlyGivenNames v5 at r3
  subst r3
  refine Keeps.ite ?_ ?_
  · refine Keeps.next (State.setCore_keeps ..) rfl ?_
    exact Keeps.refl
  · exact Keeps.refl

theorem State.execWfi_keeps (s : State) (c : ℕ) : Keeps [.wld, .freeCtr] s (State.execWfi s c) := by
  unfold State.execWfi
  show let r3 := _; Keeps _ _ r3
  intro r3
  extract_lets -descend +onlyGivenNames v4 at r3
  subst r3
  refine Keeps.ite ?_ ?_
  · refine Keeps.next (State.illegal_keeps ..) rfl ?_
    exact Keeps.refl
  · refine Keeps.next (State.wake_keeps ..) rfl ?_
    refine Keeps.next (State.setCore_keeps ..) rfl ?_
    exact Keeps.refl

theorem State.fenceI_keeps (s : State) (c : ℕ) : Keeps [.cells, .hif, .wld, .cic, .dmc, .pair, .mem, .freeCtr,
    .emits] s (State.fenceI s c) := by
  unfold State.fenceI
  show let r3 := _; Keeps _ _ r3
  intro r3
  extract_lets -descend +onlyGivenNames v4 at r3
  subst r3
  refine Keeps.next (State.updCore_keeps ..) rfl ?_
  refine Keeps.next (State.dropLines_keeps ..) rfl ?_
  refine Keeps.next (State.cleanLines_keeps ..) rfl ?_
  exact Keeps.refl

theorem doCoreException_keeps (c : Fin 4) (e : CoreExc) (s : State) : Keeps Field.list s (doCoreException c e s) := by
  unfold doCoreException
  refine Keeps.ite ?_ ?_
  · exact Keeps.refl
  · split
    · refine Keeps.next (State.accessOrFault_keeps ..) rfl ?_
      exact Keeps.refl
    · refine Keeps.next (State.takeException_keeps ..) rfl ?_
      exact Keeps.refl
    · refine Keeps.next (State.takeInterrupt_keeps ..) rfl ?_
      exact Keeps.refl
    · refine Keeps.ite ?_ ?_
      · refine Keeps.next (State.illegal_keeps ..) rfl ?_
        exact Keeps.refl
      · refine Keeps.next (State.updCore_keeps ..) rfl ?_
        exact Keeps.refl
    · refine Keeps.next (State.execWfi_keeps ..) rfl ?_
      exact Keeps.refl
    · refine Keeps.next (State.fenceI_keeps ..) rfl ?_
      exact Keeps.refl

theorem doForcedEntry_keeps (c : ℕ) (s : State) : Keeps [.wld, .mem] s (doForcedEntry c s) := by
  unfold doForcedEntry
  refine Keeps.ite ?_ ?_
  · show let r3 := _; Keeps _ _ r3
    intro r3
    extract_lets -descend +onlyGivenNames v4 at r3
    extract_lets -descend +onlyGivenNames st5 at r3
    have hst5 : Keeps [.wld, .mem] s st5 := by
      subst st5
      refine Keeps.next (State.takeToken_keeps ..) rfl ?_
      refine Keeps.next (State.saveRegs_keeps ..) rfl ?_
      exact Keeps.refl
    try clear_value st5
    extract_lets -descend +onlyGivenNames v6 at r3
    extract_lets -descend +onlyGivenNames v7 at r3
    subst r3
    refine Keeps.next (State.setCore_keeps ..) rfl ?_
    exact hst5
  · exact Keeps.refl

theorem State.monitorCall_keeps {l : List Field} (s : State) (c : Nat) (f : State → Word × Word × State)
    (hl : List.all [Field.wld, .mem] l.contains = true) (h : ∀ s, Keeps l s (f s).2.2) : Keeps l s (s.monitorCall c
        f) := by
  unfold State.monitorCall
  have hw : List.all [Field.wld] l.contains = true := Field.within rfl hl
  have hm : List.all [Field.mem] l.contains = true := Field.within rfl hl
  dsimp only
  refine Keeps.ite Keeps.refl (Keeps.ite ?_ (Keeps.ite ?_ ?_))
  · exact (State.updCore_keeps ..).weaken hw
  · exact (State.updCore_keeps ..).weaken hw
  · refine Keeps.next (State.leave_keeps ..) hw ?_
    refine Keeps.trans ?_ (h _)
    refine Keeps.next (State.setCore_keeps ..) hw ?_
    refine Keeps.next (State.saveRegs_keeps ..) hm ?_
    exact Keeps.refl

theorem State.maintain_keeps {l : List Field} (s : State) (c : Nat) (f : State → State) (hl : List.all [.wld,
    .freeCtr] l.contains = true)
    (h : ∀ s, Keeps l s (f s)) : Keeps l s (s.maintain c f) := by
  unfold State.maintain
  refine Keeps.ite Keeps.refl (Keeps.ite ?_ ?_)
  · exact (State.illegal_keeps ..).weaken (Field.within rfl hl)
  · exact (h s).trans ((State.updCore_keeps ..).weaken (Field.within rfl hl))

theorem doCleanL1d_keeps (c : Nat) (pw : Bool) (s : State) : Keeps [.cells, .hif, .wld, .cic, .dmc, .pair, .mem,
    .freeCtr, .emits] s (doCleanL1d c pw s) := by
  unfold doCleanL1d
  exact State.maintain_keeps _ _ _ rfl fun s => (State.cleanLines_keeps ..).weaken rfl

theorem doInvL1d_keeps (c : Nat) (pw : Bool) (s : State) : Keeps [.wld, .freeCtr] s (doInvL1d c pw s) := by
  unfold doInvL1d
  exact State.maintain_keeps _ _ _ rfl fun s => (State.dropLines_keeps ..).weaken rfl

theorem doInvL1i_keeps (c : Nat) (pw : Bool) (s : State) : Keeps [.wld, .freeCtr] s (doInvL1i c pw s) := by
  unfold doInvL1i
  exact State.maintain_keeps _ _ _ rfl fun s => (State.dropLines_keeps ..).weaken rfl

theorem doCleanL2_keeps (c : Nat) (pw : Bool) (s : State) : Keeps [.cells, .hif, .wld, .cic, .dmc, .pair, .mem,
    .freeCtr, .emits] s (doCleanL2 c pw s) := by
  unfold doCleanL2
  exact State.maintain_keeps _ _ _ rfl fun s => (State.cleanLines_keeps ..).weaken rfl

theorem doInvL2_keeps (c : Nat) (pw : Bool) (s : State) : Keeps [.wld, .freeCtr] s (doInvL2 c pw s) := by
  unfold doInvL2
  exact State.maintain_keeps _ _ _ rfl fun s => (State.dropLines_keeps ..).weaken rfl

theorem State.cvFeedUnit_keeps (s : State) (n : ℕ) (bs : List Byte) : Keeps [.cells] s (State.cvFeedUnit s n bs) := by
  unfold State.cvFeedUnit
  refine Keeps.ite ?_ ?_
  · exact Keeps.refl
  · show let r4 := _; Keeps _ _ r4
    intro r4
    extract_lets -descend +onlyGivenNames st5 at r4
    have hst5 : Keeps [.cells] s st5 := by
      subst st5
      refine Keeps.next (State.wrN_keeps ..) rfl ?_
      exact Keeps.refl
    try clear_value st5
    subst r4
    refine Keeps.next (State.count_keeps ..) rfl ?_
    exact hst5

theorem doSetPointDone_keeps (s : State) : Keeps [.cells, .hif, .outs, .wld, .cic, .dmc, .reductions, .pair, .emits]
    s (doSetPointDone s) := by
  unfold doSetPointDone
  split
  · exact Keeps.refl
  · refine Keeps.ite ?_ ?_
    · exact Keeps.refl
    · show let r2 := _; Keeps _ _ r2
      intro r2
      extract_lets -descend +onlyGivenNames v3 at r2
      extract_lets -descend +onlyGivenNames v4 at r2
      extract_lets -descend +onlyGivenNames st5 at r2
      have hst5 : Keeps [.cells, .hif, .outs, .wld, .cic, .dmc, .reductions, .pair, .emits] s st5 := by
        subst st5
        refine Keeps.set_dmc (x := s) rfl ?_
        exact Keeps.refl
      try clear_value st5
      extract_lets -descend +onlyGivenNames st6 at r2
      have hst6 : Keeps [.cells, .hif, .outs, .wld, .cic, .dmc, .reductions, .pair, .emits] s st6 := by
        subst st6
        refine Keeps.next (State.put_keeps ..) rfl ?_
        refine Keeps.next (State.clrF_keeps ..) rfl ?_
        exact hst5
      try clear_value st6
      extract_lets -descend +onlyGivenNames st7 at r2
      have hst7 : Keeps [.cells, .hif, .outs, .wld, .cic, .dmc, .reductions, .pair, .emits] s st7 := by
        subst st7
        refine Keeps.next (State.event_keeps ..) rfl ?_
        refine Keeps.next (State.syncCauses_keeps ..) rfl ?_
        refine Keeps.next (State.syncReff_keeps ..) rfl ?_
        refine Keeps.next (State.dropReduction_keeps ..) rfl ?_
        exact hst6
      try clear_value st7
      extract_lets -descend +onlyGivenNames st8 at r2
      have hst8 : Keeps [.cells, .hif, .outs, .wld, .cic, .dmc, .reductions, .pair, .emits] s st8 := by
        subst st8
        refine Keeps.ite ?_ ?_
        · refine Keeps.next (State.shedPass_keeps ..) rfl ?_
          exact hst7
        · exact hst7
      try clear_value st8
      subst r2
      try clear_value v4
      split
      · refine Keeps.next (State.pursue_keeps ..) rfl ?_
        exact hst8
      · exact hst8

theorem State.setExtended_keeps (s : State) (b : Bool) : Keeps [.cells, .hif, .outs, .wld, .cic, .reductions, .pair,
    .emits] s (State.setExtended s b) := by
  unfold State.setExtended
  show let r3 := _; Keeps _ _ r3
  intro r3
  extract_lets -descend +onlyGivenNames st4 at r3
  have hst4 : Keeps [.cells, .hif, .outs, .wld, .cic, .reductions, .pair, .emits] s st4 := by
    subst st4
    refine Keeps.next (State.event_keeps ..) rfl ?_
    refine Keeps.next (State.syncCauses_keeps ..) rfl ?_
    refine Keeps.next (State.syncReff_keeps ..) rfl ?_
    refine Keeps.next (State.dropReduction_keeps ..) rfl ?_
    refine Keeps.next (State.put_keeps ..) rfl ?_
    exact Keeps.refl
  try clear_value st4
  subst r3
  refine Keeps.ite ?_ ?_
  · exact hst4
  · refine Keeps.next (State.shedPass_keeps ..) rfl ?_
    exact hst4

theorem doCapacityApply_keeps (s : State) : Keeps [.cells, .hif, .outs, .wld, .cic, .dmc, .reductions, .pair,
    .emits] s (doCapacityApply s) := by
  unfold doCapacityApply
  show let r2 := _; Keeps _ _ r2
  intro r2
  extract_lets -descend +onlyGivenNames v3 at r2
  extract_lets -descend +onlyGivenNames st4 at r2
  have hst4 : Keeps [.cells, .hif, .outs, .wld, .cic, .dmc, .reductions, .pair, .emits] s st4 := by
    subst st4
    refine Keeps.ite ?_ ?_
    · refine Keeps.next (State.setExtended_keeps ..) rfl ?_
      exact Keeps.refl
    · exact Keeps.refl
  try clear_value st4
  subst r2
  split
  · refine Keeps.ite ?_ ?_
    · exact hst4
    · refine Keeps.next (State.startSwitch_keeps ..) rfl ?_
      exact hst4
  · exact hst4

theorem doTemperature_keeps (ts : List ℤ) (s : State) : Keeps [.time, .cells, .hif, .outs, .wld, .cic, .dmc,
    .reductions, .pair, .emits] s (doTemperature ts s) := by
  unfold doTemperature
  refine Keeps.ite ?_ ?_
  · exact Keeps.refl
  · show let r3 := _; Keeps _ _ r3
    intro r3
    extract_lets -descend +onlyGivenNames v4 at r3
    extract_lets -descend +onlyGivenNames st5 at r3
    have hst5 : Keeps [.time, .cells, .hif, .outs, .wld, .cic, .dmc, .reductions, .pair, .emits] s st5 := by
      subst st5
      refine Keeps.next (State.at_keeps ..) rfl ?_
      exact Keeps.refl
    try clear_value st5
    extract_lets -descend +onlyGivenNames st6 at r3
    have hst6 : Keeps [.time, .cells, .hif, .outs, .wld, .cic, .dmc, .reductions, .pair, .emits] s st6 := by
      subst st6
      refine Keeps.foldl (fun st7 x8 => ?_) ?_
      · split
        · refine Keeps.next (State.put_keeps ..) rfl ?_
          exact Keeps.refl
        · exact Keeps.refl
      · exact hst5
    try clear_value st6
    extract_lets -descend +onlyGivenNames v9 at r3
    extract_lets -descend +onlyGivenNames st10 at r3
    have hst10 : Keeps [.time, .cells, .hif, .outs, .wld, .cic, .dmc, .reductions, .pair, .emits] s st10 := by
      subst st10
      refine Keeps.set_dmc (x := st6) rfl ?_
      exact hst6
    try clear_value st10
    extract_lets -descend +onlyGivenNames v11 at r3
    extract_lets -descend +onlyGivenNames st12 at r3
    have hst12 : Keeps [.time, .cells, .hif, .outs, .wld, .cic, .dmc, .reductions, .pair, .emits] s st12 := by
      subst st12
      refine Keeps.ite ?_ ?_
      · refine Keeps.next (State.addReduction_keeps ..) rfl ?_
        exact hst10
      · exact hst10
    try clear_value st12
    extract_lets -descend +onlyGivenNames v13 at r3
    subst r3
    refine Keeps.ite ?_ ?_
    · refine Keeps.next (State.setExtended_keeps ..) rfl ?_
      exact hst12
    · refine Keeps.ite ?_ ?_
      · refine Keeps.next (State.shedPass_keeps ..) rfl ?_
        refine Keeps.next (State.syncCauses_keeps ..) rfl ?_
        refine Keeps.next (State.dropReduction_keeps ..) rfl ?_
        exact hst12
      · refine Keeps.ite ?_ ?_
        · refine Keeps.next (State.setExtended_keeps ..) rfl ?_
          exact hst12
        · exact hst12

theorem doTracking_keeps (a1 : ℕ) (s : State) : Keeps [] s (doTracking a1 s) := by
  unfold doTracking
  exact Keeps.refl

theorem doRefresh_keeps (ch : ℕ) (act : RefreshAct) (s : State) : Keeps [.cells] s (doRefresh ch act s) := by
  unfold doRefresh
  refine Keeps.ite ?_ ?_
  · exact Keeps.refl
  · split
    · exact Keeps.refl
    · refine Keeps.ite ?_ ?_
      · refine Keeps.next (State.put_keeps ..) rfl ?_
        exact Keeps.refl
      · exact Keeps.refl
    · refine Keeps.next (State.put_keeps ..) rfl ?_
      exact Keeps.refl

theorem doScrub_keeps (res : EccRes) (s : State) : Keeps [.cells, .hif, .wld, .cic, .dmc, .emits] s (doScrub res s)
    := by
  unfold doScrub
  refine Keeps.ite ?_ ?_
  · exact Keeps.refl
  · show let r3 := _; Keeps _ _ r3
    intro r3
    extract_lets -descend +onlyGivenNames v4 at r3
    extract_lets -descend +onlyGivenNames st5 at r3
    have hst5 : Keeps [.cells, .hif, .wld, .cic, .dmc, .emits] s st5 := by
      subst st5
      refine Keeps.next (State.readBlock_keeps ..) rfl ?_
      exact Keeps.refl
    try clear_value st5
    subst r3
    refine Keeps.ite ?_ ?_
    · refine Keeps.next (State.put_keeps ..) rfl ?_
      exact hst5
    · refine Keeps.next (State.event_keeps ..) rfl ?_
      refine Keeps.next (State.put_keeps ..) rfl ?_
      exact hst5

theorem doDrain_keeps (ch : ℕ) (readPending : Bool) (s : State) : Keeps [.dmc] s (doDrain ch readPending s) := by
  unfold doDrain
  refine Keeps.ite ?_ ?_
  · refine Keeps.set_dmc (x := s) rfl ?_
    exact Keeps.refl
  · exact Keeps.refl

theorem State.strike_keeps (s : State) (ch : ℕ) (bank : ℕ) (row : ℕ) (req : DramReq) : Keeps [.cells, .hif, .wld,
    .cic, .dmc, .emits] s (State.strike s ch bank row req) := by
  unfold State.strike
  show let r6 := _; Keeps _ _ r6
  intro r6
  extract_lets -descend +onlyGivenNames v7 at r6
  extract_lets -descend +onlyGivenNames v8 at r6
  extract_lets -descend +onlyGivenNames v9 at r6
  extract_lets -descend +onlyGivenNames st10 at r6
  have hst10 : Keeps [.cells, .hif, .wld, .cic, .dmc, .emits] s st10 := by
    subst st10
    refine Keeps.set_dmc (x := s) rfl ?_
    exact Keeps.refl
  try clear_value st10
  extract_lets -descend +onlyGivenNames st11 at r6
  have hst11 : Keeps [.cells, .hif, .wld, .cic, .dmc, .emits] s st11 := by
    subst st11
    refine Keeps.next (State.count_keeps ..) rfl ?_
    exact hst10
  try clear_value st11
  subst r6
  split
  · show let r12 := _; Keeps _ _ r12
    intro r12
    extract_lets -descend +onlyGivenNames st13 at r12
    have hst13 : Keeps [.cells, .hif, .wld, .cic, .dmc, .emits] s st13 := by
      subst st13
      refine Keeps.ite ?_ ?_
      · exact hst11
      · show let r14 := _; Keeps _ _ r14
        intro r14
        extract_lets -descend +onlyGivenNames st15 at r14
        have hst15 : Keeps [.cells, .hif, .wld, .cic, .dmc, .emits] s st15 := by
          subst st15
          refine Keeps.next (State.wrN_keeps ..) rfl ?_
          exact hst11
        try clear_value st15
        subst r14
        refine Keeps.next (State.wrN_keeps ..) rfl ?_
        exact hst15
    try clear_value st13
    subst r12
    refine Keeps.next (State.event_keeps ..) rfl ?_
    exact hst13

theorem doHammer_keeps (ch : ℕ) (bank : ℕ) (row : ℕ) (req : DramReq) (s : State) : Keeps [.cells, .hif, .wld, .cic,
    .dmc, .emits] s (doHammer ch bank row req s) := by
  unfold doHammer
  refine Keeps.ite ?_ ?_
  · exact Keeps.refl
  · show let r6 := _; Keeps _ _ r6
    intro r6
    extract_lets -descend +onlyGivenNames st7 at r6
    have hst7 : Keeps [.cells, .hif, .wld, .cic, .dmc, .emits] s st7 := by
      subst st7
      refine Keeps.set_dmc (x := s) rfl ?_
      exact Keeps.refl
    try clear_value st7
    subst r6
    split
    · exact hst7
    · refine Keeps.next (State.strike_keeps ..) rfl ?_
      exact hst7

theorem doThrottleEnd_keeps (req : DramReq) (s : State) : Keeps [.time, .dmc] s (doThrottleEnd req s) := by
  unfold doThrottleEnd
  split
  · exact Keeps.refl
  · show let r3 := _; Keeps _ _ r3
    intro r3
    extract_lets -descend +onlyGivenNames st4 at r3
    have hst4 : Keeps [.time, .dmc] s st4 := by
      subst st4
      refine Keeps.next (State.at_keeps ..) rfl ?_
      exact Keeps.refl
    try clear_value st4
    subst r3
    refine Keeps.set_dmc (x := st4) rfl ?_
    exact hst4

theorem doActivationWindow_keeps (s : State) : Keeps [.dmc] s (doActivationWindow s) := by
  unfold doActivationWindow
  refine Keeps.set_dmc (x := s) rfl ?_
  exact Keeps.refl

theorem State.realTime_keeps (s : State) (ds : List ℕ) : Keeps [.cells, .freeCtr] s (State.realTime s ds) := by
  unfold State.realTime
  refine Keeps.each (fun st3 x4 => ?_) ?_
  · show let r5 := _; Keeps _ _ r5
    intro r5
    extract_lets -descend +onlyGivenNames v6 at r5
    extract_lets -descend +onlyGivenNames v7 at r5
    extract_lets -descend +onlyGivenNames st8 at r5
    have hst8 : Keeps [.cells, .freeCtr] st3 st8 := by
      subst st8
      refine Keeps.next (State.wrN_keeps ..) rfl ?_
      refine Keeps.next (State.wrN_keeps ..) rfl ?_
      exact Keeps.refl
    try clear_value st8
    subst r5
    split
    · rename_i _ st9 e10
      have hst9 : Keeps [.cells, .freeCtr] st3 st9 := by
        refine Keeps.snd e10 ?_
        refine Keeps.next (State.free_keeps ..) rfl ?_
        exact hst8
      refine Keeps.next (State.wrN_keeps ..) rfl ?_
      exact hst9
  · exact Keeps.refl

theorem State.putXfer_keeps (s : State) (x : Xfer) : Keeps [.haul] s (State.putXfer s x) := by
  unfold State.putXfer
  refine Keeps.next (State.updHaul_keeps ..) rfl ?_
  exact Keeps.refl

theorem restoreSegment_keeps (x : Xfer) (s : State) : Keeps [.haul] s (restoreSegment x s).2 := by
  unfold restoreSegment
  show Keeps _ _ _
  split
  · refine Keeps.next (State.putXfer_keeps ..) rfl ?_
    exact Keeps.refl
  · exact Keeps.refl

theorem floorSegment_keeps (x : Xfer) (g : Seg) (s : State) : Keeps [.pair, .mem, .emits] s (floorSegment x g s).2 := by
  unfold floorSegment
  show Keeps _ _ _
  split
  · refine Keeps.next (State.floorStore_keeps ..) rfl ?_
    exact Keeps.refl
  · exact Keeps.refl

theorem State.feedSnoop_keeps (s : State) (x : Xfer) (bs : List Byte) : Keeps [.cells] s (State.feedSnoop s x bs) := by
  unfold State.feedSnoop
  split
  · refine Keeps.next (State.cvFeedUnit_keeps ..) rfl ?_
    exact Keeps.refl
  · exact Keeps.refl

theorem seedSegment_keeps (x : Xfer) (s : State) : Keeps [.cells] s (seedSegment x s).2 := by
  unfold seedSegment
  show Keeps _ _ _
  refine Keeps.next (State.feedSnoop_keeps ..) rfl ?_
  exact Keeps.refl

theorem State.haulReads_keeps (s : State) (e sl base : Nat) (rs : List (Nat × Nat)) (bad : Ecc) :
    Keeps [.cells, .hif, .wld, .cic, .dmc, .emits] s (s.haulReads e sl base rs bad).2 := by
  unfold State.haulReads
  refine Keeps.foldl2 (fun q d => ?_) Keeps.refl
  exact State.dramRead_keeps (s := q.2) rfl

theorem captureSegment_keeps (e : ℕ) (x : Xfer) (g : Seg) (ecc : Ecc) (s : State) : Keeps [.cells, .hif, .wld, .cic,
    .dmc, .emits] s (captureSegment e x g ecc s).2 := by
  unfold captureSegment
  split
  · show Keeps _ _ _
    refine Keeps.next (State.denial_keeps ..) rfl ?_
    exact Keeps.refl
  · split
    · rename_i _ st6 e7
      have hst6 : Keeps [.cells, .hif, .wld, .cic, .dmc, .emits] s st6 := by
        refine Keeps.snd e7 ?_
        refine Keeps.next (State.haulReads_keeps ..) rfl ?_
        exact Keeps.refl
      split
      · show Keeps _ _ _
        exact hst6
      · show let r8 := _; Keeps _ _ (Prod.snd r8)
        intro r8
        extract_lets -descend +onlyGivenNames v9 at r8
        subst r8
        show Keeps _ _ _
        refine Keeps.each (fun st10 x11 => ?_) ?_
        · refine Keeps.next (State.hostWrite_keeps ..) rfl ?_
          exact Keeps.refl
        · exact hst6

theorem State.haulWrites_keeps (s : State) (e : ℕ) (sl : ℕ) (base : ℕ) (ws : List (ℕ × List Byte)) : Keeps [.cells,
    .hif, .wld, .cic, .dmc, .pair, .mem, .freeCtr, .emits] s (State.haulWrites s e sl base ws) := by
  unfold State.haulWrites
  refine Keeps.each (fun st6 x7 => ?_) ?_
  · split
    · refine Keeps.ite ?_ ?_
      · exact Keeps.refl
      · refine Keeps.next (State.dramWrite_keeps ..) rfl ?_
        exact Keeps.refl
  · exact Keeps.refl

theorem copySegment_keeps (e : ℕ) (x : Xfer) (g : Seg) (s : State) : Keeps [.cells, .hif, .wld, .cic, .dmc, .pair,
    .mem, .freeCtr, .emits] s (copySegment e x g s).2 := by
  unfold copySegment
  show Keeps _ _ _
  refine Keeps.next (State.haulWrites_keeps ..) rfl ?_
  exact Keeps.refl

theorem zeroSegment_keeps (e : ℕ) (x : Xfer) (g : Seg) (s : State) : Keeps [.cells, .hif, .wld, .cic, .dmc, .pair,
    .mem, .freeCtr, .emits] s (zeroSegment e x g s).2 := by
  unfold zeroSegment
  show let r5 := _; Keeps _ _ (Prod.snd r5)
  intro r5
  extract_lets -descend +onlyGivenNames v6 at r5
  subst r5
  show Keeps _ _ _
  refine Keeps.next (State.haulWrites_keeps ..) rfl ?_
  exact Keeps.refl

theorem State.guestWrite_keeps (s : State) (i : ℕ) (w : GuestWrite) : Keeps [.cells, .slices, .pair, .emits] s
    (State.guestWrite s i w) := by
  unfold State.guestWrite
  refine Keeps.ite ?_ ?_
  · refine Keeps.next (State.guestWait_keeps ..) rfl ?_
    exact Keeps.refl
  · refine Keeps.next (State.guestIssue_keeps ..) rfl ?_
    exact Keeps.refl

theorem State.exportWrites_keeps (s : State) (sl : ℕ) (handle : ℕ) (ws : List (ℕ × List Byte)) : Keeps [.cells,
    .slices, .pair, .emits] s (State.exportWrites s sl handle ws) := by
  unfold State.exportWrites
  refine Keeps.each (fun st5 x6 => ?_) ?_
  · split
    · refine Keeps.next (State.guestWrite_keeps ..) rfl ?_
      exact Keeps.refl
  · exact Keeps.refl

theorem exportSegment_keeps (x : Xfer) (g : Seg) (s : State) : Keeps [.cells, .slices, .pair, .emits] s
    (exportSegment x g s).2 := by
  unfold exportSegment
  show let r4 := _; Keeps _ _ (Prod.snd r4)
  intro r4
  extract_lets -descend +onlyGivenNames v5 at r4
  extract_lets -descend +onlyGivenNames v6 at r4
  extract_lets -descend +onlyGivenNames v7 at r4
  subst r4
  split
  · refine Keeps.ite2 ?_ ?_
    · show let r8 := _; Keeps _ _ (Prod.snd r8)
      intro r8
      extract_lets -descend +onlyGivenNames v9 at r8
      subst r8
      show Keeps _ _ _
      refine Keeps.next (State.feedSnoop_keeps ..) rfl ?_
      refine Keeps.next (State.exportWrites_keeps ..) rfl ?_
      exact Keeps.refl
    · refine Keeps.ite2 ?_ ?_
      · show let r10 := _; Keeps _ _ (Prod.snd r10)
        intro r10
        extract_lets -descend +onlyGivenNames v11 at r10
        subst r10
        show Keeps _ _ _
        refine Keeps.next (State.feedSnoop_keeps ..) rfl ?_
        refine Keeps.next (State.exportWrites_keeps ..) rfl ?_
        exact Keeps.refl
      · show let r12 := _; Keeps _ _ (Prod.snd r12)
        intro r12
        extract_lets -descend +onlyGivenNames v13 at r12
        subst r12
        split
        · show let r14 := _; Keeps _ _ (Prod.snd r14)
          intro r14
          extract_lets -descend +onlyGivenNames v15 at r14
          extract_lets -descend +onlyGivenNames st16 at r14
          have hst16 : Keeps [.cells, .slices, .pair, .emits] s st16 := by
            subst st16
            refine Keeps.next (State.exportWrites_keeps ..) rfl ?_
            exact Keeps.refl
          try clear_value st16
          subst r14
          refine Keeps.ite2 ?_ ?_
          · show Keeps _ _ _
            refine Keeps.next (State.feedSnoop_keeps ..) rfl ?_
            exact hst16
          · refine Keeps.ite2 ?_ ?_
            · show Keeps _ _ _
              refine Keeps.next (State.feedSnoop_keeps ..) rfl ?_
              exact hst16
            · show Keeps _ _ _
              exact hst16

theorem State.countTile_keeps (s : State) (hdr : ℕ) : Keeps [.cells] s (State.countTile s hdr) := by
  unfold State.countTile
  split
  · refine Keeps.next (State.count_keeps ..) rfl ?_
    exact Keeps.refl
  · refine Keeps.next (State.count_keeps ..) rfl ?_
    exact Keeps.refl
  · refine Keeps.next (State.count_keeps ..) rfl ?_
    exact Keeps.refl

theorem importSegment_keeps (e : ℕ) (x : Xfer) (g : Seg) (data : List Byte) (s : State) : Keeps [.cells, .hif, .wld,
    .cic, .dmc, .pair, .mem, .freeCtr, .emits] s (importSegment e x g data s).2 := by
  unfold importSegment
  show let r6 := _; Keeps _ _ (Prod.snd r6)
  intro r6
  extract_lets -descend +onlyGivenNames v7 at r6
  extract_lets -descend +onlyGivenNames v8 at r6
  extract_lets -descend +onlyGivenNames v9 at r6
  subst r6
  split
  · refine Keeps.ite2 ?_ ?_
    · show let r10 := _; Keeps _ _ (Prod.snd r10)
      intro r10
      extract_lets -descend +onlyGivenNames st11 at r10
      have hst11 : Keeps [.cells, .hif, .wld, .cic, .dmc, .pair, .mem, .freeCtr, .emits] s st11 := by
        subst st11
        refine Keeps.next (State.haulWrites_keeps ..) rfl ?_
        exact Keeps.refl
      try clear_value st11
      subst r10
      show Keeps _ _ _
      refine Keeps.next (State.feedSnoop_keeps ..) rfl ?_
      exact hst11
    · refine Keeps.ite2 ?_ ?_
      · show let r12 := _; Keeps _ _ (Prod.snd r12)
        intro r12
        extract_lets -descend +onlyGivenNames st13 at r12
        have hst13 : Keeps [.cells, .hif, .wld, .cic, .dmc, .pair, .mem, .freeCtr, .emits] s st13 := by
          subst st13
          refine Keeps.next (State.haulWrites_keeps ..) rfl ?_
          exact Keeps.refl
        try clear_value st13
        extract_lets -descend +onlyGivenNames v14 at r12
        subst r12
        refine Keeps.ite2 ?_ ?_
        · show Keeps _ _ _
          refine Keeps.next (State.feedSnoop_keeps ..) rfl ?_
          exact hst13
        · show Keeps _ _ _
          exact hst13
      · show let r15 := _; Keeps _ _ (Prod.snd r15)
        intro r15
        extract_lets -descend +onlyGivenNames v16 at r15
        extract_lets -descend +onlyGivenNames st17 at r15
        have hst17 : Keeps [.cells, .hif, .wld, .cic, .dmc, .pair, .mem, .freeCtr, .emits] s st17 := by
          subst st17
          refine Keeps.each (fun st18 x19 => ?_) ?_
          · split
            · show let r20 := _; Keeps _ _ r20
              intro r20
              extract_lets -descend +onlyGivenNames v21 at r20
              extract_lets -descend +onlyGivenNames st22 at r20
              have hst22 : Keeps [.cells, .hif, .wld, .cic, .dmc, .pair, .mem, .freeCtr, .emits] st18 st22 := by
                subst st22
                refine Keeps.next (State.haulWrites_keeps ..) rfl ?_
                exact Keeps.refl
              try clear_value st22
              subst r20
              refine Keeps.each (fun st23 x24 => ?_) ?_
              · refine Keeps.next (State.countTile_keeps ..) rfl ?_
                exact Keeps.refl
              · exact hst22
          · exact Keeps.refl
        try clear_value st17
        subst r15
        refine Keeps.ite2 ?_ ?_
        · show Keeps _ _ _
          refine Keeps.next (State.feedSnoop_keeps ..) rfl ?_
          exact hst17
        · refine Keeps.ite2 ?_ ?_
          · show Keeps _ _ _
            refine Keeps.next (State.feedSnoop_keeps ..) rfl ?_
            exact hst17
          · show Keeps _ _ _
            exact hst17

theorem surfaceSegment_keeps (e : ℕ) (x : Xfer) (g : Seg) (ecc : Ecc) (s : State) : Keeps [.cells, .hif, .slices,
    .wld, .cic, .dmc, .pair, .mem, .freeCtr, .emits] s (surfaceSegment e x g ecc s).2 := by
  unfold surfaceSegment
  split
  · show Keeps _ _ _
    refine Keeps.next (State.denial_keeps ..) rfl ?_
    exact Keeps.refl
  · show let r6 := _; Keeps _ _ (Prod.snd r6)
    intro r6
    extract_lets -descend +onlyGivenNames v7 at r6
    subst r6
    split
    · rename_i _ st8 e9
      have hst8 : Keeps [.cells, .hif, .slices, .wld, .cic, .dmc, .pair, .mem, .freeCtr, .emits] s st8 := by
        refine Keeps.snd e9 ?_
        refine Keeps.ite2 ?_ ?_
        · refine Keeps.next (State.haulReads_keeps ..) rfl ?_
          exact Keeps.refl
        · show Keeps _ _ _
          exact Keeps.refl
      split
      · show Keeps _ _ _
        exact hst8
      · split
        · refine Keeps.next (copySegment_keeps ..) rfl ?_
          exact hst8
        · refine Keeps.next (zeroSegment_keeps ..) rfl ?_
          exact hst8
        · refine Keeps.ite2 ?_ ?_
          · refine Keeps.next (exportSegment_keeps ..) rfl ?_
            exact hst8
          · refine Keeps.next (importSegment_keeps ..) rfl ?_
            exact hst8

theorem State.segmentEffect_keeps (s : State) (e : Nat) (x : Xfer) (g : Seg) (bad : Ecc) :
    Keeps [.cells, .hif, .slices, .haul, .wld, .cic, .dmc, .pair, .mem, .freeCtr, .emits] s (s.segmentEffect e x g
        bad).2 := by
  unfold State.segmentEffect
  split
  · exact (seedSegment_keeps ..).weaken rfl
  · exact (captureSegment_keeps ..).weaken rfl
  · exact (restoreSegment_keeps ..).weaken rfl
  · exact (floorSegment_keeps ..).weaken rfl
  · exact (surfaceSegment_keeps ..).weaken rfl

theorem finishImport_keeps (x : Xfer) (s : State) : Keeps [.cells, .hif, .cmds, .slices, .haul, .cvu, .pair, .emits]
    s (finishImport x s) := by
  unfold finishImport
  split
  · show let r3 := _; Keeps _ _ r3
    intro r3
    extract_lets -descend +onlyGivenNames v4 at r3
    extract_lets -descend +onlyGivenNames st5 at r3
    have hst5 : Keeps [.cells, .hif, .cmds, .slices, .haul, .cvu, .pair, .emits] s st5 := by
      subst st5
      refine Keeps.next (State.putSurface_keeps ..) rfl ?_
      exact Keeps.refl
    try clear_value st5
    extract_lets -descend +onlyGivenNames st6 at r3
    have hst6 : Keeps [.cells, .hif, .cmds, .slices, .haul, .cvu, .pair, .emits] s st6 := by
      subst st6
      split
      · refine Keeps.next (State.putVersion_keeps ..) rfl ?_
        exact hst5
      · exact hst5
    try clear_value st6
    extract_lets -descend +onlyGivenNames st7 at r3
    have hst7 : Keeps [.cells, .hif, .cmds, .slices, .haul, .cvu, .pair, .emits] s st7 := by
      subst st7
      split
      · refine Keeps.next (State.retire_keeps ..) rfl ?_
        exact hst6
      · exact hst6
    try clear_value st7
    extract_lets -descend +onlyGivenNames st8 at r3
    have hst8 : Keeps [.cells, .hif, .cmds, .slices, .haul, .cvu, .pair, .emits] s st8 := by
      subst st8
      refine Keeps.next (State.markDirty_keeps ..) rfl ?_
      exact hst7
    try clear_value st8
    subst r3
    refine Keeps.next (State.endXfer_keeps ..) rfl ?_
    exact hst8
  · refine Keeps.next (State.failXfer_keeps ..) rfl ?_
    exact Keeps.refl

theorem importFilled_keeps (x : Xfer) (s : State) : Keeps [.cells, .hif, .cmds, .slices, .haul, .cvu, .pair, .emits]
    s (importFilled x s) := by
  unfold importFilled
  refine Keeps.ite ?_ ?_
  · show let r3 := _; Keeps _ _ r3
    intro r3
    extract_lets -descend +onlyGivenNames v4 at r3
    extract_lets -descend +onlyGivenNames st5 at r3
    have hst5 : Keeps [.cells, .hif, .cmds, .slices, .haul, .cvu, .pair, .emits] s st5 := by
      subst st5
      refine Keeps.dite (fun _ => ?_) (fun _ => ?_)
      · refine Keeps.next (State.decide_keeps ..) rfl ?_
        exact Keeps.refl
      · exact Keeps.refl
    try clear_value st5
    subst r3
    refine Keeps.next (State.updHaul_keeps ..) rfl ?_
    exact hst5
  · refine Keeps.next (finishImport_keeps ..) rfl ?_
    exact Keeps.refl

theorem finishSeed_keeps (x : Xfer) (s : State) : Keeps [.cells, .hif, .cmds, .slices, .haul, .cvu, .pair, .emits] s
    (finishSeed x s) := by
  unfold finishSeed
  split
  · refine Keeps.next (State.endXfer_keeps ..) rfl ?_
    exact Keeps.refl
  · refine Keeps.next (State.endXfer_keeps ..) rfl ?_
    exact Keeps.refl

end Sys2Proof.Machine
end

