-- ==== Sys2Proof/Laws/Frame7.lean ====
section
/-!
SUPPORT. What each operation of the machine keeps (part 7 of 9): the parts of State that it may change are listed, every other
part stays, the queue stays, and no table leaves its canonical form.
-/

namespace Sys2Proof.Machine

theorem finishCapture_keeps (x : Xfer) (s : State) : Keeps [.cells, .hif, .cmds, .slices, .haul, .cvu, .pair,
    .emits] s (finishCapture x s) := by
  unfold finishCapture
  show let r3 := _; Keeps _ _ r3
  intro r3
  extract_lets -descend +onlyGivenNames v4 at r3
  extract_lets -descend +onlyGivenNames v5 at r3
  extract_lets -descend +onlyGivenNames v6 at r3
  extract_lets -descend +onlyGivenNames st7 at r3
  have hst7 : Keeps [.cells, .hif, .cmds, .slices, .haul, .cvu, .pair, .emits] s st7 := by
    subst st7
    refine Keeps.next (State.updSlice_keeps ..) rfl ?_
    exact Keeps.refl
  try clear_value st7
  subst r3
  refine Keeps.next (State.endXfer_keeps ..) rfl ?_
  exact hst7

theorem State.restoreSurface_keeps {s t : State} {e sl : Nat} {x : Surface} {d : List Byte}
    (h : s.restoreSurface e sl x d = .ok t) : Keeps [.cells, .hif, .cmds, .haul, .wld, .cic, .dmc, .pair, .mem,
        .freeCtr, .emits] s t := by
  unfold State.restoreSurface at h
  dsimp only at h
  generalize s.allocFails sl (ceilDiv (storedLen x.fmt x.w x.h) 65536) = a at h
  cases a with
  | some d => cases h
  | none =>
    have hk : ∀ {c : Prop} [Decidable c] {a : Nat × Nat × Option Nat} {v : State},
        (if c then .error a else .ok v : Except (Nat × Nat × Option Nat) State) = .ok t → v = t := by
      intro c _ a v h
      split at h
      · cases h
      · cases h
        rfl
    replace h := hk h
    have hd : ∀ {u : State} {k : sl < 256 → PairDecision}, Keeps [.cells, .hif, .cmds, .haul, .wld, .cic, .dmc,
        .pair, .mem, .freeCtr, .emits] s u →
        Keeps [.cells, .hif, .cmds, .haul, .wld, .cic, .dmc, .pair, .mem, .freeCtr, .emits] s (if h : sl < 256 then
            u.decide (k h) else u) := fun h =>
      Keeps.dite (fun _ => Keeps.next (State.decide_keeps ..) rfl h) (fun _ => h)
    subst h
    refine hd ?_
    generalize Tab.get none s.haul.surfaces (K.surf sl (x.ident % 65536)) = old
    have h1 : Keeps [.cells, .hif, .cmds, .haul, .wld, .cic, .dmc, .pair, .mem, .freeCtr, .emits] s (s.updHaul fun h
        => { h with idGens := Tab.set 0 h.idGens (K.surf sl (x.ident % 65536)) (x.ident / 65536) }) :=
      (State.updHaul_keeps ..).weaken rfl
    have h2 := hd (k := fun h => .identifierIssued ⟨sl, h⟩ x.ident x.w x.h x.fmt x.colour) h1
    generalize (if h : sl < 256 then _ else _ : State) = u at h2 ⊢
    have h3 : Keeps [.cells, .hif, .cmds, .haul, .wld, .cic, .dmc, .pair, .mem, .freeCtr, .emits] s (u.allocate sl
        x.ident (storedLen x.fmt x.w x.h)).2 := Keeps.next (State.allocate_keeps ..) rfl h2
    generalize u.allocate sl x.ident (storedLen x.fmt x.w x.h) = q at h3 ⊢
    have hm : ∀ o : Option Version, Keeps [.cells, .hif, .cmds, .haul, .wld, .cic, .dmc, .pair, .mem, .freeCtr,
        .emits] s (match o with
        | some v => q.2.putVersion q.1 (some { v with lease := .current, importCount := x.importCount })
        | none => q.2) := by
      intro o
      split
      · exact Keeps.next (State.putVersion_keeps ..) rfl h3
      · exact h3
    have h5 : ∀ (w : State) (x : Surface) (a k : Nat) (d : List Byte), Keeps [.cells, .hif, .cmds, .haul, .wld,
        .cic, .dmc, .pair, .mem, .freeCtr, .emits] s w →
        Keeps [.cells, .hif, .cmds, .haul, .wld, .cic, .dmc, .pair, .mem, .freeCtr, .emits] s ((w.putSurface sl
            x.ident (some x)).dramWrite a d k sl false) := fun w x a k d h4 =>
      Keeps.next (State.dramWrite_keeps ..) rfl (Keeps.next (State.putSurface_keeps ..) rfl h4)
    split
    · split
      · exact Keeps.next (State.retire_keeps ..) rfl (h5 _ { x with cur := some q.1 } _ _ _ (hm _))
      · exact h5 _ { x with cur := some q.1 } _ _ _ (hm _)
    · exact h5 _ { x with cur := some q.1 } _ _ _ (hm _)

theorem State.restoreSurfaces_keeps {s t : State} {e sl : Nat} {l : List (Surface × List Byte)}
    (h : s.restoreSurfaces e sl l = .ok t) : Keeps [.cells, .hif, .cmds, .haul, .wld, .cic, .dmc, .pair, .mem,
        .freeCtr, .emits] s t := by
  induction l generalizing s with
  | nil =>
    cases h
    exact Keeps.refl
  | cons x l ih =>
    obtain ⟨x, d⟩ := x
    unfold State.restoreSurfaces at h
    split at h
    · cases h
    · rename_i h1
      exact (State.restoreSurface_keeps h1).trans (ih h)

theorem State.restoreFreed_keeps (s : State) (sl : ℕ) (b : List Byte) : Keeps [.cells, .hif, .cmds, .haul, .pair,
    .emits] s (State.restoreFreed s sl b) := by
  unfold State.restoreFreed
  refine Keeps.each (fun st4 x5 => ?_) ?_
  · split
    · refine Keeps.next (State.retireAll_keeps ..) rfl ?_
      refine Keeps.next (State.putSurface_keeps ..) rfl ?_
      exact Keeps.refl
    · exact Keeps.refl
  · exact Keeps.refl

theorem State.restoreHandles_keeps (s : State) (sl : ℕ) (b : List Byte) : Keeps [.cmds] s (State.restoreHandles s sl
    b) := by
  unfold State.restoreHandles
  show let r4 := _; Keeps _ _ r4
  intro r4
  extract_lets -descend +onlyGivenNames v5 at r4
  extract_lets -descend +onlyGivenNames v6 at r4
  extract_lets -descend +onlyGivenNames v7 at r4
  extract_lets -descend +onlyGivenNames v8 at r4
  subst r4
  refine Keeps.next (State.updSpace_keeps ..) rfl ?_
  exact Keeps.refl

theorem State.restoreWindow_keeps (s : State) (sl : ℕ) (b : List Byte) : Keeps [.cells] s (State.restoreWindow s sl
    b) := by
  unfold State.restoreWindow
  refine Keeps.each (fun st4 x5 => ?_) ?_
  · split
    · refine Keeps.ite ?_ ?_
      · refine Keeps.next (State.wrN_keeps ..) rfl ?_
        exact Keeps.refl
      · exact Keeps.refl
    · exact Keeps.refl
  · exact Keeps.refl

theorem State.restoreLayers_keeps (s : State) (sl : Nat) (b : List Byte) : Keeps [.lyr] s (s.restoreLayers sl b).2 := by
  unfold State.restoreLayers
  refine Keeps.foldl2 (fun q x => ?_) Keeps.refl
  obtain ⟨a, u⟩ := q
  dsimp only
  split
  · exact Keeps.refl
  · dsimp only
    exact State.updLayer_keeps u _ _

theorem State.restoreRegions_keeps (s : State) (sl : Nat) (ls : List (Nat × Tab Word)) (b : List Byte) :
    Keeps [.csr] s (s.restoreRegions sl ls b).2 := by
  unfold State.restoreRegions
  refine Keeps.foldl2 (fun q x => ?_) Keeps.refl
  obtain ⟨a, u⟩ := q
  dsimp only
  split
  · exact Keeps.refl
  · dsimp only
    exact State.updRegion_keeps u _ _

theorem State.restoreReflexes_keeps (s : State) (sl : ℕ) (b : List Byte) : Keeps [.cells, .reflexDirty] s
    (State.restoreReflexes s sl b) := by
  unfold State.restoreReflexes
  show let r4 := _; Keeps _ _ r4
  intro r4
  extract_lets -descend +onlyGivenNames st5 at r4
  have hst5 : Keeps [.cells, .reflexDirty] s st5 := by
    subst st5
    refine Keeps.each (fun st6 x7 => ?_) ?_
    · refine Keeps.next (State.wrN_keeps ..) rfl ?_
      exact Keeps.refl
    · exact Keeps.refl
  try clear_value st5
  subst r4
  refine Keeps.set_reflexDirty (x := st5) rfl ?_
  exact hst5

theorem State.restoreUnits_keeps (s : State) (sl : ℕ) (b : List Byte) : Keeps [.cells] s (State.restoreUnits s sl b)
    := by
  unfold State.restoreUnits
  refine Keeps.each (fun st4 x5 => ?_) ?_
  · split
    · exact Keeps.refl
    · show let r6 := _; Keeps _ _ r6
      intro r6
      extract_lets -descend +onlyGivenNames st7 at r6
      have hst7 : Keeps [.cells] st4 st7 := by
        subst st7
        refine Keeps.next (State.wrN_keeps ..) rfl ?_
        refine Keeps.next (State.wrN_keeps ..) rfl ?_
        exact Keeps.refl
      try clear_value st7
      extract_lets -descend +onlyGivenNames st8 at r6
      have hst8 : Keeps [.cells] st4 st8 := by
        subst st8
        refine Keeps.next (State.wrN_keeps ..) rfl ?_
        refine Keeps.next (State.wrN_keeps ..) rfl ?_
        exact hst7
      try clear_value st8
      subst r6
      refine Keeps.next (State.wrN_keeps ..) rfl ?_
      refine Keeps.next (State.wrN_keeps ..) rfl ?_
      exact hst8
  · exact Keeps.refl

theorem State.restoreHeld_keeps (s : State) (sl : ℕ) (b : List Byte) : Keeps [.cmds] s (State.restoreHeld s sl b) := by
  unfold State.restoreHeld
  show let r4 := _; Keeps _ _ r4
  intro r4
  extract_lets -descend +onlyGivenNames v5 at r4
  subst r4
  refine Keeps.next (State.updSpace_keeps ..) rfl ?_
  exact Keeps.refl

theorem State.restoreStreams_keeps (s : State) (sl : Nat) (b : List Byte) : Keeps [.cells, .hst, .ast] s
    (s.restoreStreams sl b) := by
  unfold State.restoreStreams
  refine Keeps.each (fun s x => ?_) Keeps.refl
  dsimp only
  generalize (if blobNum x 0 4 = 0xFFFFFFFF then none else _ : Option Nat) = q
  split
  · refine Keeps.next (State.updHst_keeps ..) rfl ?_
    exact Keeps.each (fun s x => (State.wrN_keeps ..).weaken rfl) Keeps.refl
  · refine Keeps.next (State.updAst_keeps ..) rfl ?_
    exact Keeps.each (fun s x => (State.wrN_keeps ..).weaken rfl) Keeps.refl

theorem State.restoreRefused_keeps (s : State) (sl : ℕ) (o : ℕ) : Keeps [.cells, .hif, .cmds, .slices, .outs, .lyr,
    .csr, .wld, .cic, .pair, .emits] s (State.restoreRefused s sl o) := by
  unfold State.restoreRefused
  refine Keeps.next (State.updSlice_keeps ..) rfl ?_
  refine Keeps.next (State.askRemoval_keeps ..) rfl ?_
  exact Keeps.refl

theorem State.restoreFit_keeps (s : State) (sl o : Nat) (ls : List (Nat × Tab Word)) (rs : List (Nat × RegionImg)) :
    Keeps [.cells, .hif, .cmds, .slices, .haul, .outs, .lyr, .csr, .wld, .cic, .pair, .emits] s (s.restoreFit sl o
        ls rs).2 := by
  unfold State.restoreFit
  dsimp only
  generalize hu : (if ls.map (s.dropStale sl) = ls then s else _ : State) = u
  have h : Keeps [.cells, .hif, .cmds, .slices, .haul, .outs, .lyr, .csr, .wld, .cic, .pair, .emits] s u := by
    subst hu
    exact Keeps.ite Keeps.refl ((State.updSlice_keeps ..).weaken rfl)
  refine Keeps.trans h ?_
  refine Keeps.ite2 Keeps.refl ?_
  split
  · exact (State.restoreRefused_keeps ..).weaken rfl
  · refine Keeps.ite2 (Keeps.ite2 ?_ ?_) ?_
    · refine Keeps.each (fun s x => (State.latchRegion_keeps ..).weaken rfl) ?_
      exact Keeps.each (fun s x => (State.updLayer_keeps ..).weaken rfl) Keeps.refl
    · exact Keeps.next (State.restoreRefused_keeps ..) rfl ((State.noteRefusal_keeps ..).weaken rfl)
    · split
      · exact Keeps.next (State.restoreRefused_keeps ..) rfl ((State.noteRefusal_keeps ..).weaken rfl)
      · dsimp only
        refine Keeps.next (State.updOut_keeps ..) rfl ?_
        refine Keeps.each (fun s x => ?_) Keeps.refl
        split
        · exact (State.hold_keeps ..).weaken rfl
        · exact Keeps.refl

theorem State.restoreFits_keeps (s : State) (sl : Nat) (ls : List (Nat × Tab Word)) (rs : List (Nat × RegionImg)) :
    Keeps [.cells, .hif, .cmds, .slices, .haul, .outs, .lyr, .csr, .wld, .cic, .pair, .emits] s (s.restoreFits sl ls
        rs).2 := by
  unfold State.restoreFits
  exact Keeps.foldl2 (fun q x => (State.restoreFit_keeps ..).weaken rfl) Keeps.refl

theorem State.restoreFinal_keeps (s : State) (sl : ℕ) (secs : List Section_) : Keeps [.cells, .hif, .cmds, .slices,
    .haul, .outs, .lyr, .csr, .reflexDirty, .hst, .ast, .wld, .cic, .pair, .emits] s (State.restoreFinal s sl secs).2 :=
    by
  unfold State.restoreFinal
  show let r4 := _; Keeps _ _ (Prod.snd r4)
  intro r4
  extract_lets -descend +onlyGivenNames st5 at r4
  have hst5 : Keeps [.cells, .hif, .cmds, .slices, .haul, .outs, .lyr, .csr, .reflexDirty, .hst, .ast, .wld, .cic,
      .pair, .emits] s st5 := by
    subst st5
    refine Keeps.next (State.restoreHandles_keeps ..) rfl ?_
    refine Keeps.next (State.restoreWindow_keeps ..) rfl ?_
    exact Keeps.refl
  try clear_value st5
  subst r4
  split
  · rename_i _ st6 e7
    have hst6 : Keeps [.cells, .hif, .cmds, .slices, .haul, .outs, .lyr, .csr, .reflexDirty, .hst, .ast, .wld, .cic,
        .pair, .emits] s st6 := by
      refine Keeps.snd e7 ?_
      refine Keeps.next (State.restoreLayers_keeps ..) rfl ?_
      exact hst5
    split
    · rename_i _ st8 e9
      have hst8 : Keeps [.cells, .hif, .cmds, .slices, .haul, .outs, .lyr, .csr, .reflexDirty, .hst, .ast, .wld,
          .cic, .pair, .emits] s st8 := by
        refine Keeps.snd e9 ?_
        refine Keeps.next (State.restoreRegions_keeps ..) rfl ?_
        exact hst6
      show let r10 := _; Keeps _ _ (Prod.snd r10)
      intro r10
      extract_lets -descend +onlyGivenNames st11 at r10
      have hst11 : Keeps [.cells, .hif, .cmds, .slices, .haul, .outs, .lyr, .csr, .reflexDirty, .hst, .ast, .wld,
          .cic, .pair, .emits] s st11 := by
        subst st11
        refine Keeps.next (State.restoreReflexes_keeps ..) rfl ?_
        refine Keeps.next (State.restoreUnits_keeps ..) rfl ?_
        exact hst8
      try clear_value st11
      extract_lets -descend +onlyGivenNames st12 at r10
      have hst12 : Keeps [.cells, .hif, .cmds, .slices, .haul, .outs, .lyr, .csr, .reflexDirty, .hst, .ast, .wld,
          .cic, .pair, .emits] s st12 := by
        subst st12
        refine Keeps.next (State.restoreHeld_keeps ..) rfl ?_
        refine Keeps.next (State.restoreStreams_keeps ..) rfl ?_
        exact hst11
      try clear_value st12
      extract_lets -descend +onlyGivenNames st13 at r10
      have hst13 : Keeps [.cells, .hif, .cmds, .slices, .haul, .outs, .lyr, .csr, .reflexDirty, .hst, .ast, .wld,
          .cic, .pair, .emits] s st13 := by
        subst st13
        refine Keeps.next (State.updSlice_keeps ..) rfl ?_
        exact hst12
      try clear_value st13
      subst r10
      split
      · rename_i _ st14 e15
        have hst14 : Keeps [.cells, .hif, .cmds, .slices, .haul, .outs, .lyr, .csr, .reflexDirty, .hst, .ast, .wld,
            .cic, .pair, .emits] s st14 := by
          refine Keeps.snd e15 ?_
          refine Keeps.next (State.restoreFits_keeps ..) rfl ?_
          exact hst13
        show Keeps _ _ _
        refine Keeps.next (State.shedPass_keeps ..) rfl ?_
        exact hst14

theorem finishRestore_keeps (e : ℕ) (x : Xfer) (s : State) : Keeps [.cells, .hif, .cmds, .slices, .haul, .outs,
    .lyr, .csr, .cvu, .reflexDirty, .hst, .ast, .wld, .cic, .dmc, .pair, .mem, .freeCtr, .emits] s (finishRestore e x s)
    := by
  unfold finishRestore
  show let r4 := _; Keeps _ _ r4
  intro r4
  extract_lets -descend +onlyGivenNames v5 at r4
  extract_lets -descend +onlyGivenNames v6 at r4
  subst r4
  split
  · refine Keeps.next (State.failXfer_keeps ..) rfl ?_
    exact Keeps.refl
  · show let r7 := _; Keeps _ _ r7
    intro r7
    extract_lets -descend +onlyGivenNames v8 at r7
    extract_lets -descend +onlyGivenNames v9 at r7
    extract_lets -descend +onlyGivenNames v10 at r7
    extract_lets -descend +onlyGivenNames v11 at r7
    subst r7
    split
    · refine Keeps.next (State.failXfer_keeps ..) rfl ?_
      split
      · refine Keeps.next (State.denial_keeps ..) rfl ?_
        exact Keeps.refl
      · exact Keeps.refl
    · rename_i st12 e13
      have hst12 : Keeps [.cells, .hif, .cmds, .slices, .haul, .outs, .lyr, .csr, .cvu, .reflexDirty, .hst, .ast,
          .wld, .cic, .dmc, .pair, .mem, .freeCtr, .emits] s st12 := by
        refine Keeps.next (State.restoreSurfaces_keeps e13) rfl ?_
        refine Keeps.next (State.restoreFreed_keeps ..) rfl ?_
        exact Keeps.refl
      show let r14 := _; Keeps _ _ r14
      intro r14
      extract_lets -descend +onlyGivenNames st15 at r14
      have hst15 : Keeps [.cells, .hif, .cmds, .slices, .haul, .outs, .lyr, .csr, .cvu, .reflexDirty, .hst, .ast,
          .wld, .cic, .dmc, .pair, .mem, .freeCtr, .emits] s st15 := by
        subst st15
        refine Keeps.next (State.updSlice_keeps ..) rfl ?_
        exact hst12
      try clear_value st15
      subst r14
      split
      · rename_i _ st16 e17
        have hst16 : Keeps [.cells, .hif, .cmds, .slices, .haul, .outs, .lyr, .csr, .cvu, .reflexDirty, .hst, .ast,
            .wld, .cic, .dmc, .pair, .mem, .freeCtr, .emits] s st16 := by
          refine Keeps.snd e17 ?_
          refine Keeps.ite2 ?_ ?_
          · refine Keeps.next (State.restoreFinal_keeps ..) rfl ?_
            exact hst15
          · show Keeps _ _ _
            exact hst15
        split
        · refine Keeps.next (State.failXfer_keeps ..) rfl ?_
          exact hst16
        · refine Keeps.next (State.endXfer_keeps ..) rfl ?_
          exact hst16

theorem State.xferDone_keeps (s : State) (e : ℕ) (x : Xfer) : Keeps [.cells, .hif, .cmds, .slices, .haul, .outs,
    .lyr, .csr, .cvu, .reflexDirty, .hst, .ast, .wld, .cic, .dmc, .pair, .mem, .freeCtr, .emits] s (State.xferDone s e
    x) := by
  unfold State.xferDone
  split
  · refine Keeps.next (importFilled_keeps ..) rfl ?_
    exact Keeps.refl
  · refine Keeps.next (finishExport_keeps ..) rfl ?_
    exact Keeps.refl
  · refine Keeps.next (finishSeed_keeps ..) rfl ?_
    exact Keeps.refl
  · refine Keeps.next (finishCapture_keeps ..) rfl ?_
    exact Keeps.refl
  · refine Keeps.next (finishRestore_keeps ..) rfl ?_
    exact Keeps.refl
  · exact Keeps.refl

theorem State.advanceXfer_keeps (s : State) (e : ℕ) (sp : ℕ) (handle : ℕ) (g : Seg) : Keeps [.cells, .hif, .cmds,
    .slices, .haul, .outs, .lyr, .csr, .cvu, .reflexDirty, .hst, .ast, .wld, .cic, .dmc, .pair, .mem, .freeCtr, .emits]
    s (State.advanceXfer s e sp handle g) := by
  unfold State.advanceXfer
  show let r6 := _; Keeps _ _ r6
  intro r6
  extract_lets -descend +onlyGivenNames st7 at r6
  have hst7 : Keeps [.cells, .hif, .cmds, .slices, .haul, .outs, .lyr, .csr, .cvu, .reflexDirty, .hst, .ast, .wld,
      .cic, .dmc, .pair, .mem, .freeCtr, .emits] s st7 := by
    subst st7
    refine Keeps.next (State.setEngine_keeps ..) rfl ?_
    exact Keeps.refl
  try clear_value st7
  subst r6
  split
  · exact hst7
  · show let r8 := _; Keeps _ _ r8
    intro r8
    extract_lets -descend +onlyGivenNames v9 at r8
    extract_lets -descend +onlyGivenNames st10 at r8
    have hst10 : Keeps [.cells, .hif, .cmds, .slices, .haul, .outs, .lyr, .csr, .cvu, .reflexDirty, .hst, .ast,
        .wld, .cic, .dmc, .pair, .mem, .freeCtr, .emits] s st10 := by
      subst st10
      refine Keeps.next (State.putXfer_keeps ..) rfl ?_
      exact hst7
    try clear_value st10
    subst r8
    refine Keeps.ite ?_ ?_
    · refine Keeps.next (State.xferDone_keeps ..) rfl ?_
      exact hst10
    · exact hst10

theorem doSegmentDone_keeps (e : Nat) (bad : Ecc) (s : State) : Keeps [.cells, .latches, .hif, .cmds, .slices,
    .haul, .outs, .lyr, .csr, .cvu, .floor, .reflexDirty, .hst, .ast, .wld, .cic, .dmc, .pair, .mem, .freeCtr, .emits] s
    (doSegmentDone e bad s) := by
  unfold doSegmentDone
  split
  · exact Keeps.refl
  · split
    · exact Keeps.refl
    · split
      · exact Keeps.refl
      · rename_i x _ _ g _
        dsimp only
        refine Keeps.ite Keeps.refl ?_
        refine Keeps.next (State.settle_keeps ..) rfl ?_
        have h : Keeps [.cells, .latches, .hif, .cmds, .slices, .haul, .outs, .lyr, .csr, .cvu, .floor,
            .reflexDirty, .hst, .ast, .wld, .cic, .dmc, .pair, .mem, .freeCtr, .emits] s (if s.dmc.selfRefresh && x.op
            != 0x05 && x.op != 0x12 then (some (0x4005, s.lostAt x), s)
            else s.segmentEffect e x g bad).2 := Keeps.ite2 Keeps.refl ((State.segmentEffect_keeps ..).weaken rfl)
        generalize (if s.dmc.selfRefresh && x.op != 0x05 && x.op != 0x12 then (some (0x4005, s.lostAt x), s)
            else s.segmentEffect e x g bad) = q at h ⊢
        split
        · exact Keeps.next (State.xferFails_keeps ..) rfl h
        · exact Keeps.next (State.advanceXfer_keeps ..) rfl h

theorem State.segmentFailed_keeps (s : State) (sp : ℕ) (handle : ℕ) (off : ℕ) (status : ℕ) : Keeps [.cells, .hif,
    .cmds, .slices, .haul, .cvu, .floor, .pair, .emits] s (State.segmentFailed s sp handle off status) := by
  unfold State.segmentFailed
  split
  · exact Keeps.refl
  · show let r6 := _; Keeps _ _ r6
    intro r6
    extract_lets -descend +onlyGivenNames st7 at r6
    have hst7 : Keeps [.cells, .hif, .cmds, .slices, .haul, .cvu, .floor, .pair, .emits] s st7 := by
      subst st7
      refine Keeps.next (State.xferFails_keeps ..) rfl ?_
      exact Keeps.refl
    try clear_value st7
    subst r6
    refine Keeps.ite ?_ ?_
    · refine Keeps.next (State.signal_keeps ..) rfl ?_
      exact hst7
    · exact hst7

theorem State.entryFailed_keeps (s : State) (sp : ℕ) : Keeps [.cells, .hif, .cmds, .emits] s (State.entryFailed s
    sp) := by
  unfold State.entryFailed
  show let r3 := _; Keeps _ _ r3
  intro r3
  extract_lets -descend +onlyGivenNames st4 at r3
  have hst4 : Keeps [.cells, .hif, .cmds, .emits] s st4 := by
    subst st4
    refine Keeps.next (State.updSpace_keeps ..) rfl ?_
    exact Keeps.refl
  try clear_value st4
  extract_lets -descend +onlyGivenNames st5 at r3
  have hst5 : Keeps [.cells, .hif, .cmds, .emits] s st5 := by
    subst st5
    refine Keeps.next (State.setF_keeps ..) rfl ?_
    exact hst4
  try clear_value st5
  subst r3
  refine Keeps.ite ?_ ?_
  · refine Keeps.next (State.signal_keeps ..) rfl ?_
    exact hst5
  · refine Keeps.next (State.signal_keeps ..) rfl ?_
    exact hst5

theorem State.streamError_keeps (s : State) (sl : ℕ) (ch : Option ℕ) : Keeps [.cells, .hif, .hst, .ast, .emits] s
    (State.streamError s sl ch) := by
  unfold State.streamError
  show let r4 := _; Keeps _ _ r4
  intro r4
  extract_lets -descend +onlyGivenNames st5 at r4
  have hst5 : Keeps [.cells, .hif, .hst, .ast, .emits] s st5 := by
    subst st5
    split
    · refine Keeps.next (State.put_keeps ..) rfl ?_
      refine Keeps.next (State.updHst_keeps ..) rfl ?_
      exact Keeps.refl
    · refine Keeps.next (State.updAst_keeps ..) rfl ?_
      exact Keeps.refl
  try clear_value st5
  subst r4
  refine Keeps.next (State.signal_keeps ..) rfl ?_
  exact hst5

theorem State.readFailed_keeps (s : State) (u : ReadFor) (off : ℕ) (status : ℕ) : Keeps [.cells, .hif, .cmds,
    .slices, .haul, .cvu, .floor, .hst, .ast, .pair, .emits] s (State.readFailed s u off status) := by
  unfold State.readFailed
  split
  · refine Keeps.next (State.entryFailed_keeps ..) rfl ?_
    exact Keeps.refl
  · refine Keeps.next (State.segmentFailed_keeps ..) rfl ?_
    exact Keeps.refl
  · refine Keeps.next (State.streamError_keeps ..) rfl ?_
    exact Keeps.refl
  · refine Keeps.next (State.streamError_keeps ..) rfl ?_
    exact Keeps.refl

theorem State.streamSamples_keeps (s : State) (sl : ℕ) (ch : Option ℕ) (samples : List ℤ) : Keeps [.hst, .ast] s
    (State.streamSamples s sl ch samples) := by
  unfold State.streamSamples
  split
  · refine Keeps.next (State.updHst_keeps ..) rfl ?_
    exact Keeps.refl
  · refine Keeps.next (State.updAst_keeps ..) rfl ?_
    exact Keeps.refl

theorem State.streamData_keeps (s : State) (sl : ℕ) (ch : Option ℕ) (data : List Byte) : Keeps [.hif, .hst, .ast,
    .pair, .emits] s (State.streamData s sl ch data) := by
  unfold State.streamData
  show let r5 := _; Keeps _ _ r5
  intro r5
  extract_lets -descend +onlyGivenNames v6 at r5
  subst r5
  split
  · show let r7 := _; Keeps _ _ r7
    intro r7
    extract_lets -descend +onlyGivenNames st8 at r7
    have hst8 : Keeps [.hif, .hst, .ast, .pair, .emits] s st8 := by
      subst st8
      refine Keeps.next (State.streamSamples_keeps ..) rfl ?_
      exact Keeps.refl
    try clear_value st8
    extract_lets -descend +onlyGivenNames st9 at r7
    have hst9 : Keeps [.hif, .hst, .ast, .pair, .emits] s st9 := by
      subst st9
      refine Keeps.next (State.mirror_keeps ..) rfl ?_
      exact hst8
    try clear_value st9
    subst r7
    refine Keeps.next (State.fetchStream_keeps ..) rfl ?_
    exact hst9

theorem State.readData_keeps (s : State) (u : ReadFor) (data : List Byte) : Keeps [.hif, .cmds, .haul, .hst, .ast,
    .pair, .emits] s (State.readData s u data) := by
  unfold State.readData
  split
  · refine Keeps.next (State.updSpace_keeps ..) rfl ?_
    exact Keeps.refl
  · split
    · refine Keeps.next (State.putXfer_keeps ..) rfl ?_
      exact Keeps.refl
    · exact Keeps.refl
  · refine Keeps.next (State.streamData_keeps ..) rfl ?_
    exact Keeps.refl
  · refine Keeps.next (State.streamData_keeps ..) rfl ?_
    exact Keeps.refl

theorem State.dropRead_keeps (s : State) (tag : ℕ) : Keeps [.hif] s (State.dropRead s tag) := by
  unfold State.dropRead
  refine Keeps.set_hif (x := s) rfl ?_
  exact Keeps.refl

theorem State.readPart_keeps (s : State) (r : HostRead) (data : List Byte) : Keeps [.hif, .cmds, .haul, .hst, .ast,
    .pair, .emits] s (State.readPart s r data) := by
  unfold State.readPart
  split
  · exact Keeps.refl
  · show let r4 := _; Keeps _ _ r4
    intro r4
    extract_lets -descend +onlyGivenNames v5 at r4
    subst r4
    refine Keeps.ite ?_ ?_
    · show let r6 := _; Keeps _ _ r6
      intro r6
      extract_lets -descend +onlyGivenNames st7 at r6
      have hst7 : Keeps [.hif, .cmds, .haul, .hst, .ast, .pair, .emits] s st7 := by
        subst st7
        refine Keeps.set_hif (x := s) rfl ?_
        exact Keeps.refl
      try clear_value st7
      subst r6
      refine Keeps.next (State.readData_keeps ..) rfl ?_
      exact hst7
    · refine Keeps.set_hif (x := s) rfl ?_
      exact Keeps.refl

theorem State.readEnds_keeps (s : State) (r : HostRead) (status : ℕ) : Keeps [.cells, .hif, .cmds, .slices, .haul,
    .cvu, .floor, .hst, .ast, .pair, .emits] s (State.readEnds s r status) := by
  unfold State.readEnds
  show let r4 := _; Keeps _ _ r4
  intro r4
  extract_lets -descend +onlyGivenNames st5 at r4
  have hst5 : Keeps [.cells, .hif, .cmds, .slices, .haul, .cvu, .floor, .hst, .ast, .pair, .emits] s st5 := by
    subst st5
    refine Keeps.set_hif (x := s) rfl ?_
    exact Keeps.refl
  try clear_value st5
  subst r4
  refine Keeps.next (State.readFailed_keeps ..) rfl ?_
  exact hst5

theorem doReadCompletion_keeps (tag : ℕ) (res : DmaRes) (s : State) : Keeps [.cells, .latches, .hif, .cmds, .slices,
    .haul, .outs, .cvu, .floor, .hst, .ast, .wld, .cic, .pair, .freeCtr, .emits] s (doReadCompletion tag res s) := by
  unfold doReadCompletion
  split
  · exact Keeps.refl
  · split
    · refine Keeps.ite ?_ ?_
      · exact Keeps.refl
      · show let r4 := _; Keeps _ _ r4
        intro r4
        extract_lets -descend +onlyGivenNames st5 at r4
        have hst5 : Keeps [.cells, .latches, .hif, .cmds, .slices, .haul, .outs, .cvu, .floor, .hst, .ast, .wld,
            .cic, .pair, .freeCtr, .emits] s st5 := by
          subst st5
          refine Keeps.next (State.dropRead_keeps ..) rfl ?_
          exact Keeps.refl
        try clear_value st5
        subst r4
        refine Keeps.ite ?_ ?_
        · refine Keeps.next (State.kick_keeps ..) rfl ?_
          exact hst5
        · refine Keeps.next (State.kick_keeps ..) rfl ?_
          refine Keeps.next (State.readPart_keeps ..) rfl ?_
          exact hst5
    · show let r6 := _; Keeps _ _ r6
      intro r6
      extract_lets -descend +onlyGivenNames st7 at r6
      have hst7 : Keeps [.cells, .latches, .hif, .cmds, .slices, .haul, .outs, .cvu, .floor, .hst, .ast, .wld, .cic,
          .pair, .freeCtr, .emits] s st7 := by
        subst st7
        refine Keeps.next (State.dropRead_keeps ..) rfl ?_
        exact Keeps.refl
      try clear_value st7
      subst r6
      refine Keeps.ite ?_ ?_
      · refine Keeps.next (State.kick_keeps ..) rfl ?_
        exact hst7
      · refine Keeps.next (State.kick_keeps ..) rfl ?_
        refine Keeps.next (State.readEnds_keeps ..) rfl ?_
        exact hst7

theorem doCompletionTimeout_keeps (tag : ℕ) (s : State) : Keeps [.cells, .latches, .hif, .cmds, .slices, .haul,
    .outs, .cvu, .floor, .hst, .ast, .wld, .cic, .pair, .freeCtr, .emits] s (doCompletionTimeout tag s) := by
  unfold doCompletionTimeout
  split
  · exact Keeps.refl
  · refine Keeps.ite ?_ ?_
    · exact Keeps.refl
    · show let r3 := _; Keeps _ _ r3
      intro r3
      extract_lets -descend +onlyGivenNames st4 at r3
      have hst4 : Keeps [.cells, .latches, .hif, .cmds, .slices, .haul, .outs, .cvu, .floor, .hst, .ast, .wld, .cic,
          .pair, .freeCtr, .emits] s st4 := by
        subst st4
        refine Keeps.next (State.dropRead_keeps ..) rfl ?_
        exact Keeps.refl
      try clear_value st4
      subst r3
      refine Keeps.ite ?_ ?_
      · refine Keeps.next (State.kick_keeps ..) rfl ?_
        exact hst4
      · refine Keeps.next (State.kick_keeps ..) rfl ?_
        refine Keeps.next (State.readEnds_keeps ..) rfl ?_
        exact hst4

theorem doTakeUp_keeps (o : ℕ) (s : State) : Keeps [.cells, .hif, .cmds, .haul, .outs, .wld, .cic, .pair, .emits] s
    (doTakeUp o s) := by
  unfold doTakeUp
  show let r3 := _; Keeps _ _ r3
  intro r3
  extract_lets -descend +onlyGivenNames v4 at r3
  subst r3
  refine Keeps.ite ?_ ?_
  · exact Keeps.refl
  · split
    · exact Keeps.refl
    · refine Keeps.next (State.setOut_keeps ..) rfl ?_
      exact Keeps.refl
    · show let r5 := _; Keeps _ _ r5
      intro r5
      extract_lets -descend +onlyGivenNames st6 at r5
      have hst6 : Keeps [.cells, .hif, .cmds, .haul, .outs, .wld, .cic, .pair, .emits] s st6 := by
        subst st6
        refine Keeps.next (State.setOut_keeps ..) rfl ?_
        exact Keeps.refl
      try clear_value st6
      subst r5
      refine Keeps.ite ?_ ?_
      · refine Keeps.next (State.refuse_keeps ..) rfl ?_
        exact hst6
      · split
        · refine Keeps.next (State.endCommit_keeps ..) rfl ?_
          exact hst6
        · show let r7 := _; Keeps _ _ r7
          intro r7
          extract_lets -descend +onlyGivenNames v8 at r7
          extract_lets -descend +onlyGivenNames st9 at r7
          have hst9 : Keeps [.cells, .hif, .cmds, .haul, .outs, .wld, .cic, .pair, .emits] s st9 := by
            subst st9
            refine Keeps.next (State.updOut_keeps ..) rfl ?_
            exact hst6
          try clear_value st9
          subst r7
          refine Keeps.ite ?_ ?_
          · exact hst9
          · refine Keeps.each (fun st10 x11 => ?_) ?_
            · split
              · refine Keeps.next (State.hold_keeps ..) rfl ?_
                exact Keeps.refl
              · exact Keeps.refl
            · exact hst9

theorem State.probeOk_keeps (s : State) (o : ℕ) (c : Commit) : Keeps [.cells, .hif, .cmds, .haul, .pair, .emits] s
    (State.probeOk s o c) := by
  unfold State.probeOk
  show let r4 := _; Keeps _ _ r4
  intro r4
  extract_lets -descend +onlyGivenNames v5 at r4
  extract_lets -descend +onlyGivenNames v6 at r4
  extract_lets -descend +onlyGivenNames v7 at r4
  subst r4
  refine Keeps.next (State.complete_keeps ..) rfl ?_
  refine Keeps.next (State.endCommitHolds_keeps ..) rfl ?_
  exact Keeps.refl

theorem State.commitVerdict_keeps (s : State) (o : ℕ) (c : Commit) : Keeps [.cells, .hif, .cmds, .haul, .outs, .wld,
    .cic, .pair, .emits] s (State.commitVerdict s o c) := by
  unfold State.commitVerdict
  refine Keeps.ite ?_ ?_
  · refine Keeps.next (State.refuse_keeps ..) rfl ?_
    exact Keeps.refl
  · split
    · refine Keeps.next (State.refuse_keeps ..) rfl ?_
      exact Keeps.refl
    · refine Keeps.ite ?_ ?_
      · refine Keeps.next (State.probeOk_keeps ..) rfl ?_
        exact Keeps.refl
      · show let r4 := _; Keeps _ _ r4
        intro r4
        extract_lets -descend +onlyGivenNames st5 at r4
        have hst5 : Keeps [.cells, .hif, .cmds, .haul, .outs, .wld, .cic, .pair, .emits] s st5 := by
          subst st5
          refine Keeps.next (State.count_keeps ..) rfl ?_
          exact Keeps.refl
        try clear_value st5
        extract_lets -descend +onlyGivenNames st6 at r4
        have hst6 : Keeps [.cells, .hif, .cmds, .haul, .outs, .wld, .cic, .pair, .emits] s st6 := by
          subst st6
          refine Keeps.dite (fun _ => ?_) (fun _ => ?_)
          · refine Keeps.next (State.decide_keeps ..) rfl ?_
            exact hst5
          · exact hst5
        try clear_value st6
        extract_lets -descend +onlyGivenNames st7 at r4
        have hst7 : Keeps [.cells, .hif, .cmds, .haul, .outs, .wld, .cic, .pair, .emits] s st7 := by
          subst st7
          refine Keeps.ite ?_ ?_
          · refine Keeps.next (State.clrF_keeps ..) rfl ?_
            exact hst6
          · exact hst6
        try clear_value st7
        subst r4
        refine Keeps.ite ?_ ?_
        · refine Keeps.next (State.updOut_keeps ..) rfl ?_
          exact hst7
        · refine Keeps.next (State.accept_keeps ..) rfl ?_
          exact hst7

theorem State.shareVerdict_keeps (s : State) (o : ℕ) (w : Word) : Keeps [.cells, .outs, .pair, .emits] s
    (State.shareVerdict s o w) := by
  unfold State.shareVerdict
  show let r4 := _; Keeps _ _ r4
  intro r4
  extract_lets -descend +onlyGivenNames v5 at r4
  extract_lets -descend +onlyGivenNames st6 at r4
  have hst6 : Keeps [.cells, .outs, .pair, .emits] s st6 := by
    subst st6
    refine Keeps.dite (fun _ => ?_) (fun _ => ?_)
    · refine Keeps.next (State.decide_keeps ..) rfl ?_
      exact Keeps.refl
    · exact Keeps.refl
  try clear_value st6
  subst r4
  refine Keeps.ite ?_ ?_
  · refine Keeps.next (State.shedPass_keeps ..) rfl ?_
    refine Keeps.next (State.wr_keeps ..) rfl ?_
    exact hst6
  · refine Keeps.next (State.setF_keeps ..) rfl ?_
    exact hst6

theorem doVerdict_keeps (o : ℕ) (s : State) : Keeps [.cells, .hif, .cmds, .haul, .outs, .wld, .cic, .pair, .emits] s
    (doVerdict o s) := by
  unfold doVerdict
  split
  · exact Keeps.refl
  · refine Keeps.ite ?_ ?_
    · exact Keeps.refl
    · show let r3 := _; Keeps _ _ r3
      intro r3
      extract_lets -descend +onlyGivenNames st4 at r3
      have hst4 : Keeps [.cells, .hif, .cmds, .haul, .outs, .wld, .cic, .pair, .emits] s st4 := by
        subst st4
        refine Keeps.next (State.updOut_keeps ..) rfl ?_
        exact Keeps.refl
      try clear_value st4
      subst r3
      split
      · refine Keeps.next (State.commitVerdict_keeps ..) rfl ?_
        exact hst4
      · refine Keeps.next (State.shareVerdict_keeps ..) rfl ?_
        exact hst4

theorem State.floorChecked_keeps (s : State) (o : ℕ) (len : ℕ) : Keeps [.cells, .hif, .cmds, .slices, .haul, .cvu,
    .floor, .pair, .emits] s (State.floorChecked s o len) := by
  unfold State.floorChecked
  split
  · refine Keeps.next (State.floorFailed_keeps ..) rfl ?_
    exact Keeps.refl
  · split
    · exact Keeps.refl
    · refine Keeps.ite ?_ ?_
      · refine Keeps.next (State.updFloor_keeps ..) rfl ?_
        exact Keeps.refl
      · refine Keeps.next (State.floorValid_keeps ..) rfl ?_
        exact Keeps.refl

theorem State.floorCopyDram_keeps (s : State) (o : ℕ) (base : ℕ) (ecc : Ecc) : Keeps [.cells, .hif, .cmds, .slices,
    .haul, .cvu, .floor, .wld, .cic, .dmc, .pair, .mem, .emits] s (State.floorCopyDram s o base ecc) := by
  unfold State.floorCopyDram
  show let r5 := _; Keeps _ _ r5
  intro r5
  extract_lets -descend +onlyGivenNames v6 at r5
  subst r5
  refine Keeps.ite ?_ ?_
  · refine Keeps.next (State.floorFailed_keeps ..) rfl ?_
    exact Keeps.refl
  · split
    · rename_i _ _ st7 e8
      have hst7 : Keeps [.cells, .hif, .cmds, .slices, .haul, .cvu, .floor, .wld, .cic, .dmc, .pair, .mem, .emits] s
          st7 := by
        refine Keeps.next (State.dramRead_keeps e8) rfl ?_
        exact Keeps.refl
      refine Keeps.ite ?_ ?_
      · refine Keeps.next (State.floorChecked_keeps ..) rfl ?_
        refine Keeps.next (State.floorStore_keeps ..) rfl ?_
        exact hst7
      · refine Keeps.next (State.floorFailed_keeps ..) rfl ?_
        exact hst7

theorem doFloorCopyDone_keeps (o : ℕ) (ecc : Ecc) (s : State) : Keeps [.cells, .hif, .cmds, .slices, .haul, .cvu,
    .floor, .wld, .cic, .dmc, .pair, .mem, .emits] s (doFloorCopyDone o ecc s) := by
  unfold doFloorCopyDone
  split
  · refine Keeps.next (State.floorCopyDram_keeps ..) rfl ?_
    exact Keeps.refl
  · split
    · refine Keeps.ite ?_ ?_
      · refine Keeps.next (State.floorChecked_keeps ..) rfl ?_
        exact Keeps.refl
      · exact Keeps.refl
    · exact Keeps.refl
  · exact Keeps.refl

theorem State.wantTiming_keeps (s : State) (o : ℕ) (fb : Bool) : Keeps [.outs] s (State.wantTiming s o fb).2 := by
  unfold State.wantTiming
  show let r4 := _; Keeps _ _ (Prod.snd r4)
  intro r4
  extract_lets -descend +onlyGivenNames v5 at r4
  extract_lets -descend +onlyGivenNames v6 at r4
  extract_lets -descend +onlyGivenNames v7 at r4
  extract_lets -descend +onlyGivenNames st8 at r4
  have hst8 : Keeps [.outs] s st8 := by
    subst st8
    refine Keeps.next (State.updOut_keeps ..) rfl ?_
    exact Keeps.refl
  try clear_value st8
  subst r4
  show Keeps _ _ _
  exact hst8

theorem State.firstTick_keeps (s : State) (o : ℕ) : Keeps [.cells, .hif, .cmds, .slices, .haul, .outs, .lyr, .csr,
    .cvu, .floor, .wld, .cic, .reductions, .clk, .pair, .emits] s (State.firstTick s o) := by
  unfold State.firstTick
  refine Keeps.next (State.event_keeps ..) rfl ?_
  refine Keeps.next (State.updOut_keeps ..) rfl ?_
  refine Keeps.next (State.frameTick_keeps ..) rfl ?_
  exact Keeps.refl

theorem doOutputStart_keeps (o : ℕ) (s : State) : Keeps [.cells, .hif, .cmds, .slices, .haul, .outs, .lyr, .csr,
    .cvu, .floor, .wld, .cic, .reductions, .clk, .pair, .emits] s (doOutputStart o s) := by
  unfold doOutputStart
  show let r3 := _; Keeps _ _ r3
  intro r3
  extract_lets -descend +onlyGivenNames v4 at r3
  subst r3
  refine Keeps.ite ?_ ?_
  · exact Keeps.refl
  · refine Keeps.next (State.firstTick_keeps ..) rfl ?_
    refine Keeps.next (State.setOut_keeps ..) rfl ?_
    refine Keeps.next (State.reductionTick_keeps ..) rfl ?_
    exact Keeps.refl

theorem doRetuneDone_keeps (o : ℕ) (s : State) : Keeps [.outs] s (doRetuneDone o s) := by
  unfold doRetuneDone
  show let r3 := _; Keeps _ _ r3
  intro r3
  extract_lets -descend +onlyGivenNames v4 at r3
  subst r3
  refine Keeps.ite ?_ ?_
  · refine Keeps.next (State.setOut_keeps ..) rfl ?_
    exact Keeps.refl
  · exact Keeps.refl

theorem State.sendPoll_keeps (s : State) (n : ℕ) : Keeps [.emits] s (State.sendPoll s n) := by
  unfold State.sendPoll
  refine Keeps.ite ?_ ?_
  · exact Keeps.refl
  · refine Keeps.next (State.emit_keeps ..) rfl ?_
    exact Keeps.refl

theorem State.result_keeps (s : State) (n : ℕ) (src : HapSrc) (owner : ℕ) (ord : ℕ) (code : ℕ) : Keeps [.cells,
    .hap] s (State.result s n src owner ord code) := by
  unfold State.result
  split
  · refine Keeps.next (State.put_keeps ..) rfl ?_
    exact Keeps.refl
  · refine Keeps.next (State.updChan_keeps ..) rfl ?_
    exact Keeps.refl
  · refine Keeps.next (State.updChan_keeps ..) rfl ?_
    exact Keeps.refl
  · exact Keeps.refl
  · exact Keeps.refl

theorem State.beginPlay_keeps (s : State) (n : ℕ) (r : HapStart) (prio : ℕ) (keepInteg : Bool) : Keeps [.cells,
    .hif, .hap, .wld, .cic, .emits] s (State.beginPlay s n r prio keepInteg) := by
  unfold State.beginPlay
  show let r6 := _; Keeps _ _ r6
  intro r6
  extract_lets -descend +onlyGivenNames v7 at r6
  extract_lets -descend +onlyGivenNames v8 at r6
  extract_lets -descend +onlyGivenNames st9 at r6
  have hst9 : Keeps [.cells, .hif, .hap, .wld, .cic, .emits] s st9 := by
    subst st9
    refine Keeps.next (State.updChan_keeps ..) rfl ?_
    exact Keeps.refl
  try clear_value st9
  subst r6
  refine Keeps.next (State.event_keeps ..) rfl ?_
  refine Keeps.next (State.count_keeps ..) rfl ?_
  exact hst9

theorem State.brake_keeps (s : State) (n : ℕ) : Keeps [.hap] s (State.brake s n) := by
  unfold State.brake
  refine Keeps.next (State.updChan_keeps ..) rfl ?_
  exact Keeps.refl

theorem State.beginPending_keeps (s : State) (n : ℕ) : Keeps [.cells, .hif, .hap, .wld, .cic, .emits] s
    (State.beginPending s n) := by
  unfold State.beginPending
  split
  · refine Keeps.next (State.updChan_keeps ..) rfl ?_
    exact Keeps.refl
  · show let r3 := _; Keeps _ _ r3
    intro r3
    extract_lets -descend +onlyGivenNames st4 at r3
    have hst4 : Keeps [.cells, .hif, .hap, .wld, .cic, .emits] s st4 := by
      subst st4
      refine Keeps.next (State.updChan_keeps ..) rfl ?_
      exact Keeps.refl
    try clear_value st4
    subst r3
    refine Keeps.ite ?_ ?_
    · refine Keeps.next (State.beginPlay_keeps ..) rfl ?_
      exact hst4
    · refine Keeps.next (State.countDropped_keeps ..) rfl ?_
      exact hst4

theorem State.endBraking_keeps (s : State) (n : ℕ) : Keeps [.cells, .hif, .hap, .wld, .cic, .emits] s
    (State.endBraking s n) := by
  unfold State.endBraking
  refine Keeps.next (State.beginPending_keeps ..) rfl ?_
  refine Keeps.next (State.event_keeps ..) rfl ?_
  exact Keeps.refl

theorem State.sensorFaulted_keeps (s : State) (n : ℕ) : Keeps [.cells, .hif, .hap, .wld, .cic, .emits] s
    (State.sensorFaulted s n) := by
  unfold State.sensorFaulted
  refine Keeps.next (State.event_keeps ..) rfl ?_
  refine Keeps.next (State.updChan_keeps ..) rfl ?_
  refine Keeps.next (State.hapFault_keeps ..) rfl ?_
  exact Keeps.refl

theorem State.applyStop_keeps (s : State) (n : Nat) (t : HapStop) : Keeps [.cells, .hap] s (s.applyStop n t) := by
  unfold State.applyStop
  dsimp only
  have hp : ∀ (c d : Bool), Keeps [.cells, .hap] s
      (if c then (s.brake n, 7) else if d then (s.updChan n fun x => { x with pend := none }, 7) else (s, 8) : State
          × Nat).1 := by
    intro c d
    split
    · exact (State.brake_keeps ..).weaken rfl
    · split
      · show Keeps _ s (s.updChan n fun x => { x with pend := none })
        exact (State.updChan_keeps ..).weaken rfl
      · exact Keeps.refl
  refine Keeps.ite (hp _ _) ?_
  exact Keeps.next (State.result_keeps ..) rfl (hp _ _)

theorem State.startDropped_keeps (s : State) (n : ℕ) (r : HapStart) : Keeps [.cells, .hif, .hap, .wld, .cic, .emits]
    s (State.startDropped s n r) := by
  unfold State.startDropped
  refine Keeps.ite ?_ ?_
  · exact Keeps.refl
  · refine Keeps.next (State.result_keeps ..) rfl ?_
    refine Keeps.next (State.countDropped_keeps ..) rfl ?_
    exact Keeps.refl

theorem State.startBegins_keeps (s : State) (n : ℕ) (r : HapStart) (p : ℕ) (keep : Bool) : Keeps [.cells, .hif,
    .hap, .wld, .cic, .emits] s (State.startBegins s n r p keep) := by
  unfold State.startBegins
  refine Keeps.next (State.result_keeps ..) rfl ?_
  refine Keeps.next (State.beginPlay_keeps ..) rfl ?_
  exact Keeps.refl

theorem State.applyStart_keeps (s : State) (n : ℕ) (r : HapStart) (p : ℕ) : Keeps [.cells, .hif, .hap, .wld, .cic,
    .emits] s (State.applyStart s n r p) := by
  unfold State.applyStart
  show let r5 := _; Keeps _ _ r5
  intro r5
  extract_lets -descend +onlyGivenNames v6 at r5
  subst r5
  refine Keeps.ite ?_ ?_
  · refine Keeps.next (State.result_keeps ..) rfl ?_
    exact Keeps.refl
  · split
    · refine Keeps.next (State.result_keeps ..) rfl ?_
      exact Keeps.refl
    · refine Keeps.next (State.result_keeps ..) rfl ?_
      exact Keeps.refl
    · refine Keeps.next (State.result_keeps ..) rfl ?_
      exact Keeps.refl
    · refine Keeps.next (State.startBegins_keeps ..) rfl ?_
      exact Keeps.refl
    · split
      · refine Keeps.next (State.startBegins_keeps ..) rfl ?_
        exact Keeps.refl
      · refine Keeps.ite ?_ ?_
        · refine Keeps.next (State.startBegins_keeps ..) rfl ?_
          refine Keeps.next (State.count_keeps ..) rfl ?_
          exact Keeps.refl
        · refine Keeps.ite ?_ ?_
          · refine Keeps.next (State.startBegins_keeps ..) rfl ?_
            exact Keeps.refl
          · refine Keeps.next (State.startDropped_keeps ..) rfl ?_
            exact Keeps.refl
    · show let r7 := _; Keeps _ _ r7
      intro r7
      extract_lets -descend +onlyGivenNames v8 at r7
      subst r7
      refine Keeps.ite ?_ ?_
      · refine Keeps.next (State.startBegins_keeps ..) rfl ?_
        refine Keeps.next (State.dropPending_keeps ..) rfl ?_
        exact Keeps.refl
      · refine Keeps.ite ?_ ?_
        · refine Keeps.next (State.result_keeps ..) rfl ?_
          refine Keeps.next (State.updChan_keeps ..) rfl ?_
          refine Keeps.next (State.dropPending_keeps ..) rfl ?_
          exact Keeps.refl
        · refine Keeps.next (State.startDropped_keeps ..) rfl ?_
          exact Keeps.refl

theorem State.admitStart_keeps (s : State) (n : ℕ) (r : HapStart) : Keeps [.cells, .hap] s (State.admitStart s n
    r).2 := by
  unfold State.admitStart
  show let r4 := _; Keeps _ _ (Prod.snd r4)
  intro r4
  extract_lets -descend +onlyGivenNames v5 at r4
  subst r4
  refine Keeps.ite2 ?_ ?_
  · show Keeps _ _ _
    exact Keeps.refl
  · show let r6 := _; Keeps _ _ (Prod.snd r6)
    intro r6
    extract_lets -descend +onlyGivenNames st7 at r6
    have hst7 : Keeps [.cells, .hap] s st7 := by
      subst st7
      refine Keeps.ite ?_ ?_
      · refine Keeps.next (State.count_keeps ..) rfl ?_
        exact Keeps.refl
      · exact Keeps.refl
    try clear_value st7
    subst r6
    refine Keeps.ite2 ?_ ?_
    · show Keeps _ _ _
      refine Keeps.next (State.result_keeps ..) rfl ?_
      exact hst7
    · show Keeps _ _ _
      exact hst7

theorem State.takeStops_keeps (s : State) (n : ℕ) : Keeps [.cells, .hap] s (State.takeStops s n) := by
  unfold State.takeStops
  show let r3 := _; Keeps _ _ r3
  intro r3
  extract_lets -descend +onlyGivenNames v4 at r3
  extract_lets -descend +onlyGivenNames v5 at r3
  extract_lets -descend +onlyGivenNames st6 at r3
  have hst6 : Keeps [.cells, .hap] s st6 := by
    subst st6
    refine Keeps.next (State.setChan_keeps ..) rfl ?_
    exact Keeps.refl
  try clear_value st6
  subst r3
  refine Keeps.each (fun st7 x8 => ?_) ?_
  · refine Keeps.next (State.applyStop_keeps ..) rfl ?_
    exact Keeps.refl
  · exact hst6

theorem State.takeStarts_keeps (s : State) (n : Nat) : Keeps [.cells, .hif, .hap, .wld, .cic, .emits] s
    (s.takeStarts n) := by
  unfold State.takeStarts
  dsimp only
  refine Keeps.each (fun s e => (State.applyStart_keeps ..).weaken rfl) ?_
  refine Keeps.foldl2 (fun q d => ?_) ((State.setChan_keeps ..).weaken rfl)
  exact (State.admitStart_keeps ..).weaken rfl

theorem State.fillBuckets_keeps (s : State) : Keeps [.hap, .hapShared] s (State.fillBuckets s) := by
  unfold State.fillBuckets
  show let r2 := _; Keeps _ _ r2
  intro r2
  extract_lets -descend +onlyGivenNames st3 at r2
  have hst3 : Keeps [.hap, .hapShared] s st3 := by
    subst st3
    refine Keeps.each (fun st4 x5 => ?_) ?_
    · refine Keeps.next (State.updChan_keeps ..) rfl ?_
      exact Keeps.refl
    · exact Keeps.refl
  try clear_value st3
  subst r2
  refine Keeps.set_hapShared (x := st3) rfl ?_
  exact hst3

theorem State.hapCloseStep_keeps (s : State) (n : ℕ) : Keeps [.cells, .hif, .hap, .wld, .cic, .emits] s
    (State.hapCloseStep s n) := by
  unfold State.hapCloseStep
  show let r3 := _; Keeps _ _ r3
  intro r3
  extract_lets -descend +onlyGivenNames v4 at r3
  subst r3
  refine Keeps.ite ?_ ?_
  · refine Keeps.next (State.updChan_keeps ..) rfl ?_
    refine Keeps.next (State.endProg_keeps ..) rfl ?_
    refine Keeps.next (State.dropPending_keeps ..) rfl ?_
    exact Keeps.refl
  · refine Keeps.next (State.setChan_keeps ..) rfl ?_
    exact Keeps.refl

theorem State.hapEnableStep_keeps (s : State) (n : ℕ) : Keeps [.cells, .hif, .hap, .hapShared, .wld, .cic, .emits] s
    (State.hapEnableStep s n) := by
  unfold State.hapEnableStep
  show let r3 := _; Keeps _ _ r3
  intro r3
  extract_lets -descend +onlyGivenNames v4 at r3
  extract_lets -descend +onlyGivenNames st5 at r3
  have hst5 : Keeps [.cells, .hif, .hap, .hapShared, .wld, .cic, .emits] s st5 := by
    subst st5
    refine Keeps.ite ?_ ?_
    · refine Keeps.next (State.hapCloseStep_keeps ..) rfl ?_
      exact Keeps.refl
    · exact Keeps.refl
  try clear_value st5
  extract_lets -descend +onlyGivenNames v6 at r3
  subst r3
  refine Keeps.ite ?_ ?_
  · refine Keeps.ite ?_ ?_
    · refine Keeps.next (State.updChan_keeps ..) rfl ?_
      refine Keeps.next (State.fillBuckets_keeps ..) rfl ?_
      exact hst5
    · refine Keeps.ite ?_ ?_
      · refine Keeps.next (State.updChan_keeps ..) rfl ?_
        exact hst5
      · exact hst5
  · exact hst5

theorem State.hapTransitions_keeps (s : State) (n : ℕ) : Keeps [.cells, .hif, .hap, .hapShared, .wld, .cic, .emits]
    s (State.hapTransitions s n) := by
  unfold State.hapTransitions
  show let r3 := _; Keeps _ _ r3
  intro r3
  extract_lets -descend +onlyGivenNames v4 at r3
  extract_lets -descend +onlyGivenNames st5 at r3
  have hst5 : Keeps [.cells, .hif, .hap, .hapShared, .wld, .cic, .emits] s st5 := by
    subst st5
    refine Keeps.ite ?_ ?_
    · refine Keeps.next (State.sensorFaulted_keeps ..) rfl ?_
      exact Keeps.refl
    · exact Keeps.refl
  try clear_value st5
  extract_lets -descend +onlyGivenNames st6 at r3
  have hst6 : Keeps [.cells, .hif, .hap, .hapShared, .wld, .cic, .emits] s st6 := by
    subst st6
    refine Keeps.next (State.hapEnableStep_keeps ..) rfl ?_
    exact hst5
  try clear_value st6
  extract_lets -descend +onlyGivenNames v7 at r3
  extract_lets -descend +onlyGivenNames v8 at r3
  subst r3
  split
  · split
    · refine Keeps.ite ?_ ?_
      · refine Keeps.next (State.brake_keeps ..) rfl ?_
        exact hst6
      · exact hst6
    · exact hst6
  · refine Keeps.ite ?_ ?_
    · show let r9 := _; Keeps _ _ r9
      intro r9
      extract_lets -descend +onlyGivenNames v10 at r9
      extract_lets -descend +onlyGivenNames st11 at r9
      have hst11 : Keeps [.cells, .hif, .hap, .hapShared, .wld, .cic, .emits] s st11 := by
        subst st11
        refine Keeps.next (State.setChan_keeps ..) rfl ?_
        exact hst6
      try clear_value st11
      subst r9
      refine Keeps.ite ?_ ?_
      · refine Keeps.next (State.endBraking_keeps ..) rfl ?_
        exact hst11
      · split
        · refine Keeps.ite ?_ ?_
          · refine Keeps.next (State.dropPending_keeps ..) rfl ?_
            exact hst11
          · exact hst11
        · exact hst11
    · exact hst6
  · exact hst6

theorem State.payStep_keeps (s : State) (n d : Nat) : Keeps [.hap, .hapShared] s (s.payStep n d).2 := by
  unfold State.payStep
  dsimp only
  refine Keeps.set_hapShared rfl ?_
  exact (State.setChan_keeps ..).weaken rfl

theorem State.moveOutput_keeps (s : State) (n : ℕ) (d : Drive) : Keeps [.cells, .hif, .hap, .hapShared, .wld, .cic,
    .emits] s (State.moveOutput s n d) := by
  unfold State.moveOutput
  show let r4 := _; Keeps _ _ r4
  intro r4
  extract_lets -descend +onlyGivenNames v5 at r4
  subst r4
  refine Keeps.ite ?_ ?_
  · refine Keeps.next (State.setChan_keeps ..) rfl ?_
    exact Keeps.refl
  · show let r6 := _; Keeps _ _ r6
    intro r6
    extract_lets -descend +onlyGivenNames v7 at r6
    subst r6
    split
    · rename_i _ st8 e9
      have hst8 : Keeps [.cells, .hif, .hap, .hapShared, .wld, .cic, .emits] s st8 := by
        refine Keeps.snd e9 ?_
        refine Keeps.next (State.payStep_keeps ..) rfl ?_
        exact Keeps.refl
      show let r10 := _; Keeps _ _ r10
      intro r10
      extract_lets -descend +onlyGivenNames st11 at r10
      have hst11 : Keeps [.cells, .hif, .hap, .hapShared, .wld, .cic, .emits] s st11 := by
        subst st11
        refine Keeps.next (State.updChan_keeps ..) rfl ?_
        exact hst8
      try clear_value st11
      subst r10
      refine Keeps.ite ?_ ?_
      · exact hst11
      · show let r12 := _; Keeps _ _ r12
        intro r12
        extract_lets -descend +onlyGivenNames st13 at r12
        have hst13 : Keeps [.cells, .hif, .hap, .hapShared, .wld, .cic, .emits] s st13 := by
          subst st13
          refine Keeps.next (State.count_keeps ..) rfl ?_
          exact hst11
        try clear_value st13
        subst r12
        refine Keeps.ite ?_ ?_
        · exact hst13
        · refine Keeps.next (State.event_keeps ..) rfl ?_
          exact hst13

theorem State.afterDrive_keeps (s : State) (n : ℕ) (d : Drive) (out0 : ℕ) (polls : List AccPoll) : Keeps [.hap,
    .emits] s (State.afterDrive s n d out0 polls) := by
  unfold State.afterDrive
  show let r6 := _; Keeps _ _ r6
  intro r6
  extract_lets -descend +onlyGivenNames v7 at r6
  subst r6
  refine Keeps.ite ?_ ?_
  · exact Keeps.refl
  · show let r8 := _; Keeps _ _ r8
    intro r8
    extract_lets -descend +onlyGivenNames st9 at r8
    have hst9 : Keeps [.hap, .emits] s st9 := by
      subst st9
      refine Keeps.next (State.sendPoll_keeps ..) rfl ?_
      exact Keeps.refl
    try clear_value st9
    extract_lets -descend +onlyGivenNames v10 at r8
    extract_lets -descend +onlyGivenNames v11 at r8
    extract_lets -descend +onlyGivenNames v12 at r8
    extract_lets -descend +onlyGivenNames v13 at r8
    extract_lets -descend +onlyGivenNames v14 at r8
    extract_lets -descend +onlyGivenNames v15 at r8
    extract_lets -descend +onlyGivenNames v16 at r8
    subst r8
    refine Keeps.ite ?_ ?_
    · refine Keeps.next (State.setChan_keeps ..) rfl ?_
      exact hst9
    · refine Keeps.ite ?_ ?_
      · refine Keeps.next (State.setChan_keeps ..) rfl ?_
        exact hst9
      · refine Keeps.next (State.setChan_keeps ..) rfl ?_
        exact hst9

theorem State.refill_keeps (s : State) : Keeps [.hap, .hapShared] s s.refill := by
  unfold State.refill
  dsimp only
  refine Keeps.set_hapShared rfl ?_
  refine Keeps.foldl2 (fun q x => ?_) Keeps.refl
  obtain ⟨a, u⟩ := q
  dsimp only
  exact Keeps.weaken (k := [.hap]) (State.updChan_keeps u _ _) rfl

theorem State.takeFloors_keeps (s : State) : Keeps [.cells, .hap] s (State.takeFloors s) := by
  unfold State.takeFloors
  refine Keeps.each (fun st2 x3 => ?_) ?_
  · split
    · refine Keeps.next (State.updChan_keeps ..) rfl ?_
      refine Keeps.next (State.put_keeps ..) rfl ?_
      exact Keeps.refl
    · exact Keeps.refl
  · exact Keeps.refl

theorem State.railRecovered_keeps (s : State) : Keeps [.cells, .hap, .hapShared] s (State.railRecovered s) := by
  unfold State.railRecovered
  show let r2 := _; Keeps _ _ r2
  intro r2
  extract_lets -descend +onlyGivenNames st3 at r2
  have hst3 : Keeps [.cells, .hap, .hapShared] s st3 := by
    subst st3
    refine Keeps.next (State.setF_keeps ..) rfl ?_
    exact Keeps.refl
  try clear_value st3
  extract_lets -descend +onlyGivenNames st4 at r2
  have hst4 : Keeps [.cells, .hap, .hapShared] s st4 := by
    subst st4
    refine Keeps.set_hapShared (x := st3) rfl ?_
    exact hst3
  try clear_value st4
  subst r2
  refine Keeps.each (fun st5 x6 => ?_) ?_
  · show let r7 := _; Keeps _ _ r7
    intro r7
    extract_lets -descend +onlyGivenNames v8 at r7
    subst r7
    refine Keeps.ite ?_ ?_
    · refine Keeps.next (State.setChan_keeps ..) rfl ?_
      exact Keeps.refl
    · exact Keeps.refl
  · exact hst4

theorem State.railStep_keeps (s : State) (v : ℕ) : Keeps [.cells, .hif, .hap, .hapShared, .wld, .cic, .emits] s
    (State.railStep s v) := by
  unfold State.railStep
  show let r3 := _; Keeps _ _ r3
  intro r3
  extract_lets -descend +onlyGivenNames st4 at r3
  have hst4 : Keeps [.cells, .hif, .hap, .hapShared, .wld, .cic, .emits] s st4 := by
    subst st4
    refine Keeps.next (State.put_keeps ..) rfl ?_
    exact Keeps.refl
  try clear_value st4
  extract_lets -descend +onlyGivenNames v5 at r3
  extract_lets -descend +onlyGivenNames v6 at r3
  subst r3
  refine Keeps.ite ?_ ?_
  · refine Keeps.next (State.railFaulted_keeps ..) rfl ?_
    exact hst4
  · refine Keeps.ite ?_ ?_
    · refine Keeps.next (State.railRecovered_keeps ..) rfl ?_
      exact hst4
    · refine Keeps.set_hapShared (x := st4) rfl ?_
      exact hst4

theorem State.runLoops_keeps (s : State) (polls : List AccPoll) : Keeps [.cells, .hif, .hap, .hapShared, .wld, .cic,
    .emits] s (State.runLoops s polls) := by
  unfold State.runLoops
  show let r3 := _; Keeps _ _ r3
  intro r3
  extract_lets -descend +onlyGivenNames v4 at r3
  extract_lets -descend +onlyGivenNames v5 at r3
  extract_lets -descend +onlyGivenNames st6 at r3
  have hst6 : Keeps [.cells, .hif, .hap, .hapShared, .wld, .cic, .emits] s st6 := by
    subst st6
    refine Keeps.each (fun st7 x8 => ?_) ?_
    · refine Keeps.next (State.moveOutput_keeps ..) rfl ?_
      exact Keeps.refl
    · exact Keeps.refl
  try clear_value st6
  subst r3
  refine Keeps.each (fun st9 x10 => ?_) ?_
  · refine Keeps.next (State.afterDrive_keeps ..) rfl ?_
    exact Keeps.refl
  · exact hst6

theorem State.loopWork_keeps (s : State) (polls : List AccPoll) : Keeps [.cells, .hif, .hap, .hapShared, .wld, .cic,
    .pair, .emits] s (State.loopWork s polls) := by
  unfold State.loopWork
  refine Keeps.ite ?_ ?_
  · refine Keeps.each (fun st3 x4 => ?_) ?_
    · refine Keeps.next (State.updChan_keeps ..) rfl ?_
      exact Keeps.refl
    · exact Keeps.refl
  · show let r5 := _; Keeps _ _ r5
    intro r5
    extract_lets -descend +onlyGivenNames st6 at r5
    have hst6 : Keeps [.cells, .hif, .hap, .hapShared, .wld, .cic, .pair, .emits] s st6 := by
      subst st6
      refine Keeps.each (fun st7 x8 => ?_) ?_
      · refine Keeps.next (State.takeStops_keeps ..) rfl ?_
        exact Keeps.refl
      · exact Keeps.refl
    try clear_value st6
    extract_lets -descend +onlyGivenNames st9 at r5
    have hst9 : Keeps [.cells, .hif, .hap, .hapShared, .wld, .cic, .pair, .emits] s st9 := by
      subst st9
      refine Keeps.each (fun st10 x11 => ?_) ?_
      · refine Keeps.next (State.hapTransitions_keeps ..) rfl ?_
        exact Keeps.refl
      · exact hst6
    try clear_value st9
    extract_lets -descend +onlyGivenNames st12 at r5
    have hst12 : Keeps [.cells, .hif, .hap, .hapShared, .wld, .cic, .pair, .emits] s st12 := by
      subst st12
      refine Keeps.each (fun st13 x14 => ?_) ?_
      · refine Keeps.next (State.takeStarts_keeps ..) rfl ?_
        exact Keeps.refl
      · exact hst9
    try clear_value st12
    extract_lets -descend +onlyGivenNames st15 at r5
    have hst15 : Keeps [.cells, .hif, .hap, .hapShared, .wld, .cic, .pair, .emits] s st15 := by
      subst st15
      refine Keeps.next (State.runLoops_keeps ..) rfl ?_
      exact hst12
    try clear_value st15
    subst r5
    refine Keeps.next (State.mirror_keeps ..) rfl ?_
    exact hst15

theorem State.clearHapWords_keeps (s : State) (sl : ℕ) : Keeps [.cells, .slices] s (State.clearHapWords s sl) := by
  unfold State.clearHapWords
  show let r3 := _; Keeps _ _ r3
  intro r3
  extract_lets -descend +onlyGivenNames st4 at r3
  have hst4 : Keeps [.cells, .slices] s st4 := by
    subst st4
    refine Keeps.next (State.resetKeys_keeps ..) rfl ?_
    exact Keeps.refl
  try clear_value st4
  subst r3
  refine Keeps.next (State.updSlice_keeps ..) rfl ?_
  exact hst4

theorem State.clearHapAll_keeps (s : State) : Keeps [.cells, .slices] s (State.clearHapAll s) := by
  unfold State.clearHapAll
  refine Keeps.each (fun st2 x3 => ?_) ?_
  · refine Keeps.next (State.clearHapWords_keeps ..) rfl ?_
    exact Keeps.refl
  · exact Keeps.refl

theorem doLoopTick_keeps (polls : List AccPoll) (rail : ℕ) (s : State) : Keeps [.time, .ticks, .cells, .hif,
    .slices, .hap, .hapShared, .wld, .cic, .pair, .emits] s (doLoopTick polls rail s) := by
  unfold doLoopTick
  refine Keeps.ite ?_ ?_
  · exact Keeps.refl
  · show let r4 := _; Keeps _ _ r4
    intro r4
    extract_lets -descend +onlyGivenNames v5 at r4
    extract_lets -descend +onlyGivenNames st6 at r4
    have hst6 : Keeps [.time, .ticks, .cells, .hif, .slices, .hap, .hapShared, .wld, .cic, .pair, .emits] s st6 := by
      subst st6
      refine Keeps.next (State.passLoop_keeps ..) rfl ?_
      refine Keeps.next (State.at_keeps ..) rfl ?_
      exact Keeps.refl
    try clear_value st6
    subst r4
    refine Keeps.next (State.clearHapAll_keeps ..) rfl ?_
    refine Keeps.next (State.loopWork_keeps ..) rfl ?_
    refine Keeps.next (State.railStep_keeps ..) rfl ?_
    refine Keeps.next (State.publish_keeps ..) rfl ?_
    refine Keeps.next (State.refill_keeps ..) rfl ?_
    refine Keeps.next (State.takeFloors_keeps ..) rfl ?_
    exact hst6

theorem State.atLoop_keeps (s : State) : Keeps [.time] s (State.atLoop s) := by
  unfold State.atLoop
  refine Keeps.next (State.at_keeps ..) rfl ?_
  exact Keeps.refl

theorem doEffectEnd_keeps (n : ℕ) (s : State) : Keeps [.time, .hap] s (doEffectEnd n s) := by
  unfold doEffectEnd
  show let r3 := _; Keeps _ _ r3
  intro r3
  extract_lets -descend +onlyGivenNames v4 at r3
  subst r3
  split
  · refine Keeps.ite ?_ ?_
    · exact Keeps.refl
    · refine Keeps.next (State.brake_keeps ..) rfl ?_
      refine Keeps.next (State.at_keeps ..) rfl ?_
      exact Keeps.refl
  · exact Keeps.refl

theorem doBrakingEnd_keeps (n : ℕ) (s : State) : Keeps [.time, .cells, .hif, .hap, .wld, .cic, .emits] s
    (doBrakingEnd n s) := by
  unfold doBrakingEnd
  refine Keeps.ite ?_ ?_
  · refine Keeps.next (State.endBraking_keeps ..) rfl ?_
    refine Keeps.next (State.atLoop_keeps ..) rfl ?_
    exact Keeps.refl
  · exact Keeps.refl

theorem doPendingExpiry_keeps (n : ℕ) (s : State) : Keeps [.time, .cells, .hif, .hap, .wld, .cic, .emits] s
    (doPendingExpiry n s) := by
  unfold doPendingExpiry
  split
  · refine Keeps.next (State.dropPending_keeps ..) rfl ?_
    refine Keeps.next (State.at_keeps ..) rfl ?_
    exact Keeps.refl
  · exact Keeps.refl

theorem doSensorFault_keeps (n : ℕ) (s : State) : Keeps [.time, .cells, .hif, .hap, .wld, .cic, .emits] s
    (doSensorFault n s) := by
  unfold doSensorFault
  refine Keeps.ite ?_ ?_
  · refine Keeps.next (State.sensorFaulted_keeps ..) rfl ?_
    refine Keeps.next (State.atLoop_keeps ..) rfl ?_
    exact Keeps.refl
  · exact Keeps.refl

theorem doRailFault_keeps (s : State) : Keeps [.time, .cells, .hif, .hap, .hapShared, .wld, .cic, .emits] s
    (doRailFault s) := by
  unfold doRailFault
  refine Keeps.ite ?_ ?_
  · refine Keeps.next (State.railFaulted_keeps ..) rfl ?_
    refine Keeps.next (State.atLoop_keeps ..) rfl ?_
    exact Keeps.refl
  · exact Keeps.refl

theorem doRailRecovery_keeps (s : State) : Keeps [.time, .cells, .hap, .hapShared] s (doRailRecovery s) := by
  unfold doRailRecovery
  refine Keeps.ite ?_ ?_
  · exact Keeps.refl
  · refine Keeps.next (State.railRecovered_keeps ..) rfl ?_
    refine Keeps.next (State.atLoop_keeps ..) rfl ?_
    exact Keeps.refl

theorem State.setLone_keeps (s : State) (b : Bool) : Keeps [.cells, .hif, .outs, .wld, .cic, .reductions, .pair,
    .emits] s (State.setLone s b) := by
  unfold State.setLone
  refine Keeps.ite ?_ ?_
  · exact Keeps.refl
  · show let r3 := _; Keeps _ _ r3
    intro r3
    extract_lets -descend +onlyGivenNames v4 at r3
    extract_lets -descend +onlyGivenNames v5 at r3
    extract_lets -descend +onlyGivenNames st6 at r3
    have hst6 : Keeps [.cells, .hif, .outs, .wld, .cic, .reductions, .pair, .emits] s st6 := by
      subst st6
      refine Keeps.set_reductions (x := s) rfl ?_
      exact Keeps.refl
    try clear_value st6
    subst r3
    refine Keeps.next (State.shedPass_keeps ..) rfl ?_
    refine Keeps.next (State.syncReff_keeps ..) rfl ?_
    refine Keeps.next (State.setCause_keeps ..) rfl ?_
    exact hst6

theorem State.feedAll_keeps (s : State) : Keeps [.cells, .hif, .wld, .cic, .pair, .emits] s (State.feedAll s) := by
  unfold State.feedAll
  show let r2 := _; Keeps _ _ r2
  intro r2
  extract_lets -descend +onlyGivenNames st3 at r2
  have hst3 : Keeps [.cells, .hif, .wld, .cic, .pair, .emits] s st3 := by
    subst st3
    refine Keeps.next (State.put_keeps ..) rfl ?_
    exact Keeps.refl
  try clear_value st3
  subst r2
  refine Keeps.each (fun st4 x5 => ?_) ?_
  · refine Keeps.next (State.askFeed_keeps ..) rfl ?_
    exact Keeps.refl
  · exact hst3

theorem State.finishMirrored_keeps (s : State) (p : ℕ → Bool) : Keeps [.cells, .hif, .cmds, .slices, .haul, .cvu,
    .pair, .emits] s (State.finishMirrored s p) := by
  unfold State.finishMirrored
  show let r3 := _; Keeps _ _ r3
  intro r3
  extract_lets -descend +onlyGivenNames v4 at r3
  extract_lets -descend +onlyGivenNames st5 at r3
  have hst5 : Keeps [.cells, .hif, .cmds, .slices, .haul, .cvu, .pair, .emits] s st5 := by
    subst st5
    refine Keeps.next (State.updHaul_keeps ..) rfl ?_
    exact Keeps.refl
  try clear_value st5
  subst r3
  refine Keeps.each (fun st6 x7 => ?_) ?_
  · split
    · split
      · refine Keeps.next (finishImport_keeps ..) rfl ?_
        exact Keeps.refl
      · exact Keeps.refl
  · exact hst5

theorem State.endExchange_keeps (s : State) : Keeps [.cells, .hif, .cmds, .slices, .haul, .cvu, .pair, .emits] s
    (State.endExchange s) := by
  unfold State.endExchange
  show let r2 := _; Keeps _ _ r2
  intro r2
  extract_lets -descend +onlyGivenNames st3 at r2
  have hst3 : Keeps [.cells, .hif, .cmds, .slices, .haul, .cvu, .pair, .emits] s st3 := by
    subst st3
    refine Keeps.next (State.updPair_keeps ..) rfl ?_
    exact Keeps.refl
  try clear_value st3
  subst r2
  refine Keeps.next (State.finishMirrored_keeps ..) rfl ?_
  refine Keeps.next (State.clrF_keeps ..) rfl ?_
  exact hst3

theorem State.goAlone_keeps (s : State) : Keeps [.cells, .hif, .cmds, .slices, .haul, .outs, .cvu, .wld, .cic,
    .reductions, .pair, .emits] s (State.goAlone s) := by
  unfold State.goAlone
  refine Keeps.next (State.setLone_keeps ..) rfl ?_
  refine Keeps.next (State.feedAll_keeps ..) rfl ?_
  refine Keeps.next (State.setPair_keeps ..) rfl ?_
  refine Keeps.next (State.endExchange_keeps ..) rfl ?_
  exact Keeps.refl

theorem State.loseXfers_keeps (s : State) (p : Xfer → Bool) : Keeps [.cells, .hif, .cmds, .slices, .haul, .cvu,
    .floor, .pair, .emits] s (State.loseXfers s p) := by
  unfold State.loseXfers
  refine Keeps.each (fun st3 x4 => ?_) ?_
  · split
    · refine Keeps.next (State.xferFails_keeps ..) rfl ?_
      exact Keeps.refl
    · exact Keeps.refl
  · exact Keeps.refl

theorem State.dropWaiting_keeps (s : State) (sl : ℕ) : Keeps [.cells, .slices] s (State.dropWaiting s sl) := by
  unfold State.dropWaiting
  show let r3 := _; Keeps _ _ r3
  intro r3
  extract_lets -descend +onlyGivenNames v4 at r3
  extract_lets -descend +onlyGivenNames st5 at r3
  have hst5 : Keeps [.cells, .slices] s st5 := by
    subst st5
    refine Keeps.next (State.count_keeps ..) rfl ?_
    exact Keeps.refl
  try clear_value st5
  subst r3
  refine Keeps.next (State.clrF_keeps ..) rfl ?_
  refine Keeps.next (State.updSlice_keeps ..) rfl ?_
  exact hst5

theorem State.linkEnds_keeps (s : State) : Keeps [.cells, .hif, .cmds, .slices, .haul, .cvu, .floor, .hst, .ast,
    .wld, .cic, .pair, .emits] s (State.linkEnds s) := by
  unfold State.linkEnds
  show let r2 := _; Keeps _ _ r2
  intro r2
  extract_lets -descend +onlyGivenNames st3 at r2
  have hst3 : Keeps [.cells, .hif, .cmds, .slices, .haul, .cvu, .floor, .hst, .ast, .wld, .cic, .pair, .emits] s st3
      := by
    subst st3
    refine Keeps.next (State.dropReads_keeps ..) rfl ?_
    refine Keeps.next (State.loseXfers_keeps ..) rfl ?_
    exact Keeps.refl
  try clear_value st3
  extract_lets -descend +onlyGivenNames st4 at r2
  have hst4 : Keeps [.cells, .hif, .cmds, .slices, .haul, .cvu, .floor, .hst, .ast, .wld, .cic, .pair, .emits] s st4
      := by
    subst st4
    refine Keeps.each (fun st5 x6 => ?_) ?_
    · refine Keeps.next (State.dropWaiting_keeps ..) rfl ?_
      exact Keeps.refl
    · exact hst3
  try clear_value st4
  subst r2
  refine Keeps.next (State.event_keeps ..) rfl ?_
  refine Keeps.next (State.count_keeps ..) rfl ?_
  refine Keeps.next (State.clrF_keeps ..) rfl ?_
  exact hst4

theorem State.detachAll_keeps (s : State) : Keeps [.cells, .hif, .cmds, .slices, .wld, .cic, .emits] s
    (State.detachAll s) := by
  unfold State.detachAll
  refine Keeps.each (fun st2 x3 => ?_) ?_
  · show let r4 := _; Keeps _ _ r4
    intro r4
    extract_lets -descend +onlyGivenNames v5 at r4
    subst r4
    refine Keeps.ite ?_ ?_
    · refine Keeps.next (State.setSlice_keeps ..) rfl ?_
      refine Keeps.next (State.leaveFreezing_keeps ..) rfl ?_
      exact Keeps.refl
    · refine Keeps.ite ?_ ?_
      · refine Keeps.next (State.settleReset_keeps ..) rfl ?_
        refine Keeps.next (State.updSpace_keeps ..) rfl ?_
        refine Keeps.next (State.setSlice_keeps ..) rfl ?_
        exact Keeps.refl
      · exact Keeps.refl
  · exact Keeps.refl

theorem State.linkLost_keeps (s : State) : Keeps [.cells, .hif, .cmds, .slices, .haul, .cvu, .floor, .hst, .ast,
    .wld, .cic, .pair, .emits] s (State.linkLost s) := by
  unfold State.linkLost
  refine Keeps.ite ?_ ?_
  · exact Keeps.refl
  · refine Keeps.next (State.linkEnds_keeps ..) rfl ?_
    refine Keeps.next (State.detachAll_keeps ..) rfl ?_
    refine Keeps.set_hif (x := s) rfl ?_
    exact Keeps.refl

theorem State.yieldNow_keeps (s : State) (cause : ℕ) : Keeps [.cells, .hif, .cmds, .slices, .haul, .cvu, .floor,
    .hst, .ast, .wld, .cic, .pair, .emits] s (State.yieldNow s cause) := by
  unfold State.yieldNow
  show let r3 := _; Keeps _ _ r3
  intro r3
  extract_lets -descend +onlyGivenNames st4 at r3
  have hst4 : Keeps [.cells, .hif, .cmds, .slices, .haul, .cvu, .floor, .hst, .ast, .wld, .cic, .pair, .emits] s st4
      := by
    subst st4
    refine Keeps.ite ?_ ?_
    · refine Keeps.next (State.put_keeps ..) rfl ?_
      exact Keeps.refl
    · exact Keeps.refl
  try clear_value st4
  extract_lets -descend +onlyGivenNames st5 at r3
  have hst5 : Keeps [.cells, .hif, .cmds, .slices, .haul, .cvu, .floor, .hst, .ast, .wld, .cic, .pair, .emits] s st5
      := by
    subst st5
    refine Keeps.ite ?_ ?_
    · exact hst4
    · refine Keeps.next (State.send_keeps ..) rfl ?_
      exact hst4
  try clear_value st5
  subst r3
  refine Keeps.next (State.linkLost_keeps ..) rfl ?_
  refine Keeps.next (State.updPair_keeps ..) rfl ?_
  refine Keeps.next (State.setPair_keeps ..) rfl ?_
  exact hst5

theorem State.catchupFailed_keeps (s : State) : Keeps [.cells, .hif, .cmds, .slices, .haul, .cvu, .floor, .hst,
    .ast, .wld, .cic, .pair, .emits] s (State.catchupFailed s) := by
  unfold State.catchupFailed
  show let r2 := _; Keeps _ _ r2
  intro r2
  extract_lets -descend +onlyGivenNames st3 at r2
  have hst3 : Keeps [.cells, .hif, .cmds, .slices, .haul, .cvu, .floor, .hst, .ast, .wld, .cic, .pair, .emits] s st3
      := by
    subst st3
    refine Keeps.next (State.setF_keeps ..) rfl ?_
    refine Keeps.next (State.count_keeps ..) rfl ?_
    exact Keeps.refl
  try clear_value st3
  subst r2
  refine Keeps.next (State.yieldNow_keeps ..) rfl ?_
  refine Keeps.next (State.event_keeps ..) rfl ?_
  refine Keeps.next (State.clrF_keeps ..) rfl ?_
  exact hst3

theorem State.diverge_keeps (s : State) : Keeps [.cells, .hif, .cmds, .slices, .haul, .cvu, .floor, .hst, .ast,
    .wld, .cic, .pair, .emits] s (State.diverge s) := by
  unfold State.diverge
  refine Keeps.ite ?_ ?_
  · exact Keeps.refl
  · refine Keeps.ite ?_ ?_
    · refine Keeps.next (State.yieldNow_keeps ..) rfl ?_
      exact Keeps.refl
    · show let r2 := _; Keeps _ _ r2
      intro r2
      extract_lets -descend +onlyGivenNames st3 at r2
      have hst3 : Keeps [.cells, .hif, .cmds, .slices, .haul, .cvu, .floor, .hst, .ast, .wld, .cic, .pair, .emits] s
          st3 := by
        subst st3
        refine Keeps.next (State.put_keeps ..) rfl ?_
        refine Keeps.next (State.send_keeps ..) rfl ?_
        exact Keeps.refl
      try clear_value st3
      subst r2
      refine Keeps.next (State.catchupFailed_keeps ..) rfl ?_
      exact hst3

theorem State.takeStationId_keeps (s : State) (k : ℕ) : Keeps [.cells] s (State.takeStationId s k) := by
  unfold State.takeStationId
  refine Keeps.ite ?_ ?_
  · refine Keeps.next (State.wrN_keeps ..) rfl ?_
    refine Keeps.next (State.wrN_keeps ..) rfl ?_
    exact Keeps.refl
  · exact Keeps.refl

theorem doElection_keeps (s : State) : Keeps [.pair] s (doElection s) := by
  unfold doElection
  refine Keeps.ite ?_ ?_
  · refine Keeps.next (State.updPair_keeps ..) rfl ?_
    exact Keeps.refl
  · exact Keeps.refl

theorem State.becomeSecondary_keeps (s : State) : Keeps [.cells, .hif, .cmds, .slices, .haul, .cvu, .floor, .hst,
    .ast, .wld, .cic, .pair, .emits] s (State.becomeSecondary s) := by
  unfold State.becomeSecondary
  refine Keeps.next (State.linkLost_keeps ..) rfl ?_
  refine Keeps.next (State.setPair_keeps ..) rfl ?_
  exact Keeps.refl

theorem doElectionDone_keeps (partner : ℕ) (s : State) : Keeps [.cells, .hif, .cmds, .slices, .haul, .outs, .cvu,
    .floor, .hst, .ast, .wld, .cic, .reductions, .pair, .emits] s (doElectionDone partner s) := by
  unfold doElectionDone
  refine Keeps.ite ?_ ?_
  · refine Keeps.ite ?_ ?_
    · show let r3 := _; Keeps _ _ r3
      intro r3
      extract_lets -descend +onlyGivenNames st4 at r3
      have hst4 : Keeps [.cells, .hif, .cmds, .slices, .haul, .outs, .cvu, .floor, .hst, .ast, .wld, .cic,
          .reductions, .pair, .emits] s st4 := by
        subst st4
        refine Keeps.next (State.updPair_keeps ..) rfl ?_
        exact Keeps.refl
      try clear_value st4
      extract_lets -descend +onlyGivenNames st5 at r3
      have hst5 : Keeps [.cells, .hif, .cmds, .slices, .haul, .outs, .cvu, .floor, .hst, .ast, .wld, .cic,
          .reductions, .pair, .emits] s st5 := by
        subst st5
        refine Keeps.next (State.takeStationId_keeps ..) rfl ?_
        refine Keeps.next (State.put_keeps ..) rfl ?_
        refine Keeps.next (State.setPair_keeps ..) rfl ?_
        exact hst4
      try clear_value st5
      subst r3
      refine Keeps.next (State.setLone_keeps ..) rfl ?_
      refine Keeps.next (State.feedAll_keeps ..) rfl ?_
      exact hst5
    · show let r6 := _; Keeps _ _ r6
      intro r6
      extract_lets -descend +onlyGivenNames st7 at r6
      have hst7 : Keeps [.cells, .hif, .cmds, .slices, .haul, .outs, .cvu, .floor, .hst, .ast, .wld, .cic,
          .reductions, .pair, .emits] s st7 := by
        subst st7
        refine Keeps.next (State.updPair_keeps ..) rfl ?_
        exact Keeps.refl
      try clear_value st7
      subst r6
      refine Keeps.next (State.takeStationId_keeps ..) rfl ?_
      refine Keeps.next (State.becomeSecondary_keeps ..) rfl ?_
      exact hst7
  · exact Keeps.refl

theorem doRoleHeld_keeps (s : State) : Keeps [.cells, .hif, .cmds, .slices, .haul, .cvu, .floor, .hst, .ast, .wld,
    .cic, .pair, .emits] s (doRoleHeld s) := by
  unfold doRoleHeld
  refine Keeps.ite ?_ ?_
  · refine Keeps.next (State.becomeSecondary_keeps ..) rfl ?_
    refine Keeps.next (State.updPair_keeps ..) rfl ?_
    exact Keeps.refl
  · exact Keeps.refl

theorem State.sendHello_keeps (s : State) : Keeps [.pair, .emits] s (State.sendHello s) := by
  unfold State.sendHello
  refine Keeps.next (State.send_keeps ..) rfl ?_
  exact Keeps.refl

theorem doLinkTrained_keeps (s : State) : Keeps [.cells, .hif, .wld, .cic, .pair, .emits] s (doLinkTrained s) := by
  unfold doLinkTrained
  refine Keeps.ite ?_ ?_
  · exact Keeps.refl
  · show let r2 := _; Keeps _ _ r2
    intro r2
    extract_lets -descend +onlyGivenNames st3 at r2
    have hst3 : Keeps [.cells, .hif, .wld, .cic, .pair, .emits] s st3 := by
      subst st3
      refine Keeps.next (State.updPair_keeps ..) rfl ?_
      exact Keeps.refl
    try clear_value st3
    extract_lets -descend +onlyGivenNames st4 at r2
    have hst4 : Keeps [.cells, .hif, .wld, .cic, .pair, .emits] s st4 := by
      subst st4
      refine Keeps.next (State.clrF_keeps ..) rfl ?_
      refine Keeps.next (State.setF_keeps ..) rfl ?_
      exact hst3
    try clear_value st4
    subst r2
    refine Keeps.next (State.sendHello_keeps ..) rfl ?_
    refine Keeps.next (State.event_keeps ..) rfl ?_
    refine Keeps.next (State.put_keeps ..) rfl ?_
    exact hst4

theorem State.holdPair_keeps (s : State) : Keeps [.pair] s (State.holdPair s) := by
  unfold State.holdPair
  refine Keeps.next (State.updPair_keeps ..) rfl ?_
  exact Keeps.refl

theorem State.haulDown_keeps (s : State) : Keeps [.cells, .hif, .cmds, .slices, .haul, .outs, .cvu, .floor, .hst,
    .ast, .wld, .cic, .reductions, .pair, .emits] s (State.haulDown s) := by
  unfold State.haulDown
  refine Keeps.ite ?_ ?_
  · exact Keeps.refl
  · show let r2 := _; Keeps _ _ r2
    intro r2
    extract_lets -descend +onlyGivenNames st3 at r2
    have hst3 : Keeps [.cells, .hif, .cmds, .slices, .haul, .outs, .cvu, .floor, .hst, .ast, .wld, .cic,
        .reductions, .pair, .emits] s st3 := by
      subst st3
      refine Keeps.next (State.setF_keeps ..) rfl ?_
      refine Keeps.next (State.clrF_keeps ..) rfl ?_
      exact Keeps.refl
    try clear_value st3
    extract_lets -descend +onlyGivenNames st4 at r2
    have hst4 : Keeps [.cells, .hif, .cmds, .slices, .haul, .outs, .cvu, .floor, .hst, .ast, .wld, .cic,
        .reductions, .pair, .emits] s st4 := by
      subst st4
      refine Keeps.next (State.event_keeps ..) rfl ?_
      refine Keeps.next (State.count_keeps ..) rfl ?_
      refine Keeps.next (State.put_keeps ..) rfl ?_
      exact hst3
    try clear_value st4
    subst r2
    refine Keeps.ite ?_ ?_
    · refine Keeps.next (State.holdPair_keeps ..) rfl ?_
      exact hst4
    · refine Keeps.ite ?_ ?_
      · refine Keeps.next (State.goAlone_keeps ..) rfl ?_
        exact hst4
      · refine Keeps.ite ?_ ?_
        · refine Keeps.next (State.catchupFailed_keeps ..) rfl ?_
          exact hst4
        · exact hst4

theorem State.recheckFails_keeps (s : State) : Keeps [.cells, .hif, .cmds, .slices, .haul, .outs, .cvu, .floor,
    .hst, .ast, .wld, .cic, .reductions, .pair, .emits] s (State.recheckFails s) := by
  unfold State.recheckFails
  show let r2 := _; Keeps _ _ r2
  intro r2
  extract_lets -descend +onlyGivenNames st3 at r2
  have hst3 : Keeps [.cells, .hif, .cmds, .slices, .haul, .outs, .cvu, .floor, .hst, .ast, .wld, .cic, .reductions,
      .pair, .emits] s st3 := by
    subst st3
    refine Keeps.next (State.updPair_keeps ..) rfl ?_
    exact Keeps.refl
  try clear_value st3
  subst r2
  refine Keeps.ite ?_ ?_
  · refine Keeps.next (State.goAlone_keeps ..) rfl ?_
    exact hst3
  · refine Keeps.next (State.yieldNow_keeps ..) rfl ?_
    exact hst3

theorem doLinkRetry_keeps (s : State) : Keeps [.cells, .hif, .cmds, .slices, .haul, .outs, .cvu, .floor, .hst, .ast,
    .wld, .cic, .reductions, .pair, .emits] s (doLinkRetry s) := by
  unfold doLinkRetry
  refine Keeps.ite ?_ ?_
  · exact Keeps.refl
  · show let r2 := _; Keeps _ _ r2
    intro r2
    extract_lets -descend +onlyGivenNames st3 at r2
    have hst3 : Keeps [.cells, .hif, .cmds, .slices, .haul, .outs, .cvu, .floor, .hst, .ast, .wld, .cic,
        .reductions, .pair, .emits] s st3 := by
      subst st3
      refine Keeps.next (State.setF_keeps ..) rfl ?_
      exact Keeps.refl
    try clear_value st3
    subst r2
    refine Keeps.ite ?_ ?_
    · refine Keeps.next (State.recheckFails_keeps ..) rfl ?_
      exact hst3
    · exact hst3

theorem State.sendQueued_keeps (n : Nat) (s : State) : Keeps [.pair, .emits] s (State.sendQueued n s) := by
  induction n generalizing s with
  | zero => exact Keeps.refl
  | succ n ih =>
    unfold State.sendQueued
    split
    · exact Keeps.refl
    · refine Keeps.next (ih _) rfl ?_
      refine Keeps.next (State.send_keeps ..) rfl ?_
      refine Keeps.next (State.updPair_keeps ..) rfl ?_
      exact Keeps.refl

theorem State.acked_keeps (s : State) (ackT : ℕ) (ackB : ℕ) : Keeps [.cells, .hif, .cmds, .slices, .haul, .cvu,
    .pair, .emits] s (State.acked s ackT ackB) := by
  unfold State.acked
  show let r4 := _; Keeps _ _ r4
  intro r4
  extract_lets -descend +onlyGivenNames v5 at r4
  extract_lets -descend +onlyGivenNames st6 at r4
  have hst6 : Keeps [.cells, .hif, .cmds, .slices, .haul, .cvu, .pair, .emits] s st6 := by
    subst st6
    refine Keeps.next (State.updPair_keeps ..) rfl ?_
    exact Keeps.refl
  try clear_value st6
  extract_lets -descend +onlyGivenNames st7 at r4
  have hst7 : Keeps [.cells, .hif, .cmds, .slices, .haul, .cvu, .pair, .emits] s st7 := by
    subst st7
    refine Keeps.next (State.sendQueued_keeps ..) rfl ?_
    exact hst6
  try clear_value st7
  subst r4
  refine Keeps.next (State.finishMirrored_keeps ..) rfl ?_
  exact hst7

theorem State.oweNak_keeps (s : State) : Keeps [.pair] s (State.oweNak s) := by
  unfold State.oweNak
  refine Keeps.next (State.updPair_keeps ..) rfl ?_
  exact Keeps.refl

theorem doBadFrame_keeps (s : State) : Keeps [.cells, .pair] s (doBadFrame s) := by
  unfold doBadFrame
  refine Keeps.ite ?_ ?_
  · refine Keeps.next (State.oweNak_keeps ..) rfl ?_
    refine Keeps.next (State.count_keeps ..) rfl ?_
    exact Keeps.refl
  · exact Keeps.refl

theorem State.replayed_keeps (s : State) (bulk : Bool) : Keeps [.pair] s (State.replayed s bulk) := by
  unfold State.replayed
  refine Keeps.next (State.updPair_keeps ..) rfl ?_
  exact Keeps.refl

end Sys2Proof.Machine
end

