-- ==== Sys2Proof/Laws/Frame8.lean ====
section
/-!
SUPPORT. What each operation of the machine keeps (part 8 of 9): the parts of State that it may change are listed, every other
part stays, the queue stays, and no table leaves its canonical form.
-/

namespace Sys2Proof.Machine

theorem doReplay_keeps (bulk : Bool) (s : State) : Keeps [.cells, .hif, .cmds, .slices, .haul, .outs, .cvu, .floor,
    .hst, .ast, .wld, .cic, .reductions, .pair, .emits] s (doReplay bulk s) := by
  unfold doReplay
  show let r3 := _; Keeps _ _ r3
  intro r3
  extract_lets -descend +onlyGivenNames v4 at r3
  subst r3
  refine Keeps.ite ?_ ?_
  · exact Keeps.refl
  · show let r5 := _; Keeps _ _ r5
    intro r5
    extract_lets -descend +onlyGivenNames st6 at r5
    have hst6 : Keeps [.cells, .hif, .cmds, .slices, .haul, .outs, .cvu, .floor, .hst, .ast, .wld, .cic,
        .reductions, .pair, .emits] s st6 := by
      subst st6
      refine Keeps.next (State.count_keeps ..) rfl ?_
      refine Keeps.next (State.replayed_keeps ..) rfl ?_
      exact Keeps.refl
    try clear_value st6
    extract_lets -descend +onlyGivenNames st7 at r5
    have hst7 : Keeps [.cells, .hif, .cmds, .slices, .haul, .outs, .cvu, .floor, .hst, .ast, .wld, .cic,
        .reductions, .pair, .emits] s st7 := by
      subst st7
      refine Keeps.ite ?_ ?_
      · refine Keeps.next (State.event_keeps ..) rfl ?_
        exact hst6
      · exact hst6
    try clear_value st7
    subst r5
    refine Keeps.ite ?_ ?_
    · refine Keeps.next (State.haulDown_keeps ..) rfl ?_
      exact hst7
    · refine Keeps.each (fun st8 x9 => ?_) ?_
      · refine Keeps.next (State.emit_keeps ..) rfl ?_
        exact Keeps.refl
      · exact hst7

theorem State.sendIdle_keeps (s : State) : Keeps [.pair, .emits] s (State.sendIdle s) := by
  unfold State.sendIdle
  refine Keeps.ite ?_ ?_
  · refine Keeps.next (State.updPair_keeps ..) rfl ?_
    refine Keeps.next (State.emit_keeps ..) rfl ?_
    exact Keeps.refl
  · exact Keeps.refl

theorem doIdle_keeps (rx : Option FrameHdr) (s : State) : Keeps [.cells, .hif, .cmds, .slices, .haul, .cvu, .pair,
    .emits] s (doIdle rx s) := by
  unfold doIdle
  split
  · refine Keeps.next (State.sendIdle_keeps ..) rfl ?_
    exact Keeps.refl
  · refine Keeps.ite ?_ ?_
    · exact Keeps.refl
    · refine Keeps.ite ?_ ?_
      · refine Keeps.next (State.acked_keeps ..) rfl ?_
        exact Keeps.refl
      · refine Keeps.next (State.oweNak_keeps ..) rfl ?_
        exact Keeps.refl

theorem State.accepted_keeps (s : State) (h : FrameHdr) (bulk : Bool) : Keeps [.cells, .hif, .cmds, .slices, .haul,
    .cvu, .pair, .emits] s (State.accepted s h bulk) := by
  unfold State.accepted
  show let r4 := _; Keeps _ _ r4
  intro r4
  extract_lets -descend +onlyGivenNames st5 at r4
  have hst5 : Keeps [.cells, .hif, .cmds, .slices, .haul, .cvu, .pair, .emits] s st5 := by
    subst st5
    refine Keeps.next (State.acked_keeps ..) rfl ?_
    exact Keeps.refl
  try clear_value st5
  subst r4
  refine Keeps.ite ?_ ?_
  · refine Keeps.next (State.updPair_keeps ..) rfl ?_
    exact hst5
  · refine Keeps.next (State.updPair_keeps ..) rfl ?_
    exact hst5

theorem State.receive_keeps {l : List Field} (s : State) (h : FrameHdr) (bulk : Bool) (f : State → State)
    (hl : List.all [.cells, .hif, .cmds, .slices, .haul, .cvu, .pair, .emits] l.contains = true) (hf : ∀ s, Keeps l
        s (f s)) : Keeps l s (s.receive h bulk f) := by
  unfold State.receive
  refine Keeps.ite Keeps.refl (Keeps.ite ?_ ?_)
  · exact (State.oweNak_keeps ..).weaken (Field.within rfl hl)
  · exact Keeps.trans ((State.accepted_keeps ..).weaken (Field.within rfl hl)) (hf _)

theorem doLinkDown_keeps (s : State) : Keeps [.cells, .hif, .cmds, .slices, .haul, .cvu, .floor, .hst, .ast, .wld,
    .cic, .pair, .emits] s (doLinkDown s) := by
  unfold doLinkDown
  refine Keeps.next (State.linkLost_keeps ..) rfl ?_
  exact Keeps.refl

theorem doLinkUp_keeps (s : State) : Keeps [.hif, .freeCtr] s (doLinkUp s) := by
  unfold doLinkUp
  refine Keeps.ite ?_ ?_
  · exact Keeps.refl
  · split
    · rename_i _ st2 e3
      have hst2 : Keeps [.hif, .freeCtr] s st2 := by
        refine Keeps.snd e3 ?_
        refine Keeps.next (State.free_keeps ..) rfl ?_
        exact Keeps.refl
      split
      · rename_i _ st4 e5
        have hst4 : Keeps [.hif, .freeCtr] s st4 := by
          refine Keeps.snd e5 ?_
          refine Keeps.next (State.free_keeps ..) rfl ?_
          exact hst2
        refine Keeps.set_hif (x := st4) rfl ?_
        exact hst4

theorem State.aperDenied_keeps {s t : State} {a n : Nat} {w : Bool} (e : s.aperDenied a n w = some t) : Keeps
    [.cells, .hif, .wld, .cic, .emits] s t := by
  unfold State.aperDenied at e
  split at e
  · cases e
    exact (State.setF_keeps ..).weaken rfl
  · split at e
    · cases e
      exact Keeps.next (State.setF_keeps ..) rfl ((State.denial_keeps ..).weaken rfl)
    · cases e

theorem doBar2_keeps (r : Req) (off : ℕ) (acc : Bar2Op) (ecc : Ecc) (s : State) : Keeps [.cells, .hif, .wld, .cic,
    .dmc, .pair, .mem, .freeCtr, .emits, .resp] s (doBar2 r off acc ecc s) := by
  unfold doBar2
  split
  · refine Keeps.set_resp (x := s) rfl ?_
    exact Keeps.refl
  · show let r6 := _; Keeps _ _ r6
    intro r6
    extract_lets -descend +onlyGivenNames v7 at r6
    subst r6
    refine Keeps.ite ?_ ?_
    · refine Keeps.set_resp (x := s) rfl ?_
      exact Keeps.refl
    · refine Keeps.ite ?_ ?_
      · show let r8 := _; Keeps _ _ r8
        intro r8
        extract_lets -descend +onlyGivenNames st9 at r8
        have hst9 : Keeps [.cells, .hif, .wld, .cic, .dmc, .pair, .mem, .freeCtr, .emits, .resp] s st9 := by
          subst st9
          refine Keeps.next (State.pasidRefused_keeps ..) rfl ?_
          exact Keeps.refl
        try clear_value st9
        subst r8
        refine Keeps.set_resp (x := st9) rfl ?_
        exact hst9
      · refine Keeps.ite ?_ ?_
        · show let r10 := _; Keeps _ _ r10
          intro r10
          extract_lets -descend +onlyGivenNames st11 at r10
          have hst11 : Keeps [.cells, .hif, .wld, .cic, .dmc, .pair, .mem, .freeCtr, .emits, .resp] s st11 := by
            subst st11
            refine Keeps.ite ?_ ?_
            · refine Keeps.next (State.poisonRefused_keeps ..) rfl ?_
              exact Keeps.refl
            · exact Keeps.refl
          try clear_value st11
          subst r10
          refine Keeps.set_resp (x := st11) rfl ?_
          exact hst11
        · refine Keeps.ite ?_ ?_
          · show let r12 := _; Keeps _ _ r12
            intro r12
            extract_lets -descend +onlyGivenNames st13 at r12
            have hst13 : Keeps [.cells, .hif, .wld, .cic, .dmc, .pair, .mem, .freeCtr, .emits, .resp] s st13 := by
              subst st13
              refine Keeps.next (State.poisonRefused_keeps ..) rfl ?_
              exact Keeps.refl
            try clear_value st13
            subst r12
            refine Keeps.set_resp (x := st13) rfl ?_
            exact hst13
          · show let r14 := _; Keeps _ _ r14
            intro r14
            extract_lets -descend +onlyGivenNames v15 at r14
            subst r14
            split
            · rename_i st16 e17
              have hst16 : Keeps [.cells, .hif, .wld, .cic, .dmc, .pair, .mem, .freeCtr, .emits, .resp] s st16 := by
                refine Keeps.next (State.aperDenied_keeps e17) rfl ?_
                exact Keeps.refl
              split
              · refine Keeps.set_resp (x := st16) rfl ?_
                exact hst16
              · refine Keeps.set_resp (x := st16) rfl ?_
                exact hst16
            · split
              · split
                · rename_i _ _ st18 e19
                  have hst18 : Keeps [.cells, .hif, .wld, .cic, .dmc, .pair, .mem, .freeCtr, .emits, .resp] s st18 := by
                    refine Keeps.next (State.dramRead_keeps e19) rfl ?_
                    exact Keeps.refl
                  refine Keeps.set_resp (x := st18) rfl ?_
                  exact hst18
              · show let r20 := _; Keeps _ _ r20
                intro r20
                extract_lets -descend +onlyGivenNames st21 at r20
                have hst21 : Keeps [.cells, .hif, .wld, .cic, .dmc, .pair, .mem, .freeCtr, .emits, .resp] s st21 := by
                  subst st21
                  refine Keeps.next (State.dramWrite_keeps ..) rfl ?_
                  exact Keeps.refl
                try clear_value st21
                subst r20
                refine Keeps.set_resp (x := st21) rfl ?_
                exact hst21

theorem State.setHpd_keeps (s : State) (o : ℕ) (b : Bool) : Keeps [.cells] s (State.setHpd s o b) := by
  unfold State.setHpd
  refine Keeps.next (State.put_keeps ..) rfl ?_
  exact Keeps.refl

theorem doAuxDone_keeps (o : ℕ) (result : AuxResult) (data : List Byte) (s : State) : Keeps [.cells, .hif, .outs,
    .wld, .cic, .emits] s (doAuxDone o result data s) := by
  unfold doAuxDone
  split
  · exact Keeps.refl
  · refine Keeps.ite ?_ ?_
    · exact Keeps.refl
    · refine Keeps.ite ?_ ?_
      · refine Keeps.ite ?_ ?_
        · refine Keeps.next (State.updOut_keeps ..) rfl ?_
          exact Keeps.refl
        · refine Keeps.next (State.sendAux_keeps ..) rfl ?_
          exact Keeps.refl
      · show let r5 := _; Keeps _ _ r5
        intro r5
        extract_lets -descend +onlyGivenNames v6 at r5
        extract_lets -descend +onlyGivenNames v7 at r5
        extract_lets -descend +onlyGivenNames v8 at r5
        extract_lets -descend +onlyGivenNames v9 at r5
        extract_lets -descend +onlyGivenNames v10 at r5
        extract_lets -descend +onlyGivenNames st11 at r5
        have hst11 : Keeps [.cells, .hif, .outs, .wld, .cic, .emits] s st11 := by
          subst st11
          refine Keeps.ite ?_ ?_
          · refine Keeps.each (fun st12 x13 => ?_) ?_
            · refine Keeps.next (State.wr_keeps ..) rfl ?_
              exact Keeps.refl
            · exact Keeps.refl
          · exact Keeps.refl
        try clear_value st11
        subst r5
        refine Keeps.next (State.endAux_keeps ..) rfl ?_
        exact hst11

theorem State.linkTiming_keeps (s : State) (o : ℕ) (fb : Bool) : Keeps [.cells, .outs, .pair, .emits] s
    (State.linkTiming s o fb) := by
  unfold State.linkTiming
  show let r4 := _; Keeps _ _ r4
  intro r4
  extract_lets -descend +onlyGivenNames st5 at r4
  have hst5 : Keeps [.cells, .outs, .pair, .emits] s st5 := by
    subst st5
    refine Keeps.ite ?_ ?_
    · refine Keeps.next (State.noteFallback_keeps ..) rfl ?_
      exact Keeps.refl
    · exact Keeps.refl
  try clear_value st5
  subst r4
  split
  · rename_i _ st6 e7
    have hst6 : Keeps [.cells, .outs, .pair, .emits] s st6 := by
      refine Keeps.snd e7 ?_
      refine Keeps.next (State.wantTiming_keeps ..) rfl ?_
      exact hst5
    show let r8 := _; Keeps _ _ r8
    intro r8
    extract_lets -descend +onlyGivenNames st9 at r8
    have hst9 : Keeps [.cells, .outs, .pair, .emits] s st9 := by
      subst st9
      refine Keeps.ite ?_ ?_
      · refine Keeps.next (State.linkVideo_keeps ..) rfl ?_
        refine Keeps.ite ?_ ?_
        · exact hst6
        · refine Keeps.next (State.noteFallback_keeps ..) rfl ?_
          exact hst6
      · exact hst6
    try clear_value st9
    subst r8
    refine Keeps.next (State.shedPass_keeps ..) rfl ?_
    exact hst9

theorem State.linkNoFit_keeps (s : State) (o : ℕ) : Keeps [.cells, .hif, .outs, .wld, .cic, .pair, .emits] s
    (State.linkNoFit s o) := by
  unfold State.linkNoFit
  show let r3 := _; Keeps _ _ r3
  intro r3
  extract_lets -descend +onlyGivenNames v4 at r3
  subst r3
  split
  · rename_i _ st5 e6
    have hst5 : Keeps [.cells, .hif, .outs, .wld, .cic, .pair, .emits] s st5 := by
      refine Keeps.snd e6 ?_
      refine Keeps.next (State.wantTiming_keeps ..) rfl ?_
      exact Keeps.refl
    refine Keeps.next (State.shedPass_keeps ..) rfl ?_
    refine Keeps.next (State.event_keeps ..) rfl ?_
    refine Keeps.next (State.setLink_keeps ..) rfl ?_
    refine Keeps.next (State.noteFallback_keeps ..) rfl ?_
    exact hst5

theorem State.linkFits_keeps (s : State) (o : ℕ) (lanes : ℕ) (rate : ℕ) : Keeps [.cells, .hif, .outs, .wld, .cic,
    .pair, .emits] s (State.linkFits s o lanes rate) := by
  unfold State.linkFits
  refine Keeps.ite ?_ ?_
  · refine Keeps.next (State.linkTiming_keeps ..) rfl ?_
    refine Keeps.next (State.event_keeps ..) rfl ?_
    exact Keeps.refl
  · split
    · refine Keeps.ite ?_ ?_
      · refine Keeps.next (State.linkTiming_keeps ..) rfl ?_
        refine Keeps.next (State.event_keeps ..) rfl ?_
        exact Keeps.refl
      · refine Keeps.next (State.linkNoFit_keeps ..) rfl ?_
        exact Keeps.refl
    · refine Keeps.next (State.linkNoFit_keeps ..) rfl ?_
      exact Keeps.refl

theorem doTrainingDone_keeps (o : ℕ) (ok : Bool) (drive : BitVec 16) (sink : SinkCaps) (s : State) : Keeps [.cells,
    .hif, .outs, .wld, .cic, .pair, .emits] s (doTrainingDone o ok drive sink s) := by
  unfold doTrainingDone
  refine Keeps.ite ?_ ?_
  · exact Keeps.refl
  · split
    · show let r6 := _; Keeps _ _ r6
      intro r6
      extract_lets -descend +onlyGivenNames st7 at r6
      have hst7 : Keeps [.cells, .hif, .outs, .wld, .cic, .pair, .emits] s st7 := by
        subst st7
        refine Keeps.next (State.sendPatterns_keeps ..) rfl ?_
        refine Keeps.next (State.count_keeps ..) rfl ?_
        exact Keeps.refl
      try clear_value st7
      subst r6
      refine Keeps.ite ?_ ?_
      · show let r8 := _; Keeps _ _ r8
        intro r8
        extract_lets -descend +onlyGivenNames st9 at r8
        have hst9 : Keeps [.cells, .hif, .outs, .wld, .cic, .pair, .emits] s st9 := by
          subst st9
          refine Keeps.next (State.put_keeps ..) rfl ?_
          refine Keeps.next (State.put_keeps ..) rfl ?_
          exact hst7
        try clear_value st9
        extract_lets -descend +onlyGivenNames st10 at r8
        have hst10 : Keeps [.cells, .hif, .outs, .wld, .cic, .pair, .emits] s st10 := by
          subst st10
          refine Keeps.next (State.put_keeps ..) rfl ?_
          exact hst9
        try clear_value st10
        subst r8
        refine Keeps.next (State.linkFits_keeps ..) rfl ?_
        refine Keeps.next (State.auxIdle_keeps ..) rfl ?_
        exact hst10
      · split
        · refine Keeps.next (State.updOut_keeps ..) rfl ?_
          exact hst7
        · refine Keeps.next (State.event_keeps ..) rfl ?_
          refine Keeps.next (State.auxIdle_keeps ..) rfl ?_
          refine Keeps.next (State.setLink_keeps ..) rfl ?_
          exact hst7

theorem doFixedDone_keeps (o : ℕ) (s : State) : Keeps [.cells, .hif, .outs, .wld, .cic, .emits] s (doFixedDone o s)
    := by
  unfold doFixedDone
  refine Keeps.ite ?_ ?_
  · refine Keeps.next (State.event_keeps ..) rfl ?_
    refine Keeps.next (State.updOut_keeps ..) rfl ?_
    refine Keeps.next (State.put_keeps ..) rfl ?_
    exact Keeps.refl
  · exact Keeps.refl

theorem doPlug_keeps (o : ℕ) (s : State) : Keeps [.cells, .hif, .outs, .wld, .cic, .emits] s (doPlug o s) := by
  unfold doPlug
  show let r3 := _; Keeps _ _ r3
  intro r3
  extract_lets -descend +onlyGivenNames st4 at r3
  have hst4 : Keeps [.cells, .hif, .outs, .wld, .cic, .emits] s st4 := by
    subst st4
    refine Keeps.next (State.setHpd_keeps ..) rfl ?_
    exact Keeps.refl
  try clear_value st4
  subst r3
  refine Keeps.ite ?_ ?_
  · exact hst4
  · show let r5 := _; Keeps _ _ r5
    intro r5
    extract_lets -descend +onlyGivenNames st6 at r5
    have hst6 : Keeps [.cells, .hif, .outs, .wld, .cic, .emits] s st6 := by
      subst st6
      refine Keeps.next (State.put_keeps ..) rfl ?_
      refine Keeps.next (State.event_keeps ..) rfl ?_
      exact hst4
    try clear_value st6
    subst r5
    refine Keeps.ite ?_ ?_
    · exact hst6
    · refine Keeps.next (State.linkStart_keeps ..) rfl ?_
      exact hst6

theorem doUnplug_keeps (o : ℕ) (s : State) : Keeps [.cells, .hif, .outs, .wld, .cic, .emits] s (doUnplug o s) := by
  unfold doUnplug
  show let r3 := _; Keeps _ _ r3
  intro r3
  extract_lets -descend +onlyGivenNames st4 at r3
  have hst4 : Keeps [.cells, .hif, .outs, .wld, .cic, .emits] s st4 := by
    subst st4
    refine Keeps.next (State.setHpd_keeps ..) rfl ?_
    exact Keeps.refl
  try clear_value st4
  subst r3
  refine Keeps.ite ?_ ?_
  · exact hst4
  · show let r5 := _; Keeps _ _ r5
    intro r5
    extract_lets -descend +onlyGivenNames st6 at r5
    have hst6 : Keeps [.cells, .hif, .outs, .wld, .cic, .emits] s st6 := by
      subst st6
      refine Keeps.next (State.event_keeps ..) rfl ?_
      exact hst4
    try clear_value st6
    subst r5
    refine Keeps.ite ?_ ?_
    · exact hst6
    · refine Keeps.next (State.auxIdle_keeps ..) rfl ?_
      refine Keeps.next (State.updOut_keeps ..) rfl ?_
      refine Keeps.next (State.setLink_keeps ..) rfl ?_
      exact hst6

theorem doIrqHpd_keeps (o : ℕ) (lost : Bool) (s : State) : Keeps [.cells, .hif, .outs, .wld, .cic, .emits] s
    (doIrqHpd o lost s) := by
  unfold doIrqHpd
  refine Keeps.ite ?_ ?_
  · exact Keeps.refl
  · show let r4 := _; Keeps _ _ r4
    intro r4
    extract_lets -descend +onlyGivenNames st5 at r4
    have hst5 : Keeps [.cells, .hif, .outs, .wld, .cic, .emits] s st5 := by
      subst st5
      refine Keeps.next (State.readDpcd_keeps ..) rfl ?_
      refine Keeps.next (State.event_keeps ..) rfl ?_
      exact Keeps.refl
    try clear_value st5
    extract_lets -descend +onlyGivenNames v6 at r4
    subst r4
    refine Keeps.ite ?_ ?_
    · refine Keeps.next (State.trainStart_keeps ..) rfl ?_
      exact hst5
    · exact hst5

theorem doStart_keeps (o : ℕ) (s : State) : Keeps [.cells, .hif, .cmds, .slices, .haul, .outs, .lyr, .csr, .cvu,
    .floor, .wld, .cic, .reductions, .clk, .pair, .emits] s (doStart o s) := by
  unfold doStart
  show let r3 := _; Keeps _ _ r3
  intro r3
  extract_lets -descend +onlyGivenNames v4 at r3
  extract_lets -descend +onlyGivenNames st5 at r3
  have hst5 : Keeps [.cells, .hif, .cmds, .slices, .haul, .outs, .lyr, .csr, .cvu, .floor, .wld, .cic, .reductions,
      .clk, .pair, .emits] s st5 := by
    subst st5
    refine Keeps.next (doOutputStart_keeps ..) rfl ?_
    exact Keeps.refl
  try clear_value st5
  subst r3
  refine Keeps.ite ?_ ?_
  · refine Keeps.next (State.linkStart_keeps ..) rfl ?_
    exact hst5
  · exact hst5

theorem asProtected_keeps {l : List Field} (f : State → State) (s : State) (hl : l.contains .wld = true)
    (hf : ∀ s, Keeps l s (f s)) : Keeps l s (asProtected f s) := by
  unfold asProtected
  have hw : [Field.wld].all l.contains = true := by simpa using hl
  refine Keeps.next (State.updCore_keeps ..) hw ?_
  refine Keeps.trans ?_ (hf _)
  exact (State.updCore_keeps ..).weaken hw

theorem State.mirrorCmdOp_keeps (s : State) (sp : ℕ) : Keeps [.cells] s (State.mirrorCmdOp s sp) := by
  unfold State.mirrorCmdOp
  split
  · refine Keeps.next (State.wrN_keeps ..) rfl ?_
    refine Keeps.next (State.wrN_keeps ..) rfl ?_
    exact Keeps.refl

theorem copyEffect_keeps (off : ℕ) (v : Word) (s : State) : Keeps [.cells, .clk] s (copyEffect off v s) := by
  unfold copyEffect
  refine Keeps.ite ?_ ?_
  · exact Keeps.refl
  · refine Keeps.ite ?_ ?_
    · refine Keeps.next (State.setRatio_keeps ..) rfl ?_
      exact Keeps.refl
    · refine Keeps.ite ?_ ?_
      · refine Keeps.next (State.wr_keeps ..) rfl ?_
        exact Keeps.refl
      · exact Keeps.refl

theorem regEffect_keeps (off : Nat) (v : Word) (how : RegMsg) (s : State) : Keeps Field.list s (regEffect off v how
    s) := by
  unfold regEffect
  refine Keeps.ite ((copyEffect_keeps ..).weaken rfl) ?_
  split
  · refine Keeps.ite ?_ ?_
    · exact (State.wr_keeps ..).weaken rfl
    · split
      · exact (State.mirrorCmdOp_keeps ..).weaken rfl
      · refine Keeps.ite ?_ ?_
        · exact asProtected_keeps _ _ rfl fun s => (writeReg_keeps ..).weaken rfl
        · exact (writeReg_keeps ..).weaken rfl
  · exact Keeps.refl

theorem State.noteHandle_keeps (s : State) (sp : ℕ) (handle : ℕ) : Keeps [.cmds] s (State.noteHandle s sp handle) := by
  unfold State.noteHandle
  show let r4 := _; Keeps _ _ r4
  intro r4
  extract_lets -descend +onlyGivenNames v5 at r4
  subst r4
  refine Keeps.next (State.updSpace_keeps ..) rfl ?_
  exact Keeps.refl

theorem State.followFrom_keeps (sp n i : Nat) (s : State) : Keeps [.cells, .latches, .hif, .cmds, .slices, .haul,
    .outs, .cvu, .floor, .wld, .cic, .pair, .freeCtr, .emits] s (State.followFrom sp n i s) := by
  induction n generalizing i s with
  | zero => exact Keeps.refl
  | succ n ih =>
    unfold State.followFrom
    dsimp only
    split
    · exact Keeps.refl
    · refine Keeps.ite ?_ (Keeps.ite Keeps.refl (ih _ _))
      refine Keeps.next (ih ..) rfl ?_
      refine Keeps.next (State.startCmd_keeps ..) rfl ?_
      refine Keeps.next (State.updSpace_keeps ..) rfl ?_
      exact Keeps.refl

theorem issuedEffect_keeps (sp : ℕ) (handle : ℕ) (op : ℕ) (ws : List Word) (fence : Bool) (noInt : Bool) (s : State)
    : Keeps [.cells, .latches, .hif, .cmds, .slices, .haul, .outs, .cvu, .floor, .wld, .cic, .pair, .freeCtr, .emits] s
    (issuedEffect sp handle op ws fence noInt s) := by
  unfold issuedEffect
  show let r8 := _; Keeps _ _ r8
  intro r8
  extract_lets -descend +onlyGivenNames st9 at r8
  have hst9 : Keeps [.cells, .latches, .hif, .cmds, .slices, .haul, .outs, .cvu, .floor, .wld, .cic, .pair,
      .freeCtr, .emits] s st9 := by
    subst st9
    refine Keeps.next (State.joinSpace_keeps ..) rfl ?_
    refine Keeps.next (State.noteHandle_keeps ..) rfl ?_
    exact Keeps.refl
  try clear_value st9
  extract_lets -descend +onlyGivenNames st10 at r8
  have hst10 : Keeps [.cells, .latches, .hif, .cmds, .slices, .haul, .outs, .cvu, .floor, .wld, .cic, .pair,
      .freeCtr, .emits] s st10 := by
    subst st10
    refine Keeps.next (State.updPair_keeps ..) rfl ?_
    exact hst9
  try clear_value st10
  subst r8
  refine Keeps.next (State.followFrom_keeps ..) rfl ?_
  exact hst10

theorem State.endMirrored_keeps (s : State) (sp : ℕ) (handle : ℕ) (status : ℕ) : Keeps [.cells, .hif, .cmds, .haul,
    .outs, .pair, .emits] s (State.endMirrored s sp handle status) := by
  unfold State.endMirrored
  show let r5 := _; Keeps _ _ r5
  intro r5
  extract_lets -descend +onlyGivenNames v6 at r5
  subst r5
  refine Keeps.each (fun st7 x8 => ?_) ?_
  · show let r9 := _; Keeps _ _ r9
    intro r9
    extract_lets -descend +onlyGivenNames v10 at r9
    extract_lets -descend +onlyGivenNames v11 at r9
    subst r9
    refine Keeps.ite ?_ ?_
    · exact Keeps.refl
    · show let r12 := _; Keeps _ _ r12
      intro r12
      extract_lets -descend +onlyGivenNames st13 at r12
      have hst13 : Keeps [.cells, .hif, .cmds, .haul, .outs, .pair, .emits] st7 st13 := by
        subst st13
        refine Keeps.next (State.setOut_keeps ..) rfl ?_
        exact Keeps.refl
      try clear_value st13
      subst r12
      refine Keeps.ite ?_ ?_
      · exact hst13
      · refine Keeps.next (State.endCommitHolds_keeps ..) rfl ?_
        exact hst13
  · exact Keeps.refl

theorem State.importEnds_keeps (s : State) (sp : ℕ) (c : Cmd) : Keeps [.cells, .hif, .cmds, .haul, .pair, .emits] s
    (State.importEnds s sp c) := by
  unfold State.importEnds
  show let r4 := _; Keeps _ _ r4
  intro r4
  extract_lets -descend +onlyGivenNames v5 at r4
  extract_lets -descend +onlyGivenNames v6 at r4
  extract_lets -descend +onlyGivenNames v7 at r4
  subst r4
  split
  · exact Keeps.refl
  · refine Keeps.next (State.freeVersion_keeps ..) rfl ?_
    refine Keeps.ite ?_ ?_
    · refine Keeps.next (State.putSurface_keeps ..) rfl ?_
      exact Keeps.refl
    · exact Keeps.refl

theorem State.floorEnds_keeps (s : State) (handle : ℕ) (r : Rec) : Keeps [.cells, .hif, .cmds, .slices, .haul, .cvu,
    .floor, .pair, .emits] s (State.floorEnds s handle r) := by
  unfold State.floorEnds
  split
  · exact Keeps.refl
  · refine Keeps.ite ?_ ?_
    · refine Keeps.next (State.floorValid_keeps ..) rfl ?_
      exact Keeps.refl
    · refine Keeps.next (State.floorFailed_keeps ..) rfl ?_
      exact Keeps.refl

theorem recordEffect_keeps (sp : ℕ) (n : ℕ) (r : Rec) (s : State) : Keeps [.cells, .latches, .hif, .cmds, .slices,
    .haul, .outs, .cvu, .floor, .wld, .cic, .pair, .freeCtr, .emits] s (recordEffect sp n r s) := by
  unfold recordEffect
  show let r5 := _; Keeps _ _ r5
  intro r5
  extract_lets -descend +onlyGivenNames st6 at r5
  have hst6 : Keeps [.cells, .latches, .hif, .cmds, .slices, .haul, .outs, .cvu, .floor, .wld, .cic, .pair,
      .freeCtr, .emits] s st6 := by
    subst st6
    refine Keeps.ite ?_ ?_
    · refine Keeps.next (State.wrN_keeps ..) rfl ?_
      exact Keeps.refl
    · exact Keeps.refl
  try clear_value st6
  subst r5
  refine Keeps.ite ?_ ?_
  · exact hst6
  · show let r7 := _; Keeps _ _ r7
    intro r7
    extract_lets -descend +onlyGivenNames v8 at r7
    extract_lets -descend +onlyGivenNames st9 at r7
    have hst9 : Keeps [.cells, .latches, .hif, .cmds, .slices, .haul, .outs, .cvu, .floor, .wld, .cic, .pair,
        .freeCtr, .emits] s st9 := by
      subst st9
      refine Keeps.next (State.setSpace_keeps ..) rfl ?_
      exact hst6
    try clear_value st9
    extract_lets -descend +onlyGivenNames st10 at r7
    have hst10 : Keeps [.cells, .latches, .hif, .cmds, .slices, .haul, .outs, .cvu, .floor, .wld, .cic, .pair,
        .freeCtr, .emits] s st10 := by
      subst st10
      refine Keeps.next (State.endMirrored_keeps ..) rfl ?_
      exact hst9
    try clear_value st10
    extract_lets -descend +onlyGivenNames st11 at r7
    have hst11 : Keeps [.cells, .latches, .hif, .cmds, .slices, .haul, .outs, .cvu, .floor, .wld, .cic, .pair,
        .freeCtr, .emits] s st11 := by
      subst st11
      try clear_value v8
      split
      · refine Keeps.ite ?_ ?_
        · refine Keeps.next (State.importEnds_keeps ..) rfl ?_
          exact hst10
        · refine Keeps.ite ?_ ?_
          · refine Keeps.next (State.floorEnds_keeps ..) rfl ?_
            exact hst10
          · exact hst10
      · exact hst10
    try clear_value st11
    subst r7
    refine Keeps.next (State.followFrom_keeps ..) rfl ?_
    exact hst11

theorem identEffect_keeps (sl : ℕ) (ident : ℕ) (w : ℕ) (h : ℕ) (fmt : ℕ) (colour : ℕ) (s : State) : Keeps [.haul] s
    (identEffect sl ident w h fmt colour s) := by
  unfold identEffect
  show let r8 := _; Keeps _ _ r8
  intro r8
  extract_lets -descend +onlyGivenNames v9 at r8
  extract_lets -descend +onlyGivenNames v10 at r8
  extract_lets -descend +onlyGivenNames st11 at r8
  have hst11 : Keeps [.haul] s st11 := by
    subst st11
    refine Keeps.next (State.updHaul_keeps ..) rfl ?_
    exact Keeps.refl
  try clear_value st11
  subst r8
  refine Keeps.next (State.putSurface_keeps ..) rfl ?_
  exact hst11

theorem versionEffect_keeps (sl : ℕ) (ident : ℕ) (vid : ℕ) (unit0 : ℕ) (units : ℕ) (s : State) : Keeps [.haul] s
    (versionEffect sl ident vid unit0 units s) := by
  unfold versionEffect
  show let r7 := _; Keeps _ _ r7
  intro r7
  extract_lets -descend +onlyGivenNames st8 at r7
  have hst8 : Keeps [.haul] s st8 := by
    subst st8
    refine Keeps.next (State.updHaul_keeps ..) rfl ?_
    exact Keeps.refl
  try clear_value st8
  subst r7
  refine Keeps.next (State.putVersion_keeps ..) rfl ?_
  exact hst8

theorem currentEffect_keeps (sl : ℕ) (ident : ℕ) (vid : ℕ) (s : State) : Keeps [.cells, .hif, .cmds, .slices, .haul,
    .pair, .emits] s (currentEffect sl ident vid s) := by
  unfold currentEffect
  split
  · exact Keeps.refl
  · show let r5 := _; Keeps _ _ r5
    intro r5
    extract_lets -descend +onlyGivenNames v6 at r5
    extract_lets -descend +onlyGivenNames st7 at r5
    have hst7 : Keeps [.cells, .hif, .cmds, .slices, .haul, .pair, .emits] s st7 := by
      subst st7
      refine Keeps.next (State.putSurface_keeps ..) rfl ?_
      exact Keeps.refl
    try clear_value st7
    extract_lets -descend +onlyGivenNames st8 at r5
    have hst8 : Keeps [.cells, .hif, .cmds, .slices, .haul, .pair, .emits] s st8 := by
      subst st8
      split
      · refine Keeps.next (State.putVersion_keeps ..) rfl ?_
        exact hst7
      · exact hst7
    try clear_value st8
    extract_lets -descend +onlyGivenNames st9 at r5
    have hst9 : Keeps [.cells, .hif, .cmds, .slices, .haul, .pair, .emits] s st9 := by
      subst st9
      split
      · refine Keeps.next (State.retire_keeps ..) rfl ?_
        exact hst8
      · exact hst8
    try clear_value st9
    subst r5
    refine Keeps.next (State.markDirty_keeps ..) rfl ?_
    exact hst9

theorem State.acceptMirrored_keeps (s : State) (o : ℕ) (c : Commit) : Keeps [.cells, .hif, .cmds, .haul, .outs,
    .pair, .emits] s (State.acceptMirrored s o c) := by
  unfold State.acceptMirrored
  show let r4 := _; Keeps _ _ r4
  intro r4
  extract_lets -descend +onlyGivenNames st5 at r4
  have hst5 : Keeps [.cells, .hif, .cmds, .haul, .outs, .pair, .emits] s st5 := by
    subst st5
    refine Keeps.next (State.count_keeps ..) rfl ?_
    exact Keeps.refl
  try clear_value st5
  extract_lets -descend +onlyGivenNames st6 at r4
  have hst6 : Keeps [.cells, .hif, .cmds, .haul, .outs, .pair, .emits] s st6 := by
    subst st6
    refine Keeps.ite ?_ ?_
    · refine Keeps.next (State.clrF_keeps ..) rfl ?_
      exact hst5
    · refine Keeps.each (fun st7 x8 => ?_) ?_
      · split
        · refine Keeps.next (State.hold_keeps ..) rfl ?_
          exact Keeps.refl
        · exact Keeps.refl
      · exact hst5
  try clear_value st6
  subst r4
  refine Keeps.ite ?_ ?_
  · refine Keeps.next (State.updOut_keeps ..) rfl ?_
    exact hst6
  · show let r9 := _; Keeps _ _ r9
    intro r9
    extract_lets -descend +onlyGivenNames st10 at r9
    have hst10 : Keeps [.cells, .hif, .cmds, .haul, .outs, .pair, .emits] s st10 := by
      subst st10
      refine Keeps.next (State.accept_keeps ..) rfl ?_
      exact hst6
    try clear_value st10
    subst r9
    refine Keeps.next (State.recompile_keeps ..) rfl ?_
    exact hst10

theorem verdictEffect_keeps (o : ℕ) (accepted : Bool) (reason : ℕ) (s : State) : Keeps [.cells, .hif, .cmds, .haul,
    .outs, .wld, .cic, .pair, .emits] s (verdictEffect o accepted reason s) := by
  unfold verdictEffect
  show let r5 := _; Keeps _ _ r5
  intro r5
  extract_lets -descend +onlyGivenNames v6 at r5
  subst r5
  refine Keeps.ite ?_ ?_
  · exact Keeps.refl
  · split
    · exact Keeps.refl
    · show let r7 := _; Keeps _ _ r7
      intro r7
      extract_lets -descend +onlyGivenNames st8 at r7
      have hst8 : Keeps [.cells, .hif, .cmds, .haul, .outs, .wld, .cic, .pair, .emits] s st8 := by
        subst st8
        refine Keeps.next (State.setOut_keeps ..) rfl ?_
        exact Keeps.refl
      try clear_value st8
      subst r7
      refine Keeps.ite ?_ ?_
      · refine Keeps.next (State.wr_keeps ..) rfl ?_
        exact hst8
      · refine Keeps.next (State.setF_keeps ..) rfl ?_
        exact hst8
    · show let r9 := _; Keeps _ _ r9
      intro r9
      extract_lets -descend +onlyGivenNames st10 at r9
      have hst10 : Keeps [.cells, .hif, .cmds, .haul, .outs, .wld, .cic, .pair, .emits] s st10 := by
        subst st10
        refine Keeps.next (State.setOut_keeps ..) rfl ?_
        exact Keeps.refl
      try clear_value st10
      subst r9
      refine Keeps.ite ?_ ?_
      · refine Keeps.next (State.refuse_keeps ..) rfl ?_
        exact hst10
      · split
        · exact hst10
        · refine Keeps.next (State.acceptMirrored_keeps ..) rfl ?_
          exact hst10

theorem supersededEffect_keeps (o : ℕ) (handle : ℕ) (s : State) : Keeps [.cells, .hif, .cmds, .haul, .outs, .pair,
    .emits] s (supersededEffect o handle s) := by
  unfold supersededEffect
  split
  · show let r4 := _; Keeps _ _ r4
    intro r4
    extract_lets -descend +onlyGivenNames st5 at r4
    have hst5 : Keeps [.cells, .hif, .cmds, .haul, .outs, .pair, .emits] s st5 := by
      subst st5
      refine Keeps.ite ?_ ?_
      · exact Keeps.refl
      · refine Keeps.next (State.updOut_keeps ..) rfl ?_
        exact Keeps.refl
    try clear_value st5
    subst r4
    refine Keeps.each (fun st6 x7 => ?_) ?_
    · refine Keeps.next (State.endCommitHolds_keeps ..) rfl ?_
      exact Keeps.refl
    · exact hst5

theorem applyDecision_keeps (d : PairDecision) (s : State) : Keeps [.cells, .latches, .hif, .cmds, .slices, .haul,
    .outs, .lyr, .csr, .cvu, .floor, .tch, .reflexDirty, .hap, .hst, .ast, .wld, .cic, .pair, .freeCtr, .emits] s
    (applyDecision d s) := by
  unfold applyDecision
  split
  · refine Keeps.next (issuedEffect_keeps ..) rfl ?_
    exact Keeps.refl
  · refine Keeps.next (State.updPair_keeps ..) rfl ?_
    exact Keeps.refl
  · refine Keeps.next (State.wr_keeps ..) rfl ?_
    exact Keeps.refl
  · refine Keeps.next (identEffect_keeps ..) rfl ?_
    exact Keeps.refl
  · refine Keeps.next (versionEffect_keeps ..) rfl ?_
    exact Keeps.refl
  · refine Keeps.next (currentEffect_keeps ..) rfl ?_
    exact Keeps.refl
  · refine Keeps.next (verdictEffect_keeps ..) rfl ?_
    exact Keeps.refl
  · refine Keeps.next (supersededEffect_keeps ..) rfl ?_
    exact Keeps.refl
  · refine Keeps.next (State.recompile_keeps ..) rfl ?_
    exact Keeps.refl
  · refine Keeps.next (State.put_keeps ..) rfl ?_
    exact Keeps.refl
  · refine Keeps.next (recordEffect_keeps ..) rfl ?_
    exact Keeps.refl
  · refine Keeps.next (State.put_keeps ..) rfl ?_
    exact Keeps.refl
  · refine Keeps.next (State.wr_keeps ..) rfl ?_
    exact Keeps.refl
  · refine Keeps.next (doFlr_keeps ..) rfl ?_
    exact Keeps.refl

theorem decisionEffect_keeps (d : PairDecision) (s : State) : Keeps [.cells, .latches, .hif, .cmds, .slices, .haul,
    .outs, .lyr, .csr, .cvu, .floor, .tch, .reflexDirty, .hap, .hst, .ast, .wld, .cic, .pair, .freeCtr, .emits] s
    (decisionEffect d s) := by
  unfold decisionEffect
  refine Keeps.ite ?_ ?_
  · refine Keeps.next (applyDecision_keeps ..) rfl ?_
    exact Keeps.refl
  · exact Keeps.refl

theorem State.applyLatch_keeps (s : State) (o : ℕ) (frame : ℕ) (crc : ℕ) : Keeps [.cells, .hif, .cmds, .slices,
    .haul, .cvu, .floor, .hst, .ast, .wld, .cic, .pair, .emits] s (State.applyLatch s o frame crc) := by
  unfold State.applyLatch
  show let r5 := _; Keeps _ _ r5
  intro r5
  extract_lets -descend +onlyGivenNames v6 at r5
  subst r5
  refine Keeps.ite ?_ ?_
  · refine Keeps.next (State.send_keeps ..) rfl ?_
    exact Keeps.refl
  · refine Keeps.ite ?_ ?_
    · refine Keeps.next (State.diverge_keeps ..) rfl ?_
      exact Keeps.refl
    · show let r7 := _; Keeps _ _ r7
      intro r7
      extract_lets -descend +onlyGivenNames v8 at r7
      subst r7
      refine Keeps.next (State.send_keeps ..) rfl ?_
      refine Keeps.next (State.updPair_keeps ..) rfl ?_
      exact Keeps.refl

theorem State.applyFenced_keeps (s : State) : Keeps [.cells, .hif, .cmds, .slices, .haul, .cvu, .floor, .hst, .ast,
    .wld, .cic, .pair, .emits] s (State.applyFenced s) := by
  unfold State.applyFenced
  show let r2 := _; Keeps _ _ r2
  intro r2
  extract_lets -descend +onlyGivenNames v3 at r2
  extract_lets -descend +onlyGivenNames v4 at r2
  extract_lets -descend +onlyGivenNames st5 at r2
  have hst5 : Keeps [.cells, .hif, .cmds, .slices, .haul, .cvu, .floor, .hst, .ast, .wld, .cic, .pair, .emits] s st5
      := by
    subst st5
    refine Keeps.next (State.updPair_keeps ..) rfl ?_
    exact Keeps.refl
  try clear_value st5
  subst r2
  refine Keeps.each (fun st6 x7 => ?_) ?_
  · split
    · refine Keeps.next (State.applyLatch_keeps ..) rfl ?_
      exact Keeps.refl
  · exact hst5

theorem bulkFrame_keeps {l : List Field} (h : FrameHdr) (f : State → State) (s : State)
    (hl : List.all [.cells, .hif, .cmds, .slices, .haul, .cvu, .floor, .hst, .ast, .wld, .cic, .pair, .emits]
        l.contains = true) (hf : ∀ s, Keeps l s (f s)) : Keeps l s (bulkFrame h f s) := by
  unfold bulkFrame
  refine Keeps.next (State.applyFenced_keeps ..) hl ?_
  exact State.receive_keeps _ _ _ _ (Field.within rfl hl) hf

theorem flrNow_keeps (s : State) : Keeps [.cells, .hif, .cmds, .slices, .haul, .outs, .lyr, .csr, .cvu, .floor,
    .tch, .reflexDirty, .hap, .hst, .ast, .wld, .cic, .pair, .emits] s (flrNow s) := by
  unfold flrNow
  refine Keeps.ite ?_ ?_
  · refine Keeps.next (doFlr_keeps ..) rfl ?_
    exact Keeps.refl
  · exact Keeps.refl

theorem helloEffect_keeps (key : ℕ) (digest : Word) (family : Word) (capsMem : Word) (st : ℕ) (s : State) : Keeps
    [.cells, .hif, .wld, .cic, .pair, .emits] s (helloEffect key digest family capsMem st s) := by
  unfold helloEffect
  show let r7 := _; Keeps _ _ r7
  intro r7
  extract_lets -descend +onlyGivenNames st8 at r7
  have hst8 : Keeps [.cells, .hif, .wld, .cic, .pair, .emits] s st8 := by
    subst st8
    refine Keeps.next (State.wrN_keeps ..) rfl ?_
    refine Keeps.next (State.wrN_keeps ..) rfl ?_
    exact Keeps.refl
  try clear_value st8
  extract_lets -descend +onlyGivenNames v9 at r7
  subst r7
  refine Keeps.ite ?_ ?_
  · refine Keeps.ite ?_ ?_
    · show let r10 := _; Keeps _ _ r10
      intro r10
      extract_lets -descend +onlyGivenNames st11 at r10
      have hst11 : Keeps [.cells, .hif, .wld, .cic, .pair, .emits] s st11 := by
        subst st11
        refine Keeps.next (State.updPair_keeps ..) rfl ?_
        exact hst8
      try clear_value st11
      subst r10
      refine Keeps.next (State.event_keeps ..) rfl ?_
      refine Keeps.next (State.wrN_keeps ..) rfl ?_
      exact hst11
    · refine Keeps.next (State.event_keeps ..) rfl ?_
      exact hst8
  · refine Keeps.ite ?_ ?_
    · show let r12 := _; Keeps _ _ r12
      intro r12
      extract_lets -descend +onlyGivenNames st13 at r12
      have hst13 : Keeps [.cells, .hif, .wld, .cic, .pair, .emits] s st13 := by
        subst st13
        refine Keeps.next (State.takeStationId_keeps ..) rfl ?_
        exact hst8
      try clear_value st13
      subst r12
      refine Keeps.next (State.event_keeps ..) rfl ?_
      refine Keeps.next (State.setF_keeps ..) rfl ?_
      refine Keeps.next (State.setPair_keeps ..) rfl ?_
      exact hst13
    · exact hst8

theorem doHelloRetry_keeps (s : State) : Keeps [.time, .pair, .emits] s (doHelloRetry s) := by
  unfold doHelloRetry
  refine Keeps.ite ?_ ?_
  · refine Keeps.next (State.sendHello_keeps ..) rfl ?_
    refine Keeps.next (State.at_keeps ..) rfl ?_
    exact Keeps.refl
  · exact Keeps.refl

theorem doCatchupRetry_keeps (s : State) : Keeps [.time, .cells] s (doCatchupRetry s) := by
  unfold doCatchupRetry
  refine Keeps.ite ?_ ?_
  · refine Keeps.next (State.setF_keeps ..) rfl ?_
    refine Keeps.next (State.at_keeps ..) rfl ?_
    exact Keeps.refl
  · exact Keeps.refl

theorem State.copyBlock_keeps (s : State) (a : ℕ) (bad : Bool) : Keeps [.pair, .emits] s (State.copyBlock s a bad) := by
  unfold State.copyBlock
  refine Keeps.next (State.send_keeps ..) rfl ?_
  exact Keeps.refl

theorem State.mirrorReads_keeps (s : State) (ds : List Nat) : Keeps [.cells, .hif, .wld, .cic, .dmc, .freeCtr,
    .emits] s (s.mirrorReads ds).2 := by
  unfold State.mirrorReads
  refine Keeps.foldl2 (fun q d => ?_) Keeps.refl
  dsimp only
  exact Keeps.next (State.readBlock_keeps ..) rfl ((State.eccFree_keeps ..).weaken rfl)

theorem State.copyOnDie_keeps (s : State) (a : ℕ) : Keeps [.pair, .emits] s (State.copyOnDie s a) := by
  unfold State.copyOnDie
  show let r3 := _; Keeps _ _ r3
  intro r3
  extract_lets -descend +onlyGivenNames v4 at r3
  extract_lets -descend +onlyGivenNames v5 at r3
  extract_lets -descend +onlyGivenNames v6 at r3
  subst r3
  refine Keeps.next (State.updPair_keeps ..) rfl ?_
  refine Keeps.next (State.send_keeps ..) rfl ?_
  exact Keeps.refl

theorem State.copyDram_keeps (s : State) (a : ℕ) : Keeps [.cells, .hif, .wld, .cic, .dmc, .pair, .freeCtr, .emits] s
    (State.copyDram s a) := by
  unfold State.copyDram
  show let r3 := _; Keeps _ _ r3
  intro r3
  extract_lets -descend +onlyGivenNames v4 at r3
  extract_lets -descend +onlyGivenNames v5 at r3
  subst r3
  split
  · rename_i _ st6 e7
    have hst6 : Keeps [.cells, .hif, .wld, .cic, .dmc, .pair, .freeCtr, .emits] s st6 := by
      refine Keeps.snd e7 ?_
      refine Keeps.next (State.mirrorReads_keeps ..) rfl ?_
      exact Keeps.refl
    show let r8 := _; Keeps _ _ r8
    intro r8
    extract_lets -descend +onlyGivenNames st9 at r8
    have hst9 : Keeps [.cells, .hif, .wld, .cic, .dmc, .pair, .freeCtr, .emits] s st9 := by
      subst st9
      refine Keeps.ite ?_ ?_
      · refine Keeps.next (State.send_keeps ..) rfl ?_
        exact hst6
      · refine Keeps.each (fun st10 x11 => ?_) ?_
        · refine Keeps.next (State.copyBlock_keeps ..) rfl ?_
          exact Keeps.refl
        · exact hst6
    try clear_value st9
    extract_lets -descend +onlyGivenNames st12 at r8
    have hst12 : Keeps [.cells, .hif, .wld, .cic, .dmc, .pair, .freeCtr, .emits] s st12 := by
      subst st12
      refine Keeps.next (State.updPair_keeps ..) rfl ?_
      exact hst9
    try clear_value st12
    subst r8
    refine Keeps.next (State.put_keeps ..) rfl ?_
    exact hst12

theorem State.copyRegs_keeps (s : State) : Keeps [.pair, .emits] s (State.copyRegs s) := by
  unfold State.copyRegs
  show let r2 := _; Keeps _ _ r2
  intro r2
  extract_lets -descend +onlyGivenNames st3 at r2
  have hst3 : Keeps [.pair, .emits] s st3 := by
    subst st3
    refine Keeps.each (fun st4 x5 => ?_) ?_
    · refine Keeps.next (State.send_keeps ..) rfl ?_
      exact Keeps.refl
    · exact Keeps.refl
  try clear_value st3
  subst r2
  refine Keeps.each (fun st6 x7 => ?_) ?_
  · refine Keeps.next (State.send_keeps ..) rfl ?_
    exact Keeps.refl
  · exact hst3

theorem State.copyNext_keeps (s : State) : Keeps [.cells, .hif, .wld, .cic, .dmc, .pair, .freeCtr, .emits] s
    (State.copyNext s) := by
  unfold State.copyNext
  show let r2 := _; Keeps _ _ r2
  intro r2
  extract_lets -descend +onlyGivenNames v3 at r2
  subst r2
  refine Keeps.ite ?_ ?_
  · refine Keeps.next (State.copyDram_keeps ..) rfl ?_
    exact Keeps.refl
  · refine Keeps.next (State.copyOnDie_keeps ..) rfl ?_
    exact Keeps.refl

theorem State.copyStep_keeps (s : State) : Keeps [.cells, .hif, .wld, .cic, .dmc, .pair, .freeCtr, .emits] s
    (State.copyStep s) := by
  unfold State.copyStep
  refine Keeps.ite ?_ ?_
  · exact Keeps.refl
  · refine Keeps.ite ?_ ?_
    · show let r2 := _; Keeps _ _ r2
      intro r2
      extract_lets -descend +onlyGivenNames st3 at r2
      have hst3 : Keeps [.cells, .hif, .wld, .cic, .dmc, .pair, .freeCtr, .emits] s st3 := by
        subst st3
        refine Keeps.next (State.updPair_keeps ..) rfl ?_
        refine Keeps.next (State.copyRegs_keeps ..) rfl ?_
        exact Keeps.refl
      try clear_value st3
      subst r2
      refine Keeps.next (State.send_keeps ..) rfl ?_
      exact hst3
    · refine Keeps.ite ?_ ?_
      · exact Keeps.refl
      · refine Keeps.ite ?_ ?_
        · refine Keeps.next (State.copyNext_keeps ..) rfl ?_
          exact Keeps.refl
        · exact Keeps.refl

theorem idleStep_keeps (s : State) : Keeps [.time, .cells, .hif, .wld, .cic, .dmc, .pair, .freeCtr, .emits, .resp] s
    (idleStep s) := by
  unfold idleStep
  refine Keeps.next (State.copyStep_keeps ..) rfl ?_
  refine Keeps.next (idleTick_keeps ..) rfl ?_
  exact Keeps.refl

theorem State.tryPaired_keeps (s : State) : Keeps [.cells, .hif, .outs, .wld, .cic, .reductions, .pair, .emits] s
    (State.tryPaired s) := by
  unfold State.tryPaired
  show let r2 := _; Keeps _ _ r2
  intro r2
  extract_lets -descend +onlyGivenNames v3 at r2
  subst r2
  refine Keeps.ite ?_ ?_
  · exact Keeps.refl
  · show let r4 := _; Keeps _ _ r4
    intro r4
    extract_lets -descend +onlyGivenNames st5 at r4
    have hst5 : Keeps [.cells, .hif, .outs, .wld, .cic, .reductions, .pair, .emits] s st5 := by
      subst st5
      refine Keeps.next (State.updPair_keeps ..) rfl ?_
      exact Keeps.refl
    try clear_value st5
    extract_lets -descend +onlyGivenNames st6 at r4
    have hst6 : Keeps [.cells, .hif, .outs, .wld, .cic, .reductions, .pair, .emits] s st6 := by
      subst st6
      refine Keeps.next (State.event_keeps ..) rfl ?_
      refine Keeps.next (State.event_keeps ..) rfl ?_
      refine Keeps.next (State.clrF_keeps ..) rfl ?_
      refine Keeps.next (State.setPair_keeps ..) rfl ?_
      exact hst5
    try clear_value st6
    subst r4
    refine Keeps.ite ?_ ?_
    · refine Keeps.next (State.setLone_keeps ..) rfl ?_
      exact hst6
    · exact hst6

theorem State.tryRechecked_keeps (s : State) : Keeps [.pair] s (State.tryRechecked s) := by
  unfold State.tryRechecked
  refine Keeps.ite ?_ ?_
  · refine Keeps.next (State.updPair_keeps ..) rfl ?_
    exact Keeps.refl
  · exact Keeps.refl

theorem State.enterVerify_keeps (s : State) : Keeps [.cells, .hif, .outs, .wld, .cic, .reductions, .pair, .emits] s
    (State.enterVerify s) := by
  unfold State.enterVerify
  refine Keeps.ite ?_ ?_
  · show let r2 := _; Keeps _ _ r2
    intro r2
    extract_lets -descend +onlyGivenNames v3 at r2
    extract_lets -descend +onlyGivenNames v4 at r2
    extract_lets -descend +onlyGivenNames st5 at r2
    have hst5 : Keeps [.cells, .hif, .outs, .wld, .cic, .reductions, .pair, .emits] s st5 := by
      subst st5
      refine Keeps.each (fun st6 x7 => ?_) ?_
      · refine Keeps.next (State.recompile_keeps ..) rfl ?_
        exact Keeps.refl
      · exact Keeps.refl
    try clear_value st5
    subst r2
    refine Keeps.next (State.tryPaired_keeps ..) rfl ?_
    refine Keeps.next (State.updPair_keeps ..) rfl ?_
    refine Keeps.next (State.setPair_keeps ..) rfl ?_
    exact hst5
  · exact Keeps.refl

theorem catchupDoneEffect_keeps (s : State) : Keeps [.cells, .hif, .outs, .wld, .cic, .reductions, .pair, .emits] s
    (catchupDoneEffect s) := by
  unfold catchupDoneEffect
  refine Keeps.ite ?_ ?_
  · refine Keeps.next (State.enterVerify_keeps ..) rfl ?_
    refine Keeps.next (State.updPair_keeps ..) rfl ?_
    exact Keeps.refl
  · exact Keeps.refl

theorem timeEffect_keeps (t : ℕ) (starts : List (ℕ × ℕ)) (s : State) : Keeps [.pair] s (timeEffect t starts s) := by
  unfold timeEffect
  refine Keeps.ite ?_ ?_
  · refine Keeps.next (State.updPair_keeps ..) rfl ?_
    exact Keeps.refl
  · exact Keeps.refl

theorem State.alignGen_keeps (s : State) (o : ℕ) (t0 : ℕ) : Keeps [.outs] s (State.alignGen s o t0) := by
  unfold State.alignGen
  show let r4 := _; Keeps _ _ r4
  intro r4
  extract_lets -descend +onlyGivenNames v5 at r4
  extract_lets -descend +onlyGivenNames v6 at r4
  subst r4
  refine Keeps.ite ?_ ?_
  · refine Keeps.next (State.setOut_keeps ..) rfl ?_
    exact Keeps.refl
  · exact Keeps.refl

theorem doSyncEdge_keeps (s : State) : Keeps [.time, .ticks, .cells, .hif, .cmds, .slices, .haul, .outs, .cvu,
    .floor, .hst, .ast, .wld, .cic, .reductions, .pair, .emits] s (doSyncEdge s) := by
  unfold doSyncEdge
  refine Keeps.ite ?_ ?_
  · dsimp only
    generalize (s.time / 1000000 + 1) * 1000000 = t
    have h1 : Keeps [.time, .ticks, .cells, .hif, .cmds, .slices, .haul, .outs, .cvu, .floor, .hst, .ast, .wld,
        .cic, .reductions, .pair, .emits] s ((s.at t).emit .pairSync) := Keeps.next (State.emit_keeps ..) rfl
        ((State.at_keeps ..).weaken rfl)
    generalize (s.at t).emit .pairSync = u at h1 ⊢
    have h2 : Keeps [.time, .ticks, .cells, .hif, .cmds, .slices, .haul, .outs, .cvu, .floor, .hst, .ast, .wld,
        .cic, .reductions, .pair, .emits] s (if u.forwards then
        u.send (.time (t + 1000000) (u.runningOuts.map fun o => (o, u.gridTime o 0))) else u) :=
      Keeps.ite (Keeps.next (State.send_keeps ..) rfl h1) h1
    generalize (if u.forwards then _ else u : State) = w at h2 ⊢
    exact Keeps.ite (Keeps.next (State.tryPaired_keeps ..) rfl h2) h2
  · split
    · rename_i t _ _
      dsimp only
      have h1 : Keeps [.time, .ticks, .cells, .hif, .cmds, .slices, .haul, .outs, .cvu, .floor, .hst, .ast, .wld,
          .cic, .reductions, .pair, .emits] s (s.updPair fun p => { p with edge := none, starts := [] }) :=
          (State.updPair_keeps ..).weaken rfl
      generalize (s.updPair fun p => { p with edge := none, starts := [] }) = u at h1 ⊢
      have ha : ∀ w : State, Keeps [.time, .ticks, .cells, .hif, .cmds, .slices, .haul, .outs, .cvu, .floor, .hst,
          .ast, .wld, .cic, .reductions, .pair, .emits] s w → Keeps [.time, .ticks, .cells, .hif, .cmds, .slices, .haul,
          .outs, .cvu, .floor, .hst, .ast, .wld, .cic, .reductions, .pair, .emits] s (w.each s.pair.starts fun s e =>
          s.alignGen e.1 e.2) :=
        fun w hw => Keeps.each (fun s x => (State.alignGen_keeps ..).weaken rfl) hw
      refine Keeps.ite ?_ (Keeps.ite ?_ (ha _ h1))
      · refine Keeps.next (State.enterVerify_keeps ..) rfl ?_
        refine Keeps.next (State.updPair_keeps ..) rfl ?_
        refine ha _ ?_
        exact Keeps.set_ticks (x := { u with time := t }) rfl (Keeps.set_time rfl h1)
      · exact Keeps.next (State.diverge_keeps ..) rfl h1
    · exact Keeps.refl

theorem State.attribute_keeps (s : State) (e : LineCv) (partner : Bool) : Keeps [.cells, .hif, .wld, .cic, .pair,
    .emits] s (State.attribute s e partner) := by
  unfold State.attribute
  show let r4 := _; Keeps _ _ r4
  intro r4
  extract_lets -descend +onlyGivenNames st5 at r4
  have hst5 : Keeps [.cells, .hif, .wld, .cic, .pair, .emits] s st5 := by
    subst st5
    refine Keeps.ite ?_ ?_
    · exact Keeps.refl
    · show let r6 := _; Keeps _ _ r6
      intro r6
      extract_lets -descend +onlyGivenNames st7 at r6
      have hst7 : Keeps [.cells, .hif, .wld, .cic, .pair, .emits] s st7 := by
        subst st7
        refine Keeps.next (State.wrN_keeps ..) rfl ?_
        exact Keeps.refl
      try clear_value st7
      subst r6
      refine Keeps.next (State.wrN_keeps ..) rfl ?_
      refine Keeps.next (State.wrN_keeps ..) rfl ?_
      exact hst7
  try clear_value st5
  extract_lets -descend +onlyGivenNames v8 at r4
  extract_lets -descend +onlyGivenNames st9 at r4
  have hst9 : Keeps [.cells, .hif, .wld, .cic, .pair, .emits] s st9 := by
    subst st9
    refine Keeps.ite ?_ ?_
    · refine Keeps.next (State.moveFeed_keeps ..) rfl ?_
      exact hst5
    · exact hst5
  try clear_value st9
  subst r4
  refine Keeps.next (State.event_keeps ..) rfl ?_
  exact hst9

theorem State.unattributed_keeps (s : State) (o : ℕ) (frame : ℕ) : Keeps [.cells, .hif, .cmds, .slices, .haul, .cvu,
    .floor, .hst, .ast, .wld, .cic, .pair, .emits] s (State.unattributed s o frame) := by
  unfold State.unattributed
  show let r4 := _; Keeps _ _ r4
  intro r4
  extract_lets -descend +onlyGivenNames st5 at r4
  have hst5 : Keeps [.cells, .hif, .cmds, .slices, .haul, .cvu, .floor, .hst, .ast, .wld, .cic, .pair, .emits] s st5
      := by
    subst st5
    refine Keeps.next (State.event_keeps ..) rfl ?_
    refine Keeps.next (State.count_keeps ..) rfl ?_
    exact Keeps.refl
  try clear_value st5
  subst r4
  split
  · show let r6 := _; Keeps _ _ r6
    intro r6
    extract_lets -descend +onlyGivenNames v7 at r6
    extract_lets -descend +onlyGivenNames st8 at r6
    have hst8 : Keeps [.cells, .hif, .cmds, .slices, .haul, .cvu, .floor, .hst, .ast, .wld, .cic, .pair, .emits] s
        st8 := by
      subst st8
      refine Keeps.next (State.updPair_keeps ..) rfl ?_
      exact hst5
    try clear_value st8
    subst r6
    refine Keeps.ite ?_ ?_
    · refine Keeps.next (State.yieldNow_keeps ..) rfl ?_
      exact hst8
    · exact hst8

theorem State.judgeLine_keeps (s : State) (a : LineCv) (b : LineCv) : Keeps [.cells, .hif, .cmds, .slices, .haul,
    .outs, .cvu, .floor, .hst, .ast, .wld, .cic, .reductions, .pair, .emits] s (State.judgeLine s a b) := by
  unfold State.judgeLine
  show let r4 := _; Keeps _ _ r4
  intro r4
  extract_lets -descend +onlyGivenNames v5 at r4
  subst r4
  refine Keeps.ite ?_ ?_
  · refine Keeps.ite ?_ ?_
    · refine Keeps.next (State.tryPaired_keeps ..) rfl ?_
      refine Keeps.next (State.updPair_keeps ..) rfl ?_
      exact Keeps.refl
    · refine Keeps.ite ?_ ?_
      · refine Keeps.next (State.tryRechecked_keeps ..) rfl ?_
        refine Keeps.next (State.updPair_keeps ..) rfl ?_
        exact Keeps.refl
      · exact Keeps.refl
  · refine Keeps.ite ?_ ?_
    · refine Keeps.ite ?_ ?_
      · refine Keeps.next (State.yieldNow_keeps ..) rfl ?_
        exact Keeps.refl
      · exact Keeps.refl
    · refine Keeps.ite ?_ ?_
      · split
        · refine Keeps.next (State.attribute_keeps ..) rfl ?_
          exact Keeps.refl
        · refine Keeps.next (State.attribute_keeps ..) rfl ?_
          exact Keeps.refl
        · refine Keeps.next (State.unattributed_keeps ..) rfl ?_
          exact Keeps.refl
      · refine Keeps.ite ?_ ?_
        · refine Keeps.next (State.catchupFailed_keeps ..) rfl ?_
          exact Keeps.refl
        · refine Keeps.next (State.updPair_keeps ..) rfl ?_
          exact Keeps.refl

theorem State.compareLines_keeps (s : State) (o : ℕ) : Keeps [.cells, .hif, .cmds, .slices, .haul, .outs, .cvu,
    .floor, .hst, .ast, .wld, .cic, .reductions, .pair, .emits] s (State.compareLines s o) := by
  unfold State.compareLines
  show let r3 := _; Keeps _ _ r3
  intro r3
  extract_lets -descend +onlyGivenNames v4 at r3
  extract_lets -descend +onlyGivenNames v5 at r3
  subst r3
  refine Keeps.foldl (fun st6 x7 => ?_) ?_
  · split
    · exact Keeps.refl
    · show let r8 := _; Keeps _ _ r8
      intro r8
      extract_lets -descend +onlyGivenNames st9 at r8
      have hst9 : Keeps [.cells, .hif, .cmds, .slices, .haul, .outs, .cvu, .floor, .hst, .ast, .wld, .cic,
          .reductions, .pair, .emits] st6 st9 := by
        subst st9
        refine Keeps.next (State.updPair_keeps ..) rfl ?_
        exact Keeps.refl
      try clear_value st9
      subst r8
      refine Keeps.next (State.judgeLine_keeps ..) rfl ?_
      exact hst9
  · exact Keeps.refl

theorem lineCvEffect_keeps (e : LineCv) (s : State) : Keeps [.cells, .hif, .cmds, .slices, .haul, .outs, .cvu,
    .floor, .hst, .ast, .wld, .cic, .reductions, .pair, .emits] s (lineCvEffect e s) := by
  unfold lineCvEffect
  refine Keeps.ite ?_ ?_
  · show let r3 := _; Keeps _ _ r3
    intro r3
    extract_lets -descend +onlyGivenNames st4 at r3
    have hst4 : Keeps [.cells, .hif, .cmds, .slices, .haul, .outs, .cvu, .floor, .hst, .ast, .wld, .cic,
        .reductions, .pair, .emits] s st4 := by
      subst st4
      refine Keeps.next (State.count_keeps ..) rfl ?_
      exact Keeps.refl
    try clear_value st4
    subst r3
    refine Keeps.next (State.updPair_keeps ..) rfl ?_
    exact hst4
  · refine Keeps.next (State.compareLines_keeps ..) rfl ?_
    refine Keeps.next (State.updPair_keeps ..) rfl ?_
    exact Keeps.refl

theorem State.moveFeeds_keeps (s : State) (o : Nat) : Keeps [.cells, .hif, .wld, .cic, .pair, .emits] s (s.moveFeeds
    o) := by
  unfold State.moveFeeds
  dsimp only
  refine Keeps.set_pair rfl (Keeps.ite (Keeps.next (State.event_keeps ..) rfl ?_) ?_)
  all_goals exact Keeps.each (fun s x => Keeps.set_pair rfl Keeps.refl) Keeps.refl

theorem State.sendLineCv_keeps (s : State) (o : ℕ) (y : ℕ) (flags : ℕ) (px : List Rgb) : Keeps [.pair, .emits] s
    (State.sendLineCv s o y flags px) := by
  unfold State.sendLineCv
  refine Keeps.ite ?_ ?_
  · show let r6 := _; Keeps _ _ r6
    intro r6
    extract_lets -descend +onlyGivenNames v7 at r6
    extract_lets -descend +onlyGivenNames v8 at r6
    extract_lets -descend +onlyGivenNames v9 at r6
    extract_lets -descend +onlyGivenNames st10 at r6
    have hst10 : Keeps [.pair, .emits] s st10 := by
      subst st10
      refine Keeps.set_pair (x := s) rfl ?_
      exact Keeps.refl
    try clear_value st10
    subst r6
    refine Keeps.next (State.send_keeps ..) rfl ?_
    exact hst10
  · exact Keeps.refl

theorem State.fetchLine_keeps (s : State) (o y : Nat) (t : Timing) (l : CfgLayer) (bad : Ecc) :
    Keeps [.cells, .hif, .outs, .wld, .cic, .dmc, .freeCtr, .emits] s (s.fetchLine o y t l bad).2.2 := by
  unfold State.fetchLine
  dsimp only
  refine Keeps.next (State.realTime_keeps ..) rfl ?_
  refine Keeps.each (fun s x => ?_) ?_
  · exact Keeps.next (State.updOut_keeps ..) rfl ((State.count_keeps ..).weaken rfl)
  · refine Keeps.each (fun s x => ?_) ?_
    · exact Keeps.next (State.updOut_keeps ..) rfl (Keeps.next (State.event_keeps ..) rfl ((State.count_keeps
        ..).weaken rfl))
    · refine Keeps.next (State.readBlocks_keeps ..) rfl ?_
      refine Keeps.each (fun s x => ?_) Keeps.refl
      exact Keeps.next (State.updOut_keeps ..) rfl ((State.denial_keeps ..).weaken rfl)

theorem State.composeLine_keeps (s : State) (o y : Nat) (bad : Ecc) : Keeps [.cells, .hif, .outs, .wld, .cic, .dmc,
    .freeCtr, .emits] s (s.composeLine o y bad).2.2.2 := by
  unfold State.composeLine
  dsimp only
  refine Keeps.foldl3 (fun q x => ?_) Keeps.refl
  exact State.fetchLine_keeps ..

theorem State.noteUnderrun_keeps (s : State) (o : ℕ) (y : ℕ) : Keeps [.cells, .outs] s (State.noteUnderrun s o y) := by
  unfold State.noteUnderrun
  show let r4 := _; Keeps _ _ r4
  intro r4
  extract_lets -descend +onlyGivenNames st5 at r4
  have hst5 : Keeps [.cells, .outs] s st5 := by
    subst st5
    refine Keeps.next (State.count_keeps ..) rfl ?_
    exact Keeps.refl
  try clear_value st5
  extract_lets -descend +onlyGivenNames st6 at r4
  have hst6 : Keeps [.cells, .outs] s st6 := by
    subst st6
    refine Keeps.ite ?_ ?_
    · exact hst5
    · refine Keeps.next (State.wr_keeps ..) rfl ?_
      refine Keeps.next (State.wrN_keeps ..) rfl ?_
      exact hst5
  try clear_value st6
  subst r4
  refine Keeps.next (State.updOut_keeps ..) rfl ?_
  exact hst6

theorem State.regionVerdict_keeps (s : State) (n : ℕ) : Keeps [.cells, .csr] s (State.regionVerdict s n) := by
  unfold State.regionVerdict
  show let r3 := _; Keeps _ _ r3
  intro r3
  extract_lets -descend +onlyGivenNames v4 at r3
  extract_lets -descend +onlyGivenNames v5 at r3
  extract_lets -descend +onlyGivenNames v6 at r3
  extract_lets -descend +onlyGivenNames st7 at r3
  have hst7 : Keeps [.cells, .csr] s st7 := by
    subst st7
    refine Keeps.next (State.setRegion_keeps ..) rfl ?_
    exact Keeps.refl
  try clear_value st7
  extract_lets -descend +onlyGivenNames st8 at r3
  have hst8 : Keeps [.cells, .csr] s st8 := by
    subst st8
    refine Keeps.next (State.wr_keeps ..) rfl ?_
    refine Keeps.next (State.wrN_keeps ..) rfl ?_
    exact hst7
  try clear_value st8
  subst r3
  refine Keeps.ite ?_ ?_
  · exact hst8
  · refine Keeps.next (State.count_keeps ..) rfl ?_
    exact hst8

theorem State.feedRegions_keeps (s : State) (o : ℕ) (y : ℕ) (px : List (ℕ × ℕ × ℕ)) : Keeps [.cells, .csr] s
    (State.feedRegions s o y px) := by
  unfold State.feedRegions
  refine Keeps.each (fun st5 x6 => ?_) ?_
  · show let r7 := _; Keeps _ _ r7
    intro r7
    extract_lets -descend +onlyGivenNames v8 at r7
    extract_lets -descend +onlyGivenNames v9 at r7
    subst r7
    refine Keeps.ite ?_ ?_
    · show let r10 := _; Keeps _ _ r10
      intro r10
      extract_lets -descend +onlyGivenNames v11 at r10
      extract_lets -descend +onlyGivenNames st12 at r10
      have hst12 : Keeps [.cells, .csr] st5 st12 := by
        subst st12
        refine Keeps.next (State.setRegion_keeps ..) rfl ?_
        exact Keeps.refl
      try clear_value st12
      subst r10
      refine Keeps.ite ?_ ?_
      · refine Keeps.next (State.regionVerdict_keeps ..) rfl ?_
        exact hst12
      · exact hst12
    · exact Keeps.refl
  · exact Keeps.refl

theorem State.activeLine_keeps (s : State) (o y : Nat) (late : Option Nat) (bad : Ecc) :
    Keeps [.cells, .hif, .outs, .csr, .wld, .cic, .dmc, .pair, .freeCtr, .emits] s (s.activeLine o y late bad).2 := by
  unfold State.activeLine
  generalize s.timing o = t
  refine Keeps.ite2 ?_ ?_
  · exact (State.sendLineCv_keeps ..).weaken rfl
  · have hc : Keeps [.cells, .hif, .outs, .csr, .wld, .cic, .dmc, .pair, .freeCtr, .emits] s (s.composeLine o y
      bad).2.2.2 := (State.composeLine_keeps s o y bad).weaken rfl
    generalize s.composeLine o y bad = q at hc ⊢
    obtain ⟨px, fails, gone, u⟩ := q
    have hl : Keeps [.cells, .hif, .outs, .csr, .wld, .cic, .dmc, .pair, .freeCtr, .emits] s (match late with
      | some k => if k < t.ha then (underrun k px, true, u.noteUnderrun o y) else (px, false, u)
      | none => (px, false, u)).2.2 := by
      split
      · split
        · exact Keeps.next (State.noteUnderrun_keeps ..) rfl hc
        · exact hc
      · exact hc
    dsimp only
    refine Keeps.next (State.sendLineCv_keeps ..) rfl ?_
    exact Keeps.next (State.feedRegions_keeps ..) rfl hl

theorem State.runLine_keeps (s : State) (o y : Nat) (late : Option Nat) (bad : Ecc) :
    Keeps [.cells, .hif, .outs, .csr, .wld, .cic, .dmc, .pair, .freeCtr, .emits] s (s.runLine o y late bad).2 := by
  unfold State.runLine
  dsimp only
  refine Keeps.ite2 ?_ (Keeps.ite2 (State.activeLine_keeps ..) Keeps.refl)
  dsimp only
  refine Keeps.next (State.updOut_keeps ..) rfl ?_
  refine Keeps.ite ?_ Keeps.refl
  refine Keeps.next (State.updOut_keeps ..) rfl ?_
  exact State.activeLine_keeps ..

theorem doLineStart_keeps (o : ℕ) (late : Option ℕ) (ecc : Ecc) (s : State) : Keeps [.time, .cells, .hif, .outs,
    .csr, .wld, .cic, .dmc, .pair, .freeCtr, .emits] s (doLineStart o late ecc s) := by
  unfold doLineStart
  show let r5 := _; Keeps _ _ r5
  intro r5
  extract_lets -descend +onlyGivenNames v6 at r5
  extract_lets -descend +onlyGivenNames v7 at r5
  extract_lets -descend +onlyGivenNames v8 at r5
  extract_lets -descend +onlyGivenNames v9 at r5
  subst r5
  refine Keeps.ite ?_ ?_
  · exact Keeps.refl
  · show let r10 := _; Keeps _ _ r10
    intro r10
    extract_lets -descend +onlyGivenNames st11 at r10
    have hst11 : Keeps [.time, .cells, .hif, .outs, .csr, .wld, .cic, .dmc, .pair, .freeCtr, .emits] s st11 := by
      subst st11
      refine Keeps.next (State.at_keeps ..) rfl ?_
      exact Keeps.refl
    try clear_value st11
    extract_lets -descend +onlyGivenNames st12 at r10
    have hst12 : Keeps [.time, .cells, .hif, .outs, .csr, .wld, .cic, .dmc, .pair, .freeCtr, .emits] s st12 := by
      subst st12
      refine Keeps.next (State.moveFeeds_keeps ..) rfl ?_
      refine Keeps.next (State.setOut_keeps ..) rfl ?_
      exact hst11
    try clear_value st12
    subst r10
    split
    · rename_i _ st13 e14
      have hst13 : Keeps [.time, .cells, .hif, .outs, .csr, .wld, .cic, .dmc, .pair, .freeCtr, .emits] s st13 := by
        refine Keeps.snd e14 ?_
        refine Keeps.next (State.runLine_keeps ..) rfl ?_
        exact hst12
      refine Keeps.next (State.updOut_keeps ..) rfl ?_
      exact hst13

theorem doLine_keeps (o : ℕ) (late : Option ℕ) (ecc : Ecc) (s : State) : Keeps [.time, .cells, .hif, .cmds, .slices,
    .haul, .outs, .csr, .cvu, .floor, .hst, .ast, .wld, .cic, .dmc, .reductions, .pair, .freeCtr, .emits] s (doLine o
    late ecc s) := by
  unfold doLine
  refine Keeps.next (State.compareLines_keeps ..) rfl ?_
  refine Keeps.next (doLineStart_keeps ..) rfl ?_
  exact Keeps.refl

theorem feedEffect_keeps (o : ℕ) (t : ℕ) (toPrimary : Bool) (s : State) : Keeps [.cells, .hif, .wld, .cic, .pair,
    .emits] s (feedEffect o t toPrimary s) := by
  unfold feedEffect
  refine Keeps.next (State.moveFeed_keeps ..) rfl ?_
  exact Keeps.refl

theorem latchEffect_keeps (o : ℕ) (frame : ℕ) (fence : ℕ) (crc : ℕ) (s : State) : Keeps [.cells, .hif, .cmds,
    .slices, .haul, .cvu, .floor, .hst, .ast, .wld, .cic, .pair, .emits] s (latchEffect o frame fence crc s) := by
  unfold latchEffect
  refine Keeps.ite ?_ ?_
  · refine Keeps.next (State.applyFenced_keeps ..) rfl ?_
    refine Keeps.next (State.updPair_keeps ..) rfl ?_
    exact Keeps.refl
  · exact Keeps.refl

theorem latchAckEffect_keeps (o : ℕ) (frame : ℕ) (late : Bool) (s : State) : Keeps [.pair] s (latchAckEffect o frame
    late s) := by
  unfold latchAckEffect
  refine Keeps.next (State.updPair_keeps ..) rfl ?_
  exact Keeps.refl

theorem State.onDieStore_keeps (s : State) (off : ℕ) (data : List Byte) : Keeps [.mem] s (State.onDieStore s off
    data) := by
  unfold State.onDieStore
  refine Keeps.ite ?_ ?_
  · refine Keeps.set_mem (x := s) rfl Mems.wf_floor ?_
    exact Keeps.refl
  · refine Keeps.ite ?_ ?_
    · refine Keeps.set_mem (x := s) rfl Mems.wf_store ?_
      exact Keeps.refl
    · exact Keeps.refl

theorem writeDramEffect_keeps (off : ℕ) (data : List Byte) (world1 : Bool) (poisoned : Bool) (s : State) : Keeps
    [.cells, .hif, .cmds, .slices, .haul, .cvu, .floor, .hst, .ast, .wld, .cic, .dmc, .pair, .mem, .freeCtr, .emits] s
    (writeDramEffect off data world1 poisoned s) := by
  unfold writeDramEffect
  refine Keeps.ite ?_ ?_
  · exact Keeps.refl
  · refine Keeps.ite ?_ ?_
    · refine Keeps.next (State.onDieStore_keeps ..) rfl ?_
      exact Keeps.refl
    · refine Keeps.ite ?_ ?_
      · exact Keeps.refl
      · refine Keeps.ite ?_ ?_
        · refine Keeps.next (State.diverge_keeps ..) rfl ?_
          refine Keeps.next (State.denial_keeps ..) rfl ?_
          exact Keeps.refl
        · show let r6 := _; Keeps _ _ r6
          intro r6
          extract_lets -descend +onlyGivenNames st7 at r6
          have hst7 : Keeps [.cells, .hif, .cmds, .slices, .haul, .cvu, .floor, .hst, .ast, .wld, .cic, .dmc, .pair,
              .mem, .freeCtr, .emits] s st7 := by
            subst st7
            refine Keeps.next (State.dramStore_keeps ..) rfl ?_
            exact Keeps.refl
          try clear_value st7
          subst r6
          refine Keeps.ite ?_ ?_
          · refine Keeps.each (fun st8 x9 => ?_) ?_
            · refine Keeps.next (State.setMark_keeps ..) rfl ?_
              exact Keeps.refl
            · exact hst7
          · exact hst7

theorem touchEffect_keeps (n : ℕ) (scan : ℕ) (st : TouchMirror) (s : State) : Keeps [.tch] s (touchEffect n scan st
    s) := by
  unfold touchEffect
  refine Keeps.ite ?_ ?_
  · refine Keeps.next (State.updPanel_keeps ..) rfl ?_
    exact Keeps.refl
  · exact Keeps.refl

theorem hapticEffect_keeps (chs : List HapMirror) (s : State) : Keeps [.hap] s (hapticEffect chs s) := by
  unfold hapticEffect
  refine Keeps.ite ?_ ?_
  · refine Keeps.each (fun st3 x4 => ?_) ?_
    · refine Keeps.next (State.updChan_keeps ..) rfl ?_
      exact Keeps.refl
    · exact Keeps.refl
  · exact Keeps.refl

theorem streamEffect_keeps (sl : ℕ) (ch : Option ℕ) (pos : ℕ) (samples : List ℤ) (s : State) : Keeps [.hst, .ast] s
    (streamEffect sl ch pos samples s) := by
  unfold streamEffect
  refine Keeps.ite ?_ ?_
  · show let r6 := _; Keeps _ _ r6
    intro r6
    extract_lets -descend +onlyGivenNames st7 at r6
    have hst7 : Keeps [.hst, .ast] s st7 := by
      subst st7
      split
      · refine Keeps.next (State.updHst_keeps ..) rfl ?_
        exact Keeps.refl
      · refine Keeps.next (State.updAst_keeps ..) rfl ?_
        exact Keeps.refl
    try clear_value st7
    subst r6
    refine Keeps.next (State.streamSamples_keeps ..) rfl ?_
    exact hst7
  · exact Keeps.refl

theorem State.bridgePanel_keeps (s : State) (n : ℕ) : Keeps [.tch] s (State.bridgePanel s n) := by
  unfold State.bridgePanel
  split
  · exact Keeps.refl
  · refine Keeps.next (State.updPanel_keeps ..) rfl ?_
    exact Keeps.refl

theorem State.takeoverCommits_keeps (s : State) (o : ℕ) : Keeps [.cells, .hif, .cmds, .haul, .outs, .pair, .emits] s
    (State.takeoverCommits s o) := by
  unfold State.takeoverCommits
  show let r3 := _; Keeps _ _ r3
  intro r3
  extract_lets -descend +onlyGivenNames v4 at r3
  extract_lets -descend +onlyGivenNames v5 at r3
  extract_lets -descend +onlyGivenNames v6 at r3
  subst r3
  refine Keeps.next (State.endCommits_keeps ..) rfl ?_
  exact Keeps.refl

theorem State.setResync_keeps (s : State) (rcv : ℕ) (b : Bool) : Keeps [.cells, .pwResync] s (State.setResync s rcv
    b) := by
  unfold State.setResync
  refine Keeps.ite ?_ ?_
  · refine Keeps.set_pwResync (x := s) rfl ?_
    exact Keeps.refl
  · refine Keeps.next (State.put_keeps ..) rfl ?_
    exact Keeps.refl

theorem State.takeoverWork_keeps (s : State) : Keeps [.cells, .hif, .cmds, .slices, .haul, .outs, .pwResync, .wld,
    .cic, .pair, .emits] s (State.takeoverWork s) := by
  unfold State.takeoverWork
  show let r2 := _; Keeps _ _ r2
  intro r2
  extract_lets -descend +onlyGivenNames v3 at r2
  extract_lets -descend +onlyGivenNames st4 at r2
  have hst4 : Keeps [.cells, .hif, .cmds, .slices, .haul, .outs, .pwResync, .wld, .cic, .pair, .emits] s st4 := by
    subst st4
    refine Keeps.next (State.detachAll_keeps ..) rfl ?_
    exact Keeps.refl
  try clear_value st4
  extract_lets -descend +onlyGivenNames st5 at r2
  have hst5 : Keeps [.cells, .hif, .cmds, .slices, .haul, .outs, .pwResync, .wld, .cic, .pair, .emits] s st5 := by
    subst st5
    refine Keeps.each (fun st6 x7 => ?_) ?_
    · show let r8 := _; Keeps _ _ r8
      intro r8
      extract_lets -descend +onlyGivenNames st9 at r8
      have hst9 : Keeps [.cells, .hif, .cmds, .slices, .haul, .outs, .pwResync, .wld, .cic, .pair, .emits] st6 st9 := by
        subst st9
        refine Keeps.next (State.postEvent_keeps ..) rfl ?_
        exact Keeps.refl
      try clear_value st9
      subst r8
      refine Keeps.next (State.setResync_keeps ..) rfl ?_
      exact hst9
    · exact hst4
  try clear_value st5
  extract_lets -descend +onlyGivenNames st10 at r2
  have hst10 : Keeps [.cells, .hif, .cmds, .slices, .haul, .outs, .pwResync, .wld, .cic, .pair, .emits] s st10 := by
    subst st10
    refine Keeps.each (fun st11 x12 => ?_) ?_
    · refine Keeps.each (fun st13 x14 => ?_) ?_
      · refine Keeps.next (State.fail_keeps ..) rfl ?_
        exact Keeps.refl
      · exact Keeps.refl
    · exact hst5
  try clear_value st10
  subst r2
  refine Keeps.each (fun st15 x16 => ?_) ?_
  · refine Keeps.next (State.takeoverCommits_keeps ..) rfl ?_
    exact Keeps.refl
  · exact hst10

theorem State.takeover_keeps (s : State) (cause : ℕ) (alone : Bool) : Keeps [.cells, .latches, .hif, .cmds, .slices,
    .haul, .outs, .cvu, .floor, .tch, .pwResync, .wld, .cic, .reductions, .pair, .freeCtr, .emits] s (State.takeover s
    cause alone) := by
  unfold State.takeover
  show let r4 := _; Keeps _ _ r4
  intro r4
  extract_lets -descend +onlyGivenNames st5 at r4
  have hst5 : Keeps [.cells, .latches, .hif, .cmds, .slices, .haul, .outs, .cvu, .floor, .tch, .pwResync, .wld,
      .cic, .reductions, .pair, .freeCtr, .emits] s st5 := by
    subst st5
    refine Keeps.next (State.updPair_keeps ..) rfl ?_
    exact Keeps.refl
  try clear_value st5
  extract_lets -descend +onlyGivenNames st6 at r4
  have hst6 : Keeps [.cells, .latches, .hif, .cmds, .slices, .haul, .outs, .cvu, .floor, .tch, .pwResync, .wld,
      .cic, .reductions, .pair, .freeCtr, .emits] s st6 := by
    subst st6
    refine Keeps.next (State.put_keeps ..) rfl ?_
    refine Keeps.next (State.count_keeps ..) rfl ?_
    refine Keeps.next (State.setPair_keeps ..) rfl ?_
    exact hst5
  try clear_value st6
  extract_lets -descend +onlyGivenNames st7 at r4
  have hst7 : Keeps [.cells, .latches, .hif, .cmds, .slices, .haul, .outs, .cvu, .floor, .tch, .pwResync, .wld,
      .cic, .reductions, .pair, .freeCtr, .emits] s st7 := by
    subst st7
    refine Keeps.next (State.event_keeps ..) rfl ?_
    exact hst6
  try clear_value st7
  extract_lets -descend +onlyGivenNames st8 at r4
  have hst8 : Keeps [.cells, .latches, .hif, .cmds, .slices, .haul, .outs, .cvu, .floor, .tch, .pwResync, .wld,
      .cic, .reductions, .pair, .freeCtr, .emits] s st8 := by
    subst st8
    refine Keeps.next (State.takeoverWork_keeps ..) rfl ?_
    exact hst7
  try clear_value st8
  extract_lets -descend +onlyGivenNames st9 at r4
  have hst9 : Keeps [.cells, .latches, .hif, .cmds, .slices, .haul, .outs, .cvu, .floor, .tch, .pwResync, .wld,
      .cic, .reductions, .pair, .freeCtr, .emits] s st9 := by
    subst st9
    refine Keeps.ite ?_ ?_
    · refine Keeps.next (State.endExchange_keeps ..) rfl ?_
      exact hst8
    · refine Keeps.next (State.updPair_keeps ..) rfl ?_
      exact hst8
  try clear_value st9
  extract_lets -descend +onlyGivenNames st10 at r4
  have hst10 : Keeps [.cells, .latches, .hif, .cmds, .slices, .haul, .outs, .cvu, .floor, .tch, .pwResync, .wld,
      .cic, .reductions, .pair, .freeCtr, .emits] s st10 := by
    subst st10
    refine Keeps.next (State.feedAll_keeps ..) rfl ?_
    exact hst9
  try clear_value st10
  extract_lets -descend +onlyGivenNames st11 at r4
  have hst11 : Keeps [.cells, .latches, .hif, .cmds, .slices, .haul, .outs, .cvu, .floor, .tch, .pwResync, .wld,
      .cic, .reductions, .pair, .freeCtr, .emits] s st11 := by
    subst st11
    refine Keeps.next (State.setLone_keeps ..) rfl ?_
    refine Keeps.each (fun st12 x13 => ?_) ?_
    · refine Keeps.next (State.bridgePanel_keeps ..) rfl ?_
      exact Keeps.refl
    · exact hst10
  try clear_value st11
  subst r4
  refine Keeps.next (State.settle_keeps ..) rfl ?_
  exact hst11

theorem doPartnerLoss_keeps (s : State) : Keeps [.cells, .latches, .hif, .cmds, .slices, .haul, .outs, .cvu, .floor,
    .tch, .pwResync, .wld, .cic, .reductions, .pair, .freeCtr, .emits] s (doPartnerLoss s) := by
  unfold doPartnerLoss
  refine Keeps.ite ?_ ?_
  · exact Keeps.refl
  · show let r2 := _; Keeps _ _ r2
    intro r2
    extract_lets -descend +onlyGivenNames st3 at r2
    have hst3 : Keeps [.cells, .latches, .hif, .cmds, .slices, .haul, .outs, .cvu, .floor, .tch, .pwResync, .wld,
        .cic, .reductions, .pair, .freeCtr, .emits] s st3 := by
      subst st3
      refine Keeps.next (State.updPair_keeps ..) rfl ?_
      exact Keeps.refl
    try clear_value st3
    subst r2
    refine Keeps.ite ?_ ?_
    · refine Keeps.next (State.event_keeps ..) rfl ?_
      refine Keeps.next (State.goAlone_keeps ..) rfl ?_
      exact hst3
    · refine Keeps.next (State.takeover_keeps ..) rfl ?_
      exact hst3

theorem handoverEffect_keeps (t : ℕ) (s : State) : Keeps [.cells, .hif, .wld, .cic, .pair, .emits] s (handoverEffect
    t s) := by
  unfold handoverEffect
  refine Keeps.ite ?_ ?_
  · show let r3 := _; Keeps _ _ r3
    intro r3
    extract_lets -descend +onlyGivenNames st4 at r3
    have hst4 : Keeps [.cells, .hif, .wld, .cic, .pair, .emits] s st4 := by
      subst st4
      refine Keeps.next (State.updPair_keeps ..) rfl ?_
      exact Keeps.refl
    try clear_value st4
    subst r3
    refine Keeps.each (fun st5 x6 => ?_) ?_
    · refine Keeps.next (State.askFeed_keeps ..) rfl ?_
      exact Keeps.refl
    · exact hst4
  · exact Keeps.refl

theorem doRoleRelease_keeps (s : State) : Keeps [.time, .cells, .latches, .hif, .cmds, .slices, .haul, .outs, .cvu,
    .floor, .tch, .pwResync, .hst, .ast, .wld, .cic, .reductions, .pair, .freeCtr, .emits] s (doRoleRelease s) := by
  unfold doRoleRelease
  split
  · exact Keeps.refl
  · show let r2 := _; Keeps _ _ r2
    intro r2
    extract_lets -descend +onlyGivenNames st3 at r2
    have hst3 : Keeps [.time, .cells, .latches, .hif, .cmds, .slices, .haul, .outs, .cvu, .floor, .tch, .pwResync,
        .hst, .ast, .wld, .cic, .reductions, .pair, .freeCtr, .emits] s st3 := by
      subst st3
      refine Keeps.next (State.at_keeps ..) rfl ?_
      exact Keeps.refl
    try clear_value st3
    subst r2
    refine Keeps.ite ?_ ?_
    · show let r4 := _; Keeps _ _ r4
      intro r4
      extract_lets -descend +onlyGivenNames v5 at r4
      extract_lets -descend +onlyGivenNames st6 at r4
      have hst6 : Keeps [.time, .cells, .latches, .hif, .cmds, .slices, .haul, .outs, .cvu, .floor, .tch, .pwResync,
          .hst, .ast, .wld, .cic, .reductions, .pair, .freeCtr, .emits] s st6 := by
        subst st6
        refine Keeps.next (State.updPair_keeps ..) rfl ?_
        exact hst3
      try clear_value st6
      extract_lets -descend +onlyGivenNames st7 at r4
      have hst7 : Keeps [.time, .cells, .latches, .hif, .cmds, .slices, .haul, .outs, .cvu, .floor, .tch, .pwResync,
          .hst, .ast, .wld, .cic, .reductions, .pair, .freeCtr, .emits] s st7 := by
        subst st7
        refine Keeps.next (State.event_keeps ..) rfl ?_
        refine Keeps.next (State.clrF_keeps ..) rfl ?_
        exact hst6
      try clear_value st7
      extract_lets -descend +onlyGivenNames st8 at r4
      have hst8 : Keeps [.time, .cells, .latches, .hif, .cmds, .slices, .haul, .outs, .cvu, .floor, .tch, .pwResync,
          .hst, .ast, .wld, .cic, .reductions, .pair, .freeCtr, .emits] s st8 := by
        subst st8
        refine Keeps.next (State.linkLost_keeps ..) rfl ?_
        refine Keeps.next (State.setPair_keeps ..) rfl ?_
        exact hst7
      try clear_value st8
      subst r4
      refine Keeps.ite ?_ ?_
      · refine Keeps.next (State.yieldNow_keeps ..) rfl ?_
        exact hst8
      · exact hst8
    · refine Keeps.ite ?_ ?_
      · refine Keeps.next (State.event_keeps ..) rfl ?_
        refine Keeps.next (State.takeover_keeps ..) rfl ?_
        exact hst3
      · exact hst3

theorem yieldEffect_keeps (cause : ℕ) (s : State) : Keeps [.cells, .hif, .cmds, .slices, .haul, .outs, .cvu, .wld,
    .cic, .reductions, .pair, .emits] s (yieldEffect cause s) := by
  unfold yieldEffect
  refine Keeps.ite ?_ ?_
  · refine Keeps.next (State.updPair_keeps ..) rfl ?_
    exact Keeps.refl
  · refine Keeps.ite ?_ ?_
    · refine Keeps.next (State.goAlone_keeps ..) rfl ?_
      refine Keeps.next (State.put_keeps ..) rfl ?_
      exact Keeps.refl
    · exact Keeps.refl

theorem doGuardTrip_keeps (s : State) : Keeps [.cells, .hif, .cmds, .slices, .haul, .outs, .cvu, .floor, .hst, .ast,
    .wld, .cic, .reductions, .pair, .emits] s (doGuardTrip s) := by
  unfold doGuardTrip
  refine Keeps.ite ?_ ?_
  · exact Keeps.refl
  · show let r2 := _; Keeps _ _ r2
    intro r2
    extract_lets -descend +onlyGivenNames st3 at r2
    have hst3 : Keeps [.cells, .hif, .cmds, .slices, .haul, .outs, .cvu, .floor, .hst, .ast, .wld, .cic,
        .reductions, .pair, .emits] s st3 := by
      subst st3
      refine Keeps.next (State.setF_keeps ..) rfl ?_
      refine Keeps.next (State.haulDown_keeps ..) rfl ?_
      exact Keeps.refl
    try clear_value st3
    subst r2
    refine Keeps.next (State.updPair_keeps ..) rfl ?_
    exact hst3

theorem State.yieldFault_keeps (s : State) : Keeps [.cells, .hif, .wld, .cic, .pair, .emits] s (State.yieldFault s)
    := by
  unfold State.yieldFault
  refine Keeps.ite ?_ ?_
  · refine Keeps.next (State.startHandover_keeps ..) rfl ?_
    exact Keeps.refl
  · exact Keeps.refl

theorem State.genLost_keeps (s : State) (o : ℕ) : Keeps [.cells, .hif, .cmds, .slices, .haul, .outs, .lyr, .csr,
    .cvu, .floor, .wld, .cic, .reductions, .clk, .pair, .emits] s (State.genLost s o) := by
  unfold State.genLost
  split
  · show let r3 := _; Keeps _ _ r3
    intro r3
    extract_lets -descend +onlyGivenNames st4 at r3
    have hst4 : Keeps [.cells, .hif, .cmds, .slices, .haul, .outs, .lyr, .csr, .cvu, .floor, .wld, .cic,
        .reductions, .clk, .pair, .emits] s st4 := by
      subst st4
      refine Keeps.next (State.updOut_keeps ..) rfl ?_
      exact Keeps.refl
    try clear_value st4
    extract_lets -descend +onlyGivenNames st5 at r3
    have hst5 : Keeps [.cells, .hif, .cmds, .slices, .haul, .outs, .lyr, .csr, .cvu, .floor, .wld, .cic,
        .reductions, .clk, .pair, .emits] s st5 := by
      subst st5
      refine Keeps.ite ?_ ?_
      · refine Keeps.next (State.removeAll_keeps ..) rfl ?_
        exact hst4
      · exact hst4
    try clear_value st5
    subst r3
    refine Keeps.next (State.floorTick_keeps ..) rfl ?_
    refine Keeps.next (State.reductionTick_keeps ..) rfl ?_
    refine Keeps.next (State.event_keeps ..) rfl ?_
    refine Keeps.next (State.auxIdle_keeps ..) rfl ?_
    refine Keeps.next (State.setLink_keeps ..) rfl ?_
    exact hst5
  · refine Keeps.next (State.stopOutput_keeps ..) rfl ?_
    exact Keeps.refl
  · exact Keeps.refl

theorem State.stopChecks_keeps (s : State) : Keeps [.csr] s (State.stopChecks s) := by
  unfold State.stopChecks
  refine Keeps.each (fun st2 x3 => ?_) ?_
  · refine Keeps.next (State.updRegion_keeps ..) rfl ?_
    exact Keeps.refl
  · exact Keeps.refl

theorem State.floorAll_keeps (s : State) (b : Bool) : Keeps [.outs, .csr] s (State.floorAll s b) := by
  unfold State.floorAll
  show let r3 := _; Keeps _ _ r3
  intro r3
  extract_lets -descend +onlyGivenNames st4 at r3
  have hst4 : Keeps [.outs, .csr] s st4 := by
    subst st4
    refine Keeps.ite ?_ ?_
    · refine Keeps.next (State.stopChecks_keeps ..) rfl ?_
      exact Keeps.refl
    · exact Keeps.refl
  try clear_value st4
  subst r3
  refine Keeps.each (fun st5 x6 => ?_) ?_
  · refine Keeps.next (State.updOut_keeps ..) rfl ?_
    exact Keeps.refl
  · exact hst4

theorem State.loopsLost_keeps (s : State) : Keeps [.cells, .hif, .hap, .wld, .cic, .emits] s (State.loopsLost s) := by
  unfold State.loopsLost
  refine Keeps.each (fun st2 x3 => ?_) ?_
  · refine Keeps.ite ?_ ?_
    · exact Keeps.refl
    · refine Keeps.next (State.updChan_keeps ..) rfl ?_
      refine Keeps.ite ?_ ?_
      · refine Keeps.next (State.hapFault_keeps ..) rfl ?_
        exact Keeps.refl
      · exact Keeps.refl
  · exact Keeps.refl

theorem State.dramLost_keeps (s : State) : Keeps [.cells, .hif, .cmds, .slices, .haul, .outs, .csr, .cvu, .floor,
    .wld, .cic, .dmc, .pair, .emits] s (State.dramLost s) := by
  unfold State.dramLost
  show let r2 := _; Keeps _ _ r2
  intro r2
  extract_lets -descend +onlyGivenNames v3 at r2
  extract_lets -descend +onlyGivenNames st4 at r2
  have hst4 : Keeps [.cells, .hif, .cmds, .slices, .haul, .outs, .csr, .cvu, .floor, .wld, .cic, .dmc, .pair,
      .emits] s st4 := by
    subst st4
    refine Keeps.next (State.clrF_keeps ..) rfl ?_
    refine Keeps.set_dmc (x := s) rfl ?_
    exact Keeps.refl
  try clear_value st4
  extract_lets -descend +onlyGivenNames st5 at r2
  have hst5 : Keeps [.cells, .hif, .cmds, .slices, .haul, .outs, .csr, .cvu, .floor, .wld, .cic, .dmc, .pair,
      .emits] s st5 := by
    subst st5
    refine Keeps.next (State.loseXfers_keeps ..) rfl ?_
    refine Keeps.next (State.floorAll_keeps ..) rfl ?_
    exact hst4
  try clear_value st5
  subst r2
  refine Keeps.ite ?_ ?_
  · refine Keeps.next (State.yieldFault_keeps ..) rfl ?_
    exact hst5
  · exact hst5

theorem State.pllEffect_keeps (s : State) (i : ℕ) : Keeps [.cells, .hif, .cmds, .slices, .haul, .outs, .lyr, .csr,
    .cvu, .floor, .hap, .hst, .ast, .wld, .cic, .dmc, .reductions, .clk, .pair, .emits] s (State.pllEffect s i) := by
  unfold State.pllEffect
  split
  · refine Keeps.next (State.timeUncertain_keeps ..) rfl ?_
    exact Keeps.refl
  · refine Keeps.next (State.floorAll_keeps ..) rfl ?_
    exact Keeps.refl
  · refine Keeps.ite ?_ ?_
    · refine Keeps.next (State.timeUncertain_keeps ..) rfl ?_
      refine Keeps.next (State.loopsLost_keeps ..) rfl ?_
      exact Keeps.refl
    · refine Keeps.next (State.loopsLost_keeps ..) rfl ?_
      exact Keeps.refl
  · refine Keeps.next (State.dramLost_keeps ..) rfl ?_
    exact Keeps.refl
  · refine Keeps.next (State.linkLost_keeps ..) rfl ?_
    exact Keeps.refl
  · refine Keeps.next (State.haulDown_keeps ..) rfl ?_
    exact Keeps.refl
  · refine Keeps.next (State.genLost_keeps ..) rfl ?_
    exact Keeps.refl

theorem doPllLoss_keeps (i : ℕ) (s : State) : Keeps [.cells, .hif, .cmds, .slices, .haul, .outs, .lyr, .csr, .cvu,
    .floor, .hap, .hst, .ast, .wld, .cic, .dmc, .reductions, .clk, .pair, .emits] s (doPllLoss i s) := by
  unfold doPllLoss
  refine Keeps.ite ?_ ?_
  · exact Keeps.refl
  · show let r3 := _; Keeps _ _ r3
    intro r3
    extract_lets -descend +onlyGivenNames st4 at r3
    have hst4 : Keeps [.cells, .hif, .cmds, .slices, .haul, .outs, .lyr, .csr, .cvu, .floor, .hap, .hst, .ast, .wld,
        .cic, .dmc, .reductions, .clk, .pair, .emits] s st4 := by
      subst st4
      refine Keeps.next (State.event_keeps ..) rfl ?_
      refine Keeps.next (State.put_keeps ..) rfl ?_
      refine Keeps.next (State.setLocked_keeps ..) rfl ?_
      exact Keeps.refl
    try clear_value st4
    extract_lets -descend +onlyGivenNames st5 at r3
    have hst5 : Keeps [.cells, .hif, .cmds, .slices, .haul, .outs, .lyr, .csr, .cvu, .floor, .hap, .hst, .ast, .wld,
        .cic, .dmc, .reductions, .clk, .pair, .emits] s st5 := by
      subst st5
      refine Keeps.each (fun st6 x7 => ?_) ?_
      · refine Keeps.next (State.toCoast_keeps ..) rfl ?_
        exact Keeps.refl
      · exact hst4
    try clear_value st5
    extract_lets -descend +onlyGivenNames v8 at r3
    extract_lets -descend +onlyGivenNames st9 at r3
    have hst9 : Keeps [.cells, .hif, .cmds, .slices, .haul, .outs, .lyr, .csr, .cvu, .floor, .hap, .hst, .ast, .wld,
        .cic, .dmc, .reductions, .clk, .pair, .emits] s st9 := by
      subst st9
      refine Keeps.set_clk (x := st5) rfl ?_
      exact hst5
    try clear_value st9
    extract_lets -descend +onlyGivenNames st10 at r3
    have hst10 : Keeps [.cells, .hif, .cmds, .slices, .haul, .outs, .lyr, .csr, .cvu, .floor, .hap, .hst, .ast,
        .wld, .cic, .dmc, .reductions, .clk, .pair, .emits] s st10 := by
      subst st10
      refine Keeps.ite ?_ ?_
      · show let r11 := _; Keeps _ _ r11
        intro r11
        extract_lets -descend +onlyGivenNames st12 at r11
        have hst12 : Keeps [.cells, .hif, .cmds, .slices, .haul, .outs, .lyr, .csr, .cvu, .floor, .hap, .hst, .ast,
            .wld, .cic, .dmc, .reductions, .clk, .pair, .emits] s st12 := by
          subst st12
          refine Keeps.set_clk (x := st9) rfl ?_
          exact hst9
        try clear_value st12
        subst r11
        refine Keeps.next (State.yieldFault_keeps ..) rfl ?_
        refine Keeps.next (State.event_keeps ..) rfl ?_
        refine Keeps.next (State.put_keeps ..) rfl ?_
        exact hst12
      · refine Keeps.next (State.startPll_keeps ..) rfl ?_
        exact hst9
    try clear_value st10
    subst r3
    refine Keeps.next (State.pllEffect_keeps ..) rfl ?_
    exact hst10

theorem State.composeAgain_keeps (s : State) : Keeps [.outs, .csr] s (State.composeAgain s) := by
  unfold State.composeAgain
  refine Keeps.ite ?_ ?_
  · refine Keeps.next (State.floorAll_keeps ..) rfl ?_
    exact Keeps.refl
  · exact Keeps.refl

theorem State.dramBack_keeps (s : State) : Keeps [.cells, .hif, .outs, .csr, .wld, .cic, .dmc, .reductions, .pair,
    .emits] s (State.dramBack s) := by
  unfold State.dramBack
  refine Keeps.ite ?_ ?_
  · show let r2 := _; Keeps _ _ r2
    intro r2
    extract_lets -descend +onlyGivenNames st3 at r2
    have hst3 : Keeps [.cells, .hif, .outs, .csr, .wld, .cic, .dmc, .reductions, .pair, .emits] s st3 := by
      subst st3
      refine Keeps.next (State.setF_keeps ..) rfl ?_
      refine Keeps.set_dmc (x := s) rfl ?_
      exact Keeps.refl
    try clear_value st3
    extract_lets -descend +onlyGivenNames st4 at r2
    have hst4 : Keeps [.cells, .hif, .outs, .csr, .wld, .cic, .dmc, .reductions, .pair, .emits] s st4 := by
      subst st4
      refine Keeps.next (State.composeAgain_keeps ..) rfl ?_
      refine Keeps.next (State.syncReff_keeps ..) rfl ?_
      exact hst3
    try clear_value st4
    extract_lets -descend +onlyGivenNames v5 at r2
    subst r2
    refine Keeps.ite ?_ ?_
    · exact hst4
    · refine Keeps.next (State.pursue_keeps ..) rfl ?_
      exact hst4
  · refine Keeps.next (State.composeAgain_keeps ..) rfl ?_
    exact Keeps.refl

theorem State.loopsBack_keeps (s : State) : Keeps [.hap] s (State.loopsBack s) := by
  unfold State.loopsBack
  refine Keeps.each (fun st2 x3 => ?_) ?_
  · show let r4 := _; Keeps _ _ r4
    intro r4
    extract_lets -descend +onlyGivenNames v5 at r4
    subst r4
    refine Keeps.ite ?_ ?_
    · refine Keeps.next (State.setChan_keeps ..) rfl ?_
      exact Keeps.refl
    · exact Keeps.refl
  · exact Keeps.refl

theorem State.freeSlots_keeps (s : State) (n : ℕ) (slots : List ℕ) : Keeps [.tch] s (State.freeSlots s n slots) := by
  unfold State.freeSlots
  refine Keeps.next (State.updPanel_keeps ..) rfl ?_
  exact Keeps.refl

theorem State.updContact_keeps (s : State) (n : ℕ) (slot : ℕ) (f : Contact → Contact) : Keeps [.tch] s
    (State.updContact s n slot f) := by
  unfold State.updContact
  refine Keeps.next (State.updPanel_keeps ..) rfl ?_
  exact Keeps.refl

theorem State.dropReports_keeps (s : State) (rcv : ℕ) (rs : List Report) : Keeps [.cells, .tch] s (State.dropReports
    s rcv rs) := by
  unfold State.dropReports
  show let r4 := _; Keeps _ _ r4
  intro r4
  extract_lets -descend +onlyGivenNames st5 at r4
  have hst5 : Keeps [.cells, .tch] s st5 := by
    subst st5
    refine Keeps.ite ?_ ?_
    · refine Keeps.next (State.count_keeps ..) rfl ?_
      exact Keeps.refl
    · refine Keeps.next (State.count_keeps ..) rfl ?_
      exact Keeps.refl
  try clear_value st5
  subst r4
  refine Keeps.each (fun st6 x7 => ?_) ?_
  · refine Keeps.next (State.updContact_keeps ..) rfl ?_
    exact Keeps.refl
  · exact hst5

theorem State.reportBytes_keeps {s t : State} {rcv : Nat} {r : Report} {last : Bool} {owner : Nat} {b : List Byte}
    {q : Int × Int × Nat × Nat} (e : s.reportBytes rcv r last owner = (b, q, t)) : Keeps [.freeCtr] s t := by
  unfold State.reportBytes at e
  obtain ⟨p, slot, c, ev, resync⟩ := r
  simp only [Prod.mk.injEq] at e
  obtain ⟨_, _, rfl⟩ := e
  refine Keeps.ite2 ?_ Keeps.refl
  split
  · exact Keeps.refl
  · exact State.free_keeps s (2 ^ 64)

end Sys2Proof.Machine
end

