-- ==== Sys2Proof/Laws/Frame9.lean ====
section
/-!
SUPPORT. What each operation of the machine keeps (part 9 of 9): the parts of State that it may change are listed, every other
part stays, the queue stays, and no table leaves its canonical form.
-/

namespace Sys2Proof.Machine

theorem State.putReport_keeps (s : State) (rcv : ℕ) (bytes : List Byte) : Keeps [.cells, .hif, .slices, .pair,
    .emits] s (State.putReport s rcv bytes) := by
  unfold State.putReport
  split
  · refine Keeps.ite ?_ ?_
    · refine Keeps.next (State.guestWait_keeps ..) rfl ?_
      exact Keeps.refl
    · refine Keeps.next (State.writeReportBytes_keeps ..) rfl ?_
      exact Keeps.refl

theorem State.writeReport_keeps (s : State) (rcv : ℕ) (r : Report) (last : Bool) : Keeps [.cells, .hif, .slices,
    .tch, .wld, .cic, .dmc, .pair, .mem, .freeCtr, .emits] s (State.writeReport s rcv r last) := by
  unfold State.writeReport
  split
  · split
    · rename_i _ _ st5 e6
      have hst5 : Keeps [.cells, .hif, .slices, .tch, .wld, .cic, .dmc, .pair, .mem, .freeCtr, .emits] s st5 := by
        refine Keeps.next (State.reportBytes_keeps e6) rfl ?_
        exact Keeps.refl
      show let r7 := _; Keeps _ _ r7
      intro r7
      extract_lets -descend +onlyGivenNames st8 at r7
      have hst8 : Keeps [.cells, .hif, .slices, .tch, .wld, .cic, .dmc, .pair, .mem, .freeCtr, .emits] s st8 := by
        subst st8
        refine Keeps.ite ?_ ?_
        · refine Keeps.next (State.trAdvance_keeps ..) rfl ?_
          refine Keeps.ite ?_ ?_
          · refine Keeps.next (State.dramWrite_keeps ..) rfl ?_
            exact hst5
          · exact hst5
        · refine Keeps.next (State.putReport_keeps ..) rfl ?_
          exact hst5
      try clear_value st8
      subst r7
      refine Keeps.next (State.updContact_keeps ..) rfl ?_
      exact hst8

theorem State.deliver_keeps (s : State) (n : ℕ) (evs : ScanEvents) (run : Bool) (rcv : ℕ) : Keeps [.cells, .hif,
    .slices, .tch, .pwResync, .wld, .cic, .dmc, .pair, .mem, .freeCtr, .emits] s (State.deliver s n evs run rcv) := by
  unfold State.deliver
  show let r6 := _; Keeps _ _ r6
  intro r6
  extract_lets -descend +onlyGivenNames v7 at r6
  extract_lets -descend +onlyGivenNames v8 at r6
  extract_lets -descend +onlyGivenNames v9 at r6
  subst r6
  refine Keeps.ite ?_ ?_
  · exact Keeps.refl
  · refine Keeps.ite ?_ ?_
    · refine Keeps.next (State.dropReports_keeps ..) rfl ?_
      exact Keeps.refl
    · show let r10 := _; Keeps _ _ r10
      intro r10
      extract_lets -descend +onlyGivenNames v11 at r10
      extract_lets -descend +onlyGivenNames v12 at r10
      subst r10
      refine Keeps.ite ?_ ?_
      · refine Keeps.next (State.setResync_keeps ..) rfl ?_
        refine Keeps.next (State.dropReports_keeps ..) rfl ?_
        exact Keeps.refl
      · show let r13 := _; Keeps _ _ r13
        intro r13
        extract_lets -descend +onlyGivenNames st14 at r13
        have hst14 : Keeps [.cells, .hif, .slices, .tch, .pwResync, .wld, .cic, .dmc, .pair, .mem, .freeCtr, .emits]
            s st14 := by
          subst st14
          refine Keeps.ite ?_ ?_
          · refine Keeps.next (State.setResync_keeps ..) rfl ?_
            exact Keeps.refl
          · exact Keeps.refl
        try clear_value st14
        subst r13
        refine Keeps.ite ?_ ?_
        · exact hst14
        · show let r15 := _; Keeps _ _ r15
          intro r15
          extract_lets -descend +onlyGivenNames st16 at r15
          have hst16 : Keeps [.cells, .hif, .slices, .tch, .pwResync, .wld, .cic, .dmc, .pair, .mem, .freeCtr,
              .emits] s st16 := by
            subst st16
            refine Keeps.each (fun st17 x18 => ?_) ?_
            · split
              · refine Keeps.next (State.writeReport_keeps ..) rfl ?_
                exact Keeps.refl
              · exact Keeps.refl
            · exact hst14
          try clear_value st16
          subst r15
          refine Keeps.ite ?_ ?_
          · refine Keeps.next (State.event_keeps ..) rfl ?_
            exact hst16
          · exact hst16

theorem State.report_keeps (s : State) (n : ℕ) (evs : ScanEvents) (run : Bool) : Keeps [.cells, .hif, .slices, .tch,
    .pwResync, .wld, .cic, .dmc, .pair, .mem, .freeCtr, .emits] s (State.report s n evs run) := by
  unfold State.report
  show let r5 := _; Keeps _ _ r5
  intro r5
  extract_lets -descend +onlyGivenNames st6 at r5
  have hst6 : Keeps [.cells, .hif, .slices, .tch, .pwResync, .wld, .cic, .dmc, .pair, .mem, .freeCtr, .emits] s st6
      := by
    subst st6
    refine Keeps.ite ?_ ?_
    · exact Keeps.refl
    · refine Keeps.each (fun st7 x8 => ?_) ?_
      · refine Keeps.next (State.deliver_keeps ..) rfl ?_
        exact Keeps.refl
      · exact Keeps.refl
  try clear_value st6
  extract_lets -descend +onlyGivenNames v9 at r5
  extract_lets -descend +onlyGivenNames st10 at r5
  have hst10 : Keeps [.cells, .hif, .slices, .tch, .pwResync, .wld, .cic, .dmc, .pair, .mem, .freeCtr, .emits] s
      st10 := by
    subst st10
    refine Keeps.each (fun st11 x12 => ?_) ?_
    · refine Keeps.next (State.updContact_keeps ..) rfl ?_
      exact Keeps.refl
    · exact hst6
  try clear_value st10
  subst r5
  exact hst10

theorem State.panelRestart_keeps (s : State) (n : ℕ) : Keeps [.cells, .hif, .slices, .tch, .pwResync, .wld, .cic,
    .dmc, .pair, .mem, .freeCtr, .emits] s (State.panelRestart s n) := by
  unfold State.panelRestart
  refine Keeps.ite ?_ ?_
  · exact Keeps.refl
  · split
    · refine Keeps.next (State.freeSlots_keeps ..) rfl ?_
      refine Keeps.next (State.report_keeps ..) rfl ?_
      refine Keeps.next (State.event_keeps ..) rfl ?_
      refine Keeps.next (State.setPanel_keeps ..) rfl ?_
      exact Keeps.refl

theorem State.pllBack_keeps (s : State) (i : ℕ) : Keeps [.cells, .hif, .slices, .outs, .csr, .tch, .pwResync, .hap,
    .wld, .cic, .dmc, .reductions, .pair, .mem, .freeCtr, .emits] s (State.pllBack s i) := by
  unfold State.pllBack
  split
  · refine Keeps.each (fun st3 x4 => ?_) ?_
    · refine Keeps.next (State.panelRestart_keeps ..) rfl ?_
      exact Keeps.refl
    · refine Keeps.next (State.composeAgain_keeps ..) rfl ?_
      exact Keeps.refl
  · refine Keeps.each (fun st5 x6 => ?_) ?_
    · refine Keeps.next (State.panelRestart_keeps ..) rfl ?_
      exact Keeps.refl
    · refine Keeps.next (State.loopsBack_keeps ..) rfl ?_
      exact Keeps.refl
  · refine Keeps.next (State.dramBack_keeps ..) rfl ?_
    exact Keeps.refl
  · exact Keeps.refl

theorem doPllLocked_keeps (i : ℕ) (s : State) : Keeps [.cells, .latches, .hif, .cmds, .slices, .haul, .outs, .csr,
    .cvu, .floor, .tch, .pwResync, .hap, .hst, .ast, .wld, .cic, .dmc, .reductions, .clk, .pair, .mem, .freeCtr, .emits]
    s (doPllLocked i s) := by
  unfold doPllLocked
  refine Keeps.ite ?_ ?_
  · exact Keeps.refl
  · show let r3 := _; Keeps _ _ r3
    intro r3
    extract_lets -descend +onlyGivenNames st4 at r3
    have hst4 : Keeps [.cells, .latches, .hif, .cmds, .slices, .haul, .outs, .csr, .cvu, .floor, .tch, .pwResync,
        .hap, .hst, .ast, .wld, .cic, .dmc, .reductions, .clk, .pair, .mem, .freeCtr, .emits] s st4 := by
      subst st4
      refine Keeps.each (fun st5 x6 => ?_) ?_
      · refine Keeps.next (State.toPrimary_keeps ..) rfl ?_
        exact Keeps.refl
      · refine Keeps.next (State.setLocked_keeps ..) rfl ?_
        exact Keeps.refl
    try clear_value st4
    subst r3
    refine Keeps.next (State.kick_keeps ..) rfl ?_
    refine Keeps.next (State.coastEnds_keeps ..) rfl ?_
    refine Keeps.next (State.pllBack_keeps ..) rfl ?_
    exact hst4

theorem doHoldoverExpiry_keeps (s : State) : Keeps [.time, .cells, .hif, .cmds, .slices, .haul, .outs, .lyr, .csr,
    .cvu, .floor, .hap, .hst, .ast, .wld, .cic, .dmc, .reductions, .clk, .pair, .emits] s (doHoldoverExpiry s) := by
  unfold doHoldoverExpiry
  refine Keeps.ite ?_ ?_
  · exact Keeps.refl
  · show let r2 := _; Keeps _ _ r2
    intro r2
    extract_lets -descend +onlyGivenNames st3 at r2
    have hst3 : Keeps [.time, .cells, .hif, .cmds, .slices, .haul, .outs, .lyr, .csr, .cvu, .floor, .hap, .hst,
        .ast, .wld, .cic, .dmc, .reductions, .clk, .pair, .emits] s st3 := by
      subst st3
      refine Keeps.next (State.setF_keeps ..) rfl ?_
      refine Keeps.next (State.at_keeps ..) rfl ?_
      exact Keeps.refl
    try clear_value st3
    extract_lets -descend +onlyGivenNames st4 at r2
    have hst4 : Keeps [.time, .cells, .hif, .cmds, .slices, .haul, .outs, .lyr, .csr, .cvu, .floor, .hap, .hst,
        .ast, .wld, .cic, .dmc, .reductions, .clk, .pair, .emits] s st4 := by
      subst st4
      refine Keeps.next (State.event_keeps ..) rfl ?_
      refine Keeps.next (State.clrF_keeps ..) rfl ?_
      exact hst3
    try clear_value st4
    extract_lets -descend +onlyGivenNames v5 at r2
    extract_lets -descend +onlyGivenNames st6 at r2
    have hst6 : Keeps [.time, .cells, .hif, .cmds, .slices, .haul, .outs, .lyr, .csr, .cvu, .floor, .hap, .hst,
        .ast, .wld, .cic, .dmc, .reductions, .clk, .pair, .emits] s st6 := by
      subst st6
      refine Keeps.ite ?_ ?_
      · refine Keeps.next (State.dramLost_keeps ..) rfl ?_
        exact hst4
      · exact hst4
    try clear_value st6
    extract_lets -descend +onlyGivenNames st7 at r2
    have hst7 : Keeps [.time, .cells, .hif, .cmds, .slices, .haul, .outs, .lyr, .csr, .cvu, .floor, .hap, .hst,
        .ast, .wld, .cic, .dmc, .reductions, .clk, .pair, .emits] s st7 := by
      subst st7
      refine Keeps.each (fun st8 x9 => ?_) ?_
      · refine Keeps.next (State.setLocked_keeps ..) rfl ?_
        refine Keeps.each (fun st10 x11 => ?_) ?_
        · refine Keeps.next (State.toCoast_keeps ..) rfl ?_
          exact Keeps.refl
        · exact Keeps.refl
      · exact hst6
    try clear_value st7
    extract_lets -descend +onlyGivenNames st12 at r2
    have hst12 : Keeps [.time, .cells, .hif, .cmds, .slices, .haul, .outs, .lyr, .csr, .cvu, .floor, .hap, .hst,
        .ast, .wld, .cic, .dmc, .reductions, .clk, .pair, .emits] s st12 := by
      subst st12
      refine Keeps.set_clk (x := st7) rfl ?_
      exact hst7
    try clear_value st12
    subst r2
    refine Keeps.each (fun st13 x14 => ?_) ?_
    · refine Keeps.next (State.pllEffect_keeps ..) rfl ?_
      exact Keeps.refl
    · exact hst12

theorem doRefRecovered_keeps (s : State) : Keeps [.cells, .latches, .hif, .cmds, .slices, .haul, .outs, .cvu,
    .floor, .hst, .ast, .wld, .cic, .clk, .pair, .freeCtr, .emits] s (doRefRecovered s) := by
  unfold doRefRecovered
  refine Keeps.ite ?_ ?_
  · exact Keeps.refl
  · show let r2 := _; Keeps _ _ r2
    intro r2
    extract_lets -descend +onlyGivenNames st3 at r2
    have hst3 : Keeps [.cells, .latches, .hif, .cmds, .slices, .haul, .outs, .cvu, .floor, .hst, .ast, .wld, .cic,
        .clk, .pair, .freeCtr, .emits] s st3 := by
      subst st3
      refine Keeps.next (State.event_keeps ..) rfl ?_
      refine Keeps.next (State.clrF_keeps ..) rfl ?_
      refine Keeps.next (State.setF_keeps ..) rfl ?_
      exact Keeps.refl
    try clear_value st3
    extract_lets -descend +onlyGivenNames st4 at r2
    have hst4 : Keeps [.cells, .latches, .hif, .cmds, .slices, .haul, .outs, .cvu, .floor, .hst, .ast, .wld, .cic,
        .clk, .pair, .freeCtr, .emits] s st4 := by
      subst st4
      refine Keeps.set_clk (x := st3) rfl ?_
      exact hst3
    try clear_value st4
    subst r2
    refine Keeps.next (State.kick_keeps ..) rfl ?_
    refine Keeps.each (fun st5 x6 => ?_) ?_
    · refine Keeps.next (State.startPll_keeps ..) rfl ?_
      exact Keeps.refl
    · exact hst4

theorem doGateCloseDone_keeps (g : ℕ) (s : State) : Keeps [.cells, .clk] s (doGateCloseDone g s) := by
  unfold doGateCloseDone
  refine Keeps.ite ?_ ?_
  · exact Keeps.refl
  · show let r3 := _; Keeps _ _ r3
    intro r3
    extract_lets -descend +onlyGivenNames st4 at r3
    have hst4 : Keeps [.cells, .clk] s st4 := by
      subst st4
      refine Keeps.set_clk (x := s) rfl ?_
      exact Keeps.refl
    try clear_value st4
    subst r3
    refine Keeps.next (State.put_keeps ..) rfl ?_
    exact hst4

theorem State.takeoverGates_keeps (s : State) : Keeps [.cells] s (State.takeoverGates s) := by
  unfold State.takeoverGates
  refine Keeps.each (fun st2 x3 => ?_) ?_
  · refine Keeps.next (State.put_keeps ..) rfl ?_
    exact Keeps.refl
  · exact Keeps.refl

theorem State.takeoverRatios_keeps (s : State) : Keeps [.clk] s (State.takeoverRatios s) := by
  unfold State.takeoverRatios
  refine Keeps.each (fun st2 x3 => ?_) ?_
  · refine Keeps.next (State.setRatio_keeps ..) rfl ?_
    exact Keeps.refl
  · exact Keeps.refl

theorem State.takeoverCores_wf (s : State) :
    Tab.wf (fun _ => {}) ([0, 1, 2, 3].foldl (fun t c => Tab.set {} t c (s.takeoverCore c)) []) = true := by
  exact Tab.wf_set _ _ _ _ (Tab.wf_set _ _ _ _ (Tab.wf_set _ _ _ _ (Tab.wf_set _ _ _ _ rfl)))

theorem State.takeoverBase_keeps (s : State) : Keeps Field.list s s.takeoverBase := by
  refine Keeps.all (State.bare_keeps s).queue (fun f hf => ?_) (by intro f; cases f <;> rfl)
  have hb := (State.bare_keeps s).canon f hf
  by_cases e : f = .cells
  · subst e
    exact Tab.wf_filter _ _ _ hf
  · by_cases e' : f = .cic
    · subst e'
      exact Tab.wf_filter _ _ _ hf
    · by_cases e'' : f = .mem
      · subst e''
        have b := (Mems.wf_parts _).mp hf
        exact (Mems.wf_parts _).mpr ⟨b.1, Tab.wf_filter _ _ _ b.2.1, b.2.2.1, rfl, rfl⟩
      · cases f <;> first | exact hb | exact State.takeoverCores_wf s | exact absurd rfl e | exact absurd rfl e' |
          exact absurd rfl e''

theorem doTakeoverReset_keeps (s : State) : Keeps Field.list s (doTakeoverReset s) := by
  unfold doTakeoverReset
  refine Keeps.ite Keeps.refl ?_
  have h : Keeps Field.list s ((s.each (List.range 8) fun s o => s.stopPll (6 + o)).noteReset 8) := by
    refine Keeps.next (State.noteReset_keeps ..) rfl ?_
    exact Keeps.each (fun s x => (State.stopPll_keeps ..).weaken rfl) Keeps.refl
  dsimp only
  generalize State.noteReset _ 8 = u at h ⊢
  refine Keeps.next (State.setPair_keeps ..) rfl (Keeps.next (State.railSwitch_keeps ..) rfl ?_)
  refine Keeps.next (State.clrF_keeps ..) rfl (Keeps.next (State.wrN_keeps ..) rfl ?_)
  refine Keeps.next (State.put_keeps ..) rfl (Keeps.next (State.put_keeps ..) rfl ?_)
  refine Keeps.next (State.clrF_keeps ..) rfl (Keeps.next (State.takeoverRatios_keeps ..) rfl ?_)
  refine Keeps.next (State.takeoverGates_keeps ..) rfl (Keeps.next (State.clearOwnerLocks_keeps ..) rfl ?_)
  exact Keeps.next (State.takeoverBase_keeps ..) rfl h

theorem doNoticeTimeout_keeps (s : State) : Keeps Field.list s (doNoticeTimeout s) := by
  unfold doNoticeTimeout
  split
  · exact Keeps.refl
  · refine Keeps.next (State.endNotice_keeps ..) rfl ?_
    refine Keeps.next (State.at_keeps ..) rfl ?_
    exact Keeps.refl

theorem doWfiTimeout_keeps (s : State) : Keeps [.time, .cells, .hif, .wld, .cic, .pwr, .emits] s (doWfiTimeout s) := by
  unfold doWfiTimeout
  split
  · exact Keeps.refl
  · refine Keeps.ite ?_ ?_
    · exact Keeps.refl
    · refine Keeps.next (State.refusePower_keeps ..) rfl ?_
      refine Keeps.next (State.at_keeps ..) rfl ?_
      refine Keeps.set_pwr (x := s) rfl ?_
      exact Keeps.refl

theorem State.retainOut_keeps (s : State) (o : ℕ) : Keeps [.time, .cells, .hif, .cmds, .slices, .haul, .outs, .lyr,
    .csr, .cvu, .floor, .wld, .cic, .reductions, .clk, .pair, .emits] s (State.retainOut s o) := by
  unfold State.retainOut
  show let r3 := _; Keeps _ _ r3
  intro r3
  extract_lets -descend +onlyGivenNames v4 at r3
  subst r3
  split
  · refine Keeps.next (State.stopPll_keeps ..) rfl ?_
    refine Keeps.next (State.genLost_keeps ..) rfl ?_
    refine Keeps.next (State.frameTick_keeps ..) rfl ?_
    refine Keeps.next (State.at_keeps ..) rfl ?_
    exact Keeps.refl
  · refine Keeps.next (State.frameTick_keeps ..) rfl ?_
    refine Keeps.next (State.at_keeps ..) rfl ?_
    exact Keeps.refl
  · refine Keeps.next (State.stopPll_keeps ..) rfl ?_
    exact Keeps.refl
  · exact Keeps.refl

theorem State.panelStart_keeps (s : State) (n : ℕ) (p : ScanPlan) : Keeps [.tch] s (State.panelStart s n p) := by
  unfold State.panelStart
  refine Keeps.next (State.updPanel_keeps ..) rfl ?_
  exact Keeps.refl

theorem State.panelStop_keeps (s : State) (n : ℕ) : Keeps [.cells, .hif, .slices, .tch, .pwResync, .wld, .cic, .dmc,
    .pair, .mem, .freeCtr, .emits] s (State.panelStop s n) := by
  unfold State.panelStop
  show let r3 := _; Keeps _ _ r3
  intro r3
  extract_lets -descend +onlyGivenNames v4 at r3
  extract_lets -descend +onlyGivenNames v5 at r3
  extract_lets -descend +onlyGivenNames st6 at r3
  have hst6 : Keeps [.cells, .hif, .slices, .tch, .pwResync, .wld, .cic, .dmc, .pair, .mem, .freeCtr, .emits] s st6
      := by
    subst st6
    refine Keeps.next (State.report_keeps ..) rfl ?_
    exact Keeps.refl
  try clear_value st6
  extract_lets -descend +onlyGivenNames st7 at r3
  have hst7 : Keeps [.cells, .hif, .slices, .tch, .pwResync, .wld, .cic, .dmc, .pair, .mem, .freeCtr, .emits] s st7
      := by
    subst st7
    refine Keeps.ite ?_ ?_
    · refine Keeps.next (State.setF_keeps ..) rfl ?_
      refine Keeps.next (State.clrF_keeps ..) rfl ?_
      exact hst6
    · exact hst6
  try clear_value st7
  extract_lets -descend +onlyGivenNames st8 at r3
  have hst8 : Keeps [.cells, .hif, .slices, .tch, .pwResync, .wld, .cic, .dmc, .pair, .mem, .freeCtr, .emits] s st8
      := by
    subst st8
    refine Keeps.next (State.updPanel_keeps ..) rfl ?_
    exact hst7
  try clear_value st8
  subst r3
  split
  · refine Keeps.next (State.panelStart_keeps ..) rfl ?_
    exact hst8
  · exact hst8

theorem doRetainEntry_keeps (s : State) : Keeps [.time, .cells, .hif, .cmds, .slices, .haul, .outs, .lyr, .csr,
    .cvu, .floor, .tch, .pwResync, .hap, .hapShared, .wld, .cic, .dmc, .reductions, .clk, .pair, .pwr, .mem, .freeCtr,
    .emits] s (doRetainEntry s) := by
  unfold doRetainEntry
  refine Keeps.ite ?_ ?_
  · exact Keeps.refl
  · show let r2 := _; Keeps _ _ r2
    intro r2
    extract_lets -descend +onlyGivenNames st3 at r2
    have hst3 : Keeps [.time, .cells, .hif, .cmds, .slices, .haul, .outs, .lyr, .csr, .cvu, .floor, .tch, .pwResync,
        .hap, .hapShared, .wld, .cic, .dmc, .reductions, .clk, .pair, .pwr, .mem, .freeCtr, .emits] s st3 := by
      subst st3
      refine Keeps.each (fun st4 x5 => ?_) ?_
      · refine Keeps.next (State.retainOut_keeps ..) rfl ?_
        exact Keeps.refl
      · exact Keeps.refl
    try clear_value st3
    extract_lets -descend +onlyGivenNames st6 at r2
    have hst6 : Keeps [.time, .cells, .hif, .cmds, .slices, .haul, .outs, .lyr, .csr, .cvu, .floor, .tch, .pwResync,
        .hap, .hapShared, .wld, .cic, .dmc, .reductions, .clk, .pair, .pwr, .mem, .freeCtr, .emits] s st6 := by
      subst st6
      refine Keeps.each (fun st7 x8 => ?_) ?_
      · refine Keeps.next (State.panelStop_keeps ..) rfl ?_
        exact Keeps.refl
      · exact hst3
    try clear_value st6
    extract_lets -descend +onlyGivenNames st9 at r2
    have hst9 : Keeps [.time, .cells, .hif, .cmds, .slices, .haul, .outs, .lyr, .csr, .cvu, .floor, .tch, .pwResync,
        .hap, .hapShared, .wld, .cic, .dmc, .reductions, .clk, .pair, .pwr, .mem, .freeCtr, .emits] s st9 := by
      subst st9
      refine Keeps.next (State.railOff_keeps ..) rfl ?_
      exact hst6
    try clear_value st9
    extract_lets -descend +onlyGivenNames st10 at r2
    have hst10 : Keeps [.time, .cells, .hif, .cmds, .slices, .haul, .outs, .lyr, .csr, .cvu, .floor, .tch,
        .pwResync, .hap, .hapShared, .wld, .cic, .dmc, .reductions, .clk, .pair, .pwr, .mem, .freeCtr, .emits] s st10 :=
        by
      subst st10
      refine Keeps.next (State.clrF_keeps ..) rfl ?_
      refine Keeps.set_dmc (x := st9) rfl ?_
      exact hst9
    try clear_value st10
    extract_lets -descend +onlyGivenNames st11 at r2
    have hst11 : Keeps [.time, .cells, .hif, .cmds, .slices, .haul, .outs, .lyr, .csr, .cvu, .floor, .tch,
        .pwResync, .hap, .hapShared, .wld, .cic, .dmc, .reductions, .clk, .pair, .pwr, .mem, .freeCtr, .emits] s st11 :=
        by
      subst st11
      refine Keeps.set_pwr (x := st10) rfl ?_
      exact hst10
    try clear_value st11
    subst r2
    refine Keeps.next (State.railSwitch_keeps ..) rfl ?_
    refine Keeps.next (State.enterPower_keeps ..) rfl ?_
    exact hst11

theorem State.advanceTime_keeps (s : State) (t : ℕ) : Keeps [.time, .cells] s (State.advanceTime s t) := by
  unfold State.advanceTime
  refine Keeps.ite ?_ ?_
  · refine Keeps.next (State.at_keeps ..) rfl ?_
    exact Keeps.refl
  · refine Keeps.next (State.timeUncertain_keeps ..) rfl ?_
    refine Keeps.next (State.at_keeps ..) rfl ?_
    exact Keeps.refl

theorem State.leaveRetain_keeps (s : State) (t : ℕ) (cause : ℕ) : Keeps [.time, .cells, .hif, .outs, .tch,
    .hapShared, .wld, .cic, .dmc, .reductions, .clk, .pair, .pwr, .emits] s (State.leaveRetain s t cause) := by
  unfold State.leaveRetain
  show let r4 := _; Keeps _ _ r4
  intro r4
  extract_lets -descend +onlyGivenNames st5 at r4
  have hst5 : Keeps [.time, .cells, .hif, .outs, .tch, .hapShared, .wld, .cic, .dmc, .reductions, .clk, .pair, .pwr,
      .emits] s st5 := by
    subst st5
    refine Keeps.next (State.enterPower_keeps ..) rfl ?_
    refine Keeps.next (State.put_keeps ..) rfl ?_
    refine Keeps.next (State.advanceTime_keeps ..) rfl ?_
    exact Keeps.refl
  try clear_value st5
  extract_lets -descend +onlyGivenNames st6 at r4
  have hst6 : Keeps [.time, .cells, .hif, .outs, .tch, .hapShared, .wld, .cic, .dmc, .reductions, .clk, .pair, .pwr,
      .emits] s st6 := by
    subst st6
    refine Keeps.next (State.setF_keeps ..) rfl ?_
    refine Keeps.set_dmc (x := st5) rfl ?_
    exact hst5
  try clear_value st6
  extract_lets -descend +onlyGivenNames st7 at r4
  have hst7 : Keeps [.time, .cells, .hif, .outs, .tch, .hapShared, .wld, .cic, .dmc, .reductions, .clk, .pair, .pwr,
      .emits] s st7 := by
    subst st7
    refine Keeps.next (State.railSwitch_keeps ..) rfl ?_
    refine Keeps.next (State.restoreDim_keeps ..) rfl ?_
    refine Keeps.next (State.syncReff_keeps ..) rfl ?_
    exact hst6
  try clear_value st7
  extract_lets -descend +onlyGivenNames st8 at r4
  have hst8 : Keeps [.time, .cells, .hif, .outs, .tch, .hapShared, .wld, .cic, .dmc, .reductions, .clk, .pair, .pwr,
      .emits] s st8 := by
    subst st8
    refine Keeps.each (fun st9 x10 => ?_) ?_
    · refine Keeps.next (State.updCore_keeps ..) rfl ?_
      exact Keeps.refl
    · exact hst7
  try clear_value st8
  extract_lets -descend +onlyGivenNames st11 at r4
  have hst11 : Keeps [.time, .cells, .hif, .outs, .tch, .hapShared, .wld, .cic, .dmc, .reductions, .clk, .pair,
      .pwr, .emits] s st11 := by
    subst st11
    refine Keeps.each (fun st12 x13 => ?_) ?_
    · refine Keeps.next (State.startPll_keeps ..) rfl ?_
      exact Keeps.refl
    · exact hst8
  try clear_value st11
  subst r4
  refine Keeps.each (fun st14 x15 => ?_) ?_
  · refine Keeps.next (State.updPanel_keeps ..) rfl ?_
    exact Keeps.refl
  · exact hst11

theorem doRetainExit_keeps (edges : ℕ) (s : State) : Keeps [.time, .cells, .hif, .outs, .tch, .hapShared, .wld,
    .cic, .dmc, .reductions, .clk, .pair, .pwr, .emits] s (doRetainExit edges s) := by
  unfold doRetainExit
  refine Keeps.ite ?_ ?_
  · refine Keeps.next (State.leaveRetain_keeps ..) rfl ?_
    refine Keeps.set_hif (x := s) rfl ?_
    exact Keeps.refl
  · exact Keeps.refl

theorem State.leaveStandby_keeps (s : State) (t cause : Nat) (wake : Bool) : Keeps Field.list s (s.leaveStandby t
    cause wake) := by
  unfold State.leaveStandby
  refine Keeps.next (State.bootWhenFree_keeps ..) rfl (Keeps.next (State.advanceTime_keeps ..) rfl ?_)
  dsimp only
  have h : Keeps Field.list s ((((s.put R.pwrState F.pwrState_previous 3).put R.pwrState F.pwrState_current 0).put
      R.pwrWakeCause F.pwrWakeCause_cause cause).noteReset 3) := by
    refine Keeps.next (State.noteReset_keeps ..) rfl (Keeps.next (State.put_keeps ..) rfl ?_)
    exact Keeps.next (State.put_keeps ..) rfl (Keeps.next (State.put_keeps ..) rfl Keeps.refl)
  generalize State.noteReset _ 3 = u at h ⊢
  exact Keeps.set_pwr (x := { u with wld := State.reset.wld }) rfl (Keeps.set_wld rfl (fun _ => rfl) h)

theorem doWakeTime_keeps (edges : ℕ) (s : State) : Keeps Field.list s (doWakeTime edges s) := by
  unfold doWakeTime
  show let r3 := _; Keeps _ _ r3
  intro r3
  extract_lets -descend +onlyGivenNames v4 at r3
  subst r3
  refine Keeps.ite ?_ ?_
  · exact Keeps.refl
  · refine Keeps.ite ?_ ?_
    · show let r5 := _; Keeps _ _ r5
      intro r5
      extract_lets -descend +onlyGivenNames st6 at r5
      have hst6 : Keeps Field.list s st6 := by
        subst st6
        refine Keeps.next (State.leaveRetain_keeps ..) rfl ?_
        exact Keeps.refl
      try clear_value st6
      extract_lets -descend +onlyGivenNames st7 at r5
      have hst7 : Keeps Field.list s st7 := by
        subst st7
        refine Keeps.set_hif (x := st6) rfl ?_
        exact hst6
      try clear_value st7
      subst r5
      refine Keeps.ite ?_ ?_
      · refine Keeps.next (State.emit_keeps ..) rfl ?_
        exact hst7
      · exact hst7
    · refine Keeps.ite ?_ ?_
      · refine Keeps.next (State.leaveStandby_keeps ..) rfl ?_
        exact Keeps.refl
      · exact Keeps.refl

theorem State.powerOn_keeps (s : State) : Keeps Field.list s (State.powerOn s) := by
  unfold State.powerOn
  show let r2 := _; Keeps _ _ r2
  intro r2
  extract_lets -descend +onlyGivenNames st3 at r2
  have hst3 : Keeps Field.list s st3 := by
    subst st3
    refine Keeps.next (State.bare_keeps ..) rfl ?_
    refine Keeps.set_pwr (x := s) rfl ?_
    exact Keeps.refl
  try clear_value st3
  subst r2
  refine Keeps.next (State.bootWhenFree_keeps ..) rfl ?_
  exact hst3

theorem State.modEnExit_keeps (s : State) : Keeps Field.list s (State.modEnExit s) := by
  unfold State.modEnExit
  show let r2 := _; Keeps _ _ r2
  intro r2
  extract_lets -descend +onlyGivenNames st3 at r2
  have hst3 : Keeps Field.list s st3.2 := by
    subst st3
    refine Keeps.next (State.free_keeps ..) rfl ?_
    exact Keeps.refl
  try clear_value st3
  subst r2
  refine Keeps.next (State.leaveStandby_keeps ..) rfl ?_
  exact hst3

theorem doModEnRise_keeps (s : State) : Keeps Field.list s (doModEnRise s) := by
  unfold doModEnRise
  refine Keeps.ite ?_ ?_
  · exact Keeps.refl
  · show let r2 := _; Keeps _ _ r2
    intro r2
    extract_lets -descend +onlyGivenNames st3 at r2
    have hst3 : Keeps Field.list s st3 := by
      subst st3
      refine Keeps.set_pwr (x := s) rfl ?_
      exact Keeps.refl
    try clear_value st3
    subst r2
    refine Keeps.ite ?_ ?_
    · refine Keeps.next (State.powerOn_keeps ..) rfl ?_
      exact hst3
    · refine Keeps.ite ?_ ?_
      · refine Keeps.next (State.modEnExit_keeps ..) rfl ?_
        exact hst3
      · exact hst3

theorem doModEnFall_keeps (s : State) : Keeps [.cells, .hif, .wld, .cic, .pair, .pwr, .emits] s (doModEnFall s) := by
  unfold doModEnFall
  refine Keeps.ite ?_ ?_
  · exact Keeps.refl
  · show let r2 := _; Keeps _ _ r2
    intro r2
    extract_lets -descend +onlyGivenNames st3 at r2
    have hst3 : Keeps [.cells, .hif, .wld, .cic, .pair, .pwr, .emits] s st3 := by
      subst st3
      refine Keeps.set_pwr (x := s) rfl ?_
      exact Keeps.refl
    try clear_value st3
    subst r2
    refine Keeps.ite ?_ ?_
    · refine Keeps.next (State.startHandover_keeps ..) rfl ?_
      exact hst3
    · exact hst3

theorem doModEnTimeout_keeps (s : State) : Keeps Field.list s (doModEnTimeout s) := by
  unfold doModEnTimeout
  split
  · exact Keeps.refl
  · refine Keeps.ite ?_ ?_
    · refine Keeps.next (State.enterStandby_keeps ..) rfl ?_
      refine Keeps.next (State.at_keeps ..) rfl ?_
      exact Keeps.refl
    · exact Keeps.refl

theorem doVstbyRise_keeps (s : State) : Keeps Field.list s (doVstbyRise s) := by
  unfold doVstbyRise
  refine Keeps.ite ?_ ?_
  · exact Keeps.refl
  · show let r2 := _; Keeps _ _ r2
    intro r2
    extract_lets -descend +onlyGivenNames st3 at r2
    have hst3 : Keeps Field.list s st3 := by
      subst st3
      refine Keeps.set_pwr (x := s) rfl ?_
      exact Keeps.refl
    try clear_value st3
    subst r2
    refine Keeps.ite ?_ ?_
    · refine Keeps.next (State.powerOn_keeps ..) rfl ?_
      exact hst3
    · refine Keeps.next (State.enterStandby_keeps ..) rfl ?_
      refine Keeps.next (State.bare_keeps ..) rfl ?_
      exact hst3

theorem doVstbyFall_keeps (s : State) : Keeps Field.list s (doVstbyFall s) := by
  unfold doVstbyFall
  refine Keeps.ite ?_ ?_
  · refine Keeps.next (State.enterOff_keeps ..) rfl ?_
    refine Keeps.set_pwr (x := s) rfl ?_
    exact Keeps.refl
  · exact Keeps.refl

theorem doPerstAssert_keeps (s : State) : Keeps Field.list s (doPerstAssert s) := by
  unfold doPerstAssert
  refine Keeps.ite ?_ ?_
  · exact Keeps.refl
  · show let r2 := _; Keeps _ _ r2
    intro r2
    extract_lets -descend +onlyGivenNames st3 at r2
    have hst3 : Keeps Field.list s st3 := by
      subst st3
      refine Keeps.set_pwr (x := s) rfl ?_
      exact Keeps.refl
    try clear_value st3
    subst r2
    refine Keeps.ite ?_ ?_
    · show let r4 := _; Keeps _ _ r4
      intro r4
      extract_lets -descend +onlyGivenNames st5 at r4
      have hst5 : Keeps Field.list s st5 := by
        subst st5
        refine Keeps.next (State.dieReset_keeps ..) rfl ?_
        refine Keeps.next (State.noteReset_keeps ..) rfl ?_
        exact hst3
      try clear_value st5
      subst r4
      refine Keeps.set_pwr (x := st5) rfl ?_
      exact hst5
    · exact hst3

theorem doPerstDeassert_keeps (s : State) : Keeps [.cells, .hif, .hap, .hapShared, .wld, .cic, .clk, .pair, .pwr,
    .mem, .emits] s (doPerstDeassert s) := by
  unfold doPerstDeassert
  refine Keeps.ite ?_ ?_
  · exact Keeps.refl
  · show let r2 := _; Keeps _ _ r2
    intro r2
    extract_lets -descend +onlyGivenNames st3 at r2
    have hst3 : Keeps [.cells, .hif, .hap, .hapShared, .wld, .cic, .clk, .pair, .pwr, .mem, .emits] s st3 := by
      subst st3
      refine Keeps.set_pwr (x := s) rfl ?_
      exact Keeps.refl
    try clear_value st3
    subst r2
    refine Keeps.ite ?_ ?_
    · refine Keeps.next (State.boot_keeps ..) rfl ?_
      exact hst3
    · exact hst3

theorem doHostReadyLate_keeps (s : State) : Keeps [.time, .cells, .hif, .pwr] s (doHostReadyLate s) := by
  unfold doHostReadyLate
  refine Keeps.ite ?_ ?_
  · exact Keeps.refl
  · refine Keeps.next (State.becomeReady_keeps ..) rfl ?_
    refine Keeps.next (State.setF_keeps ..) rfl ?_
    refine Keeps.next (State.at_keeps ..) rfl ?_
    exact Keeps.refl

theorem doDogExpiry_keeps (s : State) : Keeps Field.list s (doDogExpiry s) := by
  unfold doDogExpiry
  split
  · exact Keeps.refl
  · refine Keeps.ite ?_ ?_
    · refine Keeps.next (State.stationReset_keeps ..) rfl ?_
      refine Keeps.next (State.at_keeps ..) rfl ?_
      exact Keeps.refl
    · exact Keeps.refl

theorem State.brownOut_keeps (s : State) : Keeps Field.list s (State.brownOut s) := by
  unfold State.brownOut
  show let r2 := _; Keeps _ _ r2
  intro r2
  extract_lets -descend +onlyGivenNames st3 at r2
  have hst3 : Keeps Field.list s st3 := by
    subst st3
    refine Keeps.set_pwr (x := s) rfl ?_
    exact Keeps.refl
  try clear_value st3
  subst r2
  refine Keeps.ite ?_ ?_
  · show let r4 := _; Keeps _ _ r4
    intro r4
    extract_lets -descend +onlyGivenNames st5 at r4
    have hst5 : Keeps Field.list s st5 := by
      subst st5
      refine Keeps.next (State.fullReset_keeps ..) rfl ?_
      refine Keeps.next (State.noteReset_keeps ..) rfl ?_
      exact hst3
    try clear_value st5
    subst r4
    refine Keeps.set_pwr (x := st5) rfl ?_
    exact hst5
  · exact hst3

theorem doBrownOut_keeps (mv : ℕ) (s : State) : Keeps Field.list s (doBrownOut mv s) := by
  unfold doBrownOut
  refine Keeps.ite ?_ ?_
  · refine Keeps.next (State.brownOut_keeps ..) rfl ?_
    refine Keeps.next (State.wrN_keeps ..) rfl ?_
    exact Keeps.refl
  · exact Keeps.refl

theorem doBrownOutRecovery_keeps (mv : ℕ) (s : State) : Keeps Field.list s (doBrownOutRecovery mv s) := by
  unfold doBrownOutRecovery
  refine Keeps.ite ?_ ?_
  · exact Keeps.refl
  · show let r3 := _; Keeps _ _ r3
    intro r3
    extract_lets -descend +onlyGivenNames st4 at r3
    have hst4 : Keeps Field.list s st4 := by
      subst st4
      refine Keeps.next (State.wrN_keeps ..) rfl ?_
      refine Keeps.set_pwr (x := s) rfl ?_
      exact Keeps.refl
    try clear_value st4
    subst r3
    refine Keeps.ite ?_ ?_
    · refine Keeps.ite ?_ ?_
      · refine Keeps.next (State.bootWhenFree_keeps ..) rfl ?_
        exact hst4
      · refine Keeps.next (State.enterStandby_keeps ..) rfl ?_
        exact hst4
    · refine Keeps.ite ?_ ?_
      · refine Keeps.next (State.modEnExit_keeps ..) rfl ?_
        exact hst4
      · exact hst4

theorem doWarning_keeps (mv : ℕ) (pinLow : Bool) (s : State) : Keeps Field.list s (doWarning mv pinLow s) := by
  unfold doWarning
  show let r4 := _; Keeps _ _ r4
  intro r4
  extract_lets -descend +onlyGivenNames st5 at r4
  have hst5 : Keeps Field.list s st5 := by
    subst st5
    refine Keeps.next (State.put_keeps ..) rfl ?_
    refine Keeps.next (State.wrN_keeps ..) rfl ?_
    exact Keeps.refl
  try clear_value st5
  subst r4
  refine Keeps.ite ?_ ?_
  · exact hst5
  · show let r6 := _; Keeps _ _ r6
    intro r6
    extract_lets -descend +onlyGivenNames st7 at r6
    have hst7 : Keeps Field.list s st7 := by
      subst st7
      refine Keeps.next (State.count_keeps ..) rfl ?_
      refine Keeps.next (State.setF_keeps ..) rfl ?_
      exact hst5
    try clear_value st7
    extract_lets -descend +onlyGivenNames st8 at r6
    have hst8 : Keeps Field.list s st8 := by
      subst st8
      refine Keeps.next (State.event_keeps ..) rfl ?_
      refine Keeps.next (State.railOff_keeps ..) rfl ?_
      exact hst7
    try clear_value st8
    extract_lets -descend +onlyGivenNames st9 at r6
    have hst9 : Keeps Field.list s st9 := by
      subst st9
      refine Keeps.set_pwr (x := st8) rfl ?_
      exact hst8
    try clear_value st9
    extract_lets -descend +onlyGivenNames st10 at r6
    have hst10 : Keeps Field.list s st10 := by
      subst st10
      refine Keeps.ite ?_ ?_
      · refine Keeps.next (State.refusePower_keeps ..) rfl ?_
        refine Keeps.set_pwr (x := st9) rfl ?_
        exact hst9
      · exact hst9
    try clear_value st10
    subst r6
    refine Keeps.next (State.yieldFault_keeps ..) rfl ?_
    refine Keeps.next (State.endNotice_keeps ..) rfl ?_
    exact hst10

theorem doWarningClear_keeps (mv : ℕ) (s : State) : Keeps [.cells, .hif, .hapShared, .wld, .cic, .pwr, .emits] s
    (doWarningClear mv s) := by
  unfold doWarningClear
  refine Keeps.ite ?_ ?_
  · refine Keeps.next (State.wrN_keeps ..) rfl ?_
    exact Keeps.refl
  · show let r3 := _; Keeps _ _ r3
    intro r3
    extract_lets -descend +onlyGivenNames st4 at r3
    have hst4 : Keeps [.cells, .hif, .hapShared, .wld, .cic, .pwr, .emits] s st4 := by
      subst st4
      refine Keeps.next (State.clrF_keeps ..) rfl ?_
      refine Keeps.next (State.clrF_keeps ..) rfl ?_
      refine Keeps.next (State.wrN_keeps ..) rfl ?_
      exact Keeps.refl
    try clear_value st4
    extract_lets -descend +onlyGivenNames st5 at r3
    have hst5 : Keeps [.cells, .hif, .hapShared, .wld, .cic, .pwr, .emits] s st5 := by
      subst st5
      refine Keeps.set_pwr (x := st4) rfl ?_
      exact hst4
    try clear_value st5
    subst r3
    refine Keeps.next (State.railSwitch_keeps ..) rfl ?_
    refine Keeps.next (State.event_keeps ..) rfl ?_
    exact hst5

theorem doBankFault_keeps (bankB : Bool) (recovered : Bool) (s : State) : Keeps [.cells, .hif, .cmds, .slices,
    .haul, .outs, .cvu, .floor, .hst, .ast, .wld, .cic, .reductions, .pair, .emits] s (doBankFault bankB recovered s) :=
    by
  unfold doBankFault
  show let r4 := _; Keeps _ _ r4
  intro r4
  extract_lets -descend +onlyGivenNames v5 at r4
  subst r4
  refine Keeps.ite ?_ ?_
  · exact Keeps.refl
  · show let r6 := _; Keeps _ _ r6
    intro r6
    extract_lets -descend +onlyGivenNames st7 at r6
    have hst7 : Keeps [.cells, .hif, .cmds, .slices, .haul, .outs, .cvu, .floor, .hst, .ast, .wld, .cic,
        .reductions, .pair, .emits] s st7 := by
      subst st7
      refine Keeps.next (State.event_keeps ..) rfl ?_
      refine Keeps.next (State.put_keeps ..) rfl ?_
      exact Keeps.refl
    try clear_value st7
    subst r6
    refine Keeps.ite ?_ ?_
    · exact hst7
    · refine Keeps.next (doGuardTrip_keeps ..) rfl ?_
      exact hst7

theorem doJunction_keeps (t : ℤ) (s : State) : Keeps Field.list s (doJunction t s) := by
  unfold doJunction
  show let r3 := _; Keeps _ _ r3
  intro r3
  extract_lets -descend +onlyGivenNames st4 at r3
  have hst4 : Keeps Field.list s st4 := by
    subst st4
    refine Keeps.next (State.put_keeps ..) rfl ?_
    exact Keeps.refl
  try clear_value st4
  extract_lets -descend +onlyGivenNames v5 at r3
  extract_lets -descend +onlyGivenNames v6 at r3
  extract_lets -descend +onlyGivenNames st7 at r3
  have hst7 : Keeps Field.list s st7 := by
    subst st7
    refine Keeps.ite ?_ ?_
    · refine Keeps.next (State.event_keeps ..) rfl ?_
      refine Keeps.next (State.setF_keeps ..) rfl ?_
      exact hst4
    · refine Keeps.ite ?_ ?_
      · refine Keeps.next (State.event_keeps ..) rfl ?_
        refine Keeps.next (State.clrF_keeps ..) rfl ?_
        exact hst4
      · exact hst4
  try clear_value st7
  subst r3
  refine Keeps.ite ?_ ?_
  · refine Keeps.next (State.brownOut_keeps ..) rfl ?_
    refine Keeps.next (State.setF_keeps ..) rfl ?_
    refine Keeps.set_pwr (x := st7) rfl ?_
    exact hst7
  · refine Keeps.ite ?_ ?_
    · refine Keeps.set_pwr (x := st7) rfl ?_
      exact hst7
    · exact hst7

theorem doInterlockOpen_keeps (s : State) : Keeps [.cells, .hif, .hap, .hapShared, .wld, .cic, .emits] s
    (doInterlockOpen s) := by
  unfold doInterlockOpen
  refine Keeps.ite ?_ ?_
  · exact Keeps.refl
  · show let r2 := _; Keeps _ _ r2
    intro r2
    extract_lets -descend +onlyGivenNames st3 at r2
    have hst3 : Keeps [.cells, .hif, .hap, .hapShared, .wld, .cic, .emits] s st3 := by
      subst st3
      refine Keeps.next (State.railSwitch_keeps ..) rfl ?_
      refine Keeps.next (State.event_keeps ..) rfl ?_
      refine Keeps.next (State.clrF_keeps ..) rfl ?_
      exact Keeps.refl
    try clear_value st3
    subst r2
    refine Keeps.each (fun st4 x5 => ?_) ?_
    · refine Keeps.next (State.updChan_keeps ..) rfl ?_
      exact Keeps.refl
    · exact hst3

theorem doInterlockClosed_keeps (s : State) : Keeps [.cells, .hif, .hapShared, .wld, .cic, .emits] s
    (doInterlockClosed s) := by
  unfold doInterlockClosed
  refine Keeps.ite ?_ ?_
  · exact Keeps.refl
  · refine Keeps.next (State.railSwitch_keeps ..) rfl ?_
    refine Keeps.next (State.event_keeps ..) rfl ?_
    refine Keeps.next (State.setF_keeps ..) rfl ?_
    exact Keeps.refl

theorem doFlashDone_keeps (verified : Bool) (s : State) : Keeps [.cells, .pwr, .mem] s (doFlashDone verified s) := by
  unfold doFlashDone
  split
  · exact Keeps.refl
  · refine Keeps.ite Keeps.refl ?_
    refine Keeps.next (State.flashResult_keeps ..) rfl ?_
    exact Keeps.set_mem (x := { s with pwr := { s.pwr with flash := none } }) rfl Mems.wf_flash
      (Keeps.set_pwr rfl Keeps.refl)

theorem State.hitTests_keeps (s : State) (n : ℕ) (evs : ScanEvents) : Keeps [.cells, .tch] s (State.hitTests s n
    evs) := by
  unfold State.hitTests
  refine Keeps.each (fun st4 x5 => ?_) ?_
  · split
    · exact Keeps.refl
    · split
      · show let r6 := _; Keeps _ _ r6
        intro r6
        extract_lets -descend +onlyGivenNames st7 at r6
        have hst7 : Keeps [.cells, .tch] st4 st7 := by
          subst st7
          refine Keeps.next (State.updContact_keeps ..) rfl ?_
          exact Keeps.refl
        try clear_value st7
        subst r6
        refine Keeps.ite ?_ ?_
        · refine Keeps.next (State.count_keeps ..) rfl ?_
          exact hst7
        · exact hst7
  · exact Keeps.refl

theorem State.fireReflex_keeps (s : State) (n ow b delay : Nat) : Keeps [.hap] s (s.fireReflex n ow b delay) := by
  unfold State.fireReflex
  dsimp only
  generalize (if ow = 256 then some _ else _ : Option Nat) = q
  split
  · exact Keeps.refl
  · exact (State.makeStart_keeps ..).weaken rfl

theorem State.reflexes_keeps (s : State) (n : ℕ) (evs : ScanEvents) : Keeps [.hap, .freeCtr] s (State.reflexes s n
    evs) := by
  unfold State.reflexes
  split
  · exact Keeps.refl
  · show let r4 := _; Keeps _ _ r4
    intro r4
    extract_lets -descend +onlyGivenNames v5 at r4
    subst r4
    refine Keeps.ite ?_ ?_
    · exact Keeps.refl
    · split
      · rename_i _ st6 e7
        have hst6 : Keeps [.hap, .freeCtr] s st6 := by
          refine Keeps.snd e7 ?_
          refine Keeps.next (State.free_keeps ..) rfl ?_
          exact Keeps.refl
        refine Keeps.each (fun st8 x9 => ?_) ?_
        · split
          · refine Keeps.next (State.fireReflex_keeps ..) rfl ?_
            exact Keeps.refl
        · exact hst6

theorem State.takeBindings_keeps (s : State) : Keeps [.cells, .reflexDirty] s (State.takeBindings s) := by
  unfold State.takeBindings
  refine Keeps.ite ?_ ?_
  · exact Keeps.refl
  · show let r2 := _; Keeps _ _ r2
    intro r2
    extract_lets -descend +onlyGivenNames v3 at r2
    extract_lets -descend +onlyGivenNames st4 at r2
    have hst4 : Keeps [.cells, .reflexDirty] s st4 := by
      subst st4
      refine Keeps.next (State.resetKeys_keeps ..) rfl ?_
      exact Keeps.refl
    try clear_value st4
    extract_lets -descend +onlyGivenNames st5 at r2
    have hst5 : Keeps [.cells, .reflexDirty] s st5 := by
      subst st5
      refine Keeps.each (fun st6 x7 => ?_) ?_
      · refine Keeps.next (State.wr_keeps ..) rfl ?_
        exact Keeps.refl
      · exact hst4
    try clear_value st5
    subst r2
    refine Keeps.set_reflexDirty (x := st5) rfl ?_
    exact hst5

theorem State.hop_keeps (s : State) (n : ℕ) (x : TchSt) (p : ScanPlan) (h : ℕ) : Keeps [.cells, .hif, .wld, .cic,
    .freeCtr, .emits] s (State.hop s n x p h).2 := by
  unfold State.hop
  split
  · rename_i _ st6 e7
    have hst6 : Keeps [.cells, .hif, .wld, .cic, .freeCtr, .emits] s st6 := by
      refine Keeps.snd e7 ?_
      split
      · show Keeps _ _ _
        exact Keeps.refl
      · refine Keeps.next (State.free_keeps ..) rfl ?_
        exact Keeps.refl
    show Keeps _ _ _
    refine Keeps.next (State.event_keeps ..) rfl ?_
    refine Keeps.next (State.count_keeps ..) rfl ?_
    exact hst6

theorem State.noiseStep_keeps (s : State) (n : ℕ) (x : TchSt) (p : ScanPlan) (f : Demod) (m : DeltaMap) : Keeps
    [.cells, .hif, .wld, .cic, .freeCtr, .emits] s (State.noiseStep s n x p f m).2 := by
  unfold State.noiseStep
  show let r7 := _; Keeps _ _ (Prod.snd r7)
  intro r7
  extract_lets -descend +onlyGivenNames v8 at r7
  extract_lets -descend +onlyGivenNames v9 at r7
  subst r7
  split
  · rename_i _ st10 e11
    have hst10 : Keeps [.cells, .hif, .wld, .cic, .freeCtr, .emits] s st10 := by
      refine Keeps.snd e11 ?_
      refine Keeps.ite2 ?_ ?_
      · refine Keeps.next (State.free_keeps ..) rfl ?_
        exact Keeps.refl
      · show Keeps _ _ _
        exact Keeps.refl
    show let r12 := _; Keeps _ _ (Prod.snd r12)
    intro r12
    extract_lets -descend +onlyGivenNames v13 at r12
    extract_lets -descend +onlyGivenNames v14 at r12
    subst r12
    split
    · show let r15 := _; Keeps _ _ (Prod.snd r15)
      intro r15
      extract_lets -descend +onlyGivenNames st16 at r15
      have hst16 : Keeps [.cells, .hif, .wld, .cic, .freeCtr, .emits] s st16 := by
        subst st16
        refine Keeps.ite ?_ ?_
        · refine Keeps.next (State.event_keeps ..) rfl ?_
          exact hst10
        · exact hst10
      try clear_value st16
      subst r15
      split
      · refine Keeps.next (State.hop_keeps ..) rfl ?_
        exact hst16
      · show Keeps _ _ _
        exact hst16

theorem State.captureRef_keeps (s : State) (n : ℕ) (p : ScanPlan) (run : Bool) : Keeps [.cells] s (State.captureRef
    s n p run) := by
  unfold State.captureRef
  refine Keeps.ite ?_ ?_
  · exact Keeps.refl
  · show let r5 := _; Keeps _ _ r5
    intro r5
    extract_lets -descend +onlyGivenNames st6 at r5
    have hst6 : Keeps [.cells] s st6 := by
      subst st6
      refine Keeps.next (State.clrF_keeps ..) rfl ?_
      exact Keeps.refl
    try clear_value st6
    subst r5
    refine Keeps.ite ?_ ?_
    · show let r7 := _; Keeps _ _ r7
      intro r7
      extract_lets -descend +onlyGivenNames v8 at r7
      extract_lets -descend +onlyGivenNames st9 at r7
      have hst9 : Keeps [.cells] s st9 := by
        subst st9
        refine Keeps.each (fun st10 x11 => ?_) ?_
        · refine Keeps.next (State.wrN_keeps ..) rfl ?_
          exact Keeps.refl
        · exact hst6
      try clear_value st9
      subst r7
      refine Keeps.next (State.wrN_keeps ..) rfl ?_
      exact hst9
    · refine Keeps.next (State.setF_keeps ..) rfl ?_
      exact hst6

theorem State.scanPanel_keeps (s : State) (n : ℕ) (p : ScanPlan) (f : TouchFrame) : Keeps [.cells, .hif, .slices,
    .tch, .pwResync, .hap, .wld, .cic, .dmc, .pair, .mem, .freeCtr, .emits] s (State.scanPanel s n p f) := by
  unfold State.scanPanel
  show let r5 := _; Keeps _ _ r5
  intro r5
  extract_lets -descend +onlyGivenNames v6 at r5
  extract_lets -descend +onlyGivenNames v7 at r5
  extract_lets -descend +onlyGivenNames v8 at r5
  extract_lets -descend +onlyGivenNames v9 at r5
  extract_lets -descend +onlyGivenNames v10 at r5
  extract_lets -descend +onlyGivenNames v11 at r5
  extract_lets -descend +onlyGivenNames v12 at r5
  extract_lets -descend +onlyGivenNames v13 at r5
  subst r5
  split
  · show let r14 := _; Keeps _ _ r14
    intro r14
    extract_lets -descend +onlyGivenNames v15 at r14
    extract_lets -descend +onlyGivenNames v16 at r14
    extract_lets -descend +onlyGivenNames v17 at r14
    extract_lets -descend +onlyGivenNames st18 at r14
    have hst18 : Keeps [.cells, .hif, .slices, .tch, .pwResync, .hap, .wld, .cic, .dmc, .pair, .mem, .freeCtr,
        .emits] s st18 := by
      subst st18
      refine Keeps.next (State.count_keeps ..) rfl ?_
      refine Keeps.next (State.setPanel_keeps ..) rfl ?_
      exact Keeps.refl
    try clear_value st18
    extract_lets -descend +onlyGivenNames st19 at r14
    have hst19 : Keeps [.cells, .hif, .slices, .tch, .pwResync, .hap, .wld, .cic, .dmc, .pair, .mem, .freeCtr,
        .emits] s st19 := by
      subst st19
      refine Keeps.next (State.hitTests_keeps ..) rfl ?_
      exact hst18
    try clear_value st19
    extract_lets -descend +onlyGivenNames v20 at r14
    extract_lets -descend +onlyGivenNames st21 at r14
    have hst21 : Keeps [.cells, .hif, .slices, .tch, .pwResync, .hap, .wld, .cic, .dmc, .pair, .mem, .freeCtr,
        .emits] s st21 := by
      subst st21
      refine Keeps.next (State.reflexes_keeps ..) rfl ?_
      exact hst19
    try clear_value st21
    subst r14
    split
    · rename_i _ st22 e23
      have hst22 : Keeps [.cells, .hif, .slices, .tch, .pwResync, .hap, .wld, .cic, .dmc, .pair, .mem, .freeCtr,
          .emits] s st22 := by
        refine Keeps.snd e23 ?_
        refine Keeps.next (State.noiseStep_keeps ..) rfl ?_
        exact hst21
      show let r24 := _; Keeps _ _ r24
      intro r24
      extract_lets -descend +onlyGivenNames v25 at r24
      subst r24
      split
      · show let r26 := _; Keeps _ _ r26
        intro r26
        extract_lets -descend +onlyGivenNames st27 at r26
        have hst27 : Keeps [.cells, .hif, .slices, .tch, .pwResync, .hap, .wld, .cic, .dmc, .pair, .mem, .freeCtr,
            .emits] s st27 := by
          subst st27
          refine Keeps.next (State.captureRef_keeps ..) rfl ?_
          refine Keeps.next (State.setPanel_keeps ..) rfl ?_
          exact hst22
        try clear_value st27
        extract_lets -descend +onlyGivenNames st28 at r26
        have hst28 : Keeps [.cells, .hif, .slices, .tch, .pwResync, .hap, .wld, .cic, .dmc, .pair, .mem, .freeCtr,
            .emits] s st28 := by
          subst st28
          refine Keeps.ite ?_ ?_
          · refine Keeps.next (State.event_keeps ..) rfl ?_
            refine Keeps.next (State.clrF_keeps ..) rfl ?_
            exact hst27
          · exact hst27
        try clear_value st28
        extract_lets -descend +onlyGivenNames st29 at r26
        have hst29 : Keeps [.cells, .hif, .slices, .tch, .pwResync, .hap, .wld, .cic, .dmc, .pair, .mem, .freeCtr,
            .emits] s st29 := by
          subst st29
          refine Keeps.next (State.report_keeps ..) rfl ?_
          exact hst28
        try clear_value st29
        extract_lets -descend +onlyGivenNames v30 at r26
        extract_lets -descend +onlyGivenNames st31 at r26
        have hst31 : Keeps [.cells, .hif, .slices, .tch, .pwResync, .hap, .wld, .cic, .dmc, .pair, .mem, .freeCtr,
            .emits] s st31 := by
          subst st31
          refine Keeps.next (State.freeSlots_keeps ..) rfl ?_
          exact hst29
        try clear_value st31
        extract_lets -descend +onlyGivenNames v32 at r26
        subst r26
        refine Keeps.next (State.mirror_keeps ..) rfl ?_
        exact hst31

theorem State.panelHop_keeps (s : State) (n : ℕ) : Keeps [.tch] s (State.panelHop s n) := by
  unfold State.panelHop
  show let r3 := _; Keeps _ _ r3
  intro r3
  extract_lets -descend +onlyGivenNames v4 at r3
  subst r3
  split
  · exact Keeps.refl
  · refine Keeps.next (State.setPanel_keeps ..) rfl ?_
    exact Keeps.refl

theorem State.scanTick_keeps (s : State) (n : ℕ) (frames : List TouchFrame) : Keeps [.cells, .hif, .slices, .tch,
    .pwResync, .hap, .wld, .cic, .dmc, .pair, .mem, .freeCtr, .emits] s (State.scanTick s n frames) := by
  unfold State.scanTick
  show let r4 := _; Keeps _ _ r4
  intro r4
  extract_lets -descend +onlyGivenNames v5 at r4
  subst r4
  split
  · refine Keeps.ite ?_ ?_
    · refine Keeps.next (State.panelStop_keeps ..) rfl ?_
      exact Keeps.refl
    · exact Keeps.refl
  · refine Keeps.ite ?_ ?_
    · exact Keeps.refl
    · show let r6 := _; Keeps _ _ r6
      intro r6
      extract_lets -descend +onlyGivenNames st7 at r6
      have hst7 : Keeps [.cells, .hif, .slices, .tch, .pwResync, .hap, .wld, .cic, .dmc, .pair, .mem, .freeCtr,
          .emits] s st7 := by
        subst st7
        refine Keeps.next (State.updPanel_keeps ..) rfl ?_
        exact Keeps.refl
      try clear_value st7
      subst r6
      refine Keeps.ite ?_ ?_
      · refine Keeps.next (State.panelStop_keeps ..) rfl ?_
        exact hst7
      · split
        · refine Keeps.ite ?_ ?_
          · refine Keeps.next (State.panelHop_keeps ..) rfl ?_
            exact hst7
          · refine Keeps.next (State.panelStart_keeps ..) rfl ?_
            exact hst7
        · show let r8 := _; Keeps _ _ r8
          intro r8
          extract_lets -descend +onlyGivenNames v9 at r8
          extract_lets -descend +onlyGivenNames st10 at r8
          have hst10 : Keeps [.cells, .hif, .slices, .tch, .pwResync, .hap, .wld, .cic, .dmc, .pair, .mem, .freeCtr,
              .emits] s st10 := by
            subst st10
            refine Keeps.ite ?_ ?_
            · exact hst7
            · refine Keeps.next (State.scanPanel_keeps ..) rfl ?_
              exact hst7
          try clear_value st10
          subst r8
          refine Keeps.ite ?_ ?_
          · refine Keeps.next (State.panelHop_keeps ..) rfl ?_
            exact hst10
          · exact hst10

theorem State.takeRate_keeps (s : State) : Keeps [.rate, .cells] s (State.takeRate s) := by
  unfold State.takeRate
  refine Keeps.ite ?_ ?_
  · show let r2 := _; Keeps _ _ r2
    intro r2
    extract_lets -descend +onlyGivenNames st3 at r2
    have hst3 : Keeps [.rate, .cells] s st3 := by
      subst st3
      refine Keeps.next (State.clrF_keeps ..) rfl ?_
      exact Keeps.refl
    try clear_value st3
    subst r2
    refine Keeps.set_rate (x := st3) rfl ?_
    exact hst3
  · exact Keeps.refl

theorem doRateChange_keeps (s : State) : Keeps [.time, .rate, .cells] s (doRateChange s) := by
  unfold doRateChange
  refine Keeps.ite ?_ ?_
  · refine Keeps.next (State.takeRate_keeps ..) rfl ?_
    refine Keeps.next (State.at_keeps ..) rfl ?_
    exact Keeps.refl
  · exact Keeps.refl

theorem doStationTick_keeps (frames : List TouchFrame) (s : State) : Keeps [.time, .ticks, .rate, .cells, .hif,
    .cmds, .slices, .haul, .outs, .lyr, .csr, .cvu, .floor, .tch, .reflexDirty, .pwResync, .hap, .wld, .cic, .dmc,
    .reductions, .clk, .pair, .mem, .freeCtr, .emits] s (doStationTick frames s) := by
  unfold doStationTick
  refine Keeps.ite ?_ ?_
  · exact Keeps.refl
  · show let r3 := _; Keeps _ _ r3
    intro r3
    extract_lets -descend +onlyGivenNames v4 at r3
    extract_lets -descend +onlyGivenNames st5 at r3
    have hst5 : Keeps [.time, .ticks, .rate, .cells, .hif, .cmds, .slices, .haul, .outs, .lyr, .csr, .cvu, .floor,
        .tch, .reflexDirty, .pwResync, .hap, .wld, .cic, .dmc, .reductions, .clk, .pair, .mem, .freeCtr, .emits] s st5
        := by
      subst st5
      refine Keeps.next (State.dueFrames_keeps ..) rfl ?_
      refine Keeps.next (State.passStation_keeps ..) rfl ?_
      refine Keeps.next (State.at_keeps ..) rfl ?_
      exact Keeps.refl
    try clear_value st5
    extract_lets -descend +onlyGivenNames st6 at r3
    have hst6 : Keeps [.time, .ticks, .rate, .cells, .hif, .cmds, .slices, .haul, .outs, .lyr, .csr, .cvu, .floor,
        .tch, .reflexDirty, .pwResync, .hap, .wld, .cic, .dmc, .reductions, .clk, .pair, .mem, .freeCtr, .emits] s st6
        := by
      subst st6
      refine Keeps.ite ?_ ?_
      · refine Keeps.next (State.takeRate_keeps ..) rfl ?_
        exact hst5
      · exact hst5
    try clear_value st6
    subst r3
    refine Keeps.each (fun st7 x8 => ?_) ?_
    · refine Keeps.next (State.scanTick_keeps ..) rfl ?_
      exact Keeps.refl
    · refine Keeps.next (State.takeBindings_keeps ..) rfl ?_
      exact hst6

theorem State.withdrawAll_keeps (s : State) (sl : ℕ) : Keeps [.cells, .hif, .cmds, .slices, .haul, .outs, .lyr,
    .csr, .cvu, .tch, .reflexDirty, .hap, .ast, .wld, .cic, .pair, .emits] s (State.withdrawAll s sl) := by
  unfold State.withdrawAll
  show let r3 := _; Keeps _ _ r3
  intro r3
  extract_lets -descend +onlyGivenNames st4 at r3
  have hst4 : Keeps [.cells, .hif, .cmds, .slices, .haul, .outs, .lyr, .csr, .cvu, .tch, .reflexDirty, .hap, .ast,
      .wld, .cic, .pair, .emits] s st4 := by
    subst st4
    refine Keeps.each (fun st5 x6 => ?_) ?_
    · refine Keeps.each (fun st7 x8 => ?_) ?_
      · refine Keeps.next (State.setOwner_keeps ..) rfl ?_
        refine Keeps.next (State.withdraw_keeps ..) rfl ?_
        exact Keeps.refl
      · exact Keeps.refl
    · exact Keeps.refl
  try clear_value st4
  subst r3
  refine Keeps.next (doAdmPerm_keeps ..) rfl ?_
  exact hst4

theorem State.unbindRegs_keeps (s : State) (sl : ℕ) : Keeps [.cells] s (State.unbindRegs s sl) := by
  unfold State.unbindRegs
  refine Keeps.next (State.resetKeys_keeps ..) rfl ?_
  exact Keeps.refl

theorem State.finishUnbind_keeps (s : State) (sl : ℕ) : Keeps [.cells, .hif, .cmds, .slices, .haul, .outs, .lyr,
    .csr, .cvu, .tch, .reflexDirty, .hap, .ast, .wld, .cic, .pair, .emits] s (State.finishUnbind s sl) := by
  unfold State.finishUnbind
  show let r3 := _; Keeps _ _ r3
  intro r3
  extract_lets -descend +onlyGivenNames st4 at r3
  have hst4 : Keeps [.cells, .hif, .cmds, .slices, .haul, .outs, .lyr, .csr, .cvu, .tch, .reflexDirty, .hap, .ast,
      .wld, .cic, .pair, .emits] s st4 := by
    subst st4
    refine Keeps.next (State.unbindRegs_keeps ..) rfl ?_
    refine Keeps.next (State.withdrawAll_keeps ..) rfl ?_
    exact Keeps.refl
  try clear_value st4
  subst r3
  refine Keeps.next (State.setSlice_keeps ..) rfl ?_
  exact hst4

theorem State.clearAudWords_keeps (s : State) (sl : ℕ) : Keeps [.cells, .slices] s (State.clearAudWords s sl) := by
  unfold State.clearAudWords
  refine Keeps.next (State.updSlice_keeps ..) rfl ?_
  refine Keeps.next (State.resetKeys_keeps ..) rfl ?_
  exact Keeps.refl

theorem State.clearStreamWords_keeps (s : State) (sl : ℕ) : Keeps [.cells, .slices] s (State.clearStreamWords s sl)
    := by
  unfold State.clearStreamWords
  show let r3 := _; Keeps _ _ r3
  intro r3
  extract_lets -descend +onlyGivenNames st4 at r3
  have hst4 : Keeps [.cells, .slices] s st4 := by
    subst st4
    refine Keeps.ite ?_ ?_
    · refine Keeps.next (State.clearHapWords_keeps ..) rfl ?_
      exact Keeps.refl
    · exact Keeps.refl
  try clear_value st4
  subst r3
  refine Keeps.ite ?_ ?_
  · refine Keeps.next (State.clearAudWords_keeps ..) rfl ?_
    exact hst4
  · exact hst4

theorem doResetEnd_keeps (sl : ℕ) (s : State) : Keeps [.cells, .hif, .cmds, .slices, .haul, .outs, .lyr, .csr, .cvu,
    .tch, .reflexDirty, .hap, .ast, .wld, .cic, .pair, .emits] s (doResetEnd sl s) := by
  unfold doResetEnd
  refine Keeps.ite ?_ ?_
  · show let r3 := _; Keeps _ _ r3
    intro r3
    extract_lets -descend +onlyGivenNames st4 at r3
    have hst4 : Keeps [.cells, .hif, .cmds, .slices, .haul, .outs, .lyr, .csr, .cvu, .tch, .reflexDirty, .hap, .ast,
        .wld, .cic, .pair, .emits] s st4 := by
      subst st4
      refine Keeps.next (State.clearStreamWords_keeps ..) rfl ?_
      exact Keeps.refl
    try clear_value st4
    extract_lets -descend +onlyGivenNames st5 at r3
    have hst5 : Keeps [.cells, .hif, .cmds, .slices, .haul, .outs, .lyr, .csr, .cvu, .tch, .reflexDirty, .hap, .ast,
        .wld, .cic, .pair, .emits] s st5 := by
      subst st5
      refine Keeps.ite ?_ ?_
      · refine Keeps.next (State.finishUnbind_keeps ..) rfl ?_
        exact hst4
      · refine Keeps.next (State.updSlice_keeps ..) rfl ?_
        exact hst4
    try clear_value st5
    subst r3
    refine Keeps.next (State.event_keeps ..) rfl ?_
    exact hst5
  · exact Keeps.refl

theorem doFreezeComplete_keeps (sl : ℕ) (s : State) : Keeps [.cells, .hif, .slices, .wld, .cic, .emits] s
    (doFreezeComplete sl s) := by
  unfold doFreezeComplete
  show let r3 := _; Keeps _ _ r3
  intro r3
  extract_lets -descend +onlyGivenNames v4 at r3
  subst r3
  refine Keeps.ite ?_ ?_
  · refine Keeps.next (State.event_keeps ..) rfl ?_
    refine Keeps.next (State.updSlice_keeps ..) rfl ?_
    exact Keeps.refl
  · exact Keeps.refl

theorem State.hapticSample_keeps (s : State) (sl : ℕ) (c : ℕ) : Keeps [.cells, .hif, .hap, .hst, .ast, .emits] s
    (State.hapticSample s sl c) := by
  unfold State.hapticSample
  show let r4 := _; Keeps _ _ r4
  intro r4
  extract_lets -descend +onlyGivenNames v5 at r4
  subst r4
  refine Keeps.ite ?_ ?_
  · exact Keeps.refl
  · split
    · refine Keeps.ite ?_ ?_
      · refine Keeps.next (State.endStream_keeps ..) rfl ?_
        refine Keeps.next (State.count_keeps ..) rfl ?_
        exact Keeps.refl
      · exact Keeps.refl
    · refine Keeps.ite ?_ ?_
      · exact Keeps.refl
      · show let r6 := _; Keeps _ _ r6
        intro r6
        extract_lets -descend +onlyGivenNames st7 at r6
        have hst7 : Keeps [.cells, .hif, .hap, .hst, .ast, .emits] s st7 := by
          subst st7
          refine Keeps.next (State.updHst_keeps ..) rfl ?_
          exact Keeps.refl
        try clear_value st7
        extract_lets -descend +onlyGivenNames st8 at r6
        have hst8 : Keeps [.cells, .hif, .hap, .hst, .ast, .emits] s st8 := by
          subst st8
          refine Keeps.next (State.wrN_keeps ..) rfl ?_
          exact hst7
        try clear_value st8
        extract_lets -descend +onlyGivenNames st9 at r6
        have hst9 : Keeps [.cells, .hif, .hap, .hst, .ast, .emits] s st9 := by
          subst st9
          refine Keeps.next (State.fetchStream_keeps ..) rfl ?_
          refine Keeps.next (State.streamCheck_keeps ..) rfl ?_
          exact hst8
        try clear_value st9
        subst r6
        split
        · exact hst9
        · show let r10 := _; Keeps _ _ r10
          intro r10
          extract_lets -descend +onlyGivenNames v11 at r10
          extract_lets -descend +onlyGivenNames v12 at r10
          subst r10
          refine Keeps.ite ?_ ?_
          · refine Keeps.next (State.setChan_keeps ..) rfl ?_
            exact hst9
          · refine Keeps.next (State.makeStart_keeps ..) rfl ?_
            exact hst9

theorem State.hapticSamples_keeps (s : State) : Keeps [.cells, .hif, .hap, .hst, .ast, .emits] s
    (State.hapticSamples s) := by
  unfold State.hapticSamples
  refine Keeps.each (fun st2 x3 => ?_) ?_
  · refine Keeps.ite ?_ ?_
    · exact Keeps.refl
    · refine Keeps.each (fun st4 x5 => ?_) ?_
      · refine Keeps.next (State.hapticSample_keeps ..) rfl ?_
        exact Keeps.refl
      · exact Keeps.refl
  · exact Keeps.refl

theorem doStreamSampleTick_keeps (s : State) : Keeps [.time, .ticks, .cells, .hif, .hap, .hst, .ast, .emits] s
    (doStreamSampleTick s) := by
  unfold doStreamSampleTick
  refine Keeps.ite ?_ ?_
  · exact Keeps.refl
  · show let r2 := _; Keeps _ _ r2
    intro r2
    extract_lets -descend +onlyGivenNames v3 at r2
    subst r2
    refine Keeps.next (State.hapticSamples_keeps ..) rfl ?_
    show let r4 := _; Keeps _ _ r4
    intro r4
    extract_lets -descend +onlyGivenNames st5 at r4
    have hst5 : Keeps [.time, .ticks, .cells, .hif, .hap, .hst, .ast, .emits] s st5 := by
      subst st5
      refine Keeps.next (State.at_keeps ..) rfl ?_
      exact Keeps.refl
    try clear_value st5
    subst r4
    refine Keeps.set_ticks (x := st5) rfl ?_
    exact hst5

theorem State.audioStep_keeps (s : State) (sl : ℕ) : Keeps [.cells, .hif, .hst, .ast, .emits] s (State.audioStep s
    sl).2 := by
  unfold State.audioStep
  show let r3 := _; Keeps _ _ (Prod.snd r3)
  intro r3
  extract_lets -descend +onlyGivenNames v4 at r3
  extract_lets -descend +onlyGivenNames v5 at r3
  extract_lets -descend +onlyGivenNames st6 at r3
  have hst6 : Keeps [.cells, .hif, .hst, .ast, .emits] s st6 := by
    subst st6
    refine Keeps.ite ?_ ?_
    · refine Keeps.next (State.audioFade_keeps ..) rfl ?_
      exact Keeps.refl
    · exact Keeps.refl
  try clear_value st6
  extract_lets -descend +onlyGivenNames v7 at r3
  extract_lets -descend +onlyGivenNames st8 at r3
  have hst8 : Keeps [.cells, .hif, .hst, .ast, .emits] s st8 := by
    subst st8
    refine Keeps.ite ?_ ?_
    · refine Keeps.next (State.updAst_keeps ..) rfl ?_
      exact hst6
    · exact hst6
  try clear_value st8
  extract_lets -descend +onlyGivenNames v9 at r3
  extract_lets -descend +onlyGivenNames st10 at r3
  have hst10 : Keeps [.cells, .hif, .hst, .ast, .emits] s st10 := by
    subst st10
    refine Keeps.ite ?_ ?_
    · refine Keeps.next (State.updAst_keeps ..) rfl ?_
      exact hst8
    · exact hst8
  try clear_value st10
  extract_lets -descend +onlyGivenNames v11 at r3
  subst r3
  refine Keeps.ite2 ?_ ?_
  · show Keeps _ _ _
    exact hst10
  · split
    · rename_i _ st12 e13
      have hst12 : Keeps [.cells, .hif, .hst, .ast, .emits] s st12 := by
        refine Keeps.snd e13 ?_
        split
        · show Keeps _ _ _
          refine Keeps.next (State.updAst_keeps ..) rfl ?_
          refine Keeps.ite ?_ ?_
          · refine Keeps.next (State.count_keeps ..) rfl ?_
            exact hst10
          · exact hst10
        · show let r14 := _; Keeps _ _ (Prod.snd r14)
          intro r14
          extract_lets -descend +onlyGivenNames st15 at r14
          have hst15 : Keeps [.cells, .hif, .hst, .ast, .emits] s st15 := by
            subst st15
            refine Keeps.next (State.updAst_keeps ..) rfl ?_
            exact hst10
          try clear_value st15
          subst r14
          show Keeps _ _ _
          refine Keeps.ite ?_ ?_
          · refine Keeps.next (State.fetchStream_keeps ..) rfl ?_
            refine Keeps.next (State.streamCheck_keeps ..) rfl ?_
            refine Keeps.next (State.wrN_keeps ..) rfl ?_
            exact hst15
          · exact hst15
      refine Keeps.ite2 ?_ ?_
      · show Keeps _ _ _
        exact hst12
      · show let r16 := _; Keeps _ _ (Prod.snd r16)
        intro r16
        extract_lets -descend +onlyGivenNames v17 at r16
        extract_lets -descend +onlyGivenNames st18 at r16
        have hst18 : Keeps [.cells, .hif, .hst, .ast, .emits] s st18 := by
          subst st18
          refine Keeps.next (State.updAst_keeps ..) rfl ?_
          exact hst12
        try clear_value st18
        extract_lets -descend +onlyGivenNames v19 at r16
        extract_lets -descend +onlyGivenNames st20 at r16
        have hst20 : Keeps [.cells, .hif, .hst, .ast, .emits] s st20 := by
          subst st20
          refine Keeps.ite ?_ ?_
          · refine Keeps.next (State.updAst_keeps ..) rfl ?_
            exact hst18
          · exact hst18
        try clear_value st20
        subst r16
        show Keeps _ _ _
        exact hst20

theorem State.updTdm_keeps (s : State) (p : ℕ) (f : TdmSt → TdmSt) : Keeps [.tdm] s (State.updTdm s p f) := by
  unfold State.updTdm
  refine Keeps.set_tdm (x := s) rfl (fun h => Tab.wf_set _ _ _ _ h) ?_
  exact Keeps.refl

theorem State.tdmTick_keeps (s : State) (p : ℕ) (k : ℕ) (mixed : List ℤ) (clips : ℕ) : Keeps [.cells, .tdm, .emits]
    s (State.tdmTick s p k mixed clips) := by
  unfold State.tdmTick
  show let r6 := _; Keeps _ _ r6
  intro r6
  extract_lets -descend +onlyGivenNames v7 at r6
  extract_lets -descend +onlyGivenNames st8 at r6
  have hst8 : Keeps [.cells, .tdm, .emits] s st8 := by
    subst st8
    refine Keeps.ite ?_ ?_
    · refine Keeps.next (State.emit_keeps ..) rfl ?_
      exact Keeps.refl
    · exact Keeps.refl
  try clear_value st8
  extract_lets -descend +onlyGivenNames st9 at r6
  have hst9 : Keeps [.cells, .tdm, .emits] s st9 := by
    subst st9
    refine Keeps.next (State.count_keeps ..) rfl ?_
    exact hst8
  try clear_value st9
  subst r6
  refine Keeps.next (State.updTdm_keeps ..) rfl ?_
  exact hst9

theorem State.audioSteps_keeps (s : State) : Keeps [.cells, .hif, .hst, .ast, .emits] s s.audioSteps.2 := by
  unfold State.audioSteps
  refine Keeps.foldl2 (fun q x => ?_) Keeps.refl
  exact (State.audioStep_keeps ..).weaken rfl

theorem State.clearAudAll_keeps (s : State) : Keeps [.cells, .slices] s (State.clearAudAll s) := by
  unfold State.clearAudAll
  refine Keeps.each (fun st2 x3 => ?_) ?_
  · refine Keeps.next (State.clearAudWords_keeps ..) rfl ?_
    exact Keeps.refl
  · exact Keeps.refl

theorem State.mixTick_keeps (s : State) (k : Nat) : Keeps [.cells, .hif, .slices, .hst, .ast, .tdm, .emits] s
    (s.mixTick k) := by
  unfold State.mixTick
  have h := State.audioSteps_keeps s
  dsimp only
  generalize s.audioSteps = q at h ⊢
  refine Keeps.next (State.clearAudAll_keeps ..) rfl ?_
  exact Keeps.each (fun s p => (State.tdmTick_keeps ..).weaken rfl) (h.weaken rfl)

theorem doSampleTick_keeps (s : State) : Keeps [.time, .ticks, .cells, .hif, .slices, .hst, .ast, .tdm, .emits] s
    (doSampleTick s) := by
  unfold doSampleTick
  refine Keeps.ite ?_ ?_
  · exact Keeps.refl
  · show let r2 := _; Keeps _ _ r2
    intro r2
    extract_lets -descend +onlyGivenNames v3 at r2
    extract_lets -descend +onlyGivenNames st4 at r2
    have hst4 : Keeps [.time, .ticks, .cells, .hif, .slices, .hst, .ast, .tdm, .emits] s st4 := by
      subst st4
      show let r5 := _; Keeps _ _ r5
      intro r5
      extract_lets -descend +onlyGivenNames st6 at r5
      have hst6 : Keeps [.time, .ticks, .cells, .hif, .slices, .hst, .ast, .tdm, .emits] s st6 := by
        subst st6
        refine Keeps.next (State.at_keeps ..) rfl ?_
        exact Keeps.refl
      try clear_value st6
      subst r5
      refine Keeps.set_ticks (x := st6) rfl ?_
      exact hst6
    try clear_value st4
    extract_lets -descend +onlyGivenNames st7 at r2
    have hst7 : Keeps [.time, .ticks, .cells, .hif, .slices, .hst, .ast, .tdm, .emits] s st7 := by
      subst st7
      refine Keeps.ite ?_ ?_
      · refine Keeps.next (State.timeUncertain_keeps ..) rfl ?_
        exact hst4
      · exact hst4
    try clear_value st7
    subst r2
    refine Keeps.ite ?_ ?_
    · refine Keeps.next (State.mixTick_keeps ..) rfl ?_
      exact hst7
    · exact hst7

theorem doTdmSync_keeps (p : ℕ) (s : State) : Keeps [.cells, .tdm, .emits] s (doTdmSync p s) := by
  unfold doTdmSync
  refine Keeps.ite ?_ ?_
  · exact Keeps.refl
  · show let r3 := _; Keeps _ _ r3
    intro r3
    extract_lets -descend +onlyGivenNames v4 at r3
    extract_lets -descend +onlyGivenNames v5 at r3
    extract_lets -descend +onlyGivenNames v6 at r3
    extract_lets -descend +onlyGivenNames st7 at r3
    have hst7 : Keeps [.cells, .tdm, .emits] s st7 := by
      subst st7
      refine Keeps.ite ?_ ?_
      · refine Keeps.next (State.count_keeps ..) rfl ?_
        exact Keeps.refl
      · exact Keeps.refl
    try clear_value st7
    extract_lets -descend +onlyGivenNames st8 at r3
    have hst8 : Keeps [.cells, .tdm, .emits] s st8 := by
      subst st8
      refine Keeps.next (State.updTdm_keeps ..) rfl ?_
      exact hst7
    try clear_value st8
    subst r3
    refine Keeps.ite ?_ ?_
    · refine Keeps.next (State.emit_keeps ..) rfl ?_
      exact hst8
    · exact hst8

theorem doTdmLost_keeps (p : ℕ) (s : State) : Keeps [.cells, .tdm] s (doTdmLost p s) := by
  unfold doTdmLost
  refine Keeps.ite ?_ ?_
  · exact Keeps.refl
  · refine Keeps.next (State.updTdm_keeps ..) rfl ?_
    refine Keeps.next (State.setF_keeps ..) rfl ?_
    exact Keeps.refl

theorem State.worldDogExpires_keeps (s : State) : Keeps [.time, .cells, .hif, .cmds, .haul, .outs, .cvu, .tch, .hap,
    .wld, .cic, .dmc, .pair, .mem, .freeCtr, .emits] s (State.worldDogExpires s) := by
  unfold State.worldDogExpires
  split
  · exact Keeps.refl
  · refine Keeps.next (State.worldReset_keeps ..) rfl ?_
    refine Keeps.next (State.at_keeps ..) rfl ?_
    exact Keeps.refl

theorem doWorldResetDone_keeps (s : State) : Keeps [.cells, .hif, .wld, .emits] s (doWorldResetDone s) := by
  unfold doWorldResetDone
  refine Keeps.ite ?_ ?_
  · exact Keeps.refl
  · refine Keeps.ite ?_ ?_
    · show let r2 := _; Keeps _ _ r2
      intro r2
      extract_lets -descend +onlyGivenNames st3 at r2
      have hst3 : Keeps [.cells, .hif, .wld, .emits] s st3 := by
        subst st3
        refine Keeps.set_wld (x := s) rfl id ?_
        exact Keeps.refl
      try clear_value st3
      subst r2
      refine Keeps.next (State.pwChanged_keeps ..) rfl ?_
      refine Keeps.next (State.clrF_keeps ..) rfl ?_
      refine Keeps.next (State.setF_keeps ..) rfl ?_
      exact hst3
    · refine Keeps.set_wld (x := s) rfl id ?_
      exact Keeps.refl

theorem State.dramDenied_keeps {s t : State} {a n r : Nat} {w : Bool} (e : s.dramDenied a n w r = some t) :
    Keeps [.cells, .hif, .wld, .cic, .emits] s t := by
  unfold State.dramDenied at e
  split at e
  · cases e
    exact (State.denial_keeps ..).weaken rfl
  · cases e

theorem monQuery_keeps (c : Nat) (s : State) : Keeps [] s (monQuery c s).2.2 := Keeps.refl

theorem monReserved_keeps (s : State) : Keeps [] s (monReserved s).2.2 := Keeps.refl

theorem monPoll_keeps (c : Nat) (s : State) : Keeps [.cells] s (monPoll c s).2.2 := by
  unfold monPoll
  dsimp only
  split
  · exact Keeps.refl
  · split
    · exact Keeps.refl
    · exact Keeps.refl
    · exact (State.setSlot_keeps ..).weaken rfl
    · exact (State.setSlot_keeps ..).weaken rfl

theorem monPost_keeps (c : Nat) (s : State) : Keeps [.cells, .hif, .wld, .cic, .emits] s (monPost c s).2.2 := by
  unfold monPost
  dsimp only
  split
  · exact Keeps.refl
  · split
    · exact Keeps.refl
    · split
      · exact Keeps.refl
      · dsimp only
        refine Keeps.next (State.event_keeps ..) rfl ?_
        refine Keeps.each (fun s x => (State.wr_keeps ..).weaken rfl) ?_
        exact (State.wrN_keeps ..).weaken rfl

end Sys2Proof.Machine
end

