-- ==== Sys2Proof/WellFormed.lean ====
section
/-!
DEFINITION. Which terms are commands that a sender of the spec can produce. Every check names what makes the others
impossible: the length a format fixes, or values that a measurement cannot give twice.
-/

namespace Sys2Proof

/-- A command has eight argument words (02_host_interface.md R70, R74). -/
def CmdArgs.wf (a : CmdArgs) : Bool := a.words.length == 8

/-- No number stands twice in a list. -/
def noRepeats : List Nat → Bool
  | [] => true
  | a :: t => !t.contains a && noRepeats t

/-- A bus access moves at least one byte (PCI Express; 02_host_interface.md R52). -/
def Bar2Op.wf : Bar2Op → Bool
  | .read len => 0 < len
  | .write data _ => 0 < data.length

/-- One demodulated window per panel at most (09_capacitive_touch.md R263). -/
def framesWf (fs : List TouchFrame) : Bool := noRepeats (fs.map fun f => f.panel.val)

/-- One poll per accelerometer port at most (10_haptic_and_acoustic_feedback.md R299). -/
def pollsWf (ps : List AccPoll) : Bool := noRepeats (ps.map fun p => p.ch.val)

/-- What a sender of the spec can produce. -/
def Instr.wf : Instr → Bool
  | .registerWrite _ _ data _ => 0 < data.length
  | .registerRead _ _ len => 0 < len
  | .bar2Access _ _ acc _ => acc.wf
  | .surfImport _ _ a => a.wf
  | .surfExport _ _ a => a.wf
  | .surfRelease _ _ a => a.wf
  | .commit _ _ a => a.wf
  | .cvSeed _ _ a => a.wf
  | .nop _ _ a => a.wf
  | .sliceCapture _ a => a.wf
  | .sliceRestore _ a => a.wf
  | .floorLoad _ a => a.wf
  | .reservedOpcode _ _ _ a => a.wf
  | .stationTick frames => framesWf frames
  | .loopTick polls _ => pollsWf polls
  | .auxTransactionDone _ _ data => data.length ≤ 16
  | .writeDram _ _ data _ _ => data.length ≤ 4064
  | _ => true

end Sys2Proof
end

