-- ==== Sys2Proof/Tests/Slice0.lean ====
section
/-!
SUPPORT. Tests: ill-formed terms that the check refuses, worked examples of the spec, and for every statement of
Certificates/Slice0 states and operands that meet the hypotheses of each of its clauses.
-/

namespace Sys2Proof.Slice0

open Sys2Proof Sys2Proof.Machine

/-! ### States to test on -/

/-- Write registers. -/
def regs (s : State) (l : List (Nat × Nat)) : State := l.foldl (fun s e => s.wrN e.1 e.2) s

/-- A module that has started: the host link is up, every gate is open, every PLL is locked, slice 0 is BOUND with PASID 1. -/
def base : State := regs
  { State.reset with
    hif := { State.reset.hif with linkUp := true, memorySpace := true, busMaster := true, retry := false }
    slices := [(0, { st := .bound, pasid := 1#20 })]
    pwr := { State.reset.pwr with perstLow := false, bootDue := false } }
  ((List.range 10).map (fun i => (R.clkGate i, 0xFFFFFFFF)) ++
    [(R.bootStatus, 0x80000007), (R.clkPllStatus, 0x3FFF), (R.clkRefStatus, 0xC0000000)])

/-- Core 0, in PROTECTED after reset. -/
def C : Req := .core 0

/-- The host's management driver. -/
def H : Req := .host none

/-- The host on behalf of slice 0. -/
def P : Req := .host (some 1#20)

def inSlice (s : State) (x : Slice) : State := s.setSlice 0 x

def chan0 (s : State) (x : HapSt) : State := s.setChan 0 x

def commit0 : Commit := { owner := 256, handle := 0, probe := false, layers := [], regions := [], bound := [], acc := 0, headroom := 0 }

/-- Output 7 with the timing of 1920 x 1080 at 60 Hz and the station image accepted. -/
def timed : State := (regs base [(R.outHtime 7, 2200 * 65536 + 1920), (R.outHsync 7, 44 * 65536 + 88),
  (R.outVtime 7, 1125 * 65536 + 1080), (R.outVsync 7, 5 * 65536 + 4), (R.outPclk 7, 148500)]).setF R.bootStatus
    F.bootStatus_station_ok

/-- A layer image that shows surface 0x1000. -/
def onImage : Tab Word := [(0, 1#32), (1, 0x1000#32)]

/-- A layer image whose source is five times as wide as it is shown: past the scaler's range. -/
def farImage : Tab Word := [(0, 1#32), (1, 0x1000#32), (3, 5#32), (5, 1#32)]

/-- The sequence fields of a frame with sequence number `n`. -/
def hdr (n : Nat) : FrameHdr := { seq := BitVec.ofNat 24 n, nak := false, ackT := 0, ackB := 0 }

/-! ### Ill-formed terms -/

/-- Too few argument words for a command. -/
def short : CmdArgs := { words := [1, 2, 3], fence := false, noInt := false }

/-- The pages of one panel, twice. -/
def twoFrames : List TouchFrame := [{ panel := 0, samples := [] }, { panel := 0, samples := [[0]] }]

theorem test_wf_accesses :
    ([.registerWrite H (.bar0 0) [] false, .registerRead H (.bar0 0) 0, .bar2Access H 0 (.read 0) {},
      .bar2Access H 0 (.write [] false) {}] : List Instr).all (fun i => !i.wf) = true := by decide

theorem test_wf_commands :
    ([.surfImport P 0 short, .surfExport P 0 short, .surfRelease P 0 short, .commit P 0 short, .cvSeed P 0 short,
      .nop P 0 short, .sliceCapture H short, .sliceRestore H short, .floorLoad C short,
      .reservedOpcode P 0 9 short] : List Instr).all (fun i => !i.wf) = true := by decide

set_option maxRecDepth 20000 in
theorem test_wf_measurements :
    ([.stationTick twoFrames, .loopTick [{ ch := 1, b0 := 0, b1 := 0 }, { ch := 1, b0 := 1, b1 := 0 }] 0,
      .auxTransactionDone 0 .ack (List.replicate 17 0),
      .writeDram (hdr 0) 0 (List.replicate 4065 0) false false] : List Instr).all (fun i => !i.wf) = true := by decide

/-- An ill-formed term stops nothing: every command completes (log 19). -/
theorem test_illFormed_completes : ∃ t, exec (.nop P 0 short) base = .next t := ⟨_, rfl⟩

/-! ### Worked examples of the spec -/

/-- 02_host_interface.md, the example of slice 0x2A: the first sixteen bytes of record 257. -/
theorem test_record_bytes :
    (recBytes { handle := 0x0051232A, status := 0, opcode := 4, event := false, noInt := false, time := 1234567890000, result := [] } 1).take 16 =
      [0x2A, 0x23, 0x51, 0, 0, 0, 4, 1, 0x50, 4, 0xFB, 0x71, 0x1F, 1, 0, 0] := by decide

/-- 05_bench_plan_and_fit_check.md, the worked example's timing and layers. -/
def planTiming : Timing := { ht := 4400, ha := 3840, hs := 88, hf := 176, vt := 2250, va := 2160, vs := 10, vf := 8, khz := 594000, d30 := false }

def planLayer (slot : Nat) (words : List Nat) (sw sh fmt : Nat) : CfgLayer :=
  { slot := slot, owner := 0x21, image := (List.range 6).zip (words.map w32), vid := none, base := 0, sw := sw, sh := sh, fmt := fmt, colour := 0 }

def planLayers : List CfgLayer :=
  [planLayer 20 [0x000FF011, 0x00010001, 0, 0x04380780, 0, 0x08700F00] 1920 1080 6,
   planLayer 21 [0x000FF009, 0x00010002, 0, 0x08700F00, 0, 0x08700F00] 3840 2160 0x11,
   planLayer 22 [0x000FF009, 0x00010003, 0, 0x07D007D0, 0x019000C8, 0x03E803E8] 2000 2000 1,
   planLayer 23 [0x000FF021, 0x00010004, 0, 0x06400190, 0x064007D0, 0x01900640] 400 1600 1]

/-- The fifth layer of the example, which crosses the bandwidth share. -/
def planFifth : CfgLayer := planLayer 24 [0x000FF009, 0x00010005, 0, 0x08700F00, 0x02580960, 0x021C03C0] 3840 2160 1

set_option maxRecDepth 20000 in
theorem test_plan_costs :
    planLayers.map (fun l => (l.costF, l.costS planTiming, l.costL planTiming)) =
      [(2976, 13504, 19200), (15420, 3904, 983040), (16128, 4064, 48384), (6464, 1664, 204800)] := by decide

set_option maxRecDepth 20000 in
/-- 06_layer_composition.md, vector 1: straight alpha over the bottom layer (514, 1028, 2056). -/
theorem test_compose_vector1 :
    blend (applyPlane 0xFF (applyAlpha 0 (pixel32 1 0x80FF0040))) { a := 4095, r := 514, g := 1028, b := 2056 } =
      { a := 4095, r := 2312, g := 512, b := 1540 } := by decide

set_option maxRecDepth 20000 in
/-- 06_layer_composition.md, vector 2: premultiplied alpha with plane alpha. -/
theorem test_compose_vector2 :
    blend (applyPlane 0xC0 (applyAlpha 1 (pixel32 1 0x80800020))) { a := 4095, r := 514, g := 1028, b := 2056 } =
      { a := 4095, r := 1868, g := 639, b := 1666 } := by decide

/-- 06_layer_composition.md, vector 3: BT.709 limited range. -/
theorem test_compose_vector3 : yuvPixel 1 0x7E 0x60 0xA0 = { a := 4095, r := 2978, g := 1893, b := 971 } := by decide

/-- 06_layer_composition.md, vector 4: increment and positions. -/
theorem test_compose_vector4 :
    phaseInc 4 8 = 32768 ∧ scalePos 4 8 0 = (-1, 48) ∧ scalePos 4 8 1 = (0, 16) ∧ scalePos 4 8 7 = (3, 16) := by decide

set_option maxRecDepth 20000 in
/-- 08_check_values_core_samples_and_floor_images.md: the CRC-8 of the worked example. -/
theorem test_cv_crc8 :
    let c : CvCfg := { w := 8, poly := 7, init := 0, refin := false, refout := false, xorout := 0 }
    cvFinal c (cvFeedBytes c 0 [8, 9, 0, 2, 4, 6, 2, 2, 4, 4, 8, 8]) = 0x86 := by decide

set_option maxRecDepth 20000 in
/-- 08_check_values_core_samples_and_floor_images.md: CRC-32 of "123456789", with the running value before the end. -/
theorem test_cv_crc32 :
    cvFeedBytes {} 0xFFFFFFFF [0x31, 0x32, 0x33, 0x34, 0x35, 0x36, 0x37, 0x38, 0x39] = 0x9B63D02C ∧
      crc32 [0x31, 0x32, 0x33, 0x34, 0x35, 0x36, 0x37, 0x38, 0x39] = 0xCBF43926 := by decide

/-- 10_haptic_and_acoustic_feedback.md: what the first step of HAP_4 costs. -/
theorem test_haptic_cost : stepCost 1000 213 = 3557803 := by decide

set_option maxRecDepth 20000 in
/-- 13_memory_controller.md: where DRAM offset 0x12345678 lies. -/
theorem test_dram_address :
    blockLocal (0x12345678 / 64) + 56 = 0x26D60F8 ∧ checkLocal (0x12345678 / 64) = 0x26D63CC ∧ rowOf 0x26D60F8 = 0x4DA ∧
      columnOf 0x26D60F8 = 0xF8 ∧ State.reset.bankOf 0x26D60F8 = 0xF := by decide

/-- 01_the_w880_at_a_glance.md: the table gives no bits, so no word spells a command (log 17). -/
theorem test_no_bits (n w : Nat) : Sys2Proof.decodeTableWord n w = none := by rfl

/-! ### The statements on steps, accesses and the host interface -/

theorem test_wit_StepRunsTheFrontCommand :
    ({ base with pending := [.perstAssert] } : State).pending = .perstAssert :: [] ∧ base.pending = [] := by decide

theorem test_wit_StepKeepsCanonicalForm :
    ({ State.reset with pending := [.modEnFall] } : State).wf = true ∧
      ∃ t, step { State.reset with pending := [.modEnFall] } = .next t := ⟨by decide, _, rfl⟩

theorem test_wit_WritesFollowTheAccessCodes :
    (let f := fdl 31 28 .rw [(0, 2)]
     f.fld.lo ≤ f.fld.hi ∧ f.fld.hi ≤ 31 ∧ f.acc = .rw ∧ f.ok 3 = false) ∧
    (fd 0 0 .rwl).acc = .rwl ∧ (fd 31 31 .w1c).acc = .w1c ∧ (fd 4 1 .w1s).acc = .w1s ∧ (fd 7 0 .rc).acc = .rc ∧
    ((fd 31 28 .rw).fld.hi < 4 ∨ 3 < (fd 31 28 .rw).fld.lo) ∧
    (let l := [fd 31 28 .rw, fd 27 4 .ro, fd 3 0 .rw]
     fd 3 0 .rw ∈ l ∧ l.Pairwise (fun a b => a.fld.hi < b.fld.lo ∨ b.fld.hi < a.fld.lo) ∧
       ∀ g ∈ l, g.fld.lo ≤ g.fld.hi ∧ g.fld.hi ≤ 31) := by decide

theorem test_wit_ServedWriteActs :
    R.outFloorColour 0 % 4 = 0 ∧ base.reach C (R.outFloorColour 0) = some (0x43, 0) ∧
      base.serves C (R.outFloorColour 0) = true := by decide

theorem test_wit_RefusedAccessesAreLoggedAndChangeNothing :
    ([0, 0, 0] : List Byte) ≠ [] ∧ (base.pasidOk none 0x2000000 = true ∧ base.reach H 0x2000000 = none) ∧
    base.reach C 0x1000000 = none ∧
    (base.pasidOk none 0x2040 = true ∧ base.reach H 0x2040 = some (3, 0) ∧ sizeOk true 0x2040 3 = false) ∧
    sizeOk true 0x2040 8 = true ∧
    (base.reach H R.wldPwrNotice = some (0x80, 3) ∧ sizeOk true R.wldPwrNotice 4 = true ∧
      base.pageWorld1 (pageOf R.wldPwrNotice) = true) ∧
    (let s := inSlice base { st := .frozen, pasid := 1#20 }
     s.pasidOk (some 1#20) 0x1001040 = true ∧ s.reach P 0x1001040 = some (0x101, 0) ∧ 0x040 ≤ 0x1001040 % 0x1000 ∧
       s.windowFrozen 0 = true) ∧
    (base.answers = true ∧ 0xFFFC % 4 = 0 ∧ 0xFFFC + 4 ≤ 0x10000) ∧ (base.hif.linkUp = true ∧ base.hif.retry = false) ∧
    (0x0FFFFFFD + 3 ≤ 0x10000000 ∧ (regs base [(R.hifAperCtrl, 0x80000000)]).flag R.hifAperCtrl F.hifAperCtrl_enable = true ∧
      base.dmc.selfRefresh = false) ∧
    base.flag R.hifAccessErrInfo F.hifAccessErrInfo_valid = false ∧
    (regs base [(R.hifAccessErrInfo, 0x80000000)]).flag R.hifAccessErrInfo F.hifAccessErrInfo_valid = true := by decide

theorem test_wit_GuardDenialsAreLoggedAndTrap :
    base.clocked 0x80 1 = true ∧ base.flag R.wldGuardLogInfo F.wldGuardLogInfo_valid = false ∧
    (regs base [(R.wldGuardLogInfo, 0x80000000)]).flag R.wldGuardLogInfo F.wldGuardLogInfo_valid = true ∧
    (let s := base.setCore 1 { held := false }
     ((s.core 1).runs = true ∧ (s.core 1).st = 0) ∧
     (let k : AccessKind := .load 4
      (s.core 1).pmpOk ((s.core 1).accessUser k) (AccessKind.perm k) (0x102FFFFD#32).toNat (AccessKind.len k) = true ∧
      0x10000000 ≤ (0x102FFFFD#32).toNat ∧ 0x10300000 < (0x102FFFFD#32).toNat + AccessKind.len k ∧
      (0x103FFFFC#32).toNat + AccessKind.len k ≤ 0x10400000)) := by decide

theorem test_wit_ReadsAnswerTheRegister :
    base.pasidOk none R.stnTimeLo = true ∧ base.reach H R.stnTimeLo = some (3, 0) ∧ R.stnTimeLo % 4 = 0 ∧
    base.softResetting (pageOf R.stnTimeLo) = false ∧ base.pageWorld1 (pageOf R.stnTimeLo) = false ∧
    base.reach C R.wldPwrNotice = some (0x80, 3) := by decide

theorem test_wit_ApertureReachesDram :
    let on := regs base [(R.hifAperCtrl, 0x80000000)]
    let last := regs base [(R.hifAperCtrl, 0x80000000 + 7424)]
    (base.answers = true ∧ 0x0FFFFFFF + bar2Len (.read 1) ≤ 0x10000000 ∧ bar2Poisoned (.read 1) = false) ∧
    base.flag R.hifAperCtrl F.hifAperCtrl_enable = false ∧
    (on.flag R.hifAperCtrl F.hifAperCtrl_enable = true ∧ on.dmc.selfRefresh = false) ∧
    (on.aperture + 0 + 1 ≤ dramEnd ∧ on.dramProtected (on.aperture + 0) 1 = false) ∧
    (last.flag R.hifAperCtrl F.hifAperCtrl_enable = true ∧ 0x0FFFFFFF + 1 ≤ 0x10000000 ∧
      dramEnd < last.aperture + 0x10000000 - 0 + 1 ∨ last.dramProtected (last.aperture + 0) 1 = true) := by decide

theorem test_wit_PageEventsFollowTheirRegisters :
    pageAt ((0x170 : Fin 8192).val * 0x1000) = some (0x41, 0) ∧ base.clocked 0x41 0 = true ∧
    base.serves C (0x170000 + 0x18) = true ∧ base.serves C (0x170000 + 0x10) = true := by decide

theorem test_wit_SoftResetReturnsRegisters :
    let s : State := { base with hif := { base.hif with softReset := [0x140000] } }
    pageAt 0x140000 = some (0x30, 0) ∧ softResets 0x30 = true ∧ base.serves C (0x140000 + 0x08) = true ∧
    s.softResetting 0x140000 = true ∧ 0x044 ∈ pageRegs 0x30 0 ∧ s.keptBySoftReset 0x30 0 0x044 = false := by decide

theorem test_wit_VectorsSendTheirMessages :
    let s := regs { base with hif := { base.hif with msixEnable := true } } [(K.pba 63, 0x80000000), (K.msix 2047 3, 0)]
    let m : State := { s with hif := { s.hif with lastMsg := [(2047, some 0)] } }
    let q : State := { s with hif := { s.hif with merged := [2047] } }
    (s.pba 2047 = true ∧ s.canSend 2047 = true ∧ s.moderated 2047 = false) ∧
    (let w := regs m [(K.moderation 2047, 1)]
     w.pba 2047 = true ∧ w.canSend 2047 = true ∧ w.moderated 2047 = true) ∧
    (let l : State := { s with hif := { s.hif with heldLines := [0] } }
     let w := regs { l with hif := { l.hif with lastMsg := [(0x7F8, some 0)] } } [(K.msix 0x7F8 3, 0), (K.moderation 0x7F8, 1)]
     l.pba 0x7F8 = false ∧ w.lateMsix 0x7F8 = true ∧ w.canSend 0x7F8 = true ∧ w.moderated 0x7F8 = true) ∧
    (q.hif.merged.contains 2047 = true ∧ q.moderated 2047 = false ∧ q.canSend 2047 = true) ∧
    ({ q with hif := { q.hif with functionMask := true } } : State).canSend 2047 = false := by decide

theorem test_wit_HostReadsEnd :
    let rd (gone : Bool) : HostRead :=
      { tag := 3, use := .audio 0 1, gid := 9, place := 0, off := 0, len := 4, pasid := some 1#20, discard := gone }
    let g (len : Nat) : Gather := { gid := 9, use := .audio 0 1, pasid := some 1#20, first := 0, len := len, todo := [] }
    let s (gone : Bool) (len : Nat) : State := { base with hif := { base.hif with reads := [rd gone], gathers := [g len] } }
    ((s false 4).hif.reads.find? fun x => x.tag == 3) = some (rd false) ∧
    ((s true 4).hif.reads.find? fun x => x.tag == 3) = some (rd true) ∧
    ((s false 4).hif.reads.find? fun x => x.tag == 0) = none ∧
    (([0, 0, 0, 0] : List Byte).length = (rd false).len ∧ ([0, 0, 0] : List Byte).length ≠ (rd false).len) ∧
    (((s false 4).hif.gathers.find? fun x => x.gid == 9) = some (g 4) ∧ ((g 4).take 0 [0, 0, 0, 0]).bytes.length = (g 4).len) ∧
    (((s false 8).hif.gathers.find? fun x => x.gid == 9) = some (g 8) ∧ ((g 8).take 0 [0, 0, 0, 0]).bytes.length ≠ (g 8).len) ∧
    (s false 4).hif.timeoutDisable = false ∧ ∀ d, DmaRes.ur ≠ .ok d := by
  refine ⟨by decide, by decide, by decide, by decide, by decide, by decide, by decide, by simp⟩

theorem test_wit_TheLinkDetachesSlices :
    let down : State := { base with hif := { base.hif with linkUp := false } }
    let off := inSlice base { st := .detached, pasid := 1#20 }
    (down.hif.linkUp = false ∧ down.linkTrains = true) ∧
    (base.hif.linkUp = true ∧ SliceState.detaches (base.slice 0).st = true) ∧
    (off.wf = true ∧ bitAt (1#32).toNat 0 = true ∧ off.hif.linkUp = true ∧ off.hif.busMaster = true ∧
      (off.slice 0).st = .detached ∧ off.serves H R.hifLinkCtrl = true) ∧
    ((off.slice 0).before = .bound ∧ (off.space 0).heldRecs = []) := by decide

theorem test_wit_FunctionLevelResetClearsTheInterface :
    base.hif.linkUp = true ∧ base.hif.retry = false ∧ 0x40 ≤ R.hifAperCtrl % 0x1000 := by decide


def args0 : CmdArgs := { words := List.replicate 8 0#32, fence := false, noInt := false }

theorem test_wit_CommandsAreIssuedOrRefused :
    let on := regs base [(R.cqCtrl 0, 1)]
    base.serves P (R.cmdOp 0) = true ∧ base.serves H (R.cmdOp 256) = true ∧
    opAvailable 0 0x07 = false ∧ opAvailable 0 0x00 = false ∧ opAvailable 256 0x04 = false ∧ opAvailable 256 0x13 = false ∧
    base.issueRefusal 0 6 args0.words = some 0x1006 ∧ on.issueRefusal 0 6 args0.words = none ∧
    (on.issueHandle 0 (handleLow 0 6 args0.words)).isSome = true := by decide

theorem test_wit_RingsTakeEntriesAndFreeHandles :
    let sq := regs (base.setSpace 0 { entry := some (List.replicate 64 0) }) [(R.sqCtrl 0, 1), (R.sqTail 0, 1)]
    let r : Rec := { handle := 1, status := 0, opcode := 6, event := true, time := 0, result := [], noInt := false }
    let held := regs (base.setSpace 0 { heldRecs := [r] }) [(R.cqCtrl 0, 1)]
    let cq := regs base [(R.cqCtrl 0, 1), (R.cqTail 0, 5)]
    (64 + 2 ^ 32 - base.num (R.sqHead 0)) % 2 ^ 32 ≤ base.sqSize 0 ∧
    base.sqSize 0 < (65 + 2 ^ 32 - base.num (R.sqHead 0)) % 2 ^ 32 ∧
    base.serves P (R.sqTail 0) = true ∧ base.serves P (R.handleQuery 0) = true ∧
    ((sq.space 0).entry = some (List.replicate 64 0) ∧ sq.takes 0 = true ∧ sq.sqAhead 0 ≠ 0 ∧
      sq.dlogBlocks 0 (sq.sqEntryAddr 0 + 56) 8 = false) ∧
    (let log := regs (inSlice sq { st := .bound, pasid := 1#20, waiting := [{ addr := 0, data := [], kind := 0 }] })
       [(R.slcAdmMig 0, 2), (R.slcAdmDlogCtrl 0, 1)]
     (log.space 0).entry = some (List.replicate 64 0) ∧ log.takes 0 = true ∧ log.sqAhead 0 ≠ 0 ∧
       log.dlogBlocks 0 (log.sqEntryAddr 0 + 56) 8 = true ∧ log.entryWaits 0 = false) ∧
    (bitAt (1#32).toNat 0 = true ∧ base.cqOn 0 = false ∧ base.serves P (R.cqCtrl 0) = true) ∧
    (bitAt (0#32).toNat 0 = false ∧ cq.cqOn 0 = true ∧ held.cqOn 0 = true ∧ cq.serves P (R.cqCtrl 0) = true) ∧
    (5 + 2 ^ 32 - cq.num (R.cqHead 0)) % 2 ^ 32 ≤ cq.cqUsed 0 ∧
    cq.cqUsed 0 < (6 + 2 ^ 32 - cq.num (R.cqHead 0)) % 2 ^ 32 ∧ cq.serves P (R.cqHead 0) = true := by decide

/-! ### The statements on slices, surfaces and plans -/

theorem test_wit_SliceCommandsMoveTheSlice :
    let u := regs base [(R.slcAdmPasid 255, 2)]
    let frozen := inSlice base { st := .frozen, pasid := 1#20 }
    let locked := regs base [(pageBase 0x42 0 + 0x1C, 0x200), (pageBase 0x42 0 + 0x20, 1)]
    base.serves H (R.slcAdmCtrl 0) = true ∧ base.serves C (R.slcAdmCtrl 255) = true ∧
    ((u.slice 255).st = .unbound ∧ BitVec.ofNat 20 (u.fld (R.slcAdmPasid 255) F.slcAdmPasid_pasid) ≠ 0#20 ∧
      u.pasidTaken 255 2#20 = false) ∧
    (base.slice 0).st ≠ .unbound ∧
    (SliceState.resettable (base.begin.dueFrames.slice 0).st = true ∧ base.begin.dueFrames.grantLocked 0 = false) ∧
    (SliceState.resettable (locked.begin.dueFrames.slice 0).st = true ∧ locked.begin.dueFrames.grantLocked 0 = true) ∧
    SliceState.resettable (base.begin.dueFrames.slice 255).st = false ∧
    (let back := inSlice base { st := .frozen, pasid := 1#20, restored := true }
     (back.slice 0).st = .frozen ∧ (back.slice 0).restored = true) ∧
    (base.slice 0).st = .bound ∧ (frozen.slice 0).st ≠ .bound ∧
    ((frozen.slice 0).st = .frozen ∧ (frozen.slice 0).restored = false) ∧ (base.slice 0).st ≠ .frozen ∧
    (bitsOf (0#32).toNat 3 0 = 0 ∧ 6 ≤ bitsOf (6#32).toNat 3 0 ∧ 6 ≤ bitsOf (15#32).toNat 3 0) := by decide

theorem test_wit_SliceTransitionsEnd :
    let r := inSlice base { st := .resetting, pasid := 1#20 }
    let un := inSlice base { st := .resetting, pasid := 1#20, unbinding := true }
    let f := inSlice base { st := .freezing, pasid := 1#20 }
    (r.resetOver 0 = true ∧ (r.slice 0).unbinding = false) ∧ (un.resetOver 0 = true ∧ (un.slice 0).unbinding = true) ∧
    ((f.slice 0).st = .freezing ∧ (f.space 0).cmds.any Cmd.inProgress = false ∧
      (f.space 0).heldRecs.all (·.event) = true ∧ (f.slice 0).waiting = []) := by decide

theorem test_wit_GrantsFollowOwnersAndPermissions :
    let pg := pageBase 0x50 27
    let owned := regs base [(pg + 0x1C, 0x200)]
    let all := regs base [(R.slcAdmPerm 0, 2 ^ 25 - 1)]
    (pageAt pg = some (0x50, 27) ∧ ownedKind 0x50 = some 2 ∧ (2 = 2 → 27 < 28) ∧ base.pageWorld1 pg = false ∧ base.ownerLock pg = false ∧
      base.worldLock pg = false ∧ base.serves H (pg + 0x1C) = true) ∧
    (base.ownerKind pg = 0 ∧ bitsOf (0x200#32).toNat 9 8 = 2 ∧ bitsOf (0x100#32).toNat 9 8 = 1) ∧
    (owned.ownerKind pg = 2 ∧ owned.pageWorld1 pg = false ∧ bitsOf (0#32).toNat 9 8 = 0) ∧
    (bitAt (base.num (R.slcAdmPerm 0)) 24 = false ∧ (0x1000000#32).toNat = base.num (R.slcAdmPerm 0) + 2 ^ 24 ∧
      base.serves H (R.slcAdmPerm 0) = true) ∧
    (bitAt (all.num (R.slcAdmPerm 0)) 24 = true ∧ (0xFFFFFF#32).toNat + 2 ^ 24 = all.num (R.slcAdmPerm 0)) := by decide

theorem test_wit_SliceAdministrationTakesItsWrites :
    let cap := inSlice base { st := .bound, pasid := 1#20, captured := true }
    let log := regs base [(R.slcAdmMig 0, 2)]
    ((base.slice 0).st = .bound ∧ (base.slice 0).captured = false) ∧ (cap.slice 0).captured = true ∧
    (base.slice 1).st ≠ .bound ∧ base.serves H (R.slcAdmMig 0) = true ∧ base.serves P (R.slcGrantQuery 0) = true ∧
    base.serves H (R.slcAdmMap 0) = true ∧ base.serves H (R.slcAdmDlogHead 0) = true ∧
    (bitAt (1#32).toNat 0 = true ∧ log.fld (R.slcAdmMig 0) F.slcAdmMig_method = 2 ∧ log.dlogOn 0 = false ∧
      log.serves H (R.slcAdmDlogCtrl 0) = true) := by decide

def seg0 : Seg := { kind := .zero, runs := [], dram := [(0, 64)], groups := [], off := 0, size := 64 }

def xfer0 : Xfer := { sp := 0, handle := 0, op := 1, slice := 0, segs := [seg0], idx := 0, done := 0, vid := none, src := none,
                      snoop := none, buf := [], data := none, order := 0 }

theorem test_wit_EnginesMoveSegments :
    let s : State := { base with haul := { base.haul with xfers := [xfer0], engines := [(3, { run := some (0, 0) })] } }
    let t : State := { base with haul := { base.haul with
      surfaces := [(K.surf 0 1, some { ident := 0x10001, w := 64, h := 64 })] } }
    ((s.engine 3).run = some (0, 0) ∧ s.xfer 0 0 = some xfer0 ∧ xfer0.seg = some seg0 ∧ s.dmc.selfRefresh = false ∧
      (seg0.kind == .host && xfer0.reads && xfer0.data.isNone) = false) ∧
    (({ s with dmc := { s.dmc with selfRefresh := true } } : State).dmc.selfRefresh = true ∧ xfer0.op ≠ 0x05 ∧ xfer0.op ≠ 0x12) ∧
    base.serves H R.srfQueryId = true ∧
    (t.surface (t.fld R.srfQuerySlice F.srfQuerySlice_slice) 0x10001).isSome = true ∧
    t.surface (t.fld R.srfQuerySlice F.srfQuerySlice_slice) 0xFFFFFFFF = none := by decide

theorem test_wit_TheFitCheckTakesAndDecides :
    let o7 (x : OutSt) : State := base.setOut 7 x
    let q := o7 { queue := [.share 0#32] }
    let c := o7 { queue := [.commit commit0] }
    let bad := { commit0 with owner := 0, layers := [(0, onImage)] }
    (((q.out 7).check = none) ∧ q.takeUpSuspended = false ∧ q.secondary = false ∧ q.clocked 0x40 7 = true ∧
      (q.out 7).queue = .share 0#32 :: []) ∧
    ((c.out 7).queue = .commit commit0 :: [] ∧ (c.out 7).gen ≠ .running) ∧
    (let r := o7 { queue := [.commit commit0], gen := .running }
     (r.out 7).queue = .commit commit0 :: [] ∧ (r.out 7).gen = .running ∧
       (r.bindLayers 256 commit0.enabled).toOption = some [] ∧ (r.bindLayers 0 bad.enabled).toOption = none) ∧
    ((o7 { check := some (.share 0#32) }).out 7).check = some (.share 0#32) ∧
    (base.sharesFit 7 (sharesOf 0#32) && (base.checkOut 7 (base.checked 7 []) (sharesOf 0#32)).isNone) = true ∧
    base.sharesFit 7 (sharesOf 0xFFFFFF00#32) = false ∧
    ((o7 { check := some (.commit commit0) }).out 7).gen ≠ .running ∧
    (let r := o7 { check := some (.commit commit0), gen := .running }
     (r.out 7).gen = .running ∧ r.checkOut 7 (r.candidate 7 commit0) (r.shares 7) = none ∧
       r.checkOut 7 (r.candidate 7 { commit0 with probe := true }) (r.shares 7) = none) ∧
    (let l : CfgLayer := { slot := 0, owner := 0, image := farImage, vid := none, base := 0, sw := 0, sh := 0, fmt := 0, colour := 0 }
     let f := { commit0 with owner := 0, layers := [(0, onImage)], bound := [l] }
     let r := regs (o7 { check := some (.commit f), gen := .running }) [(R.lyrAssign 0, 7), (lyrPage 0 + 0x1C, 0x200)]
     (r.checkOut 7 (r.candidate 7 f) (r.shares 7)).isSome = true) ∧
    (let r : State := { timed.setOut 7 { gen := .running } with time := 1000000000 }
     r.inFreeze 7 = true ∧ (timed.setOut 7 { gen := .running }).inFreeze 7 = false) ∧
    base.secondary = false := by decide

theorem test_wit_SharesAndSnapshotsAndReductions :
    let full := base.setOut 0 { queue := List.replicate 32 (.share 0#32) }
    let r : State := { base with reductions := [{ cause := 0, value := 3, waits := [] }] }
    let x : State := { base with reductions := [{ cause := 1, value := 1, waits := [] }] }
    (base.ownerLock (pageBase 0x40 0) = false ∧ (base.out 0).queue.length < 32 ∧ base.serves C (R.bplShare 0) = true) ∧
    32 ≤ (full.out 0).queue.length ∧ (bitAt (3#32).toNat 0 = true ∧ base.serves C (R.bplRbCtrl 7) = true) ∧
    ((r.reductions.filter (·.waits.isEmpty)).find? (fun e => e.cause == 0) = some { cause := 0, value := 3, waits := [] } ∧
      (r.reductions.filter (·.waits.isEmpty)).any (fun e => e.cause == 1) = false ∧ r.dmc.switching = none) ∧
    ((x.reductions.filter (·.waits.isEmpty)).any (fun e => e.cause == 1) = true ∧
      (x.reductions.filter (·.waits.isEmpty)).any (fun e => e.cause == 0) = false) := by decide

theorem test_wit_LayerImagesAreWritten :
    let a := regs base [(R.lyrAssign 0, 0x107), (R.lyrAssign 63, 15)]
    let s := inSlice (regs base [(lyrPage 63 + 0x1C, 0x200)])
      { st := .bound, pasid := 1#20, ords := [(256, some 63)] }
    (a.ownerKind (lyrPage 63) = 0 ∧ a.worldLock (lyrPage 63) = false ∧ a.ownerLock (lyrPage 63) = false ∧
      a.slotCap 63 = false ∧ a.serves H (R.lyrAssign 63) = true) ∧
    (bitsOf (0x707#32).toNat 3 0 < 8 ∧
      ∀ k, k < 64 → k ≠ 63 → a.slotOut k = bitsOf (0x707#32).toNat 3 0 → a.slotPos k ≠ bitsOf (0x707#32).toNat 10 8) ∧
    (0 < 64 ∧ (0 : Nat) ≠ 63 ∧ a.slotOut 0 = bitsOf (0x107#32).toNat 3 0 ∧ a.slotPos 0 = bitsOf (0x107#32).toNat 10 8) ∧
    (a.reqProtected C = true ∧ bitAt (0x8007#32).toNat 15 = true ∧ bitsOf (0x8007#32).toNat 10 8 ≠ 7) ∧
    s.ownerKind (lyrPage 63) ≠ 0 ∧ (regs base [(lyrPage 63 + 0x20, 2)]).worldLock (lyrPage 63) = true ∧
    base.serves P (R.slcLyrSel 0) = true ∧ s.lyrSelSlot 0 = some 63 ∧
    s.flag (R.slcLyrSel 0) F.slcLyrSel_bank = false ∧ s.serves P (R.slcLyrData 0) = true ∧
    s.serves P (R.slcLyrCtrl 0) = true := by decide

theorem test_wit_CapstoneCommitsJoinTheQueue :
    let cap := regs base [(R.lyrAssign 0, 0x8007), (R.lyrAssign 63, 0x800F)]
    let bad := cap.setLayer 0 { shadow := [(0, 1#32)] }
    (cap.slotCap 0 = true ∧ cap.worldDown = false ∧ cap.reqProtected C = true ∧ cap.serves C (R.lyrCapCtrl 0) = true) ∧
    (bad.slotOut 0 = 7 ∧ bad.begin.capBadSource (bad.layer 0).shadow = true) ∧ (cap.slotCap 63 = true ∧ cap.slotOut 63 = 15) ∧
    (let good := cap.setLayer 0 { shadow := [(0, 2#32)] }
     good.begin.capBadSource (good.layer 0).shadow = false ∧ good.slotOut 0 = 7 ∧
       (good.begin.snapshot 256 7 0 false).regions.any (good.begin.capBadRegion 7) = false) := by decide


/-! ### The statements on outputs, links, check values and floors -/

theorem test_wit_OutputControlStartsAndStops :
    let v := R.outCtrl 7
    let w (s : State) (x : Word) : State := s.begin.outCtrlPlain 7 x
    let run := timed.setF v F.outCtrl_run
    let tx := timed.setF v F.outCtrl_tx
    let held := (regs run [(R.lyrAssign 0, 7), (lyrPage 0 + 0x1C, 0x200)]).setLayer 0 { latched := onImage }
    timed.serves C v = true ∧ (timed.flag v F.outCtrl_run = false ∧ (timed.out 7).gen = .stopped) ∧
    (w timed 1#32).runRefused 7 false = false ∧ (w base 1#32).runRefused 7 false = true ∧
    run.flag v F.outCtrl_run = true ∧ (w run 0#32).stopRefused 7 = false ∧ (w held 0#32).stopRefused 7 = true ∧
    (timed.flag v F.outCtrl_tx = false ∧ (w timed 2#32).txRefused 7 = (false, false)) ∧ tx.flag v F.outCtrl_tx = true := by
  decide

theorem test_wit_OutputsTickOnTheirGrid :
    let r := timed.setOut 7 { gen := .running }
    let l := timed.setOut 7 { gen := .locking }
    (r.out 7).counts = true ∧
    ((r.out 7).line + 1) % max 1 (r.timing 7).vt ≠ r.latchLine 7 (r.timing 7) ∧
    ((l.out 7).gen = .locking ∧ l.pllOk (6 + 7) = true) := by decide

theorem test_wit_DisplayLinksTrainAndCarryAux :
    let a := R.outLinkStatus 7
    let st (n : Nat) : State := (timed.put a F.outLinkStatus_state n).put (pageBase 0x41 7 + 0x0C) ⟨17, 17⟩ 1
    let on := ((st 1).setF (R.outCtrl 7) F.outCtrl_tx).setF (R.outCtrl 7) F.outCtrl_run
    let own (s : State) : State := s.setOut 7 { auxOwn := true }
    let sink : SinkCaps := { maxRate := 6, maxLanes := 1, rates := [] }
    let tun := timed.setOut 7 { retune := true }
    let two : SinkCaps := { maxRate := 30, maxLanes := 1, rates := [] }
    let q (request defers : Nat) : AuxReq := { request := request, addr := 0x100, len := 1, data := [], defers := defers }
    let busy (x : OutSt) : State := base.setOut 7 x
    base.linkMode 7 ≠ 2 ∧ (on.linkState 7 ≠ 0 ∧ on.flag (R.outCtrl 7) F.outCtrl_tx = true ∧
      on.flag (R.outCtrl 7) F.outCtrl_run = true) ∧
    ((st 6).hpd 7 = true ∧ (st 6).linkState 7 = 6) ∧ (3 ≤ (st 3).linkState 7 ∧ (st 5).linkState 7 ≤ 5) ∧
    ((st 2).hpd 7 = true ∧ (st 2).linkState 7 = 2 ∧ ((st 2).out 7).auxOwn = false) ∧
    (nextAttempt ((own (st 2)).tryRates 7 two) ((own (st 2)).attempt 7 two).1 ((own (st 2)).attempt 7 two).2).isSome = true ∧
    (((own (st 2)).out 7).auxOwn = true ∧ (own (st 2)).linkState 7 = 2) ∧
    nextAttempt ((own (st 2)).tryRates 7 sink) ((own (st 2)).attempt 7 sink).1 ((own (st 2)).attempt 7 sink).2 = none ∧
    (st 7).linkState 7 = 7 ∧ ((tun.out 7).retune = true ∧ tun.pllOk (6 + 7) = true ∧ tun.holdover = false) ∧
    (bitAt (0x89000003#32).toNat 31 = true ∧ base.flag (R.outAuxCmd 7) F.outAuxCmd_start = false ∧
      base.serves C (R.outAuxCmd 7) = true ∧
      (let w := (base.put (R.outAuxCmd 7) F.outAuxCmd_request 9).put (R.outAuxCmd 7) F.outAuxCmd_len_m1 3
       w.auxBlocked 7 (w.auxRequest 7) = false) ∧
      (let w := ((regs (st 2) [(R.outAuxAddr 7, 0x100)]).put (R.outAuxCmd 7) F.outAuxCmd_request 8).put (R.outAuxCmd 7)
         F.outAuxCmd_len_m1 0
       w.auxBlocked 7 (w.auxRequest 7) = true)) ∧
    (((busy { auxReq := some (q 9 6), auxOwn := true }).out 7).auxReq = some (q 9 6) ∧ (q 9 6).defers < 7 ∧
      ((busy { auxReq := some (q 9 6), auxOwn := true }).out 7).auxWait = false) ∧
    (((busy { auxReq := some (q 9 6) }).out 7).auxOwn = false ∧ (busy { auxReq := some (q 9 6) }).auxBlocked 7 (q 9 6) = false) ∧
    (7 ≤ (q 9 7).defers ∧ AuxResult.ack ≠ .defer) ∧ auxReads 9 = true ∧ auxReads 8 = false := by decide

theorem test_wit_CheckValueUnitsAndFloorsAreWritten :
    let w := regs base [(pageBase 0x50 31 + 0x1C, 0x80000100), (pageBase 0x43 7 + 0x1C, 0x80000100)]
    let fed := w.setCvFeed 31 (.haul 0 0)
    let ld (len : Byte) : State := { base with
      floor := [(7, { load := some (.dram base.saveBase, .copying) })]
      mem := { base.mem with dram := [(base.saveBase + 16, len)] } }
    (w.cvStationWriter C 31 = true ∧ w.cvBusy 31 = false ∧ w.serves C (pageBase 0x50 31 + 0x040 + 4 * 4) = true) ∧
    (fed.cvStationWriter C 31 = true ∧ fed.cvBusy 31 = true) ∧ base.serves P (R.slcCvSel 0) = true ∧
    (w.pageWorld1 (pageBase 0x43 7) = true ∧ w.reqProtected C = true ∧ bitAt (0x8001DE00#32).toNat 31 = true ∧
      w.flag (R.outFloorSrc 7) F.outFloorSrc_start = false ∧ w.serves C (R.outFloorSrc 7) = true) ∧
    (w.dramReserved (bitsOf (0x8001DE00#32).toNat 19 0 * 65536) 64 = true ∧
      w.dramReserved (bitsOf (0x80000000#32).toNat 19 0 * 65536) 64 = false) ∧
    (((ld 63).floorSt 7).load = some (.dram base.saveBase, .copying) ∧
      Mem.le 0 (ld 63).mem.dram (base.saveBase + 16) 4 < 64) ∧
    (64 ≤ Mem.le 0 (ld 64).mem.dram (base.saveBase + 16) 4 ∧
      Mem.le 0 (ld 64).mem.dram (base.saveBase + 16) 4 ≤ floorSlotLen ∧
      (ld 64).dramReserved base.saveBase (Mem.le 0 (ld 64).mem.dram (base.saveBase + 16) 4) = true) := by decide

/-! ### The statements on touch, haptics and streams -/

set_option maxRecDepth 20000 in
theorem test_wit_PinsAndPanelsAreConfigured :
    let on := regs base [(tchPage 7 + 0x08, 1), (K.pin 0, 0xF80)]
    let ok := regs base [(K.pin 0, 0x780), (K.pin 511, 0xB80), (K.hop 7 0, 0x80000000)]
    (base.enabled (tchPage (bitsOf (0xF80#32).toNat 9 7)) = false ∧ base.serves C R.tcpPinCfg = true ∧
      bitsOf (0xB80#32).toNat 11 10 ≤ 2) ∧
    on.enabled (tchPage (bitsOf (on.rd (K.pin 0)).toNat 9 7)) = true ∧
    (ok.ownerLock (tchPage 7) = false ∧ ok.enabled (tchPage 7) = false ∧ ok.panelOk 7 = true ∧
      ok.serves C (tchPage 7 + 0x08) = true ∧ (ok.panel 7).plan = none) ∧
    base.panelOk 7 = false ∧ (on.ownerLock (tchPage 7) = false ∧ on.enabled (tchPage 7) = true) := by decide

theorem test_wit_PanelCommandsArePending :
    ((base.setPanel 7 { mode := 1 }).panel 7).mode ≠ 0 ∧ (base.panel 7).mode = 0 ∧ base.serves C (R.tchCtrl 7) = true ∧
    bitAt (3#32).toNat 0 = true ∧ base.serves C (R.tchRbCtrl 7) = true ∧ base.serves C (R.tchDiagSel 7) = true := by decide

theorem test_wit_TicksFallOnTheirGrids :
    let p := regs { base with time := 3000000, ticks := (3000000, 0, 0, 0) } [(R.stnTickCtrl, 0x80000001)]
    base.audTicks = true ∧ (regs base [(R.clkPllStatus, 0)]).audTicks = false ∧ 4000000 % 4000000 = 0 ∧
    p.flag R.stnTickCtrl F.stnTickCtrl_pending = true ∧ base.flag R.stnTickCtrl F.stnTickCtrl_pending = false := by decide

theorem test_wit_HapticChannelsEnable :
    (base.ownerLock (hapPage 7) = false ∧ (base.chan 7).mode = .off ∧ base.serves C (hapPage 7 + 0x08) = true) ∧
    ((base.setF (hapPage 7 + 0x08) ⟨0, 0⟩).enabled (hapPage 7) = true ∧
      ((chan0 base { mode := .playing, allOnes := 15, stuck := 159 }).chan 0).mode = .playing ∧ base.enabled (hapPage 0) = false) ∧
    (base.setF (R.hapRail 0) F.hapRail_rail_ok).railOk = true ∧ base.railOk = false ∧
    (let rest := (((List.range 8).filter (· ≠ 7)).map fun m => ((base.chan m).floorNext).getD (base.floorMw m)).sum
     rest + bitsOf (w32 (12000 - rest)).toNat 15 0 = 12000 ∧ 12000 < rest + bitsOf (0xFFFF#32).toNat 15 0) ∧
    base.serves C (R.hapBudget 7) = true ∧ (bitAt (1#32).toNat 0 = true ∧ base.serves C (R.hapRbCtrl 7) = true) := by decide

theorem test_wit_StartsAndStopsWaitForTheLoop :
    let s := inSlice base { st := .bound, pasid := 1#20, ords := [(K.ord 5 7, some 3)] }
    bitAt (0x7FFFFFFF#32).toNat 31 = false ∧ bitAt (0x80000000#32).toNat 31 = true ∧ base.serves C (R.hapCmd 7) = true ∧
    s.globalOf 0 5 (bitsOf (0x07000000#32).toNat 27 24) = some 3 ∧
    s.globalOf 0 5 (bitsOf (0x87000000#32).toNat 27 24) = some 3 ∧ s.serves P (R.slcHapTrig 0) = true ∧
    (base.globalOf 0 5 (bitsOf (0x07000000#32).toNat 27 24) = none ∧ bitsOf (0x07000000#32).toNat 27 24 < 8) := by decide

def start0 : HapStart := { src := .station, owner := 0xFE, ownerSlice := false, prio := 0, level := 1, effect := 0, ord := 0, due := 0 }

def play0 : Play := { req := start0, addr := 0, len := 1, repeats := 0, k0 := 0, fresh := false }

theorem test_wit_PlaysBrakeAndPendingStartsBegin :
    let p := chan0 base { mode := .playing, play := some play0 }
    let b := chan0 base { mode := .braking, pend := some start0 }
    ((p.chan 0).mode = .playing ∧ (p.chan 0).play = some play0 ∧ (play0.req.src == .stream) = false) ∧
    ((b.chan 0).mode = .braking ∧ (b.chan 0).pend = some start0) ∧
    (((chan0 base { mode := .braking }).chan 0).mode = .braking ∧ ((chan0 base { mode := .braking }).chan 0).pend = none) ∧
    ((p.chan 0).mode ≠ .off ∧ (p.chan 0).mode ≠ .fault) := by decide

theorem test_wit_TheRailFaultsAndRecovers :
    let ok := (chan0 base { mode := .idle }).setF (R.hapRail 0) F.hapRail_rail_ok
    let bad : State := { chan0 base { mode := .fault, railFault := true } with hapShared := { base.hapShared with railOn := true } }
    ok.railOk = true ∧ (ok.chan 7).mode = .off ∧ ((ok.chan 0).mode ≠ .off ∧ (ok.chan 0).mode ≠ .fault) ∧
    (bad.railOk = false ∧ bad.hapShared.railOn = true) ∧
    ((bad.chan 0).mode = .fault ∧ (bad.chan 0).railFault = true ∧ (bad.chan 0).closing = false) ∧
    (bad.chan 7).mode ≠ .fault := by decide

theorem test_wit_TheEffectStoreAndAccelerometersAreReached :
    let at' (n : Nat) (s : State) : State := s.put (R.hapStoreAddr 0) F.hapStoreAddr_addr n
    let last := at' (storeEnd / 4 - 1) base
    let busy := at' 0x4000 (chan0 base { mode := .playing, play := some play0 })
    base.serves C (R.hapStoreCtrl 0) = true ∧
    (last.storeAddr < storeEnd ∧ last.storeAddr = storeEnd - 4 ∧ last.oldBusy = false ∧ last.serves C (R.hapStoreData 0) = true) ∧
    (0x10000 ≤ busy.storeAddr ∧ busy.storeAddr < storeEnd ∧ busy.oldBusy = true) ∧ base.pageWorld1 (hapPage 0) = false ∧
    (bitAt (0x82000000#32).toNat 31 = true ∧ base.serves C (R.hapAccRaw 7) = true ∧ bitsOf (0x82000000#32).toNat 25 24 ≤ 2) ∧
    (base.chan 7).mode = .off ∧ base.secondary = false ∧ ((chan0 base { mode := .idle }).chan 0).mode ≠ .off := by decide

theorem test_wit_StreamsTakeTheirWords :
    let s := inSlice base { st := .bound, pasid := 1#20, ords := [(K.ord 5 7, some 3)] }
    bitAt (1#32).toNat 0 = true ∧ (s.streamOn 0 (some 7) = false ∧ (s.globalOf 0 5 7).isSome = true ∧
      s.serves P (R.slcHapData 0) = true) ∧
    (s.streamOn 0 none = false ∧ s.serves P (R.slcAudData 0) = true) ∧
    s.streamSize 0 (some 7) < ((257#32).toNat + 2 ^ 32 - s.num (K.hst 0 7 4)) % 2 ^ 32 ∧
    ((256#32).toNat + 2 ^ 32 - s.num (K.hst 0 7 4)) % 2 ^ 32 ≤ s.streamSize 0 (some 7) := by decide

theorem test_wit_SlavePortsFollowTheirClocks :
    let s := (regs base [(pageBase 0x72 3 + 0x08, 1)]).clrF (R.audTdmCtrl 3) F.audTdmCtrl_master
    (s.flag (R.audTdmCtrl 3) F.audTdmCtrl_master = false ∧ s.enabled (pageBase 0x72 3) = true ∧ s.tdmSends 3 = true) ∧
    (regs s [(R.clkPllStatus, 0)]).tdmSends 3 = false := by decide


/-! ### The statements on cores, interrupts, memory and clocks -/

/-- Core 1 runs in GENERAL, the world is armed with service 63, and the token is free. -/
def general : State :=
  let s := (regs base [(K.gateEntry 63, 0x10308001)]).setF R.wldGateCtrl F.wldGateCtrl_armed
  State.setCore { s with wld := { s.wld with token := none } } 1 { held := false }

theorem test_wit_TheProtectedWorldIsEnteredAndLeft :
    let run (s : State) (x : CoreSt) : State := s.setCore 1 { x with held := false }
    let parked := general.setF R.wldStatus F.wldStatus_parked
    let busy : State := { general with wld := { general.wld with token := some 0 } }
    let due : State := { general with wld := { general.wld with restartDue := true } }
    let irq := regs (general.setSrc 320 { pending := true, cfg := 0x711#32 }) [(R.wldSrcWorld 10, 1), (R.cicThresh 1, 0)]
    let lock := regs general [(R.wldLock, 0xFFFFFFFF)]
    (base.core 1).runs = false ∧ ((general.core 1).runs = true ∧ (general.core 1).user = false ∧ (general.core 1).st = 0) ∧
    ((run general { user := true }).core 1).user = true ∧ ((run general { st := 1 }).core 1).st ≠ 0 ∧
    (general.armed = true ∧ general.parked = false ∧ general.serviceValid 63 = true ∧ general.tokenBusy = false) ∧
    (base.armed = false ∧ parked.parked = true ∧ general.serviceValid 0 = false ∧ busy.tokenBusy = true) ∧
    (irq.forcedDue 1 = true ∧ irq.forcedDue 0 = false ∧ irq.wld.token = none) ∧ general.forcedDue 1 = false ∧
    (due.wld.restartDue = true ∧ due.wld.token = none ∧ due.anyForced = false ∧ due.restartCore = some 0) ∧
    general.wld.restartDue = false ∧ due.imgError (copyBase (due.flag R.bootStatus F.bootStatus_copy)) 0x800000 1 ≠ 0 ∧
    (∀ e ∈ ([.gate 31, .monitor, .forced true, .restart false] : List EntryKind),
      ((run general { st := 1, entry := some e }).core 1).runs = true ∧
      ((run general { st := 1, entry := some e }).core 1).unsaved = false) ∧
    ((run general { st := 1, entry := some .powerOn }).core 1).unsaved = true ∧
    (lock.worldLocked = true ∧ general.worldLocked = false) := by decide

theorem test_wit_MonitorCallsReturnTheirResults :
    let on := regs general [(R.wldCoreCtrl, 2)]
    let ask (a0 : Word) : State := on.setCore 1 { held := false, x := [(10, a0)] }
    let full := regs on ((List.range 16).map fun k => (K.mailbox k 0, 0x40000000))
    let slot (v : Nat) : State := regs (ask 0xF#32) [(K.mailbox 15 0, v)]
    ((on.core 1).runs = true ∧ (on.core 1).st = 0 ∧ (on.core 1).user = false ∧ bitAt (on.num R.wldCoreCtrl) 1 = true) ∧
    (((on.setCore 1 { held := false, user := true }).core 1).user = true ∧ bitAt ((regs general [(R.wldCoreCtrl, 0)]).num R.wldCoreCtrl) 1 = false) ∧
    64 ≤ (((ask 64#32).core 1).reg 10).toNat ∧
    ((((ask 63#32).core 1).reg 10).toNat < 64 ∧ (ask 63#32).parked = false ∧ (ask 63#32).freeSlot = some 0) ∧
    ((full.core 1).reg 10).toNat < 64 ∧ full.freeSlot = none ∧
    ((ask 63#32).setF R.wldStatus F.wldStatus_parked).parked = true ∧
    ((((slot 0x80000000).core 1).reg 10).toNat / 256 = bitsOf ((slot 0x80000000).num (K.mailbox 15 0)) 23 16 ∧
      (((slot 0x80000000).core 1).reg 10).toNat / 16 % 16 = 0 ∧ (slot 0x80000000).slotState 15 = 2 ∧
      (slot 0x40000000).slotState 15 = 1 ∧ (slot 0xC0000000).slotState 15 = 3 ∧ (slot 0).slotState 15 = 0) ∧
    (((ask 0x100#32).core 1).reg 10).toNat / 256 ≠ bitsOf ((ask 0x100#32).num (K.mailbox 0 0)) 23 16 := by decide

theorem test_wit_CoresTrapAndKeepTheirCaches :
    let mon := general.setCore 1 { held := false, st := 2, entry := some .monitor }
    let irq (x : CoreSt) : State := regs ((general.setCore 1 { x with held := false }).setSrc 320 { pending := true, cfg := 0x711#32 })
      [(R.cicThresh 1, 0)]
    let dram (ecc : Ecc) : List Byte × List Nat × State :=
      general.begin.dramRead ((general.core 1).windowOff 0x80000000) (AccessKind.len (.load 4)) 1 0 ecc
    ((general.core 1).runs = true ∧ (general.core 1).st ≠ 2 ∧ (general.core 1).user = false) ∧
    ((mon.core 1).runs = true ∧ (mon.core 1).st = 2 ∧ (mon.core 1).entry = some .monitor) ∧
    (general.accessFault 1 0x10400000 (.load 1)).1 = true ∧
    ((general.accessFault 1 0x10000000 (.load 4)).1 = false ∧ (general.accessFault 1 0x102FFFFC (.store [1, 2, 3, 4])).1 = false) ∧
    ((general.accessFault 1 0x80000000 (.load 4)).1 = false ∧ (dram {}).2.1 = [] ∧ (dram { ue := [0] }).2.1 ≠ []) ∧
    (let x : CoreSt := (irq { g := [(csr.mie, 0x800#32), (csr.mstatus, 8#32)] }).core 1
     x.st ≠ 2 ∧ (irq x).meip 1 (x.st != 0) = true ∧ bitAt (Tab.get 0#32 x.bank csr.mie).toNat 11 = true ∧
       bitAt (Tab.get 0#32 x.bank csr.mstatus).toNat 3 = true) ∧
    general.meip 1 false = false ∧ bitAt (Tab.get 0#32 (general.core 1).bank csr.mstatus).toNat 21 = false := by decide

theorem test_wit_TheProtectedWorldTakesItsWrites :
    let m := regs base [(R.wldMboxSel, 0xF0), (K.mailbox 15 0, 0x40000000)]
    let ok (v n : Nat) : Bool := assignable.any fun (t, k, permitted) =>
      t == v && n < k && base.ownerKind (pageBase v n) == b2n permitted
    (m.mboxSel = (15, 0) ∧ m.slotState 15 = 1 ∧ bitsOf (0x80000000#32).toNat 31 30 = 2 ∧ m.serves C R.wldMboxData = true) ∧
    ((0x511B#32).toNat % 2 ^ 24 ≠ 0 ∧ base.flag R.wldLock F.wldLock_assign_lock = false ∧ ok 0x51 127 = true ∧
      sourceOf 0x51 127 = some 276 ∧ base.serves C R.wldAssign = true) ∧
    ok 0x51 128 = false ∧ (base.setF R.wldLock F.wldLock_assign_lock).flag R.wldLock F.wldLock_assign_lock = true ∧
    base.serves C R.wldCacheWays = true ∧
    ((base.setF R.wldWdogCtrl F.wldWdogCtrl_enabled).flag R.wldWdogCtrl F.wldWdogCtrl_enabled = true ∧
      base.serves C R.wldWdogKick = true) ∧ (0xC35B#32 : Word) ≠ 0xC35A#32 ∧
    (base.clrF R.wldWdogCtrl F.wldWdogCtrl_enabled).flag R.wldWdogCtrl F.wldWdogCtrl_enabled = false := by decide

theorem test_wit_TheProtectedWorldIsReset :
    let s : State := { base with wld := { base.wld with wdog := some 7, resetting := true, notice := some (4, 9) } }
    let p : State := { s with wld := { s.wld with pendingPark := true } }
    s.wld.wdog = some 7 ∧ base.serves C R.wldPwCtrl = true ∧ (s.wld.resetting = true ∧ s.wld.pendingPark = false) ∧
    (p.wld.resetting = true ∧ p.wld.pendingPark = true) ∧ s.wld.notice = some (4, 9) ∧ s.serves C R.wldPwrNotice = true := by
  decide

theorem test_wit_SourcesAreClaimedAndCompleted :
    let s := base.setSrc 447 { claimed := true, claimer := 0 }
    let w := regs base [(R.cicSrcSel, 447), (R.wldSrcWorld 13, 0x80000000)]
    (base.serves C R.cicClaim = true ∧ base.pageWorld1 (pageOf R.cicClaim) = false) ∧
    ((s.src (bitsOf (447#32).toNat 8 0)).claimed = true ∧ (s.src 447).claimer = 0) ∧ (base.src 447).claimed = false ∧
    base.serves H R.cicClaim = true ∧ (base.srcWorld1 base.srcSel = false ∧ base.serves C R.cicSrcCfg = true) ∧
    (w.srcWorld1 w.srcSel = true ∧ w.srcSel = 447 ∧ w.reqProtected C = true ∧ w.reqProtected H = false ∧
      w.serves H R.cicSrcCfg = true) ∧ base.serves C R.cicSwi = true ∧ base.serves C (R.cicTcmpHi 3) = true := by decide

theorem test_wit_SetPointsAndTemperatures :
    let s := regs base [(R.dmcCtrl, 8), (R.dmcStatus, 1)]
    let low := regs base [(R.dmcCtrl, 8), (R.dmcStatus, 0x20001)]
    let sw : State := { base with dmc := { base.dmc with switching := some 3 } }
    let ask : State := { base with reductions := [{ cause := 1, value := 1, waits := [] }] }
    (((s.plainWrite R.dmcCtrl 3#32).fld R.dmcCtrl F.dmcCtrl_sp_min < F.dmcCtrl_sp_target.get 3#32) ∧
      s.serves C R.dmcCtrl = true) ∧
    (F.dmcCtrl_sp_target.get 10#32 ≤ (s.plainWrite R.dmcCtrl 10#32).fld R.dmcCtrl F.dmcCtrl_sp_min ∧ s.pwr.saved = none ∧
      s.dmcReady = true ∧ s.dmc.switching = none ∧ spReserve (F.dmcCtrl_sp_target.get 10#32) < spReserve s.spNow) ∧
    (F.dmcCtrl_sp_target.get 8#32 ≤ (low.plainWrite R.dmcCtrl 8#32).fld R.dmcCtrl F.dmcCtrl_sp_min ∧
      spReserve low.spNow ≤ spReserve (F.dmcCtrl_sp_target.get 8#32) ∧ low.reducing = none ∧
      F.dmcCtrl_sp_target.get 8#32 ≠ low.spNow ∧ low.dmcReady = true) ∧
    (sw.dmc.switching = some 3 ∧ sw.holdover = false) ∧ base.counting = true ∧
    ((∀ x ∈ [(79 : Int), -40], x < 80) ∧ base.extNow = false ∧ ¬base.reductions.any (fun e => e.cause == 1) = true) ∧
    ((∃ x ∈ [(80 : Int), 84], 80 ≤ x) ∧ ∀ x ∈ [(80 : Int), 84], x < 85) ∧
    ((∃ x ∈ [(85 : Int)], 85 ≤ x) ∧ ask.reductions.any (fun e => e.cause == 1) = true) := by decide

theorem test_wit_MemoryIsMaintained :
    let s := regs base [(R.dmcCtrl, 0x100), (R.dmcStatus, 1), (R.dmcScrubPos, dramBlocks - 1)]
    let t : State := { base with dmc := { base.dmc with throttled := [(.core 3, 5)] } }
    (s.dmcReady = true ∧ s.dmc.selfRefresh = false ∧ s.flag R.dmcCtrl F.dmcCtrl_scrub_en = true ∧
      s.fld R.dmcScrubPos F.dmcScrubPos_block < dramBlocks) ∧
    base.drainDue 7 false = true ∧ (regs base [(R.dmcWq, 0x3010)]).drainDue 7 true = false ∧
    (DramReq.core 3 ≠ .realTime ∧ base.rowReached 0 15 32767 (.core 3) = false ∧
      State.rowReached { base with dmc := { base.dmc with acts := [⟨0, 15, 32767, .core 3, 2047⟩, ⟨0, 15, 32767, .realTime, 1⟩] } }
        0 15 32767 (.core 3) = true) ∧
    (regs base [(R.dmcHammer, 0)]).fld R.dmcHammer F.dmcHammer_strikes ≤ 1 ∧
    (t.dmc.throttled.find? fun e => e.1 == throttleKey (.core 3)) = some (.core 3, 5) ∧
    (bitAt (0x80000000#32).toNat 31 = true ∧ base.reqProtected C = true ∧ base.serves C R.dmcEccInject = true) ∧
    (H.isHost = true ∧ base.ownerLock (pageBase 0x90 0) = false) ∧
    ((regs base [(pageBase 0x90 0 + 0x20, 1)]).ownerLock (pageBase 0x90 0) = true ∧ base.reqProtected H = false) ∧
    (dramPort 0x10 ≠ 1 ∧ 1 + 20000 ≤ 20001 ∧ 20001 < 2 + 20000) := by decide

/-- 15 R425: the bytes of an IDLE frame with sequence number 0x010203 begin with type 1. -/
theorem test_frameBytes :
    Frame.header ⟨false, true, 0x010203, 0x0A, 0x0B, .idle, 0⟩ 0 =
      [1, 2, 0, 0, 3, 2, 1, 0, 0x0A, 0, 0, 0, 0x0B, 0, 0, 0] := by decide

/-- 13 R385: the port order, a request of 20 µs ahead of a younger one, and scan-out ahead of both. -/
theorem test_portOrder :
    dramNext 20001 [(0x60, 2), (0x20, 3), (0x02, 4), (0x40, 5)] = some (0x02, 4) ∧
    dramNext 20001 [(0x02, 2), (0x60, 1), (0x50, 2)] = some (0x60, 1) ∧
    dramNext 20001 [(0x60, 1), (0x37, 20001), (0x31, 20001)] = some (0x37, 20001) := by decide

theorem test_wit_GatesAndRatiosMove :
    let cl : State := { base with clk := { base.clk with closing := [319] } }
    let d4 := regs base [(R.clkDomSel, 4)]
    let ramp := base.setDom 4 { src := 0, now := 1, target := 4, switching := true }
    let esc := base.setDom 18 { toSrc := some 1 }
    (base.serves C (R.clkGateOpen 9) = true ∧ bitAt (0x20000000#32).toNat 29 = true ∧ 21 ≤ 32 * 9 + 29 ∧ 32 * 9 + 29 ≤ 317) ∧
    (base.gateOpen 21 = true ∧ base.pageWorld1 (gatePage 21) = false ∧ base.gateBusy 21 = false ∧
      base.serves C (R.clkGateClose 0) = true) ∧
    (base.gateOpen 299 = true ∧ base.reqProtected C = true ∧ base.gateBusy 299 = true) ∧
    (cl.clk.closing.contains 319 = true ∧ cl.hif.softReset.contains (gatePage 319) = false) ∧
    (d4.pwr.saved = none ∧ (1 : Nat) ≠ (d4.dom 4).target ∧ d4.ratioWriter H 4 = true ∧ 1 ≤ ratioMax 4 ∧
      d4.serves H R.clkDomCfg = true ∧ d4.domSel = 4) ∧
    (base.ratioWriter H base.domSel = false ∧ (1 : Nat) ≠ (base.dom base.domSel).target) ∧
    ((ramp.dom 4).switching = true ∧ (ramp.dom 4).toSrc = none) ∧ (esc.dom 18).toSrc = some 1 ∧
    base.serves C R.clkOutCtrl = true := by decide

theorem test_wit_ReferencesAndPllsFailAndReturn :
    let lock : State := (regs base [(R.clkPllStatus, 0)]).startPll 13
    let hold := regs base [(R.clkRefStatus, 0x60000000)]
    let rec0 : State := { regs base [(R.clkRefStatus, 0)] with clk := { base.clk with windowsOk := 0 } }
    base.refOk = true ∧ hold.refOk = false ∧ base.xoOk = true ∧ (base.pllOk 13 = true ∧ base.refOk = true) ∧
    (lock.clk.started.contains 13 = true ∧ lock.pllOk 13 = false ∧ lock.refOk = true) ∧
    (base.reqProtected C = true ∧ base.serves C R.clkPllFailed = true ∧
      bitAt ((regs base [(R.clkPllFailed, 0x2000)]).num R.clkPllFailed) 13 = true) ∧
    (hold.holdover = true ∧ hold.coast = false) ∧ rec0.recovered = true ∧
    (780469 ≤ (780469#20).toNat ∧ (782031#20).toNat ≤ 782031) := by decide


/-! ### The statements on pairs, power and start-up -/

/-- A module of a pair in state `st` and role `role`. -/
def paired (st role : Nat) : State := (base.put R.pairStatus F.pairStatus_state st).put R.pairStatus F.pairStatus_role role

/-- Its haul link is up. -/
def linked (st role : Nat) : State := (paired st role).setF R.pairLinkStatus F.pairLinkStatus_up

/-- It is in the election, with key 5. -/
def elector : State := { State.reset with cells := [(R.pairKeyLo, 5#32), (R.pairKeyHi, 0#32)], pair := { base.pair with electing := true } }

theorem elector_key : elector.pairKey = 5 := by
  have lo : elector.num R.pairKeyLo = 5 := by rfl
  have hi : elector.num R.pairKeyHi = 0 := by rfl
  simp [State.pairKey, State.num64, lo, hi]

set_option maxRecDepth 20000 in
theorem test_wit_TheElectionAndTheLinkSetUpThePair :
    ((paired 1 0).pairSt = 1 ∧ (paired 1 0).pair.roleLow = false) ∧ elector.pair.electing = true ∧
    ((paired 2 1).linkOn = false ∧ 2 ≤ (paired 2 1).pairSt ∧ (paired 2 1).pairSt ≠ 7 ∧ (paired 2 1).pllOk 5 = true ∧
      (paired 2 1).flag R.pairStatus F.pairStatus_guard_tripped = false) ∧
    ((paired 2 1).setF R.pairStatus F.pairStatus_guard_tripped).flag R.pairStatus F.pairStatus_guard_tripped = true ∧
    (linked 6 2).linkOn = true ∧ (hdr 0).seq.toNat = (linked 6 2).pair.rxT ∧
    (hdr 0xFFFFFF).seq.toNat ≠ (linked 6 2).pair.rxT := by decide

theorem test_wit_TheElectionAndTheLinkSetUpThePair_keys : (4#64).toNat < elector.pairKey ∧ elector.pairKey ≤ (5#64).toNat := by
  simp [elector_key]

theorem test_wit_TheElectionAndTheLinkSetUpThePair_replays :
    let f : Frame := { bulk := true, nak := false, seq := 0, ackT := 0, ackB := 0, msg := .idle, replays := 2 }
    let sent : State := { linked 6 1 with pair := { base.pair with sent := [f] } }
    (sent.pair.sent.filter fun x => x.bulk == true) ≠ [] ∧ (sent.pair.sent.filter fun x => x.bulk == false) = [] ∧
      ∀ x ∈ sent.pair.sent.filter (fun x => x.bulk == true), x.replays ≠ 3 := by decide

theorem test_wit_TimingMessagesAct :
    let u := (linked 6 2).begin.accepted (hdr 0) false
    let p := (linked 6 1).begin.accepted (hdr 0) false
    let e (line : Nat) : LineCv := { o := 7, line := line, frame := 0, flags := 0, cv := 0 }
    let lead := timed.setOut 7 { gen := .running, lead := true, line := 1081 }
    let m : HapMirror := { ch := 7, st := 0, out := 0, a := 0, integ := 0, play := 0 }
    (linked 6 2).linkOn = true ∧ (hdr 0).seq.toNat = (linked 6 2).pair.rxT ∧ (hdr 1).seq.toNat ≠ (linked 6 2).pair.rxT ∧
    (u.secondary = true ∧ u.pairSt = 6) ∧ [m].Pairwise (fun a b => a.ch ≠ b.ch) ∧
    u.lineLate (e 0) = false ∧ (regs lead [(R.outLatch 7, 0xFFFF)]).lineLate (e 1082) = true ∧
    ((u.setOut 7 { gen := .running }).out 7).gen = .running ∧ (u.out 7).gen = .stopped ∧ p.pairRole = 1 := by decide

set_option maxRecDepth 20000 in
theorem test_wit_BulkMessagesAct :
    let u := (linked 4 2).begin.accepted (hdr 0) true
    let p := (linked 2 1).begin.accepted (hdr 0) true
    let n := (linked 3 2).begin.accepted (hdr 0) true
    (List.replicate 2 (0 : Byte)).length ≤ 4064 ∧ (hdr 0).seq.toNat = (linked 4 2).pair.rxB ∧
    (hdr 1).seq.toNat ≠ (linked 4 2).pair.rxB ∧
    (p.pairRole = 1 ∧ p.pairSt = 2) ∧
    (n.pairRole = 2 ∧ n.pairSt = 3) ∧ u.secondary = true ∧
    (pageAt (R.outFloorColour 7) = some (0x43, 7) ∧ cmdOpSpace 0x43 7 (R.outFloorColour 7) = none ∧
      u.pageWorld1 (pageOf (R.outFloorColour 7)) = false) ∧
    (dramEnd - 1 + 1 ≤ dramEnd ∧ dramEnd - 1 < dramEnd ∧ u.dramProtected 0 1 = false ∧ u.dramProtected base.saveBase 1 = true ∧
      base.saveBase + 1 ≤ dramEnd) ∧
    (dramEnd ≤ dramEnd ∧ dramEnd + 1 ≤ copyStore ∧ copyStore + 1 ≤ copyEnd ∧ ([0] : List Byte) ≠ []) ∧
    (catchupCell (R.outFloorColour 7) = true ∧ R.outFloorColour 7 ≠ R.clkDomCfg) ∧
    (cmdOpSpace 0x100 0 (R.cmdOp 0) = some 0 ∧ pageAt (R.cmdOp 0) = some (0x100, 0)) ∧
    (pageAt (pageBase 0x60 0 + 0x060) = some (0x60, 0) ∧ pwTouchReg ((pageBase 0x60 0 + 0x060) % 0x1000) = true) ∧
    u.pairSt = 4 := by decide

theorem test_wit_BulkMessagesAct_hello (p : State) :
    p.helloMatches p.pair.digest (p.rd R.stnFamily) (p.rd R.stnCapsMem) = true := by simp [State.helloMatches]

theorem test_wit_TheRolesChangeHands :
    let ed (a : Bool) (t : Nat) : State := { paired 5 2 with time := t, pair := { base.pair with edge := some 1000, aligned := a } }
    let ho (role : Nat) : State := { paired 6 role with pair := { base.pair with handover := some 5 } }
    ((linked 3 2).pairSt = 3 ∧ (linked 3 2).linkOn = true) ∧ ((paired 3 2).pairSt = 3 ∧ (paired 3 2).linkOn = false) ∧
    (paired 2 1).pairRole = 1 ∧
    ((ed false 0).secondary = true ∧ (ed false 0).pair.edge = some 1000 ∧ (ed false 0).pair.aligned = false) ∧
    ((ed true 979).pair.aligned = true ∧ (979 : Nat) + 20 < 1000 ∧ (ed true 979).time = 979) ∧
    ((ed true 980).pair.aligned = true ∧ (ed true 980).time ≤ 1000 + 20 ∧ 1000 ≤ (ed true 980).time + 20) ∧
    ((paired 1 0).pairSt ≠ 0 ∧ (paired 1 0).refOk = true) ∧ (regs (paired 2 1) [(R.clkRefStatus, 0)]).refOk = false ∧
    ((paired 2 1).pairSt ≠ 6 ∧ (paired 2 1).pairRole = 1 ∧ (paired 2 1).linkOn = false ∧ (paired 2 1).refOk = true) ∧
    (let lost : State := { paired 6 2 with pair := { base.pair with hbSeen := true } }
     lost.pairRole = 2 ∧ 5 < lost.pairSt ∧ lost.linkOn = false ∧ lost.pair.hbSeen = true) ∧
    ((paired 6 1).linkOn = false ∧ 2 ≤ (paired 6 1).pairSt ∧ (paired 6 1).pairSt ≠ 7) ∧
    ((paired 6 1).pairSt = 6 ∧ (paired 6 1).pairRole = 1 ∧ (paired 6 1).pair.handover = none ∧
      (paired 6 1).flag R.pairCtrl F.pairCtrl_handover = false ∧ (paired 6 1).serves C R.pairCtrl = true) ∧
    (paired 6 2).pairRole ≠ 1 ∧
    ((ho 1).pair.handover = some 5 ∧ (ho 1).pairRole = 1) ∧ ((ho 2).pair.handover = some 5 ∧ (ho 2).secondary = true) ∧
    (paired 7 2).pairSt = 7 ∧
    ({ paired 6 1 with pair := { base.pair with roleLow := true } } : State).pair.roleLow = true := by decide

theorem test_wit_PowerStatesChangeOnRequest :
    let run := base.setF R.wldStatus F.wldStatus_running
    let st (n : Nat) : State := base.put R.pwrState F.pwrState_current n
    let wake (n : Nat) : State := { st n with pwr := { base.pwr with wakeTime := 5 } }
    let ret : State := { base with pwr := { base.pwr with retaining := some 3 }, hif := { base.hif with powerState := 3 }, slices := [] }
    let all := ret.setCore 0 { held := false, wfi := true }
    let idle : State := { base with slices := [] }
    (2 ≤ 4 ∧ run.reqProtected H = false ∧ run.flag R.wldStatus F.wldStatus_running = true ∧ run.pwrBusy = false ∧
      run.serves H R.pwrState = true) ∧
    (base.reqProtected C = true ∧ base.powerRefusal 2 base.pwrBusy = some 2 ∧ base.serves C R.pwrState = true) ∧
    base.flag R.wldStatus F.wldStatus_running = false ∧ base.wakes (base.timeAfter 0) = false ∧
    (st 1).powerRefusal 0 false = none ∧ base.powerRefusal 1 false = none ∧ idle.powerRefusal 2 false = none ∧
    idle.powerRefusal 3 false = none ∧ idle.powerRefusal 4 false = none ∧ idle.pwrBusy = false ∧
    (st 2).power = 2 ∧ ((wake 2).power = 2 ∧ (wake 2).wakes ((wake 2).timeAfter 1000) = true) ∧
    ((wake 3).power = 3 ∧ (wake 3).wakes ((wake 3).timeAfter 1000) = true ∧ (wake 3).pwr.modEn = true ∧
      (wake 3).pwr.mainOk = true) ∧
    ret.pwr.retaining = some 3 ∧ (all.pwr.retaining = some 3 ∧ all.allWfi = true ∧ all.hif.powerState = 3) := by decide

set_option maxRecDepth 20000 in
theorem test_wit_PinsAndSuppliesResetTheModule :
    let st (n : Nat) : State := base.put R.pwrState F.pwrState_current n
    let pw (n : Nat) (f : Pwr → Pwr) : State := { st n with pwr := f base.pwr }
    let warn := base.setF R.pwrBoStatus F.pwrBoStatus_warning
    let cold := pw 2 fun p => { p with mainOk := false, bootDue := true }
    let late : State := base.clrF R.bootStatus F.bootStatus_host_ready
    let dog := pw 0 fun p => { p with wdog := some 4 }
    ((pw 2 fun p => { p with modEn := false }).pwr.modEn = false ∧ (pw 2 fun p => { p with modEn := false }).power ≤ 2) ∧
    ((pw 4 fun p => { p with modEn := false }).power = 4 ∧ (pw 4 fun p => { p with modEn := false }).pwr.vstby = true) ∧
    ((pw 3 fun p => { p with modEn := false }).power = 3 ∧ (pw 3 fun p => { p with modEn := false }).pwr.mainOk = true) ∧
    (base.pwr.modEn = true ∧ base.pairSt ≠ 6) ∧ (pw 4 fun p => { p with vstby := false, modEn := true }).pwr.modEn = true ∧
    (let rec3 := pw 3 fun p => { p with mainOk := false }
     rec3.pwr.tripOpen = false ∧ rec3.pwr.mainOk = false ∧ rec3.power = 3 ∧ rec3.pwr.modEn = true) ∧
    ((10799#16).toNat < 10800 ∧ (10400#16).toNat = 10400 ∧ (10599#16).toNat < 10600 ∧ (9500#16).toNat = 9500) ∧
    ((paired 6 1).pairSt = 6 ∧ (paired 6 1).pairRole = 1 ∧ (paired 6 1).pair.handover = none ∧ (paired 6 1).pwr.modEn = true) ∧
    ((pw 2 fun p => { p with modEnFell := some 1 }).pwr.modEnFell = some 1 ∧ (pw 2 fun p => { p with modEnFell := some 1 }).power ≤ 2) ∧
    ((pw 4 fun p => { p with vstby := false }).pwr.vstby = false ∧ (pw 4 fun p => { p with vstby := false }).pwr.modEn = true) ∧
    (pw 4 fun p => { p with vstby := false, modEn := false }).pwr.modEn = false ∧ base.pwr.vstby = true ∧
    (base.pwr.perstLow = false ∧ base.power ≤ 2) ∧
    ((pw 2 fun p => { p with perstLow := true, bootDue := true }).pwr.bootDue = true ∧
      (pw 2 fun p => { p with perstLow := true, bootDue := true }).pwr.mainOk = true) ∧
    (late.flag R.bootStatus F.bootStatus_host_ready = false ∧ late.pwr.perstLow = false ∧ late.pwr.bootDue = false) ∧
    (bitsOf (0x5A170001#32).toNat 31 16 = 0x5A17 ∧ bitAt (0x5A170001#32).toNat 0 = true ∧ base.serves C R.pwrReset = true) ∧
    (dog.pwr.wdog = some 4 ∧ dog.power ≤ 1 ∧ dog.serves C R.pwrWdogKick = true) ∧
    (base.warned = false ∧ (10399#16).toNat < 10400 ∧ base.power ≤ 1) ∧ warn.warned = true ∧ 10600 ≤ (10600#16).toNat ∧
    ((9499#16).toNat < 9500 ∧ (st 2).power ≤ 2) ∧ 2 < (st 3).power ∧
    (10800 ≤ (10800#16).toNat ∧ cold.pwr.tripOpen = false ∧ cold.pwr.mainOk = false ∧ cold.power ≤ 2 ∧ cold.pwr.bootDue = true) ∧
    base.flag R.pwrBoStatus F.pwrBoStatus_vio_a_fault = false ∧
    (base.setF R.pwrBoStatus F.pwrBoStatus_vio_b_fault).flag R.pwrBoStatus F.pwrBoStatus_vio_b_fault = true := by decide

set_option maxRecDepth 20000 in
theorem test_wit_CoresAreReleasedHaltedAndReset :
    base.serves C R.bootCtrl = true ∧ base.serves H R.bootCtrl = true ∧ base.serves C R.bootCoreCtrl = true ∧
    base.serves H R.bootCoreCtrl = true ∧
    (bitAt (0xE#32).toNat 3 = true ∧ (base.core 3).held = true) ∧
    (base.clrF R.bootStatus F.bootStatus_host_ready).flag R.bootStatus F.bootStatus_host_ready = false ∧
    ((general.core 1).held = false ∧ general.coreBarred H 1 = false ∧ base.coreBarred C 0 = false) ∧
    ((base.core 0).held = false ∧ base.coreBarred H 0 = true) := by decide

set_option maxRecDepth 20000 in
theorem test_wit_FlashTemperatureAndInterlock :
    let a (n : Nat) : State := base.put R.bootFlashAddr F.bootFlashAddr_addr n
    let g := regs (a 0) [(K.guardBase 2 0, 0), (K.guardSize 2 0, 0x80000001)]
    let f : FlashOp := { erase := false, addr := 0, data := List.replicate 256 0, suspended := false }
    let fl : State := { base with pwr := { base.pwr with flash := some f } }
    let hot : State := { base with pwr := { base.pwr with tripOpen := true } }
    base.flag R.bootFlashCmd F.bootFlashCmd_start = false ∧ base.serves C R.bootFlashCmd = true ∧
    (a 255).fld R.bootFlashAddr F.bootFlashAddr_addr % 256 ≠ 0 ∧ (a 256).fld R.bootFlashAddr F.bootFlashAddr_addr % 256 = 0 ∧
    (a 0x10000).fld R.bootFlashAddr F.bootFlashAddr_addr % 0x10000 = 0 ∧
    (g.inGuard 2 0 256 && !g.reqWorld1 H) = true ∧ (g.inGuard 2 0x10000 256 && !g.reqWorld1 C) = false ∧
    ((a 0).setF R.pwrBoStatus F.pwrBoStatus_warning).warned = true ∧ (a 0).warned = false ∧
    (fl.pwr.flash = some f ∧ f.suspended = false ∧ f.data.length = 256) ∧
    ((124 : Int) < 125 ∧ base.pwr.tripOpen = false) ∧ (hot.pwr.tripOpen = true ∧ (95 : Int) ≤ 95) ∧
    (base.setF R.stnModule F.stnModule_hv_interlock).flag R.stnModule F.stnModule_hv_interlock = true ∧
    base.flag R.stnModule F.stnModule_hv_interlock = false := by decide

end Sys2Proof.Slice0
end

section
/-!
SUPPORT AND PROOFS. The value that a write leaves in a field, by the field's access code (00_scope.md R12, R14, R16):
`FldDesc.next`. A write reaches nothing outside the field, so the writes to the fields of one register do not disturb one
another.
-/

namespace Sys2Proof

/-! ### Bits of a number -/

theorem bitAt_eq_testBit (n i : Nat) : bitAt n i = n.testBit i :=
  Nat.testBit_eq_decide_div_mod_eq.symm

theorem bitAt_or (a b i : Nat) : bitAt (a ||| b) i = (bitAt a i || bitAt b i) := by
  simp only [bitAt_eq_testBit, Nat.testBit_or]

theorem andNot_le (a b : Nat) : andNot a b ≤ a := Nat.sub_le ..

/-- No borrow crosses from the lowest bit: `a &&& b` has no bit that `a` lacks. -/
theorem andNot_div_two (a b : Nat) : andNot a b / 2 = andNot (a / 2) (b / 2) := by
  have hbit : (a &&& b) % 2 = 1 ↔ a % 2 = 1 ∧ b % 2 = 1 := Nat.and_mod_two_eq_one
  have hrest : (a &&& b) / 2 = a / 2 &&& b / 2 := Nat.and_div_two
  unfold andNot
  omega

theorem andNot_mod_two (a b : Nat) : andNot a b % 2 = 1 ↔ a % 2 = 1 ∧ ¬ b % 2 = 1 := by
  have hbit : (a &&& b) % 2 = 1 ↔ a % 2 = 1 ∧ b % 2 = 1 := Nat.and_mod_two_eq_one
  have hle : a &&& b ≤ a := Nat.and_le_left
  unfold andNot
  omega

theorem bitAt_andNot (a b i : Nat) : bitAt (andNot a b) i = (bitAt a i && !bitAt b i) := by
  simp only [bitAt_eq_testBit]
  induction i generalizing a b with
  | zero => simp only [Nat.testBit_zero, andNot_mod_two, Bool.decide_and, decide_not]
  | succ i ih => simp only [Nat.testBit_succ, andNot_div_two, ih]

/-! ### One field -/

theorem Fld.get_lt (f : Fld) (w : Word) : f.get w < 2 ^ (f.hi + 1 - f.lo) := Nat.mod_lt _ (by positivity)

theorem Fld.get_put_of_lt (f : Fld) (w : Word) {v : Nat} (h : f.lo ≤ f.hi) (k : f.hi ≤ 31)
    (hv : v < 2 ^ (f.hi + 1 - f.lo)) : f.get (f.put w v) = v := by
  rw [f.get_put_same w v h k, Nat.mod_eq_of_lt hv]

/-- The value a field holds after `x` is written to it, when it held `o`: the access codes of R12, with the lock of R14 and
the reserved values of R16. -/
def FldDesc.next (f : FldDesc) (locked : Bool) (o x : Nat) : Nat :=
  match f.acc with
  | .rw => if f.ok x then x else o
  | .rwl => if locked then o else if f.ok x then x else o
  | .w1c => andNot o x
  | .w1s => o ||| x
  | .ro | .wo | .rc => o

/-- A write of a field leaves the whole word or replaces that field. -/
theorem FldDesc.write_cases (f : FldDesc) (locked : Bool) (old v : Word) :
    f.write locked old v = old ∨ ∃ x, f.write locked old v = f.fld.put old x := by
  unfold FldDesc.write
  cases f.acc with
  | rw => exact (ite_eq_or_eq ..).symm.imp_right fun h => ⟨_, h⟩
  | rwl => exact (ite_eq_or_eq ..).symm.imp_right fun h => ⟨_, h⟩
  | w1c | w1s => exact .inr ⟨_, rfl⟩
  | ro | wo | rc => exact .inl rfl

theorem FldDesc.get_write (f : FldDesc) (locked : Bool) (old v : Word) (h : f.fld.lo ≤ f.fld.hi) (k : f.fld.hi ≤ 31) :
    f.fld.get (f.write locked old v) = f.next locked (f.fld.get old) (f.fld.get v) := by
  have hput {x : Nat} := f.fld.get_put_of_lt old (v := x) h k
  have hold := f.fld.get_lt old
  have hnew := f.fld.get_lt v
  unfold FldDesc.write FldDesc.next
  cases f.acc with
  | rw => simp only [apply_ite f.fld.get, hput hnew]
  | rwl => cases locked <;> simp [apply_ite f.fld.get, hput hnew]
  | w1c => exact hput ((andNot_le ..).trans_lt hold)
  | w1s => exact hput (Nat.or_lt_two_pow hold hnew)
  | ro | wo | rc => rfl

/-- A write of a field leaves every field that shares no bit with it. -/
theorem FldDesc.get_write_disjoint (f : FldDesc) (g : Fld) (locked : Bool) (old v : Word) (h : f.fld.lo ≤ f.fld.hi)
    (k : f.fld.hi ≤ 31) (hg : g.lo ≤ g.hi) (d : g.hi < f.fld.lo ∨ f.fld.hi < g.lo) :
    g.get (f.write locked old v) = g.get old := by
  obtain e | ⟨x, e⟩ := f.write_cases locked old v
  · rw [e]
  · rw [e, f.fld.get_put_disjoint g old x h k hg d]

/-! ### All the fields of a register -/

@[simp] theorem writeFields_cons (f : FldDesc) (l : List FldDesc) (locked : Bool) (old v : Word) :
    writeFields (f :: l) locked old v = writeFields l locked (f.write locked old v) v := rfl

/-- A write of a register leaves a field that shares no bit with any of its fields. -/
theorem get_writeFields_disjoint (g : Fld) (l : List FldDesc) (locked : Bool) (old v : Word) (hg : g.lo ≤ g.hi)
    (hl : ∀ f ∈ l, f.fld.lo ≤ f.fld.hi ∧ f.fld.hi ≤ 31) (d : ∀ f ∈ l, g.hi < f.fld.lo ∨ f.fld.hi < g.lo) :
    g.get (writeFields l locked old v) = g.get old := by
  induction l generalizing old with
  | nil => rfl
  | cons f l ih =>
    simp only [List.forall_mem_cons] at hl d
    obtain ⟨⟨h, k⟩, hl⟩ := hl
    rw [writeFields_cons, ih _ hl d.2, f.get_write_disjoint g locked old v h k hg d.1]

/-- Each field of a register takes the value that a write of it alone would leave in it. -/
theorem get_writeFields_mem (f : FldDesc) (l : List FldDesc) (locked : Bool) (old v : Word) (hf : f ∈ l)
    (p : l.Pairwise fun a b => a.fld.hi < b.fld.lo ∨ b.fld.hi < a.fld.lo)
    (hl : ∀ g ∈ l, g.fld.lo ≤ g.fld.hi ∧ g.fld.hi ≤ 31) :
    f.fld.get (writeFields l locked old v) = f.next locked (f.fld.get old) (f.fld.get v) := by
  induction l generalizing old with
  | nil => cases hf
  | cons g l ih =>
    obtain ⟨d, p⟩ := List.pairwise_cons.mp p
    obtain ⟨h, k⟩ := hl f hf
    obtain ⟨⟨hg, kg⟩, ht⟩ := List.forall_mem_cons.mp hl
    rw [writeFields_cons]
    obtain rfl | hf := List.mem_cons.mp hf
    · rw [get_writeFields_disjoint f.fld l _ _ v h ht d, f.get_write locked old v h k]
    · rw [ih _ hf p ht, g.get_write_disjoint f.fld locked old v hg kg h (d f hf).symm]

/-! ### The statement -/

/-- Settles O6: the value of a written field is `FldDesc.next`, which is read off by access code; the other fields stay. -/
theorem writesFollowTheAccessCodes : Obligations.WritesFollowTheAccessCodes := by
  unfold Obligations.WritesFollowTheAccessCodes
  intro f locked old v h k
  have hnext := f.get_write locked old v h k
  refine ⟨fun hacc => ?rw, fun hacc => ?rwl, fun hacc i => ?w1c, fun hacc i => ?w1s, fun hacc => ?unwritten,
    fun g hg _ d => f.get_write_disjoint g locked old v h k hg d,
    fun l hf p hl => (get_writeFields_mem f l locked old v hf p hl).trans hnext.symm⟩
  case rw => rw [hnext, FldDesc.next, hacc]
  case rwl => rw [hnext, FldDesc.next, hacc]
  case w1c => rw [hnext, FldDesc.next, hacc, bitAt_andNot]
  case w1s => rw [hnext, FldDesc.next, hacc, bitAt_or]
  case unwritten => obtain hacc | hacc | hacc := hacc <;> rw [FldDesc.write, hacc]

end Sys2Proof
end

section
/-!
SUPPORT AND PROOFS. The ticks of the grids (01_the_w880_at_a_glance.md R27 to R33). A station tick takes a pending rate after
the frame ticks that fall at it, so the proof rests on one frame fact: a frame tick writes no register of the station's own
pages but their event bits (`StnStays`).
-/

namespace Sys2Proof.Machine

/-! ### The registers below the host interface's pages -/

/-- From `s` to `t` every register of the pages below HIF_0 stays, but for the pages' event bits. -/
structure StnStays (s t : State) : Prop where
  rd_eq : ∀ a, a < 0x10000 → a % 0x1000 ≠ 0x10 → t.rd a = s.rd a

theorem StnStays.refl {s : State} : StnStays s s := ⟨fun _ _ _ => rfl⟩

theorem StnStays.trans {s t u : State} (h : StnStays s t) (k : StnStays t u) : StnStays s u :=
  ⟨fun a ha he => (k.rd_eq a ha he).trans (h.rd_eq a ha he)⟩

/-- An operation that keeps the register table. -/
theorem StnStays.keep {l : List Field} {s t u : State} (h : StnStays s t) (k : Keeps l t u)
    (hl : l.contains .cells = false := by rfl) : StnStays s u :=
  h.trans ⟨fun a _ _ => by
    unfold State.rd
    rw [k.same .cells hl]⟩

/-- A write at or above HIF_0. -/
theorem StnStays.wr {s t : State} (h : StnStays s t) {a : Nat} {w : Word} (ha : 0x10000 ≤ a) : StnStays s (t.wr a w) :=
  h.trans ⟨fun _ hb _ => t.rd_wr_other w (by omega)⟩

theorem StnStays.put {s t : State} (h : StnStays s t) {a v : Nat} {f : Fld} (ha : 0x10000 ≤ a) : StnStays s (t.put a f v) :=
  h.wr ha

theorem StnStays.ite {s a b : State} {c : Prop} [Decidable c] (h : StnStays s a) (k : StnStays s b) :
    StnStays s (if c then a else b) := by
  split
  · exact h
  · exact k

theorem StnStays.each {α : Type} {s t : State} {l : List α} {f : State → α → State} (h : StnStays s t)
    (k : ∀ u x, StnStays u (f u x)) : StnStays s (t.each l f) := by
  unfold State.each
  induction l generalizing t with
  | nil => exact h
  | cons x l ih => exact ih (h.trans (k t x))

/-! ### Where the registers lie -/

theorem le_pageReg {base k off : Nat} (h : 0x10000 ≤ base) : 0x10000 ≤ base + k + off :=
  Nat.le_add_right_of_le (Nat.le_add_right_of_le h)

theorem le_winPage (sl p : Nat) : 0x10000 ≤ winPage sl p := le_pageReg (by decide)

theorem le_cmdPage (sp : Nat) : 0x10000 ≤ cmdPage sp := by
  unfold cmdPage
  split
  · exact le_winPage sp 0
  · decide

theorem pageBase_mod (ty inst : Nat) : pageBase ty inst % 0x1000 = 0 := by
  have aligned : ∀ e ∈ stationPages, e.1 % 0x1000 = 0 := by decide
  unfold pageBase
  split
  · next b _ _ hb =>
    have := aligned _ (List.mem_of_find?_eq_some hb)
    dsimp only at this
    omega
  · rfl

/-! ### Signals and events -/

theorem State.signal_stnStays (s : State) (sl : Option Nat) (v : Nat) : StnStays s (s.signal sl v) := by
  have message (u : State) (vec : Nat) : StnStays u (u.message vec) := by
    unfold State.message
    exact .ite (.keep .refl (State.dueMsix_keeps ..)) (.put .refl (Nat.le_add_right_of_le (by decide)))
  unfold State.signal
  split
  · exact .refl
  · extract_lets u
    have hu : StnStays s u := by
      subst u
      split
      · exact .ite .refl (.put .refl (by decide))
      · exact .put .refl (by decide)
    exact .ite (hu.keep (State.holdLine_keeps ..)) (hu.trans (message ..))

theorem State.event_stnStays (s : State) (ty inst bit : Nat) : StnStays s (s.event ty inst bit) := by
  refine ⟨fun a ha he => s.rd_event ty inst bit a ?_⟩
  have hp := pageBase_mod ty inst
  have hw : a ≠ pageBase ty inst + 0x10 := by omega
  have hc : a ≠ R.hifVecCause := by unfold R.hifVecCause; omega
  have hb : ¬ K.pba 0 ≤ a := by unfold K.pba; omega
  simp [told, hw, hc, hb]

/-! ### Records -/

theorem State.loseEvent_stnStays (s : State) (sp : Nat) : StnStays s (s.loseEvent sp) :=
  (StnStays.refl.put (Nat.le_add_right_of_le (le_cmdPage sp))).keep (State.updSpace_keeps ..)

theorem State.dlogStall_stnStays (s : State) (i : Nat) : StnStays s (s.dlogStall i) :=
  (StnStays.refl.put (le_pageReg (by decide))).put (le_pageReg (by decide))

theorem State.holdRec_stnStays (s : State) (sp : Nat) (r : Rec) : StnStays s (s.holdRec sp r) := by
  unfold State.holdRec
  refine .ite (.ite (s.loseEvent_stnStays sp) (.put .refl (Nat.le_add_right_of_le (le_cmdPage sp)))) ?_
  exact (StnStays.ite (s.dlogStall_stnStays sp) .refl).keep (State.updSpace_keeps ..)

theorem State.dlogEntry_stnStays (s : State) (i page kind : Nat) : StnStays s (s.dlogEntry i page kind) := by
  unfold State.dlogEntry
  extract_lets n base owner u v
  have hv : StnStays s v := (StnStays.refl.keep (State.hostWrite_keeps ..)).wr (le_pageReg (by decide))
  split
  · exact hv.keep (State.decide_keeps ..)
  · exact hv

theorem State.dlogWrite_stnStays (s : State) (i addr len kind : Nat) : StnStays s (s.dlogWrite i addr len kind) := by
  unfold State.dlogWrite
  exact .ite (.each .refl fun u p => u.dlogEntry_stnStays i p kind) .refl

theorem State.signalRecord_stnStays (s : State) (sp : Nat) (r : Rec) : StnStays s (s.signalRecord sp r) := by
  unfold State.signalRecord
  exact .ite (s.signal_stnStays ..) (.ite .refl (s.signal_stnStays ..))

theorem State.writeRec_stnStays (s : State) (sp : Nat) (r : Rec) : StnStays s (s.writeRec sp r) := by
  unfold State.writeRec
  extract_lets n size addr owner s₁ s₂ s₃ s₄ s₅ s₆
  have h₂ : StnStays s s₂ := (StnStays.refl.keep (State.hostWrite_keeps ..)).keep (State.hostWrite_keeps ..)
  have h₃ : StnStays s s₃ := .ite (h₂.trans (s₂.dlogWrite_stnStays ..)) h₂
  have h₄ : StnStays s s₄ := h₃.wr (Nat.le_add_right_of_le (le_cmdPage sp))
  have h₅ : StnStays s s₅ := .ite h₄ (h₄.keep (State.setSpace_keeps ..))
  have h₆ : StnStays s s₆ := by
    subst s₆
    split
    · exact h₅.keep (State.decide_keeps ..)
    · exact h₅
  exact h₆.trans (s₆.signalRecord_stnStays sp r)

theorem State.putRec_stnStays (s : State) (sp : Nat) (r : Rec) : StnStays s (s.putRec sp r) := by
  unfold State.putRec
  exact .ite (s.holdRec_stnStays sp r) (s.writeRec_stnStays sp r)

theorem State.tellLost_stnStays (s : State) (sp : Nat) : StnStays s (s.tellLost sp) := by
  unfold State.tellLost
  extract_lets x
  exact .ite ((StnStays.refl.keep (State.setSpace_keeps ..)).trans (State.putRec_stnStays ..)) .refl

theorem State.complete_stnStays (s : State) (sp handle status : Nat) (result : List Byte) :
    StnStays s (s.complete sp handle status result) := by
  unfold State.complete State.completeAt
  split
  · exact .refl
  · refine .ite .refl ?_
    exact ((StnStays.refl.keep (State.updSpace_keeps ..)).trans (State.putRec_stnStays ..)).trans (State.tellLost_stnStays ..)

theorem State.postEvent_stnStays (s : State) (sp status : Nat) (result : List Byte) :
    StnStays s (s.postEvent sp status result) := by
  unfold State.postEvent
  refine .ite .refl (.ite .refl (.ite (s.loseEvent_stnStays sp) ?_))
  have hu := s.tellLost_stnStays sp
  exact .ite (hu.trans (State.putRec_stnStays ..)) (hu.trans (State.loseEvent_stnStays ..))

theorem State.flush_stnStays (s : State) (sp : Nat) : StnStays s (s.flush sp) := by
  unfold State.flush
  induction (s.space sp).heldRecs.length generalizing s with
  | zero => exact .refl
  | succ n ih =>
    unfold State.flushHeld
    split
    · exact .refl
    · exact .ite .refl (((StnStays.refl.keep (State.setSpace_keeps ..)).trans (State.writeRec_stnStays ..)).trans (ih _))

/-! ### Holds of versions -/

theorem State.releaseDone_stnStays (s : State) (v : Version) : StnStays s (s.releaseDone v) := by
  unfold State.releaseDone
  refine .ite ?_ .refl
  split
  · exact .refl
  · exact s.complete_stnStays ..

theorem State.freeVersion_stnStays (s : State) (vid : Nat) : StnStays s (s.freeVersion vid) := by
  unfold State.freeVersion
  split
  · exact .refl
  · exact (StnStays.refl.keep (State.putVersion_keeps ..)).trans (State.releaseDone_stnStays ..)

theorem State.endHold_stnStays (s : State) (vid : Nat) (p : Holder) : StnStays s (s.endHold vid p) := by
  unfold State.endHold
  split
  · exact .refl
  · refine .ite ?_ .refl
    extract_lets v u
    have hu : StnStays s u := StnStays.refl.keep (State.putVersion_keeps ..)
    exact .ite (hu.trans (u.freeVersion_stnStays vid)) hu

theorem State.endOutputHold_stnStays (s : State) (vid o n : Nat) : StnStays s (s.endOutputHold vid o n) := by
  unfold State.endOutputHold
  split
  · exact .refl
  · exact (StnStays.refl.keep (State.putVersion_keeps ..)).trans (State.endHold_stnStays ..)

theorem State.turnHolds_stnStays (s : State) (o ended : Nat) (old new : Option Plan) :
    StnStays s (s.turnHolds o ended old new) :=
  .each (.each .refl fun u v => .keep .refl (u.hold_keeps v _)) fun u v => u.endOutputHold_stnStays v o ended

theorem State.endCommitHolds_stnStays (s : State) (o sp handle : Nat) : StnStays s (s.endCommitHolds o sp handle) :=
  .each .refl fun u vid => u.endHold_stnStays vid _

theorem State.endCmdHolds_stnStays (s : State) (sp handle : Nat) : StnStays s (s.endCmdHolds sp handle) :=
  .each .refl fun u vid => u.endHold_stnStays vid _

/-! ### Commits -/

theorem State.latchCommit_stnStays (s : State) (o frame : Nat) (c : Commit) : StnStays s (s.latchCommit o frame c) := by
  unfold State.latchCommit
  extract_lets s₁ s₂
  have h₁ : StnStays s s₁ := .each .refl fun u x => by
    split
    extract_lets v w
    have hv : StnStays u v := by
      subst v
      split
      · exact .keep .refl (State.updLayer_keeps ..)
      · exact .keep .refl (State.updLayer_keeps ..)
    have hw : StnStays u w := hv.wr (le_pageReg (by decide))
    exact .ite (hw.trans (w.event_stnStays ..)) hw
  have h₂ : StnStays s s₂ := h₁.each fun u x => .keep .refl (State.latchRegion_keeps ..)
  exact .ite (h₂.keep (State.updOut_keeps ..)) h₂

theorem State.latchRecord_stnStays (s : State) (o frame : Nat) (p : Plan) (c : Commit) :
    StnStays s (s.latchRecord o frame p c) := by
  unfold State.latchRecord
  exact .ite .refl ((s.endCommitHolds_stnStays ..).trans (State.complete_stnStays ..))

theorem State.supersede_stnStays (s : State) (o owner : Nat) : StnStays s (s.supersede o owner) := by
  have endCommit (u : State) (c : Commit) (status detail : Nat) : StnStays u (u.endCommit o c status detail) := by
    unfold State.endCommit State.fail
    exact .ite .refl ((u.endCommitHolds_stnStays ..).trans (State.complete_stnStays ..))
  unfold State.supersede
  refine .each (.ite .refl (.keep .refl (State.updOut_keeps ..))) fun u c => ?_
  extract_lets v
  have hv : StnStays u v := by
    subst v
    split
    · exact .keep .refl (State.decide_keeps ..)
    · exact .refl
  exact hv.trans (endCommit ..)

theorem State.accept_stnStays (s : State) (o : Nat) (c : Commit) : StnStays s (s.accept o c) :=
  ((s.supersede_stnStays o c.owner).keep (State.updOut_keeps ..)).keep (State.shedPass_keeps ..)

/-! ### Regions, floors and links of an output -/

theorem State.sampleEvent_stnStays (s : State) (n what frame final expect : Nat) :
    StnStays s (s.sampleEvent n what frame final expect) := by
  unfold State.sampleEvent
  split
  · exact .refl
  · exact s.event_stnStays ..
  · extract_lets o
    exact s.postEvent_stnStays ..

theorem State.countOnset_stnStays (s : State) (n : Nat) : StnStays s (s.countOnset n) := by
  unfold State.countOnset
  split
  · exact .ite (.put .refl (Nat.le_add_right_of_le (le_winPage _ 4))) .refl
  · exact .refl

theorem State.regionTurn_stnStays (s : State) (n frame : Nat) (latched : Bool) : StnStays s (s.regionTurn n frame latched) := by
  have stored (x : CsrSt) : StnStays s (s.setRegion n x) := .keep .refl (State.setRegion_keeps ..)
  have reported (x : CsrSt) (what fr final expect : Nat) : StnStays s ((s.setRegion n x).sampleEvent n what fr final expect) :=
    (stored x).trans (State.sampleEvent_stnStays ..)
  unfold State.regionTurn
  extract_lets x silent expect
  split
  extract_lets ends pw
  split
  refine .ite ?off (.ite ?substituted (.ite ?mismatch (stored _)))
  case off =>
    exact .ite (.ite (reported ..) (.ite (stored _) (reported ..))) (.ite (reported ..) (stored _))
  case substituted => exact .ite (reported ..) (stored _)
  case mismatch => exact ((stored _).trans (State.countOnset_stnStays ..)).trans (State.sampleEvent_stnStays ..)

theorem State.endXfer_stnStays (s : State) (x : Xfer) (result : List Byte) : StnStays s (s.endXfer x result) := by
  unfold State.endXfer
  extract_lets u v
  have hu : StnStays s u := (StnStays.refl.keep (State.stopXfer_keeps ..)).keep (State.tidyEngines_keeps ..)
  have hv : StnStays s v := by
    subst v
    split
    · exact hu.keep (State.cvEnd_keeps ..)
    · exact hu
  exact (hv.trans (v.complete_stnStays ..)).trans (State.endCmdHolds_stnStays ..)

theorem State.floorBegin_stnStays (s : State) (o : Nat) (src : FloorSrc) : StnStays s (s.floorBegin o src) := by
  unfold State.floorBegin
  extract_lets s₁ s₂ s₃
  have h₃ : StnStays s s₃ :=
    (((StnStays.refl.wr (le_pageReg (by decide))).wr (le_pageReg (by decide))).put (le_pageReg (by decide))).keep
      (State.updFloor_keeps ..)
  split
  · exact h₃
  · split
    · exact h₃.keep (State.floorXfer_keeps ..)
    · exact h₃

theorem State.floorArm_stnStays (s : State) (o : Nat) (src : FloorSrc) : StnStays s (s.floorArm o src) := by
  unfold State.floorArm
  exact .ite (.keep .refl (State.updFloor_keeps ..)) (s.floorBegin_stnStays o src)

theorem State.floorNext_stnStays (s : State) (o : Nat) : StnStays s (s.floorNext o) := by
  unfold State.floorNext
  extract_lets u
  have hu : StnStays s u := .keep .refl (State.updFloor_keeps ..)
  split
  · exact hu
  · exact (hu.keep (State.updFloor_keeps ..)).trans (State.floorArm_stnStays ..)

theorem State.floorValid_stnStays (s : State) (o len : Nat) : StnStays s (s.floorValid o len) := by
  unfold State.floorValid
  split
  · exact .refl
  · extract_lets crc s₁ s₂ result s₃
    have h₂ : StnStays s s₂ :=
      ((StnStays.refl.wr (le_pageReg (by decide))).wr (le_pageReg (by decide))).wr (le_pageReg (by decide))
    have h₃ : StnStays s s₃ := by
      subst s₃
      split
      · split
        · exact h₂.trans (s₂.endXfer_stnStays ..)
        · exact h₂.trans (s₂.complete_stnStays ..)
      · exact h₂.put (le_pageReg (by decide))
    exact h₃.trans (s₃.floorNext_stnStays o)

theorem State.floorTick_stnStays (s : State) (o : Nat) : StnStays s (s.floorTick o) := by
  unfold State.floorTick
  split
  · exact s.floorBegin_stnStays ..
  · exact s.floorValid_stnStays ..
  · exact .refl

theorem State.stopPll_stnStays (s : State) (i : Nat) : StnStays s (s.stopPll i) := by
  unfold State.stopPll State.coastEnds
  extract_lets s₁ s₂
  have h₂ : StnStays s s₂ :=
    .each (.put .refl (by decide)) fun u d => .ite .refl (.keep .refl (State.setDom_keeps ..))
  have h₃ : StnStays s { s₂ with clk := { s₂.clk with started := s₂.clk.started.filter (· ≠ i) } } :=
    h₂.keep (Keeps.set_clk (l := [.clk]) rfl .refl)
  exact .ite (h₃.put (by decide)) h₃

theorem State.auxIdle_stnStays (s : State) (o : Nat) : StnStays s (s.auxIdle o) := by
  have endAux (u : State) (result n : Nat) : StnStays u (u.endAux o result n) := by
    unfold State.endAux
    refine .trans ?_ (State.event_stnStays ..)
    exact (((StnStays.refl.keep (State.updOut_keeps ..)).put (le_pageReg (by decide))).put (le_pageReg (by decide))).put
      (le_pageReg (by decide))
  have sendAux (u : State) (q : AuxReq) : StnStays u (u.sendAux o q) := by
    unfold State.sendAux
    exact .ite (endAux ..) ((StnStays.refl.keep (State.updOut_keeps ..)).keep (State.emit_keeps ..))
  unfold State.auxIdle
  extract_lets u
  have hu : StnStays s u := .keep .refl (State.updOut_keeps ..)
  split
  · exact .ite (hu.trans (sendAux ..)) hu
  · exact hu

theorem State.removeNow_stnStays (s : State) (o : Nat) (r : Removal) : StnStays s (s.removeNow o r) := by
  unfold State.removeNow
  have hu : StnStays s (s.remove o r) := .keep .refl (State.remove_keeps ..)
  dsimp only
  split
  · exact hu.trans (State.regionTurn_stnStays ..)
  · exact hu

theorem State.stopOutput_stnStays (s : State) (o : Nat) : StnStays s (s.stopOutput o) := by
  have removeAll (u : State) : StnStays u (u.removeAll o) :=
    .each (.keep .refl (State.updOut_keeps ..)) fun v r => v.removeNow_stnStays o r
  unfold State.stopOutput
  extract_lets x s₁ s₂ s₃
  have h₁ : StnStays s s₁ := (StnStays.refl.keep (State.setOut_keeps ..)).trans (State.event_stnStays ..)
  have h₂ : StnStays s s₂ := h₁.trans (removeAll ..)
  have h₃ : StnStays s s₃ :=
    ((h₂.put (le_pageReg (by decide))).trans (State.auxIdle_stnStays ..)).trans (State.stopPll_stnStays ..)
  exact (h₃.trans (s₃.floorTick_stnStays o)).keep (State.shedPass_keeps ..)

theorem State.turnTiming_stnStays (s : State) (o : Nat) (p : Plan) : StnStays s (s.turnTiming o p) := by
  have changeTiming (u : State) (fb : Bool) : StnStays u (u.changeTiming o fb) := by
    unfold State.changeTiming
    have hv := fun x => (StnStays.refl.keep (State.setOut_keeps u o x)).trans (State.event_stnStays _ 0x41 o 6)
    exact .ite ((hv _).keep (State.updOut_keeps ..)) ((hv _).keep (State.updOut_keeps ..))
  have setCause (u : State) (i : Nat) (b : Bool) : StnStays u (u.setCause i b) := by
    unfold State.setCause
    exact .ite .refl ((StnStays.refl.put (le_pageReg (by decide))).keep (State.decide_keeps ..))
  have noteFallback (u : State) (fb : Bool) : StnStays u (u.noteFallback o fb) :=
    (StnStays.refl.put (le_pageReg (by decide))).trans (setCause ..)
  have linkVideo (u : State) (due : Bool) : StnStays u (u.linkVideo o due) := by
    unfold State.linkVideo
    exact (StnStays.refl.put (le_pageReg (by decide))).keep (State.updOut_keeps ..)
  unfold State.turnTiming
  extract_lets x u
  have hu : StnStays s u := .ite .refl (changeTiming ..)
  split
  · exact hu
  · refine .ite ?_ hu
    extract_lets v
    have hv : StnStays s v := (hu.keep (State.updOut_keeps ..)).trans (noteFallback ..)
    exact .ite (hv.trans (linkVideo ..)) hv

theorem State.thawTick_stnStays (s : State) (o : Nat) : StnStays s (s.thawTick o) := by
  have finishThaw (u : State) (sl : Nat) : StnStays u (u.finishThaw sl) := by
    unfold State.finishThaw
    refine .put ?_ (Nat.le_add_right_of_le (le_winPage sl 1))
    refine .trans (.trans ?_ (State.tellLost_stnStays ..)) (State.postEvent_stnStays ..)
    exact (StnStays.refl.keep (State.setSlice_keeps ..)).trans (State.flush_stnStays ..)
  refine .each .refl fun u sl => ?_
  extract_lets v
  have hv : StnStays u v := .keep .refl (State.updSlice_keeps ..)
  exact .ite (hv.trans (finishThaw ..)) hv

theorem State.shedEvents_stnStays (s : State) (o : Nat) (old : Option Plan) (new : Plan) (latched : List Commit) :
    StnStays s (s.shedEvents o old new latched) := by
  have shedEvent (u : State) (status : Nat) (l : CfgLayer) : StnStays u (u.shedEvent o status new l) := by
    unfold State.shedEvent
    exact .ite .refl (State.postEvent_stnStays ..)
  exact .each .refl fun u l => .ite (.ite .refl (shedEvent ..)) (.ite (shedEvent ..) .refl)

theorem State.shedChange_stnStays (s : State) (o : Nat) (old : Option Plan) (new : Plan) :
    StnStays s (s.shedChange o old new) := by
  unfold State.shedChange
  exact .ite .refl (State.event_stnStays ..)

/-! ### The frame tick -/

theorem State.turnFrame_stnStays (s : State) (o ended : Nat) (old : Option Plan) (last : Bool) :
    StnStays s (s.turnFrame o ended old last) := by
  unfold State.turnFrame
  extract_lets frame x commits s₁ s₂ s₃ latched p s₄ s₅ s₆ s₇ s₈ pair s₉ s₁₀ s₁₁ s₁₂ late s₁₃ s₁₄ s₁₅
  have h₂ : StnStays s s₂ :=
    (StnStays.refl.each fun u r => .keep .refl (u.remove_keeps o r)).keep (State.updOut_keeps ..)
  have h₄ : StnStays s s₄ := (h₂.each fun u c => u.latchCommit_stnStays o frame c).keep (State.updOut_keeps ..)
  have h₅ : StnStays s s₅ := h₄.trans (s₄.turnHolds_stnStays ..)
  have h₇ : StnStays s s₇ :=
    (h₅.each fun u c => u.latchRecord_stnStays o frame p c).each fun u n => u.regionTurn_stnStays n ended _
  have h₈ : StnStays s s₈ :=
    (((h₇.trans (State.shedEvents_stnStays ..)).trans (State.shedChange_stnStays ..)).keep (State.reductionTick_keeps ..)).trans
      (State.floorTick_stnStays ..)
  have h₉ : StnStays s s₉ := h₈.keep (Keeps.set_pair (l := [.pair]) rfl .refl)
  refine .ite (h₉.trans (s₉.stopOutput_stnStays o)) ?_
  have h₁₁ : StnStays s s₁₁ := (h₉.trans (s₉.turnTiming_stnStays o p)).wr (le_pageReg (by decide))
  have h₁₃ : StnStays s s₁₃ := (h₁₁.trans (s₁₁.thawTick_stnStays o)).keep (State.updOut_keeps ..)
  have h₁₄ : StnStays s s₁₄ := h₁₃.each fun u c => u.accept_stnStays o c
  have h₁₅ : StnStays s s₁₅ := .ite h₁₄ (h₁₄.each fun u n => .keep .refl (u.regionBegin_keeps n p))
  exact ((h₁₅.keep (State.shedPass_keeps ..)).keep (State.updOut_keeps ..)).keep (State.announce_keeps ..)

theorem State.endUnderrun_stnStays (s : State) (o frame : Nat) (old : Option Plan) : StnStays s (s.endUnderrun o frame old) := by
  unfold State.endUnderrun
  refine .ite .refl ?_
  have hu : StnStays s (s.count (R.outUrFrames o) F.outUrFrames_n) := .put .refl (le_pageReg (by decide))
  exact ((hu.trans (State.event_stnStays ..)).each fun u sl => u.postEvent_stnStays ..).keep (State.updOut_keeps ..)

theorem State.frameTick_stnStays (s : State) (o : Nat) (last : Bool) : StnStays s (s.frameTick o last) := by
  have tickStamp (u : State) : StnStays u (u.tickStamp o) :=
    ((StnStays.refl.wr (le_pageReg (by decide))).wr (le_pageReg (by decide))).wr (le_pageReg (by decide))
  exact ((s.endUnderrun_stnStays ..).trans (tickStamp _)).trans (State.turnFrame_stnStays ..)

theorem doFrameTick_stnStays (o : Nat) (s : State) : StnStays s (doFrameTick o s) := by
  unfold doFrameTick
  extract_lets x
  exact .ite .refl ((StnStays.refl.keep (s.at_keeps _)).trans (State.frameTick_stnStays ..))

theorem State.dueFrames_stnStays (s : State) : StnStays s s.dueFrames :=
  .each .refl fun u o => .ite (doFrameTick_stnStays o u) .refl

/-- A frame tick that is due falls at the present instant or earlier, so the frame ticks that are due do not move time. -/
theorem State.dueFrames_time (s : State) : s.dueFrames.time = s.time := by
  have due (u : State) (o : Nat) (h : u.tickTime o ((u.out o).ticks + 1) ≤ u.time) : (doFrameTick o u).time = u.time := by
    unfold doFrameTick
    extract_lets x
    split
    · rfl
    · exact ((State.frameTick_keeps ..).same .time rfl).trans (max_eq_left h)
  unfold State.dueFrames State.each
  refine List.foldlRecOn (motive := fun u : State => u.time = s.time) _ _ rfl fun u hu o _ => ?_
  split
  · next h =>
    rw [Bool.and_eq_true, decide_eq_true_iff] at h
    exact (due u o h.2).trans hu
  · exact hu

/-! ### Instants of the grids -/

theorem roundUp_mod (a b : Nat) : roundUp a b % b = 0 := Nat.mul_mod_left ..

theorem le_roundUp (a : Nat) {b : Nat} (hb : 0 < b) : a ≤ roundUp a b := by
  have h := Nat.lt_div_mul_add (a := a + b - 1) hb
  unfold roundUp ceilDiv
  omega

theorem roundUp_lt (a : Nat) {b : Nat} (hb : 0 < b) : roundUp a b < a + b := by
  have h := Nat.div_mul_le_self (a + b - 1) b
  unfold roundUp ceilDiv
  omega

theorem nextGrid_mod (period last now : Nat) : nextGrid period last now % period = 0 := by
  unfold nextGrid
  obtain h | h := max_choice (roundUp now period) (last / period * period + period) <;> rw [h]
  · exact roundUp_mod ..
  · rw [Nat.add_mod_right, Nat.mul_mod_left]

theorem le_nextGrid {period : Nat} (last now : Nat) (hp : 0 < period) : now ≤ nextGrid period last now :=
  (le_roundUp now hp).trans (le_max_left ..)

theorem lt_nextGrid {period : Nat} (last now : Nat) (hp : 0 < period) : last < nextGrid period last now :=
  (Nat.lt_div_mul_add hp).trans_le (le_max_right ..)

theorem lt_nextSample (last now : Nat) : last < nextSample last now := (Nat.lt_succ_self last).trans_le (le_max_right ..)

theorem stationPeriod_cases (rate : Nat) :
    stationPeriod rate = 1000000 ∨ stationPeriod rate = 2000000 ∨ stationPeriod rate = 4000000 := by
  unfold stationPeriod
  split
  · exact .inr (.inr rfl)
  · split
    · exact .inr (.inl rfl)
    · exact .inl rfl

theorem stationPeriod_pos (rate : Nat) : 0 < stationPeriod rate := by
  obtain h | h | h := stationPeriod_cases rate <;> rw [h] <;> decide

/-- Sample tick `k` falls at `k` times 62,500 / 3 ns, truncated to a multiple of 5 ns; every third one is a loop tick. -/
theorem sampleTime_spec (k : Nat) : sampleTime k % 5 = 0 ∧ sampleTime k * 3 ≤ k * 62500 ∧
    k * 62500 < (sampleTime k + 5) * 3 ∧ sampleTime (3 * k) = 62500 * k := by
  unfold sampleTime
  omega

/-! ### The rate -/

theorem State.takeRate_pending {s : State} (h : s.flag R.stnTickCtrl F.stnTickCtrl_pending = true) :
    s.takeRate = { s.clrF R.stnTickCtrl F.stnTickCtrl_pending with rate := s.fld R.stnTickCtrl F.stnTickCtrl_rate } :=
  if_pos h

theorem State.takeRate_none {s : State} (h : s.flag R.stnTickCtrl F.stnTickCtrl_pending = false) : s.takeRate = s :=
  if_neg (by rw [h]; decide)

theorem State.dueFrames_tickCtrl (s : State) : s.dueFrames.rd R.stnTickCtrl = s.rd R.stnTickCtrl :=
  s.dueFrames_stnStays.rd_eq R.stnTickCtrl (by decide) (by decide)

/-- A rate change that is pending takes effect at the next multiple of 4 ms and is pending no more. -/
theorem doRateChange_pending {s : State} (h : s.flag R.stnTickCtrl F.stnTickCtrl_pending = true) :
    (doRateChange s).time = roundUp s.time 4000000 ∧ (doRateChange s).rate = s.fld R.stnTickCtrl F.stnTickCtrl_rate ∧
    (doRateChange s).flag R.stnTickCtrl F.stnTickCtrl_pending = false ∧
    Leaves [.time, .rate] [R.stnTickCtrl] s (doRateChange s) := by
  have hpend : (s.at (roundUp s.time 4000000)).flag R.stnTickCtrl F.stnTickCtrl_pending = true := h
  have heq : doRateChange s = (s.at (roundUp s.time 4000000)).takeRate := if_pos h
  have hkeeps : Keeps [.cells, .time, .rate] s (doRateChange s) :=
    heq ▸ .next (State.takeRate_keeps _) rfl (.weaken (s.at_keeps _) rfl)
  rw [State.takeRate_pending hpend] at heq
  rw [heq] at hkeeps ⊢
  refine ⟨max_eq_right (le_roundUp _ (by decide)), rfl, ?_, hkeeps, fun a ha => ?_⟩
  · exact bne_eq_false_iff_eq.mpr (State.fld_put_same _ R.stnTickCtrl F.stnTickCtrl_pending 0 (by decide) (by decide))
  · exact State.rd_put_other _ _ _ (by simpa using ha)

theorem doRateChange_none {s : State} (h : s.flag R.stnTickCtrl F.stnTickCtrl_pending = false) : doRateChange s = s :=
  if_neg (by rw [h]; decide)

/-! ### The station tick -/

/-- The panels' scan ticks of a station tick. -/
theorem State.scanTicks_keeps (s : State) (frames : List TouchFrame) :
    Keeps [.cells, .hif, .slices, .tch, .pwResync, .hap, .wld, .cic, .dmc, .pair, .mem, .freeCtr, .emits, .reflexDirty] s
      (s.takeBindings.each (List.range 8) fun s n => s.scanTick n frames) :=
  .each (fun _ _ => .weaken (State.scanTick_keeps ..) rfl) (.weaken s.takeBindings_keeps rfl)

theorem doStationTick_off {frames : List TouchFrame} {s : State} (h : s.audTicks = false) : doStationTick frames s = s :=
  if_pos (by rw [h]; rfl)

theorem doStationTick_on {frames : List TouchFrame} {s : State} (h : s.audTicks = true) :
    let T := nextGrid (stationPeriod s.rate) s.ticks.1 s.time
    let w := ((s.at T).passStation T).dueFrames
    doStationTick frames s =
      (if T % 4000000 = 0 then w.takeRate else w).takeBindings.each (List.range 8) fun s n => s.scanTick n frames :=
  if_neg (by rw [h]; decide)

/-- A station tick at `T`: the frame ticks and the scan ticks move neither time nor a grid, and only the rate change moves the
rate. It reads STN_TICK_CTRL after the frame ticks, which leave that register. -/
theorem stationTick_effect (frames : List TouchFrame) {s : State} {T : Nat} (hT : s.time ≤ T) :
    let w := ((s.at T).passStation T).dueFrames
    let t := (if T % 4000000 = 0 then w.takeRate else w).takeBindings.each (List.range 8) fun s n => s.scanTick n frames
    t.time = T ∧
    t.ticks = (T, max s.ticks.2.1 (T / 62500 * 62500), max s.ticks.2.2.1 (T / 125000 * 125000),
      max s.ticks.2.2.2 (T * 3 / 62500)) ∧
    (T % 4000000 = 0 → s.flag R.stnTickCtrl F.stnTickCtrl_pending = true → t.rate = s.fld R.stnTickCtrl F.stnTickCtrl_rate) ∧
    (T % 4000000 ≠ 0 ∨ s.flag R.stnTickCtrl F.stnTickCtrl_pending = false → t.rate = s.rate) := by
  intro w t
  have hreg : w.rd R.stnTickCtrl = s.rd R.stnTickCtrl := State.dueFrames_tickCtrl _
  have hfld (f : Fld) : w.fld R.stnTickCtrl f = s.fld R.stnTickCtrl f := congrArg f.get hreg
  have hflag : w.flag R.stnTickCtrl F.stnTickCtrl_pending = s.flag R.stnTickCtrl F.stnTickCtrl_pending :=
    congrArg (· != 0) (hfld _)
  have hwtime : w.time = T := (State.dueFrames_time _).trans (max_eq_right hT)
  have hwkeeps := State.dueFrames_keeps ((s.at T).passStation T)
  have htaken : Keeps [.rate, .cells] w (if T % 4000000 = 0 then w.takeRate else w) := .ite w.takeRate_keeps .refl
  have hscan := State.scanTicks_keeps (if T % 4000000 = 0 then w.takeRate else w) frames
  have hrate : t.rate = (if T % 4000000 = 0 then w.takeRate else w).rate := hscan.same .rate rfl
  refine ⟨?time, ?ticks, fun hm hp => ?taken, fun hn => ?kept⟩
  case time => exact (hscan.same .time rfl).trans ((htaken.same .time rfl).trans hwtime)
  case ticks => exact (hscan.same .ticks rfl).trans ((htaken.same .ticks rfl).trans (hwkeeps.same .ticks rfl))
  case taken => rw [hrate, if_pos hm, State.takeRate_pending (hflag.trans hp), ← hfld]
  case kept =>
    have hw : w.rate = s.rate := hwkeeps.same .rate rfl
    rw [hrate]
    split
    · next hm =>
      rw [State.takeRate_none (hflag.trans (hn.resolve_left (not_not_intro hm))), hw]
    · exact hw

/-! ### The loop tick -/

/-- A directory that waits to be published goes on waiting while the power pool is refilled. -/
theorem State.refill_publish (s : State) : s.refill.hapShared.publish = s.hapShared.publish := by
  unfold State.refill
  split
  next extra u hfold =>
    have h : Keeps [.hap] s u := .snd hfold <| .foldl2 (fun q n => by
      obtain ⟨e, v⟩ := q
      dsimp only
      exact v.updChan_keeps n _) .refl
    have pooled (x : HapShared) (p : Nat) : { x with pool := p }.publish = x.publish := rfl
    exact (pooled ..).trans (congrArg HapShared.publish (h.same .hapShared rfl))

/-- A published directory is in use, and no other waits. -/
theorem State.publish_spec (s : State) :
    s.publish.hapShared.publish = false ∧
    (s.hapShared.publish = true → s.publish.hapShared.active = s.mem.store.filter fun e => e.1 < 0x10000) := by
  unfold State.publish
  split
  · next h =>
    rw [Bool.not_eq_true'] at h
    exact ⟨h, fun k => absurd (h.symm.trans k) (by decide)⟩
  · extract_lets _ u v
    have hv : v.hapShared = u.hapShared :=
      (Keeps.each (l := [.hap]) (fun w n => w.updChan_keeps n _) .refl).same .hapShared rfl
    exact ⟨congrArg HapShared.publish hv, fun _ => congrArg HapShared.active hv⟩

theorem doLoopTick_on {polls : List AccPoll} {rail : Nat} {s : State} (h : s.audTicks = true) :
    let T := nextGrid 62500 s.ticks.2.1 s.time
    doLoopTick polls rail s =
      ((((s.at T).passLoop T).takeFloors.refill.publish.railStep rail).loopWork polls).clearHapAll :=
  if_neg (by rw [h]; decide)

/-- A directory that waits to be published is in use before the rail is measured. -/
theorem State.publish_before_rail (s : State) :
    s.takeFloors.refill.publish.hapShared.publish = false ∧
    (s.hapShared.publish = true →
      s.takeFloors.refill.publish.hapShared.active = s.mem.store.filter fun e => e.1 < 0x10000) := by
  have hfloors := s.takeFloors_keeps
  have hwaits : s.takeFloors.refill.hapShared.publish = s.hapShared.publish :=
    (State.refill_publish _).trans (congrArg HapShared.publish (hfloors.same .hapShared rfl))
  have hmem : s.takeFloors.refill.mem = s.mem := (s.takeFloors.refill_keeps.same .mem rfl).trans (hfloors.same .mem rfl)
  rw [← hwaits, ← hmem]
  exact s.takeFloors.refill.publish_spec

/-- The work of a loop tick moves neither time nor a grid. -/
theorem loopTick_keeps (s : State) (polls : List AccPoll) (rail : Nat) :
    Keeps [.cells, .hif, .slices, .hap, .hapShared, .wld, .cic, .pair, .emits] s
      ((s.takeFloors.refill.publish.railStep rail).loopWork polls).clearHapAll :=
  .next (State.clearHapAll_keeps _) rfl <| .next (State.loopWork_keeps ..) rfl <| .next (State.railStep_keeps ..) rfl <|
    .next (State.publish_keeps _) rfl <| .next (State.refill_keeps _) rfl <| .weaken s.takeFloors_keeps rfl

/-- A loop tick at `T`. -/
theorem loopTick_effect (polls : List AccPoll) (rail : Nat) {s : State} {T : Nat} (hT : s.time ≤ T) :
    let u := ((s.at T).passLoop T).takeFloors.refill.publish
    let t := ((u.railStep rail).loopWork polls).clearHapAll
    u.hapShared.publish = false ∧
    (s.hapShared.publish = true → u.hapShared.active = s.mem.store.filter fun e => e.1 < 0x10000) ∧
    t.time = T ∧ t.ticks = (s.ticks.1, T, s.ticks.2.2.1, max s.ticks.2.2.2 (T * 3 / 62500)) := by
  obtain ⟨hdone, hactive⟩ := ((s.at T).passLoop T).publish_before_rail
  have hkeeps := loopTick_keeps ((s.at T).passLoop T) polls rail
  exact ⟨hdone, hactive, (hkeeps.same .time rfl).trans (max_eq_right hT), hkeeps.same .ticks rfl⟩

/-! ### The stream-sample tick and the sample tick -/

/-- The instant `T` of a stream-sample tick is reached. `T` is a variable here, so that no check of a projection of `ticks`
evaluates the arithmetic of `nextGrid`. -/
theorem streamSample_reached {s : State} {T : Nat} (hmod : T % 125000 = 0) (hle : s.time ≤ T) (hlt : s.ticks.2.2.1 < T) :
    let u : State := { s.at T with ticks := (s.ticks.1, s.ticks.2.1, T, s.ticks.2.2.2) }
    Keeps [.time, .ticks] s u ∧ u.ticks.2.2.1 % 125000 = 0 ∧ s.time ≤ u.ticks.2.2.1 ∧ s.ticks.2.2.1 < u.ticks.2.2.1 ∧
      u.time = u.ticks.2.2.1 ∧ u.ticks.1 = s.ticks.1 ∧ u.ticks.2.1 = s.ticks.2.1 :=
  ⟨.set_ticks rfl (.weaken (s.at_keeps T) rfl), hmod, hle, hlt, max_eq_right hle, rfl, rfl⟩

/-- At its instant the haptic streams give a sample. -/
theorem doStreamSampleTick_on {s : State} (h : s.audTicks = true) :
    ∃ u : State, doStreamSampleTick s = u.hapticSamples ∧ Keeps [.time, .ticks] s u ∧
      u.ticks.2.2.1 % 125000 = 0 ∧ s.time ≤ u.ticks.2.2.1 ∧ s.ticks.2.2.1 < u.ticks.2.2.1 ∧ u.time = u.ticks.2.2.1 ∧
      u.ticks.1 = s.ticks.1 ∧ u.ticks.2.1 = s.ticks.2.1 :=
  ⟨_, if_neg (by rw [h]; decide),
    streamSample_reached (nextGrid_mod ..) (le_nextGrid _ _ (by decide)) (lt_nextGrid _ _ (by decide))⟩

/-- The instant of sample tick `k` is reached; while PER coasts the time is marked uncertain. -/
theorem sample_reached (s : State) (k : Nat) :
    let v : State := { s.at (sampleTime k) with ticks := (s.ticks.1, s.ticks.2.1, s.ticks.2.2.1, k) }
    let u := if v.perCoasts then v.timeUncertain else v
    u.ticks.2.2.2 = k ∧ u.time = max s.time (sampleTime k) ∧
      u.ticks.2.2.1 = s.ticks.2.2.1 ∧ u.ticks.2.1 = s.ticks.2.1 ∧ u.ticks.1 = s.ticks.1 := by
  intro v u
  have hkeeps : Keeps [.cells] v u := .ite v.timeUncertain_keeps .refl
  have hticks : u.ticks = v.ticks := hkeeps.same .ticks rfl
  rw [hticks]
  exact ⟨rfl, hkeeps.same .time rfl, rfl, rfl, rfl⟩

/-- At its instant, while their clocks run, the ports mix. -/
theorem doSampleTick_on {s : State} (h : s.audTicks = true) :
    ∃ u : State, doSampleTick s = (if u.mixes then u.mixTick u.ticks.2.2.2 else u) ∧
      u.ticks.2.2.2 = nextSample s.ticks.2.2.2 s.time ∧ u.time = max s.time (sampleTime u.ticks.2.2.2) ∧
      u.ticks.2.2.1 = s.ticks.2.2.1 ∧ u.ticks.2.1 = s.ticks.2.1 ∧ u.ticks.1 = s.ticks.1 := by
  obtain ⟨hk, hreached⟩ := sample_reached s (nextSample s.ticks.2.2.2 s.time)
  refine ⟨_, ?_, hk, ?_⟩
  · rw [hk]
    exact if_neg (by rw [h]; decide)
  · rw [hk]
    exact hreached

/-! ### The statement -/

/-- Settles O35: each tick command is its grid's next instant followed by the tick's work, which moves neither time nor a
grid; a pending rate is read after the frame ticks of the instant, which leave STN_TICK_CTRL (`State.dueFrames_stnStays`). -/
theorem ticksFallOnTheirGrids : Obligations.TicksFallOnTheirGrids := by
  unfold Obligations.TicksFallOnTheirGrids
  refine ⟨fun frames s => ⟨fun h => ?noClock, fun h => ?station, stationPeriod_cases _, fun h => ?rateChange,
      fun h => ?noChange⟩,
    fun polls rail s h => ⟨?loop, ?streamSample, ?sample, sampleTime_spec⟩⟩
  case noClock => exact congrArg Host.Outcome.next (doStationTick_off (s := s.begin) h)
  case station =>
    have hp := stationPeriod_pos s.rate
    have hT : s.begin.time ≤ nextGrid (stationPeriod s.rate) s.ticks.1 s.time := le_nextGrid _ _ hp
    exact ⟨_, congrArg Host.Outcome.next (doStationTick_on (s := s.begin) h), rfl, nextGrid_mod .., hT, lt_nextGrid _ _ hp,
      stationTick_effect frames hT⟩
  case rateChange =>
    obtain ⟨htime, hrate, hflag, hkeeps, hrd⟩ := doRateChange_pending (s := s.begin) h
    refine ⟨_, rfl, ?_, ?_, ?_, hrate, hflag, ?_, hrd⟩
    · rw [htime]; exact roundUp_mod ..
    · rw [htime]; exact le_roundUp _ (by decide)
    · rw [htime]; exact roundUp_lt _ (by decide)
    · exact .next hkeeps rfl (.weaken s.begin_keeps rfl)
  case noChange => exact congrArg Host.Outcome.next (doRateChange_none (s := s.begin) h)
  case loop =>
    have hT : s.begin.time ≤ nextGrid 62500 s.ticks.2.1 s.time := le_nextGrid _ _ (by decide)
    obtain ⟨hdone, hactive, htime, hticks⟩ := loopTick_effect polls rail.toNat hT
    exact ⟨_, congrArg Host.Outcome.next (doLoopTick_on (s := s.begin) h), rfl, hdone, hactive, nextGrid_mod .., hT,
      lt_nextGrid _ _ (by decide), htime, hticks⟩
  case streamSample =>
    obtain ⟨u, hstep, hu, hgrid⟩ := doStreamSampleTick_on (s := s.begin) h
    have hkeeps := u.hapticSamples_keeps
    refine ⟨u, u.hapticSamples, congrArg Host.Outcome.next hstep, rfl, .next hu rfl (.weaken s.begin_keeps rfl), ?_⟩
    rw [hkeeps.same .ticks rfl, hkeeps.same .time rfl]
    exact hgrid
  case sample =>
    obtain ⟨u, hstep, hk, htime, hrest⟩ := doSampleTick_on (s := s.begin) h
    have hkeeps : Keeps [.cells, .hif, .slices, .hst, .ast, .tdm, .emits] u
        (if u.mixes then u.mixTick u.ticks.2.2.2 else u) := .ite (u.mixTick_keeps _) .refl
    refine ⟨u, _, congrArg Host.Outcome.next hstep, ?_⟩
    rw [hkeeps.same .ticks rfl, hkeeps.same .time rfl]
    exact ⟨rfl, hk, hk ▸ lt_nextSample .., htime, hrest⟩

end Sys2Proof.Machine
end

section
/-!
SUPPORT AND PROOFS. The host accesses that the bus turns away (02_host_interface.md R52, R53, R58, R68). Every refusal goes
through the one operation `State.logAccess`, which captures only where no capture is held; `AccessLogged` says what it
does. The order of the checks of a write is that of log 27.
-/

namespace Sys2Proof.Machine

/-! ### The checks of a write to BAR0, in their order -/

theorem busWrite_host_absent {s : State} {p : Option (BitVec 20)} {off : Nat} {data : List Byte} {poisoned : Bool}
    (hp : s.pasidOk p off = true) (h : s.reach (.host p) off = none) :
    busWrite (.host p) off data poisoned s = { s with resp := .unsupported } := by
  unfold busWrite
  simp only [hp, h, Bool.not_true, Bool.and_false, Bool.false_eq_true, if_false]
  rfl

theorem busWrite_core_absent {s : State} {c : Fin 4} {off : Nat} {data : List Byte} {poisoned : Bool}
    (h : s.reach (.core c) off = none) :
    busWrite (.core c) off data poisoned s = { s.busFault (.core c) true off with resp := .busError } := by
  unfold busWrite
  simp only [h, Bool.false_eq_true, if_false]
  rfl

theorem busWrite_host_badSize {s : State} {p : Option (BitVec 20)} {off : Nat} {page : Nat × Nat} {data : List Byte}
    {poisoned : Bool} (hp : s.pasidOk p off = true) (h : s.reach (.host p) off = some page)
    (hsize : sizeOk true off data.length = false) :
    busWrite (.host p) off data poisoned s = { s.accessRefused true 0 off data.length with resp := .done } := by
  unfold busWrite
  simp only [hp, h, hsize, Bool.not_true, Bool.and_false, Bool.not_false, Bool.false_eq_true, if_false, if_true]
  rfl

theorem busWrite_host_writeAt {s : State} {p : Option (BitVec 20)} {off ty inst : Nat} {data : List Byte} {poisoned : Bool}
    (hp : s.pasidOk p off = true) (h : s.reach (.host p) off = some (ty, inst))
    (hsize : sizeOk true off data.length = true) :
    busWrite (.host p) off data poisoned s = { s.writeAt (.host p) ty inst off data poisoned with resp := .done } := by
  unfold busWrite
  simp only [hp, h, hsize, Bool.not_true, Bool.and_false, Bool.false_eq_true, if_false]

theorem State.writeAt_host_poisoned (s : State) (p : Option (BitVec 20)) (ty inst off : Nat) (data : List Byte) :
    s.writeAt (.host p) ty inst off data true = s.accessRefused true 1 off data.length := by
  unfold State.writeAt
  simp only [Req.isHost, if_true]

theorem State.writeAt_host_world1 {s : State} {ty off : Nat} (p : Option (BitVec 20)) (inst : Nat) (data : List Byte)
    (hty : ty < 0x100) (hw : s.pageWorld1 (pageOf off) = true) :
    s.writeAt (.host p) ty inst off data false =
      (s.accessRefused true 2 off data.length).xwDenied (.host p) 0 (pageOf off) := by
  unfold State.writeAt
  simp only [hty, hw, State.reqProtected, Req.isHost, decide_true, Bool.not_false, Bool.and_true, Bool.false_eq_true,
    if_false, if_true]

theorem State.writeAt_frozen {s : State} {ty inst off : Nat} (r : Req) (data : List Byte) (hty : 0x100 ≤ ty)
    (hoff : 0x040 ≤ off % 0x1000) (hf : s.windowFrozen inst = true) :
    s.writeAt r ty inst off data false = s.accessRefused true 3 off data.length := by
  unfold State.writeAt
  simp only [hty, hoff, hf, Nat.not_lt_of_le hty, decide_true, decide_false, Bool.false_and, Bool.and_true,
    Bool.false_eq_true, if_false, if_true]

/-! ### Poisoned writes outside BAR0 -/

theorem bar4Bus_poisoned {s : State} {off len : Nat} (data : List Byte) (ha : s.answers = true) (hl : len = 4 ∨ len = 8)
    (hal : off % len = 0) (hend : off + len ≤ 0x10000) :
    bar4Bus (.host none) off len (some data) true s = { s.poisonRefused len with resp := .done } := by
  have hok : bar4Access none off len true s = (true, s) := by
    unfold bar4Access
    simp [ha, hl, hal, hend]
  unfold bar4Bus
  simp only [Option.isSome_some, hok, Bool.not_true, Bool.false_eq_true, if_false, if_true]

theorem configBus_poisoned {s : State} (p : Option (BitVec 20)) (f : CfgField) (len : Nat) (data : List Byte)
    (hup : s.hif.linkUp = true) (hretry : s.hif.retry = false) :
    configBus (.host p) f len (some data) true s = { s.poisonRefused len with resp := .done } := by
  unfold configBus
  simp only [Req.isHost, hup, hretry, Bool.not_true, Bool.false_eq_true, if_false, if_true]

/-- A poisoned write within the aperture is logged whether the aperture is on or off (log 27); off, it is Unsupported Request. -/
theorem doBar2_poisoned {s : State} {off : Nat} {data : List Byte} (ecc : Ecc) (ha : s.answers = true)
    (hend : off + data.length ≤ 0x10000000) :
    doBar2 (.host none) off (.write data true) ecc s =
      if !s.flag R.hifAperCtrl F.hifAperCtrl_enable || s.dmc.selfRefresh then
        { s.poisonRefused data.length with resp := .unsupported }
      else { s.poisonRefused data.length with resp := .done } := by
  have hanswers : (!s.answers || decide (0x10000000 < off + data.length)) = false := by
    rw [ha, decide_eq_false (Nat.not_lt_of_le hend)]; rfl
  unfold doBar2
  exact (if_neg (ne_true_of_eq_false hanswers)).trans (if_neg (by decide))

/-! ### The log of HIF_0 -/

/-- A count saturates at all ones of its field. -/
theorem State.fld_count_same (s : State) (a : Nat) (f : Fld) (n : Nat) (h : f.lo ≤ f.hi) (k : f.hi ≤ 31) :
    (s.count a f n).fld a f = satAdd (f.hi + 1 - f.lo) (s.fld a f) n := by
  have hpos : 0 < 2 ^ (f.hi + 1 - f.lo) := by positivity
  have hlt : satAdd (f.hi + 1 - f.lo) (s.fld a f) n < 2 ^ (f.hi + 1 - f.lo) :=
    (min_le_left ..).trans_lt (Nat.sub_one_lt hpos.ne')
  exact (s.fld_put_same a f _ h k).trans (Nat.mod_eq_of_lt hlt)

/-- The captured word of a refused access gives back its parts (HIF_ACCESS_ERR_INFO). -/
theorem accessErrInfo_get (write : Bool) {kind sl len : Nat} (hk : kind < 4) (hs : sl < 256) (hl : len ≤ 8) :
    let w := w32 (2 ^ 31 + b2n write * 2 ^ 30 + kind * 2 ^ 27 + sl * 2 ^ 8 + len)
    F.hifAccessErrInfo_valid.get w = 1 ∧ F.hifAccessErrInfo_is_write.get w = b2n write ∧
      F.hifAccessErrInfo_kind.get w = kind := by
  have hb : b2n write ≤ 1 := by cases write <;> decide
  simp only [F.hifAccessErrInfo_valid, F.hifAccessErrInfo_is_write, F.hifAccessErrInfo_kind, Fld.get, bitsOf, w32,
    BitVec.toNat_ofNat]
  omega

theorem State.flag_count_accessErr (s : State) :
    (s.count R.hifAccessErrCount ⟨31, 0⟩).flag R.hifAccessErrInfo F.hifAccessErrInfo_valid =
      s.flag R.hifAccessErrInfo F.hifAccessErrInfo_valid :=
  congrArg (· != 0) (s.fld_put_other _ _ _ (by decide))

/-- A capture that is held stays: the access is only counted and told. -/
theorem State.logAccess_held {s : State} (write : Bool) (kind sl off len : Nat)
    (h : s.flag R.hifAccessErrInfo F.hifAccessErrInfo_valid = true) :
    s.logAccess write kind sl off len = (s.count R.hifAccessErrCount ⟨31, 0⟩).event 0x10 0 1 :=
  congrArg (fun u : State => u.event 0x10 0 1) (if_pos (s.flag_count_accessErr.trans h))

/-- Where no capture is held the access is captured as well. -/
theorem State.logAccess_captured {s : State} (write : Bool) (kind sl off len : Nat)
    (h : s.flag R.hifAccessErrInfo F.hifAccessErrInfo_valid = false) :
    s.logAccess write kind sl off len =
      (((s.count R.hifAccessErrCount ⟨31, 0⟩).wrN R.hifAccessErrInfo
        (2 ^ 31 + b2n write * 2 ^ 30 + kind * 2 ^ 27 + sl * 2 ^ 8 + (if len ≤ 8 then len else 0))).wrN
          R.hifAccessErrAddr off).event 0x10 0 1 :=
  congrArg (fun u : State => u.event 0x10 0 1) (if_neg (by rw [s.flag_count_accessErr, h]; decide))

/-- What the log of a refused access does to the state: it counts, and it keeps the capture that is held or takes one. -/
def AccessLogged (write : Bool) (kind : Nat) (s t : State) : Prop :=
  t.fld R.hifAccessErrCount ⟨31, 0⟩ = min (2 ^ 32 - 1) (s.fld R.hifAccessErrCount ⟨31, 0⟩ + 1) ∧
  (s.flag R.hifAccessErrInfo F.hifAccessErrInfo_valid = true →
    t.rd R.hifAccessErrInfo = s.rd R.hifAccessErrInfo ∧ t.rd R.hifAccessErrAddr = s.rd R.hifAccessErrAddr) ∧
  (s.flag R.hifAccessErrInfo F.hifAccessErrInfo_valid = false →
    t.flag R.hifAccessErrInfo F.hifAccessErrInfo_valid = true ∧
    t.flag R.hifAccessErrInfo F.hifAccessErrInfo_is_write = write ∧
    t.fld R.hifAccessErrInfo F.hifAccessErrInfo_kind = kind) ∧
  Tells [.hif, .wld, .cic, .freeCtr, .emits] [R.hifAccessErrCount, R.hifAccessErrInfo, R.hifAccessErrAddr]
    [pageBase 0x10 0] s t

/-- The event that tells of a refused access leaves the three registers of the log. -/
theorem State.rd_event_accessErr (s : State) {a : Nat}
    (h : a = R.hifAccessErrCount ∨ a = R.hifAccessErrInfo ∨ a = R.hifAccessErrAddr) : (s.event 0x10 0 1).rd a = s.rd a := by
  refine s.rd_event 0x10 0 1 a ?_
  obtain rfl | rfl | rfl := h <;> decide

theorem State.rd_logAccess_other (s : State) (write : Bool) (kind sl off len : Nat) {a : Nat}
    (ha : [R.hifAccessErrCount, R.hifAccessErrInfo, R.hifAccessErrAddr].contains a = false)
    (ht : told (pageBase 0x10 0) a = false) : (s.logAccess write kind sl off len).rd a = s.rd a := by
  have hne : a ≠ R.hifAccessErrCount ∧ a ≠ R.hifAccessErrInfo ∧ a ≠ R.hifAccessErrAddr := by simpa using ha
  obtain ⟨hcount, hinfo, haddr⟩ := hne
  have hcounted := s.rd_put_other ⟨31, 0⟩ (satAdd 32 (s.fld R.hifAccessErrCount ⟨31, 0⟩) 1) hcount
  cases hv : s.flag R.hifAccessErrInfo F.hifAccessErrInfo_valid with
  | true =>
    rw [State.logAccess_held write kind sl off len hv, State.rd_event _ _ _ _ _ ht]
    exact hcounted
  | false =>
    rw [State.logAccess_captured write kind sl off len hv, State.rd_event _ _ _ _ _ ht]
    exact (State.rd_wr_other _ _ haddr).trans ((State.rd_wr_other _ _ hinfo).trans hcounted)

theorem State.fld_logAccess_count (s : State) (write : Bool) (kind sl off len : Nat) :
    (s.logAccess write kind sl off len).fld R.hifAccessErrCount ⟨31, 0⟩ =
      min (2 ^ 32 - 1) (s.fld R.hifAccessErrCount ⟨31, 0⟩ + 1) := by
  refine Eq.trans ?_ (s.fld_count_same R.hifAccessErrCount ⟨31, 0⟩ 1 (by decide) (by decide))
  refine congrArg (Fld.get ⟨31, 0⟩) ?_
  cases hv : s.flag R.hifAccessErrInfo F.hifAccessErrInfo_valid with
  | true => rw [State.logAccess_held write kind sl off len hv, State.rd_event_accessErr _ (.inl rfl)]
  | false =>
    rw [State.logAccess_captured write kind sl off len hv, State.rd_event_accessErr _ (.inl rfl)]
    exact (State.rd_wr_other _ _ (by decide)).trans (State.rd_wr_other _ _ (by decide))

theorem State.rd_logAccess_held {s : State} (write : Bool) (kind sl off len : Nat) {a : Nat}
    (h : s.flag R.hifAccessErrInfo F.hifAccessErrInfo_valid = true) (ha : a = R.hifAccessErrInfo ∨ a = R.hifAccessErrAddr) :
    (s.logAccess write kind sl off len).rd a = s.rd a := by
  rw [State.logAccess_held write kind sl off len h, State.rd_event_accessErr _ (.inr ha)]
  refine s.rd_put_other _ _ ?_
  obtain rfl | rfl := ha <;> decide

theorem State.rd_logAccess_info {s : State} (write : Bool) (kind sl off len : Nat)
    (h : s.flag R.hifAccessErrInfo F.hifAccessErrInfo_valid = false) :
    (s.logAccess write kind sl off len).rd R.hifAccessErrInfo =
      w32 (2 ^ 31 + b2n write * 2 ^ 30 + kind * 2 ^ 27 + sl * 2 ^ 8 + (if len ≤ 8 then len else 0)) := by
  rw [State.logAccess_captured write kind sl off len h, State.rd_event_accessErr _ (.inr (.inl rfl))]
  exact (State.rd_wr_other _ _ (by decide)).trans (State.rd_wr_same ..)

theorem State.rd_logAccess_addr {s : State} (write : Bool) (kind sl off len : Nat)
    (h : s.flag R.hifAccessErrInfo F.hifAccessErrInfo_valid = false) :
    (s.logAccess write kind sl off len).rd R.hifAccessErrAddr = w32 off := by
  rw [State.logAccess_captured write kind sl off len h, State.rd_event_accessErr _ (.inr (.inr rfl))]
  exact State.rd_wr_same ..

theorem State.logAccess_logged (s : State) (write : Bool) {kind sl : Nat} (off len : Nat) (hk : kind < 4) (hs : sl < 256) :
    AccessLogged write kind s (s.logAccess write kind sl off len) := by
  refine ⟨s.fld_logAccess_count .., fun hv => ?held, fun hv => ?captured, (s.logAccess_keeps ..).weaken rfl,
    fun a ha ht => s.rd_logAccess_other write kind sl off len ha (by simpa using ht)⟩
  case held => exact ⟨State.rd_logAccess_held _ _ _ _ _ hv (.inl rfl), State.rd_logAccess_held _ _ _ _ _ hv (.inr rfl)⟩
  case captured =>
    have hlen : (if len ≤ 8 then len else 0) ≤ 8 := by split <;> omega
    obtain ⟨hvalid, hwrite, hkind⟩ := accessErrInfo_get write hk hs hlen
    unfold State.flag State.fld
    rw [State.rd_logAccess_info _ _ _ _ _ hv, hvalid, hwrite, hkind]
    exact ⟨rfl, by cases write <;> rfl, rfl⟩

theorem State.accessRefused_logged (s : State) (write : Bool) {kind : Nat} (off len : Nat) (hk : kind < 4) :
    AccessLogged write kind s (s.accessRefused write kind off len) :=
  s.logAccess_logged write off len hk (by split <;> omega)

/-- Taking the free value that stands for the offset (log 71) changes no register, so the log starts from those of `s`. -/
theorem State.poisonRefused_logged (s : State) (len : Nat) : AccessLogged true 1 s (s.poisonRefused len) := by
  obtain ⟨counted, held, captured, -, hrd⟩ := (s.free (2 ^ 26)).2.logAccess_logged true (s.free (2 ^ 26)).1 len
    (kind := 1) (sl := 0) (by decide) (by decide)
  exact ⟨counted, held, captured, (s.poisonRefused_keeps len).weaken rfl, hrd⟩

/-! ### The statement -/

/-- Settles O8: the checks of a write come one after another (log 27), and each refusal logs through `State.logAccess`. -/
theorem refusedAccessesAreLoggedAndChangeNothing : Obligations.RefusedAccessesAreLoggedAndChangeNothing := by
  unfold Obligations.RefusedAccessesAreLoggedAndChangeNothing
  refine ⟨fun p c off ty inst data poisoned s => ⟨fun hp h => ?absentHost, fun h => ?absentCore, fun hp h => ?page,
      fun ha hl hal hend => ?bar4, fun f hup hretry => ?config, fun ha hend ecc => ⟨fun hon hself => ?apertureOn,
        fun hoff => ?apertureOff⟩⟩,
    fun write kind off len s hk hoff => ?log⟩
  case absentHost => exact congrArg Host.Outcome.next (busWrite_host_absent (s := s.begin) hp h)
  case absentCore => exact congrArg Host.Outcome.next (busWrite_core_absent (s := s.begin) h)
  case page =>
    have passes (hsize : sizeOk true off data.length = true) :=
      busWrite_host_writeAt (s := s.begin) (poisoned := poisoned) hp h hsize
    refine ⟨fun hsize => ?badSize, fun hsize hpoison => ?poisoned, fun hsize hpoison hty hw => ?world1,
      fun hsize hpoison hty hblock hf => ?frozen⟩
    case badSize => exact congrArg Host.Outcome.next (busWrite_host_badSize (s := s.begin) hp h hsize)
    case poisoned =>
      subst hpoison
      rw [State.writeAt_host_poisoned] at passes
      exact congrArg Host.Outcome.next (passes hsize)
    case world1 =>
      subst hpoison
      rw [State.writeAt_host_world1 (s := s.begin) p inst data hty hw] at passes
      exact congrArg Host.Outcome.next (passes hsize)
    case frozen =>
      subst hpoison
      rw [State.writeAt_frozen (s := s.begin) (.host p) data hty hblock hf] at passes
      exact congrArg Host.Outcome.next (passes hsize)
  case bar4 => exact congrArg Host.Outcome.next (bar4Bus_poisoned (s := s.begin) data ha hl hal hend)
  case config => exact congrArg Host.Outcome.next (configBus_poisoned (s := s.begin) p f data.length data hup hretry)
  case apertureOn =>
    have hopen : (!s.flag R.hifAperCtrl F.hifAperCtrl_enable || s.dmc.selfRefresh) = false := by rw [hon, hself]; rfl
    exact congrArg Host.Outcome.next
      ((doBar2_poisoned (s := s.begin) ecc ha hend).trans (if_neg (ne_true_of_eq_false hopen)))
  case apertureOff =>
    have hclosed : (!s.flag R.hifAperCtrl F.hifAperCtrl_enable || s.dmc.selfRefresh) = true := by rw [hoff]; rfl
    exact congrArg Host.Outcome.next ((doBar2_poisoned (s := s.begin) ecc ha hend).trans (if_pos hclosed))
  case log =>
    refine ⟨s.accessRefused_logged write off len hk, s.poisonRefused_logged len, fun hv => ?_⟩
    calc (s.accessRefused write kind off len).num R.hifAccessErrAddr
        = (w32 off).toNat := congrArg BitVec.toNat (State.rd_logAccess_addr _ _ _ _ _ hv)
      _ = off % 2 ^ 32 := BitVec.toNat_ofNat ..
      _ = off := Nat.mod_eq_of_lt hoff

end Sys2Proof.Machine
end
